-- ==== Sys2Proof/Word.lean ====
section
/-! DEFINITION. The machine's word types (00_scope.md R19 to R21) and the sparse tables in which State holds what is many. -/

namespace Sys2Proof

abbrev Byte := BitVec 8
/-- A 32-bit word: a register word or a token's DATA (R21, R46). -/
abbrev Word := BitVec 32
/-- A 64-bit operand or register value. -/
abbrev Dword := BitVec 64
/-- A crossing number, 48 bits (R10). -/
abbrev CN := BitVec 48

/-- A sparse table: keys strictly rising. What an unlisted key reads as is said where the table is read. -/
abbrev Tbl (α : Type) := List (Nat × α)

end Sys2Proof
end

