-- ==== Sys2Proof/Syntax.lean ====
section
/-! DEFINITION. The commands of the block: one constructor per row of spec/opcode_table.json, with the row's operands.
A mailbox command (15_binnacle_mailboxes.md R407) carries the fields of its 64-byte header (R402), its fixed operands of
64 bits each in the order of R407 (R403), and its list as bytes. What only the world outside can decide (received bits,
measurements, levels) stands in the operands. -/

namespace Sys2Proof

/-- Who makes a register access (16_registers_and_host.md R437, R448). -/
inductive Requester where
  | host
  | binnacle
deriving DecidableEq, Repr

/-- The sources the clock monitors watch (17_clocks_resets_power.md R464). -/
inductive ClkSrc where
  | mclk
  | lrefclk
  | crystal
deriving DecidableEq, Repr

/-- The header of a command buffer (R402): mailbox, TAG, LEN as declared, ACN, the flags AT and REL, and whether any
other bit of FLAGS or byte of bytes 15 to 63 is not zero. -/
structure CmdHdr where
  mbx  : Nat
  tag  : Word
  len  : Nat
  acn  : CN
  at_  : Bool
  rel  : Bool
  rsvd : Bool
deriving DecidableEq, Repr

/-- A written word and who writes it (16_registers_and_host.md R433, R448). -/
structure RegWrite where
  req : Requester
  val : Word
deriving DecidableEq, Repr

/-- The words of BAR0 that a read takes: the first one's offset and their number (16_registers_and_host.md R433). -/
structure RegSpan where
  off   : Nat
  words : Nat
deriving DecidableEq, Repr

/-- The commands (spec/opcode_table.json). -/
inductive Instr where
  /-- ADMIT (15 R407). -/
  | admitImage (h : CmdHdr) (slot src offset length : Dword)
  /-- EVICT (15 R407). -/
  | evict (h : CmdHdr) (slot : Dword)
  /-- LIBQUERY (15 R407). -/
  | libquery (h : CmdHdr) (slot : Dword)
  /-- ARM (15 R407). -/
  | arm (h : CmdHdr) (slot pl seed seedv debug : Dword)
  /-- STOP (15 R407). -/
  | stop (h : CmdHdr)
  /-- PAUSE (15 R407). -/
  | pause (h : CmdHdr)
  /-- RESUME (15 R407). -/
  | resume (h : CmdHdr)
  /-- FILL (15 R407). -/
  | fill (h : CmdHdr) (slot : Dword)
  /-- CANCEL (15 R407). -/
  | cancel (h : CmdHdr)
  /-- SWITCH (15 R407). -/
  | switch (h : CmdHdr)
  /-- TLOAD (15 R407). -/
  | tload (h : CmdHdr) (tid faces offset length : Dword)
  /-- TWRITE (15 R407). -/
  | twrite (h : CmdHdr) (tid offset nrows : Dword)
  /-- TSWAP (15 R407). -/
  | tswap (h : CmdHdr) (tid : Dword)
  /-- WGMCOMMIT (15 R407). -/
  | wgmcommit (h : CmdHdr) (clear count : Dword) (lst : List Byte)
  /-- CTXCOMMIT (15 R407). -/
  | ctxcommit (h : CmdHdr) (count : Dword) (lst : List Byte)
  /-- LANECOMMIT (15 R407). -/
  | lanecommit (h : CmdHdr) (lane cnofs flim : Dword)
  /-- CAPARM (15 R407). -/
  | caparm (h : CmdHdr) (pre post lanes bcnen acclat ctl : Dword)
  /-- CAPTRIG (15 R407). -/
  | captrig (h : CmdHdr)
  /-- CAPDRAIN (15 R407). -/
  | capdrain (h : CmdHdr) (dest haddr : Dword)
  /-- CAPRELEASE (15 R407). -/
  | caprelease (h : CmdHdr)
  /-- BCNLOAD (15 R407). -/
  | bcnload (h : CmdHdr) (beacon base len min ctl : Dword) (lst : List Byte)
  /-- ENVLOAD (15 R407). -/
  | envload (h : CmdHdr) (quay first count : Dword) (lst : List Byte)
  /-- LOGSTART (15 R407). -/
  | logstart (h : CmdHdr) (mode lanes atArm : Dword) (lst : List Byte)
  /-- LOGSTOP (15 R407). -/
  | logstop (h : CmdHdr)
  /-- REPLAY (15 R407). -/
  | replay (h : CmdHdr) (slot offset partialR debug : Dword)
  /-- PAIRCFG (15 R407). -/
  | paircfg (h : CmdHdr) (mode pairid pref mr autorst : Dword)
  /-- YIELD (15 R407). -/
  | yield (h : CmdHdr)
  /-- REJOIN (15 R407). -/
  | rejoin (h : CmdHdr) (src : Dword)
  /-- TIMESVC (15 R407). -/
  | timesvc (h : CmdHdr) (enable domain hubmask : Dword)
  /-- TLAUNCH (15 R407). -/
  | tlaunch (h : CmdHdr) (lane timeLo timeHi : Dword) (lst : List Byte)
  /-- TMAP (15 R407). -/
  | tmap (h : CmdHdr) (cn : Dword)
  /-- DESKEW (15 R407). -/
  | deskew (h : CmdHdr) (first count ref window : Dword)
  /-- PEDESTAL (15 R407). -/
  | pedestal (h : CmdHdr) (first count : Dword)
  /-- HISTO (15 R407). -/
  | histo (h : CmdHdr) (target samples : Dword)
  /-- EYESCAN (15 R407). -/
  | eyescan (h : CmdHdr) (lane dwell ethr haddr : Dword)
  /-- LANETUNE (15 R407). -/
  | lanetune (h : CmdHdr) (lane : Dword)
  /-- LANEALIGN (15 R407). -/
  | lanealign (h : CmdHdr)
  /-- LANEIDLE (15 R407). -/
  | laneidle (h : CmdHdr) (lane enter : Dword)
  /-- HEALTH (15 R407). -/
  | health (h : CmdHdr) (first : Dword)
  /-- SLEEP (15 R407). -/
  | sleep (h : CmdHdr) (st : Dword)
  /-- PERFLEVEL (15 R407). -/
  | perflevel (h : CmdHdr) (pl : Dword)
  /-- ATTEST (15 R407). -/
  | attest (h : CmdHdr) (nonceLo nonceHi : Dword)
  /-- OWNERUPD (15 R407). -/
  | ownerupd (h : CmdHdr) (offset length : Dword)
  /-- MGMTSEND (15 R407). -/
  | mgmtsend (h : CmdHdr) (lane : Dword) (lst : List Byte)
  /-- UNLISTED_OPCODE_COMMAND (R405): a mailbox command whose OPCODE is not in R407. -/
  | unlistedOpcodeCommand (h : CmdHdr) (opcode : BitVec 16) (lst : List Byte)
  /-- ADMISSION_COMPLETE (R183). -/
  | admissionComplete
  /-- RUN_START (R131, R185). -/
  | runStart
  /-- RUN_STOP_EFFECT (R13). -/
  | runStopEffect
  /-- PAUSE_START (R386). -/
  | pauseStart
  /-- PAUSED (R386). -/
  | paused
  /-- RESUME_EFFECT (R388; ready: whether the plane writes, the padding and the loaded training were complete one crossing before Q). -/
  | resumeEffect (ready : Bool)
  /-- RUN_FILL_END (R156). -/
  | runFillEnd
  /-- LOADED_TRAINING_COMPLETE (R232). -/
  | loadedTrainingComplete
  /-- FILL_COMPLETE (R188). -/
  | fillComplete
  /-- WAYPOINT_INJECTION (R192). -/
  | waypointInjection
  /-- WAYPOINT_ARRIVAL (R196: at cell (x, y)). -/
  | waypointArrival (x : Nat) (y : Nat)
  /-- SEAM (R193: of cell (x, y)). -/
  | seam (x : Nat) (y : Nat)
  /-- SWITCH_COMPLETE (R199). -/
  | switchComplete
  /-- TABLE_WRITE_COMPLETE (R225). -/
  | tableWriteComplete (tid : Nat)
  /-- SWAP_EFFECT (R237). -/
  | swapEffect (tid : Nat)
  /-- CATCH_UP (R238). -/
  | catchUp (tid : Nat)
  /-- WGM_COMMIT_APPLY (R142). -/
  | wgmCommitApply
  /-- CONTEXT_COMMIT_APPLY (R257). -/
  | contextCommitApply
  /-- CNOFS_APPLY (R304). -/
  | cnofsApply (lane : Nat)
  /-- CAPTURE_ARM_APPLY (R264). -/
  | captureArmApply
  /-- KLOWYN_TRIGGER (R266). -/
  | klowynTrigger
  /-- DRAIN_COMPLETE (R268). -/
  | drainComplete
  /-- BEACON_LOAD_APPLY (R277). -/
  | beaconLoadApply
  /-- ENVELOPE_LOAD_APPLY (R273). -/
  | envelopeLoadApply
  /-- LOGBOOK_START (R390). -/
  | logbookStart
  /-- TIME_LAUNCH (R371; phase: sixteenths of a nanosecond of the egress edge (R364)). -/
  | timeLaunch (lane : Nat) (phase : BitVec 4)
  /-- EYESCAN_COMPLETE (R302; counts: the error counts the scan found). -/
  | eyescanComplete (lane : Nat) (counts : List (BitVec 32))
  /-- SLEEP_REACHED (R476). -/
  | sleepReached
  /-- WAKE, by the host driver (R477). -/
  | wake
  /-- WOKE (R477). -/
  | woke
  /-- LEVEL_CHANGE_COMPLETE (R474). -/
  | levelChangeComplete
  /-- MANIFEST_RUN (R420). -/
  | manifestRun
  /-- AUTO_RESTART (R353). -/
  | autoRestart
  /-- NOP: cell (x, y) issues in this tick (03 R86, 02 R57). -/
  | nop (x y : Nat)
  /-- MACD: cell (x, y) issues in this tick (03 R86, 02 R57). -/
  | macd (x y : Nat)
  /-- MACDZ: cell (x, y) issues in this tick (03 R86, 02 R57). -/
  | macdz (x y : Nat)
  /-- MACV: cell (x, y) issues in this tick (03 R86, 02 R57). -/
  | macv (x y : Nat)
  /-- MACVZ: cell (x, y) issues in this tick (03 R86, 02 R57). -/
  | macvz (x y : Nat)
  /-- ACCADD: cell (x, y) issues in this tick (03 R86, 02 R57). -/
  | accadd (x y : Nat)
  /-- ACCSUB: cell (x, y) issues in this tick (03 R86, 02 R57). -/
  | accsub (x y : Nat)
  /-- ACCLD: cell (x, y) issues in this tick (03 R86, 02 R57). -/
  | accld (x y : Nat)
  /-- ACCCLR: cell (x, y) issues in this tick (03 R86, 02 R57). -/
  | accclr (x y : Nat)
  /-- ACCMAX: cell (x, y) issues in this tick (03 R86, 02 R57). -/
  | accmax (x y : Nat)
  /-- ACCMIN: cell (x, y) issues in this tick (03 R86, 02 R57). -/
  | accmin (x y : Nat)
  /-- RQS: cell (x, y) issues in this tick (03 R86, 02 R57). -/
  | rqs (x y : Nat)
  /-- RQV: cell (x, y) issues in this tick (03 R86, 02 R57). -/
  | rqv (x y : Nat)
  /-- RQVC: cell (x, y) issues in this tick (03 R86, 02 R57). -/
  | rqvc (x y : Nat)
  /-- LUTV8: cell (x, y) issues in this tick (03 R86, 02 R57). -/
  | lutv8 (x y : Nat)
  /-- LUTV4: cell (x, y) issues in this tick (03 R86, 02 R57). -/
  | lutv4 (x y : Nat)
  /-- LUTS: cell (x, y) issues in this tick (03 R86, 02 R57). -/
  | luts (x y : Nat)
  /-- LUTI: cell (x, y) issues in this tick (03 R86, 02 R57). -/
  | luti (x y : Nat)
  /-- CMPLT: cell (x, y) issues in this tick (03 R86, 02 R57). -/
  | cmplt (x y : Nat)
  /-- CMPLE: cell (x, y) issues in this tick (03 R86, 02 R57). -/
  | cmple (x y : Nat)
  /-- CMPEQ: cell (x, y) issues in this tick (03 R86, 02 R57). -/
  | cmpeq (x y : Nat)
  /-- CMPLTU: cell (x, y) issues in this tick (03 R86, 02 R57). -/
  | cmpltu (x y : Nat)
  /-- SEL: cell (x, y) issues in this tick (03 R86, 02 R57). -/
  | sel (x y : Nat)
  /-- MIN: cell (x, y) issues in this tick (03 R86, 02 R57). -/
  | min_ (x y : Nat)
  /-- MAX: cell (x, y) issues in this tick (03 R86, 02 R57). -/
  | max_ (x y : Nat)
  /-- CX: cell (x, y) issues in this tick (03 R86, 02 R57). -/
  | cx (x y : Nat)
  /-- VMAX: cell (x, y) issues in this tick (03 R86, 02 R57). -/
  | vmax (x y : Nat)
  /-- VMIN: cell (x, y) issues in this tick (03 R86, 02 R57). -/
  | vmin (x y : Nat)
  /-- HMAX: cell (x, y) issues in this tick (03 R86, 02 R57). -/
  | hmax (x y : Nat)
  /-- ABS: cell (x, y) issues in this tick (03 R86, 02 R57). -/
  | abs_ (x y : Nat)
  /-- AND: cell (x, y) issues in this tick (03 R86, 02 R57). -/
  | and_ (x y : Nat)
  /-- OR: cell (x, y) issues in this tick (03 R86, 02 R57). -/
  | or_ (x y : Nat)
  /-- XOR: cell (x, y) issues in this tick (03 R86, 02 R57). -/
  | xor_ (x y : Nat)
  /-- ANDN: cell (x, y) issues in this tick (03 R86, 02 R57). -/
  | andn (x y : Nat)
  /-- SHL: cell (x, y) issues in this tick (03 R86, 02 R57). -/
  | shl (x y : Nat)
  /-- SHR: cell (x, y) issues in this tick (03 R86, 02 R57). -/
  | shr (x y : Nat)
  /-- SAR: cell (x, y) issues in this tick (03 R86, 02 R57). -/
  | sar (x y : Nat)
  /-- POPC: cell (x, y) issues in this tick (03 R86, 02 R57). -/
  | popc (x y : Nat)
  /-- MOV: cell (x, y) issues in this tick (03 R86, 02 R57). -/
  | mov (x y : Nat)
  /-- BCAST: cell (x, y) issues in this tick (03 R86, 02 R57). -/
  | bcast (x y : Nat)
  /-- UNPK: cell (x, y) issues in this tick (03 R86, 02 R57). -/
  | unpk (x y : Nat)
  /-- ALMANAC_LOOKUP_SLOT (R228; noise: the bits of the stored line and code that read wrong). -/
  | almanacLookupSlot (sub : Nat) (pos : Nat) (noise : BitVec 288)
  /-- SRAM_READ (R216: the read of one key of one request; noise as above). -/
  | sramRead (req : Nat) (key : Nat) (noise : BitVec 288)
  /-- ALMANAC_RESULT (R207). -/
  | almanacResult (req : Nat)
  /-- WRITE_CLASS_SLOT (R224). -/
  | writeClassSlot (sub : Nat) (pos : Nat)
  /-- REFRESH_SLOT (R223). -/
  | refreshSlot (sub : Nat)
  /-- RETRAINING_STEP (R233; the eye width and height measured). -/
  | retrainingStep (sub : Nat) (pos : Nat) (width : BitVec 8) (height : BitVec 8)
  /-- CROSSING_START (R10). -/
  | crossingStart
  /-- CODEWORD_RECEIVE (R284; the 173 received symbols). -/
  | codewordReceive (lane : Nat) (syms : List Nat)
  /-- ALIGNMENT_MARKER (R288; the marker's payload, and the blocks since the marker before it). -/
  | alignmentMarker (lane : Nat) (payload : Dword) (gap : Nat)
  /-- LOCK_LOSS (R286). -/
  | lockLoss (lane : Nat)
  /-- TRAINING_BURST (R303). -/
  | trainingBurst (lane : Nat)
  /-- CROSSING_FRAME_RECEIVE (R287). -/
  | crossingFrameReceive (lane : Nat)
  /-- FRAME_RELEASE (R291). -/
  | frameRelease (lane : Nat)
  /-- SEXTANT_MEASUREMENT (R301; open phases and open levels found). -/
  | sextantMeasurement (lane : Nat) (width : BitVec 8) (height : BitVec 8)
  /-- CHANNEL_STAGE (R251). -/
  | channelStage
  /-- AVERAGING_BLOCK_COMPLETE (R275). -/
  | averagingBlockComplete (ctx : Nat)
  /-- WAKE_BUFFER_FREEZE (R267). -/
  | wakeBufferFreeze
  /-- WGM_DERIVATION (R130). -/
  | wgmDerivation
  /-- SCALE_APPLY (R99). -/
  | scaleApply
  /-- OUTPUT_ASSEMBLY (R33). -/
  | outputAssembly
  /-- FDEC_DRIVE (R29). -/
  | fdecDrive
  /-- HUB_FRAME_TRANSMIT (R320; phase of the egress stamp (R364)). -/
  | hubFrameTransmit (lane : Nat) (phase : BitVec 4)
  /-- CHAIN_FRAME_TRANSMIT (R311). -/
  | chainFrameTransmit (lane : Nat)
  /-- HUB_PACKET_RECEIVE (R322; lost: a block of the packet was lost). -/
  | hubPacketReceive (lane : Nat) (bytes : List Byte) (lost : Bool) (phase : BitVec 4)
  /-- MIRROR_FRAME_SEND (R336). -/
  | mirrorFrameSend
  /-- MIRROR_FRAME_RELEASE (R340). -/
  | mirrorFrameRelease
  /-- MIRROR_LANE_DROP (R351: mirror lane i). -/
  | mirrorLaneDrop (i : Nat)
  /-- TAKEOVER (R343). -/
  | takeover
  /-- REBASE_LATCH (R348). -/
  | rebaseLatch
  /-- REBASE (R348). -/
  | rebase
  /-- JOINED (R349). -/
  | joined
  /-- ORBIT_MARKER (R366). -/
  | orbitMarker (phase : BitVec 4)
  /-- ORBIT_ZERO (R11). -/
  | orbitZero (phase : BitVec 4)
  /-- EXTERNAL_ACCEPT (R265). -/
  | externalAccept
  /-- CCMD_IDLE (R512). -/
  | ccmdIdle
  /-- CCMD_INVALID (R512). -/
  | ccmdInvalid (word : Byte)
  /-- PPS_IN (R374). -/
  | ppsIn (phase : BitVec 4)
  /-- PULSE_EDGE (R372). -/
  | pulseEdge (p : Nat)
  /-- PULSE_WIDTH_END (R372). -/
  | pulseWidthEnd (p : Nat)
  /-- PPS_OUT_EDGE (R374). -/
  | ppsOutEdge
  /-- PPS_OUT_WIDTH_END (R374). -/
  | ppsOutWidthEnd
  /-- CHR_ARM, by the host (R361); Klowyn's stands under REGISTER_WRITE. -/
  | chrArm
  /-- CHR_STEP_COMMIT (R362). -/
  | chrStepCommit (req : Requester)
  /-- CHR_RATE_COMMIT (R357). -/
  | chrRateCommit (req : Requester)
  /-- CHR_MODE_CHANGE (R356; the word written to CHR_CFG). -/
  | chrModeChange (w : RegWrite)
  /-- PULSE_COMMIT (R372). -/
  | pulseCommit (req : Requester) (p : Nat)
  /-- STAGED_WRITE (R445). -/
  | stagedWrite (req : Requester) (off : Nat) (val : Word)
  /-- CIG_COMMIT (R454). -/
  | cigCommit (req : Requester)
  /-- CIG_LEARN (R454). -/
  | cigLearn (req : Requester)
  /-- CIG_PASS (R453). -/
  | cigPass
  /-- CLK_GATE_WRITE (R462). -/
  | clkGateWrite (w : RegWrite)
  /-- CLEAR_ALIAS_WRITE (R440). -/
  | clearAliasWrite (off : Nat) (w : RegWrite)
  /-- LOW_WORD_READ (R437; a read of 1 to 16 words (R433)). -/
  | lowWordRead (req : Requester) (at_ : RegSpan)
  /-- BIT_ALIAS_WRITE (R443). -/
  | bitAliasWrite (off : Nat) (w : RegWrite)
  /-- REGISTER_WRITE (R436; 1 to 16 words; whole: the byte enables cover every word (R433)). -/
  | registerWrite (req : Requester) (off : Nat) (vals : List Word) (whole : Bool)
  /-- BAR4_READ (R431; noise: one error pattern per line read). -/
  | bar4Read (off : Nat) (len : Nat) (noise : List (BitVec 288))
  /-- BAR4_WRITE (R432). -/
  | bar4Write (off : Nat) (bytes : List Byte)
  /-- CONFIG_REQUEST (R424). -/
  | configRequest (reg : Nat) (wr : Option Word)
  /-- PERST_N (R426). -/
  | perstN
  /-- FUNCTION_LEVEL_RESET (R426). -/
  | functionLevelReset
  /-- D3HOT_ENTRY (R426). -/
  | d3hotEntry
  /-- RESET_ASSERT (R472). -/
  | resetAssert
  /-- POWER_UP (R471; the strap levels). -/
  | powerUp (oscDly : BitVec 2)
  /-- PWR_GOOD_DEASSERT (R517). -/
  | pwrGoodDeassert
  /-- OSC_DELAY_EXPIRY (R461). -/
  | oscDelayExpiry (xtalOk : Bool)
  /-- BOOT_ROM_START (R485; the step at which a flash read failed, if any, and the content with which the PUF SRAM powers up (R495)). -/
  | bootRomStart (flashErr : Option Nat) (puf : List Byte)
  /-- RAIL_TIMEOUT (R471). -/
  | railTimeout (rail : Nat)
  /-- KLOWYN_REBOOT (R489). -/
  | klowynReboot (flashErr : Option Nat)
  /-- WATCHDOG_EXPIRY (R470). -/
  | watchdogExpiry
  /-- MCLK_MONITOR_FAIL (R466). -/
  | mclkMonitorFail
  /-- LREFCLK_MONITOR_FAIL (R466). -/
  | lrefclkMonitorFail
  /-- CRYSTAL_MONITOR_FAIL (R467). -/
  | crystalMonitorFail
  /-- MONITOR_RECOVERY (R466; the source, and for MCLK its measured frequency in units of 10 Hz). -/
  | monitorRecovery (src : ClkSrc) (freq : Nat)
  /-- RAIL_TELEMETRY (R475; VFLD0 to VFLD3, VQ, VQIO, VLA, VLH, VDD1, VDD2, VDDQ, VBN, VBIO (R503); whether it reports a fault). -/
  | railTelemetry (rail : Nat) (mv : Nat) (fault : Bool)
  /-- TEMPERATURE_READ (R417; the 21 sensors in whole degrees: Fields 0 to 15, Quays 16 to 19, Binnacle 20). -/
  | temperatureRead (temps : List Int)
  /-- THERMAL_CHECK (R520; the 21 sensors as above). -/
  | thermalCheck (temps : List Int)
  /-- THERMAL_RECOVERY (R521). -/
  | thermalRecovery
  /-- TABLE_LOAD_COMPLETE (R235). -/
  | tableLoadComplete (tid : Nat)
deriving DecidableEq, Repr

end Sys2Proof
end

