-- ==== Sys2Proof/Machine/Arith.lean ====
section
/-! DEFINITION. The exact results of the cell operations (03_cell_arithmetic.md): formats and lanes, multiply-accumulate,
the requantiser, the stochastic-rounding draw, lookups, compares, bitwise operations and moves. No function here reads
State: each takes the operand words, the micro-instruction and the registers of one cell. -/

namespace Sys2Proof.Machine

/-- The operand formats (02 R52). -/
inductive Fmt where
  | int4 | int8 | int16 | ternary | word
deriving DecidableEq, Repr

/-- FMT (R52); 0b101 to 0b111 are reserved. -/
def fmtOf (b : BitVec 3) : Option Fmt :=
  match b.toNat with
  | 0 => some .int4 | 1 => some .int8 | 2 => some .int16 | 3 => some .ternary | 4 => some .word | _ => none

/-- Bits of one lane (R83). -/
def Fmt.width : Fmt → Nat
  | .int4 => 4 | .int8 => 8 | .int16 => 16 | .ternary => 2 | .word => 32

/-- Lanes of one word (R83). -/
def Fmt.lanes : Fmt → Nat
  | .int4 => 8 | .int8 => 4 | .int16 => 2 | .ternary => 16 | .word => 1

/-- Lane i of a word packed in lanes of w bits, signed (R83). -/
def lane (v : Word) (w i : Nat) : Int := (v.extractLsb' (w * i) w).toInt

/-- All lanes of a word, lowest first. -/
def lanesOf (v : Word) (f : Fmt) : List Int := (List.range f.lanes).map (lane v f.width)

/-- Packs lane values, lowest first, in lanes of w bits (R83). -/
def packLanes (w : Nat) : List Int → Word
  | [] => 0
  | v :: vs => (packLanes w vs <<< w) ||| (BitVec.ofInt w v).setWidth 32

/-- A ternary weight lane: 0b01 is +1, 0b11 is -1, else 0 (R84). -/
def ternLane (v : Word) (j : Nat) : Int :=
  match (v.extractLsb' (2 * j) 2).toNat with
  | 1 => 1 | 3 => -1 | _ => 0

/-- sat(v, w) of R85. -/
def satTo (w : Nat) (v : Int) : Int := max (-(2 ^ (w - 1))) (min v (2 ^ (w - 1) - 1))

/-- sat32 of R85. -/
def sat32 (v : Int) : Int := satTo 32 v

/-- A signed value as a 32-bit word. -/
def wordOfInt (v : Int) : Word := BitVec.ofInt 32 v

/-- |v| as a 32-bit unsigned magnitude (R115). -/
def magnitude (v : Int) : Nat := v.natAbs

/-! ### The micro-instruction (R50) -/

/-- A micro-instruction: one 96-bit plane entry (R50). -/
abbrev MInstr := BitVec 96

def MInstr.opc (e : MInstr) : Nat := (e.extractLsb' 90 6).toNat
def MInstr.fmt (e : MInstr) : BitVec 3 := e.extractLsb' 87 3
def MInstr.srcA (e : MInstr) : Nat := (e.extractLsb' 83 4).toNat
def MInstr.srcB (e : MInstr) : Nat := (e.extractLsb' 79 4).toNat
def MInstr.addrA (e : MInstr) : Nat := (e.extractLsb' 71 8).toNat
def MInstr.addrW (e : MInstr) : Nat := (e.extractLsb' 63 8).toNat
def MInstr.acc (e : MInstr) : Nat := (e.extractLsb' 60 3).toNat
def MInstr.dst (e : MInstr) : Nat := (e.extractLsb' 57 3).toNat
def MInstr.addrD (e : MInstr) : Nat := (e.extractLsb' 49 8).toNat
def MInstr.pop (e : MInstr) : BitVec 8 := e.extractLsb' 41 8
/-- The pop bit of port p in the order N, E, S, W, XN, XE, XS, XW ([48] down to [41]). -/
def MInstr.pops (e : MInstr) (p : Nat) : Bool := e.getLsbD (48 - p)
def MInstr.rtN (e : MInstr) : Nat := (e.extractLsb' 37 4).toNat
def MInstr.rtE (e : MInstr) : Nat := (e.extractLsb' 33 4).toNat
def MInstr.rtS (e : MInstr) : Nat := (e.extractLsb' 29 4).toNat
def MInstr.rtW (e : MInstr) : Nat := (e.extractLsb' 25 4).toNat
def MInstr.rtXH (e : MInstr) : Nat := (e.extractLsb' 21 4).toNat
def MInstr.xhDir (e : MInstr) : Bool := e.getLsbD 20
def MInstr.rtXV (e : MInstr) : Nat := (e.extractLsb' 16 4).toNat
def MInstr.xvDir (e : MInstr) : Bool := e.getLsbD 15
def MInstr.rqs (e : MInstr) : Nat := (e.extractLsb' 11 4).toNat
def MInstr.rnd (e : MInstr) : Nat := (e.extractLsb' 9 2).toNat
def MInstr.satw (e : MInstr) : Nat := (e.extractLsb' 7 2).toNat
def MInstr.tagOut (e : MInstr) : Nat := (e.extractLsb' 5 2).toNat
def MInstr.maxabs (e : MInstr) : Bool := e.getLsbD 4
def MInstr.last (e : MInstr) : Bool := e.getLsbD 3
def MInstr.cond (e : MInstr) : Nat := (e.extractLsb' 0 3).toNat

/-- The routes of a micro-instruction as (output port, source code) (R50, R51): N, E, S, W, then the horizontal and the
vertical express output as their direction bits select them. -/
def MInstr.routes (e : MInstr) : List (Nat × Nat) :=
  [(0, e.rtN), (1, e.rtE), (2, e.rtS), (3, e.rtW),
   (if e.xhDir then 7 else 5, e.rtXH), (if e.xvDir then 6 else 4, e.rtXV)]

/-- The loop's no-operation entry with LAST set (R59): OPC 0x00, FMT Word. -/
def MInstr.idle : MInstr := (4 : BitVec 96) <<< 87 ||| 8

/-- LEN of a plane (R58): one more than the index of the first entry whose LAST bit is 1, if any. -/
def loopLen (plane : List MInstr) : Option Nat :=
  (plane.findIdx? MInstr.last).map (· + 1)

/-! ### Requantiser parameter sets (R95) -/

def rqM (p : Word) : Int := (p.extractLsb' 16 16).toInt
def rqS (p : Word) : Nat := (p.extractLsb' 10 6).toNat
def rqTvalid (p : Word) : Bool := p.getLsbD 9
def rqTensor (p : Word) : Nat := (p.extractLsb' 3 6).toNat
def rqWgm (p : Word) : Bool := p.getLsbD 2
/-- A set with M and S replaced (the only fields the Weighmaster writes, R96). -/
def rqWithMS (p : Word) (m : BitVec 16) (s : BitVec 6) : Word :=
  m ++ s ++ p.extractLsb' 0 10

/-- The requantiser's width of SATW (R97). -/
def satWidth (satw : Nat) : Nat := match satw with | 0 => 4 | 1 => 8 | _ => 16

/-! ### The stochastic-rounding generator (R101 to R104) -/

def drawMix (z0 : Dword) : Dword :=
  let z1 := z0 ^^^ (z0 >>> 32)
  let z2 := z1 * 0xB7E151628AED2A6B#64
  let z3 := z2 ^^^ (z2 >>> 29)
  let z4 := z3 * 0xE3A61C4F58B9D02D#64
  z4 ^^^ (z4 >>> 32)

/-- The draw of R102. -/
def draw (seed : Dword) (cn : CN) (x y k ln : Nat) : Dword :=
  let c0 : Dword := (cn.setWidth 64 <<< 16) ||| (BitVec.ofNat 64 k <<< 8) ||| BitVec.ofNat 64 ln
  let c1 : Dword := (BitVec.ofNat 64 x <<< 32) ||| (BitVec.ofNat 64 y <<< 16) ||| 0x6B2E#64
  let z := drawMix (seed ^^^ 0x9E3779B97F4A7C15#64)
  let z := drawMix (z ^^^ c0)
  let z := drawMix (z ^^^ c1)
  drawMix (z ^^^ c0 ^^^ 0x71D64A93C08E25F7#64)

/-- q of R98: p ÷ 2^s rounded as RND says; r is the draw's word. -/
def rqRound (rnd : Nat) (p : Int) (s : Nat) (r : Dword) : Int :=
  if s = 0 then p else
  match rnd with
  | 0 =>
    let q := p.fdiv (2 ^ s)
    let rem := p - q * 2 ^ s
    if rem > 2 ^ (s - 1) ∨ (rem = 2 ^ (s - 1) ∧ q.fmod 2 ≠ 0) then q + 1 else q
  | 1 => p.fdiv (2 ^ s)
  | _ => (p + (r.toNat % 2 ^ s : Nat)).fdiv (2 ^ s)

/-- rq of R98: the value, and the saturation flag. -/
def requantise (rnd w : Nat) (x m : Int) (s : Nat) (r : Dword) : Int × Bool :=
  let q := rqRound rnd (x * m) s r
  (satTo w q, decide (q < -(2 ^ (w - 1)) ∨ q > 2 ^ (w - 1) - 1))

/-! ### One operation's inputs and effects -/

/-- What an operation reads: the micro-instruction, the operands, the cell's accumulators, hold registers, flag, parameter
sets and active weight plane as they stood at the start of the tick (R57), and the keys of the draw (R101). -/
structure OpIn where
  e : MInstr
  a : Word
  b : Word
  acc : Nat → Word
  hold : Nat → Word
  f : Bool
  rq : Nat → Word
  wgt : Nat → Word
  seed : Dword
  cn : CN
  x : Nat
  y : Nat
  k : Nat

/-- What an operation gives: its result (R87), the accumulators a multiply-accumulate writes, the destination's value
where it differs from the result (CX, R111), the new F, the MAXABS magnitude (R115) and the saturated parameter sets
(R100). -/
structure OpOut where
  res : Option Word := none
  accs : List (Nat × Word) := []
  dest : Option Word := none
  f : Option Bool := none
  report : Nat := 0
  sats : List Nat := []

def OpIn.fmtD (i : OpIn) : Fmt := (fmtOf i.e.fmt).getD .word

/-- The magnitude of a word read as a signed number (R115). -/
def wordMag (w : Word) : Nat := magnitude w.toInt

/-- The largest magnitude of a list of lane values (R115). -/
def maxMag (l : List Int) : Nat := (l.map magnitude).foldl max 0

/-! ### Multiply-accumulate and accumulator moves (R90 to R93) -/

/-- The exact dot product of R90. -/
def macDot (i : OpIn) : Int :=
  match i.fmtD with
  | .ternary => ((List.range 16).map fun j => lane (i.hold (j / 4)) 8 (j % 4) * ternLane i.b j).sum
  | .int16 => lane i.a 16 (i.e.addrD % 2) * lane i.b 16 (i.e.addrD % 2)
  | f => ((List.range f.lanes).map fun j => lane i.a f.width j * lane i.b f.width j).sum

/-- An operation that writes the one accumulator named by ACC. -/
def accOut (i : OpIn) (v : Word) : OpOut :=
  { res := some v, accs := [(i.e.acc, v)], report := wordMag v }

/-- MACD (R90). -/
def opMacd (i : OpIn) : OpOut := accOut i (wordOfInt (sat32 ((i.acc i.e.acc).toInt + macDot i)))
/-- MACDZ (R90). -/
def opMacdz (i : OpIn) : OpOut := accOut i (wordOfInt (sat32 (macDot i)))

/-- The accumulator writes of MACV and MACVZ (R91); base gives what each product is added to. -/
def macvAccs (i : OpIn) (base : Nat → Int) : List (Nat × Word) :=
  let f := i.fmtD
  let m := if f = .int16 then 1 else f.lanes
  (List.range m).map fun j =>
    let s := if f = .int16 then i.e.addrD % 2 else j
    (i.e.acc + j, wordOfInt (sat32 (base (i.e.acc + j) + lane i.a f.width s * lane i.b f.width s)))

def macvOut (l : List (Nat × Word)) : OpOut :=
  { res := l.head?.map Prod.snd, accs := l, report := (l.map fun p => wordMag p.2).foldl max 0 }

/-- MACV (R91). -/
def opMacv (i : OpIn) : OpOut := macvOut (macvAccs i fun n => (i.acc n).toInt)
/-- MACVZ (R91). -/
def opMacvz (i : OpIn) : OpOut := macvOut (macvAccs i fun _ => 0)
/-- ACCADD (R86). -/
def opAccadd (i : OpIn) : OpOut := accOut i (wordOfInt (sat32 ((i.acc i.e.acc).toInt + i.a.toInt)))
/-- ACCSUB (R86). -/
def opAccsub (i : OpIn) : OpOut := accOut i (wordOfInt (sat32 ((i.acc i.e.acc).toInt - i.a.toInt)))
/-- ACCLD (R86). -/
def opAccld (i : OpIn) : OpOut := accOut i i.a
/-- ACCCLR (R86). -/
def opAccclr (i : OpIn) : OpOut := accOut i 0
/-- ACCMAX (R86). -/
def opAccmax (i : OpIn) : OpOut := accOut i (wordOfInt (max (i.acc i.e.acc).toInt i.a.toInt))
/-- ACCMIN (R86). -/
def opAccmin (i : OpIn) : OpOut := accOut i (wordOfInt (min (i.acc i.e.acc).toInt i.a.toInt))

/-! ### Requantise (R97 to R100) -/

/-- One requantised lane: value and flag, with parameter set p, input x and lane index ln. -/
def rqLane (i : OpIn) (p : Nat) (x : Int) (ln : Nat) : Int × Bool :=
  requantise i.e.rnd (satWidth i.e.satw) x (rqM (i.rq p)) (rqS (i.rq p)) (draw i.seed i.cn i.x i.y i.k ln)

/-- RQS (R97). -/
def opRqs (i : OpIn) : OpOut :=
  let r := rqLane i i.e.rqs i.a.toInt 0
  { res := some (wordOfInt r.1), report := wordMag i.a, sats := if r.2 then [i.e.rqs] else [] }

/-- The lanes of RQV and RQVC, as (input, parameter set, lane). -/
def rqVecLanes (i : OpIn) (perLane : Bool) : List (Int × Nat × Nat) :=
  (List.range (32 / satWidth i.e.satw)).map fun j =>
    ((i.acc (i.e.acc + j)).toInt, if perLane then i.e.rqs + j else i.e.rqs, j)

def rqVecOut (i : OpIn) (perLane : Bool) : OpOut :=
  let ls := rqVecLanes i perLane
  let rs := ls.map fun t => (rqLane i t.2.1 t.1 t.2.2, t.2.1)
  { res := some (packLanes (satWidth i.e.satw) (rs.map fun r => r.1.1))
    report := maxMag (ls.map Prod.fst)
    sats := (rs.filter fun r => r.1.2).map Prod.snd }

/-- RQV (R97). -/
def opRqv (i : OpIn) : OpOut := rqVecOut i false
/-- RQVC (R97). -/
def opRqvc (i : OpIn) : OpOut := rqVecOut i true

/-! ### Lookup (R106, R107) -/

/-- Entry j of a table of w-bit entries from word ADDRW, signed (R106). -/
def lutEntry (i : OpIn) (w j : Nat) : Int :=
  ((i.wgt (i.e.addrW + (j * w) / 32)).extractLsb' ((j * w) % 32) w).toInt

/-- LUTV8 (R106). -/
def opLutv8 (i : OpIn) : OpOut :=
  let l := (lanesOf i.a .int8).map fun v => lutEntry i 8 (v + 128).toNat
  { res := some (packLanes 8 l), report := maxMag l }
/-- LUTV4 (R106). -/
def opLutv4 (i : OpIn) : OpOut :=
  let l := (lanesOf i.a .int4).map fun v => lutEntry i 4 (v + 8).toNat
  { res := some (packLanes 4 l), report := maxMag l }
/-- LUTS (R106). -/
def opLuts (i : OpIn) : OpOut :=
  let v := lutEntry i 16 (i.a.extractLsb' 0 8).toNat
  { res := some (wordOfInt v), report := magnitude v }

/-- The interpolated value of R107 for the signed 16-bit v. -/
def lutInterp (i : OpIn) (v : Int) : Int :=
  let u := (v + 32768).toNat
  let n := u / 256
  let e0 := lutEntry i 16 n
  let e1 := lutEntry i 16 (if n < 255 then n + 1 else 255)
  e0 + ((e1 - e0) * (u % 256 : Nat) + 128).fdiv 256

/-- LUTI (R107). -/
def opLuti (i : OpIn) : OpOut :=
  let v := lutInterp i (lane i.a 16 0)
  { res := some (wordOfInt v), report := magnitude v }

/-! ### Compare, select, sorting (R109 to R112) -/

def cmpOut (c : Bool) : OpOut :=
  { res := some (if c then 1 else 0), f := some c, report := if c then 1 else 0 }

def opCmplt (i : OpIn) : OpOut := cmpOut (decide (i.a.toInt < i.b.toInt))
def opCmple (i : OpIn) : OpOut := cmpOut (decide (i.a.toInt ≤ i.b.toInt))
def opCmpeq (i : OpIn) : OpOut := cmpOut (decide (i.a = i.b))
def opCmpltu (i : OpIn) : OpOut := cmpOut (decide (i.a.toNat < i.b.toNat))
/-- A result that leaves F alone. -/
def plainOut (w : Word) : OpOut := { res := some w, report := wordMag w }
/-- SEL (R110). -/
def opSel (i : OpIn) : OpOut := plainOut (if i.f then i.a else i.b)
def opMin (i : OpIn) : OpOut :=
  let w := wordOfInt (min i.a.toInt i.b.toInt)
  { plainOut w with f := some (decide (i.a.toInt ≤ i.b.toInt)) }
def opMax (i : OpIn) : OpOut :=
  let w := wordOfInt (max i.a.toInt i.b.toInt)
  { plainOut w with f := some (decide (i.a.toInt ≥ i.b.toInt)) }
/-- CX (R111): the result is the lower value, the destination takes the higher. -/
def opCx (i : OpIn) : OpOut :=
  { plainOut (wordOfInt (min i.a.toInt i.b.toInt)) with
    dest := some (wordOfInt (max i.a.toInt i.b.toInt)), f := some (decide (i.a.toInt > i.b.toInt)) }

def vecOut (i : OpIn) (g : Int → Int → Int) : OpOut :=
  let f := i.fmtD
  let l := List.zipWith g (lanesOf i.a f) (lanesOf i.b f)
  { res := some (packLanes f.width l), report := maxMag l }
def opVmax (i : OpIn) : OpOut := vecOut i max
def opVmin (i : OpIn) : OpOut := vecOut i min

/-- HMAX (R112): the maximum lane in [31:8], the lowest index at which it occurs in [7:0]. -/
def opHmax (i : OpIn) : OpOut :=
  let l := lanesOf i.a i.fmtD
  let m := l.foldl max (l.headD 0)
  let n := l.findIdx (· == m)
  { res := some ((BitVec.ofInt 24 m) ++ BitVec.ofNat 8 n), report := magnitude m }

/-- ABS (R86). -/
def opAbs (i : OpIn) : OpOut :=
  { plainOut (wordOfInt (min (magnitude i.a.toInt : Nat) (2 ^ 31 - 1))) with f := some (decide (i.a.toInt < 0)) }

/-! ### Bitwise logic and shifts (R113) -/

def bitOut (w : Word) : OpOut := { plainOut w with f := some (decide (w ≠ 0)) }
def shAmt (b : Word) : Nat := (b.extractLsb' 0 5).toNat
def opAnd (i : OpIn) : OpOut := bitOut (i.a &&& i.b)
def opOr (i : OpIn) : OpOut := bitOut (i.a ||| i.b)
def opXor (i : OpIn) : OpOut := bitOut (i.a ^^^ i.b)
def opAndn (i : OpIn) : OpOut := bitOut (i.a &&& ~~~i.b)
def opShl (i : OpIn) : OpOut := bitOut (i.a <<< shAmt i.b)
def opShr (i : OpIn) : OpOut := bitOut (i.a >>> shAmt i.b)
def opSar (i : OpIn) : OpOut := bitOut (i.a.sshiftRight (shAmt i.b))
/-- The number of 1 bits of a word. -/
def popCount (w : Word) : Nat := ((List.range 32).filter fun j => w.getLsbD j).length
def opPopc (i : OpIn) : OpOut := bitOut (BitVec.ofNat 32 (popCount (i.a &&& i.b)))

/-! ### Moves (R114) and NOP (R87) -/

def opNop (_ : OpIn) : OpOut := {}
def opMov (i : OpIn) : OpOut := plainOut i.a
def opBcast (i : OpIn) : OpOut :=
  let f := i.fmtD
  let v := lane i.a f.width ((i.b.extractLsb' 0 3).toNat % f.lanes)
  { res := some (packLanes f.width (List.replicate f.lanes v)), report := magnitude v }
def opUnpk (i : OpIn) : OpOut :=
  let h := if i.b.getLsbD 0 then 1 else 0
  let l := (List.range 4).map fun j => lane i.a 4 (4 * h + j)
  { res := some (packLanes 8 l), report := maxMag l }

end Sys2Proof.Machine
end

