-- ==== Sys2Proof/Machine/Tbl.lean ====
section
/-! DEFINITION. Operations on the sparse tables of State: lookup, insertion that keeps keys rising, and insertion that
keeps the canonical form of memory (no entry equal to what an unlisted key reads as). -/

namespace Sys2Proof.Machine

/-- The value listed at key k, if any. -/
def tfind {α : Type} (t : Tbl α) (k : Nat) : Option α :=
  match t with
  | [] => none
  | (j, v) :: r => if j = k then some v else tfind r k

/-- The value at key k; d where k is not listed. -/
def tget {α : Type} (d : α) (t : Tbl α) (k : Nat) : α := (tfind t k).getD d

/-- Removes key k. -/
def tdel {α : Type} (t : Tbl α) (k : Nat) : Tbl α :=
  match t with
  | [] => []
  | (j, v) :: r => if j = k then tdel r k else (j, v) :: tdel r k

/-- Lists v at key k, in the place that keeps rising keys rising. -/
def tset {α : Type} (t : Tbl α) (k : Nat) (v : α) : Tbl α :=
  match t with
  | [] => [(k, v)]
  | (j, w) :: r => if k < j then (k, v) :: (j, w) :: r else if j = k then (k, v) :: r else (j, w) :: tset r k v

/-- Makes key k read v where an unlisted key reads d: the entry is removed where v is d. -/
def tput {α : Type} [DecidableEq α] (d : α) (t : Tbl α) (k : Nat) (v : α) : Tbl α :=
  if v = d then tdel t k else tset t k v

/-- Applies g at key k. -/
def tmod {α : Type} (d : α) (t : Tbl α) (k : Nat) (g : α → α) : Tbl α := tset t k (g (tget d t k))

/-- Keys strictly rising. -/
def tsorted {α : Type} : Tbl α → Bool
  | [] => true
  | [_] => true
  | (j, _) :: (k, w) :: r => decide (j < k) && tsorted ((k, w) :: r)

/-- The canonical form: keys strictly rising and no entry equal to d. -/
def twf {α : Type} [DecidableEq α] (d : α) (t : Tbl α) : Bool :=
  tsorted t && t.all fun p => decide (p.2 ≠ d)

/-- The keys of a table. -/
def tkeys {α : Type} (t : Tbl α) : List Nat := t.map Prod.fst

/-- Writes a list of values at consecutive keys from k. -/
def tputs {α : Type} [DecidableEq α] (d : α) (t : Tbl α) (k : Nat) : List α → Tbl α
  | [] => t
  | v :: vs => tputs d (tput d t k v) (k + 1) vs

/-- Reads n values at consecutive keys from k. -/
def tgets {α : Type} (d : α) (t : Tbl α) (k n : Nat) : List α := (List.range n).map fun i => tget d t (k + i)

/-- A table of a list's values at keys 0, 1, …, values equal to d left out. -/
def tofList {α : Type} [DecidableEq α] (d : α) (l : List α) : Tbl α := tputs d [] 0 l

end Sys2Proof.Machine
end

