-- ==== Sys2Proof/Machine/Image.lean ====
section
/-! DEFINITION. A Lomquet image as data: one record type for each section of 05_timing_contract.md R157 and
06_programs_and_waypoints.md R179, field by field as the owning chapters give them. -/

namespace Sys2Proof.Machine

/-- HDR (R157): TMID, N, R_OFS, A, t, extent, default seed, debug permission. -/
structure Hdr where
  tmid  : Nat
  n     : Nat
  rofs  : Nat
  a     : Nat
  t     : Nat
  full  : Bool
  seed  : Dword
  debug : Bool
deriving DecidableEq, Repr

/-- PAR of R159: which input crossings a record is for. -/
inductive Par where
  | every | even | odd
deriving DecidableEq, Repr

/-- Whether a record admits input crossing C. -/
def Par.admits (p : Par) (c : CN) : Bool :=
  match p with
  | .every => true
  | .even => !c.getLsbD 0
  | .odd => c.getLsbD 0

/-- A QBT entry (R158). -/
structure QbEnt where
  x : Nat
  y : Nat
  port : Nat
  bound : Nat
deriving DecidableEq, Repr

/-- Origin kinds of a stream (R159). -/
inductive OKind where
  | edge | cell | almanac
deriving DecidableEq, Repr

/-- A position of a stream: a cell with a code (route source or input port), or an edge port. -/
inductive Loc where
  | cell (x y code : Nat)
  | edge (edge idx : Nat)
deriving DecidableEq, Repr

/-- A PATH record (R159); hops as (DIR, DELAY). -/
structure Stream where
  sid   : Nat
  okind : OKind
  par   : Par
  oloc  : Loc
  otau  : Nat
  hops  : List (Nat × Nat)
  sloc  : Loc
  stau  : Nat
deriving DecidableEq, Repr

/-- One branch of a JOIN record (R160). -/
structure Branch where
  sid  : Nat
  port : Nat
  hold : Nat
deriving DecidableEq, Repr

/-- A JOIN record (R160). -/
structure Join where
  x : Nat
  y : Nat
  itau : Nat
  branches : List Branch
deriving DecidableEq, Repr

/-- What an output token feeds (10 R319). -/
inductive OutKind where
  | fdec (bit : Nat)
  | record (word : Nat)
  | chain (lane flit word : Nat)
deriving DecidableEq, Repr

/-- An OSCH entry (10 R319); edge port as edge × 1024 + index. -/
structure OschEnt where
  kind : OutKind
  edge : Nat
  stau : Nat
  par  : Par
deriving DecidableEq, Repr

/-- Section OSCH. -/
structure Osch where
  plen : Nat
  ht   : Nat
  ents : List OschEnt
deriving DecidableEq, Repr

/-- A WGMD descriptor (04 R118, R144): virtual Field, tensor, WGM_TCFG and WGM_TDEF. -/
structure WgmDesc where
  vf     : Nat
  tensor : Nat
  cfg    : Word
  rdef   : Word
deriving DecidableEq, Repr

/-- A CMAP entry with its context (08 R244). -/
structure CmapEnt where
  ctx   : Nat
  width : BitVec 2
  slot  : Nat
  tick  : Nat
  edge  : Nat
  sgn   : Bool
  bw    : Nat
  bofs  : Nat
  lane  : Nat
deriving DecidableEq, Repr

/-- An ALMT table descriptor (07 R209). -/
structure TblDesc where
  tid   : Nat
  kind  : BitVec 8
  kw    : Nat
  salt  : Word
  rows  : Nat
  words : Nat
  shape : BitVec 8
  d     : Nat
  copy0 : Nat
  ncopy : Nat
deriving DecidableEq, Repr

/-- An ALMT copy record (07 R210). -/
structure CopyRec where
  tid   : Nat
  place : BitVec 8
  bank  : Nat
  base  : Nat
deriving DecidableEq, Repr

/-- An ALMT request record (07 R212). -/
structure ReqRec where
  tid  : Nat
  edge : Nat
  par  : Par
  tau0 : Nat
  keys : List Word
deriving DecidableEq, Repr

/-- Section ALMT. -/
structure Almt where
  tables : List TblDesc
  copies : List CopyRec
  reqs   : List ReqRec
deriving DecidableEq, Repr

/-- A CRED loop record (10 R315). -/
structure Loop where
  lane  : Nat
  recv  : Bool
  nf0   : Nat
  nf1   : Nat
  bound : Nat
  hold  : Nat
  frofs : Nat
  fill  : Word
  upl   : Nat
deriving DecidableEq, Repr

/-- A CRED chain map entry (10 R315). -/
structure ChainMap where
  lane : Nat
  flit : Nat
  word : Nat
  par  : Par
  edge : Nat
  tau  : Nat
deriving DecidableEq, Repr

/-- Section CRED. -/
structure Cred where
  stage  : Nat
  origin : Nat
  loops  : List Loop
  maps   : List ChainMap
deriving DecidableEq, Repr

/-- A WPT record (06 R194). -/
inductive WptRec where
  | root (edge idx wtau : Nat)
  | cell (x y win wtau dly : Nat) (wout : BitVec 8)
deriving DecidableEq, Repr

/-- A LANE entry (09 R297). -/
structure LaneEnt where
  role   : Nat
  rate   : Nat
  blk    : Nat
  rofs   : Nat
  explid : Nat
deriving DecidableEq, Repr

/-- A decoded image. PROG, WGT, INIT and RQP are by cell (y × 1024 + x); words of a plane or store by address; sets by
number. TIDE is empty or its 11,264 words by index. -/
structure Image where
  hdr  : Hdr
  prog : Tbl (List MInstr)
  wgt  : Tbl (Tbl Word)
  init : Tbl (Tbl Word)
  rqp  : Tbl (Tbl Word)
  qbt  : List QbEnt
  path : List Stream
  join : List Join
  osch : Osch
  wgmd : List WgmDesc
  cmap : List CmapEnt
  almt : Almt
  tide : Tbl Word
  /-- Section TIDE is not empty (07 R226). -/
  tideGiven : Bool
  cred : Cred
  wpt  : List WptRec
  lane : List LaneEnt
  sig  : List Byte
deriving DecidableEq, Repr

/-- A header that stands where no image does. -/
def Hdr.none : Hdr := { tmid := 0, n := 28, rofs := 3, a := 0, t := 0, full := true, seed := 0, debug := false }

/-- The image that stands where no image does: nothing in any section. -/
def Image.none : Image :=
  { hdr := Hdr.none, prog := [], wgt := [], init := [], rqp := [], qbt := [], path := [], join := []
    osch := { plen := 0, ht := 0, ents := [] }, wgmd := [], cmap := [], almt := { tables := [], copies := [], reqs := [] }
    tide := [], tideGiven := false, cred := { stage := 0, origin := 0, loops := [], maps := [] }, wpt := [], lane := [], sig := [] }

end Sys2Proof.Machine
end

