-- ==== Sys2Proof/Machine/Crc.lean ====
section
/-! DEFINITION. The two checksums of the spec: CRC-64 of the crossing digests (14 R382) and CRC-32C of the integrity engine
and the transfer packets (16 R452, 12 R337). -/

namespace Sys2Proof.Machine

/-- One message bit into the CRC-64 register, most significant bit first, no reflection (R382). -/
def crc64Bit (r : Dword) (b : Bool) : Dword :=
  let top := r.getLsbD 63 ^^ b
  if top then (r <<< 1) ^^^ 0x42F0E1EBA9EA3693#64 else r <<< 1

/-- One byte, most significant bit first. -/
def crc64Byte (r : Dword) (x : Byte) : Dword :=
  [7, 6, 5, 4, 3, 2, 1, 0].foldl (fun q i => crc64Bit q (x.getLsbD i)) r

/-- The CRC-64 of a byte sequence (R382). -/
def crc64 (l : List Byte) : Dword := l.foldl crc64Byte 0xFFFFFFFFFFFFFFFF#64 ^^^ 0xFFFFFFFFFFFFFFFF#64

/-- One message bit into the reflected CRC-32C register (R452). -/
def crc32cBit (r : Word) (b : Bool) : Word :=
  if r.getLsbD 0 ^^ b then (r >>> 1) ^^^ 0x82F63B78#32 else r >>> 1

def crc32cByte (r : Word) (x : Byte) : Word :=
  (List.range 8).foldl (fun q i => crc32cBit q (x.getLsbD i)) r

/-- The CRC-32C of a byte sequence (R452). -/
def crc32c (l : List Byte) : Word := l.foldl crc32cByte 0xFFFFFFFF#32 ^^^ 0xFFFFFFFF#32

end Sys2Proof.Machine
end

