-- ==== Sys2Proof/Config.lean ====
section
/-! DEFINITION. What the spec leaves open, as opaque constants: nothing in Lean can evaluate them or prove a value of
them, so a theorem about a free value holds for every value of it. Also the fixed choices that log entries name. -/

namespace Sys2Proof

/-- Free values by index: a byte, a word, a number the spec does not give (DESIGN CHOICE, log entry 16). -/
opaque Config.freeByte : Nat → BitVec 8
opaque Config.freeWord : Nat → BitVec 32
opaque Config.freeDword : Nat → BitVec 64
opaque Config.freeNat : Nat → Nat

/-- The fixed latency of the device's own receive path, in 2^-16 ns (13 R364; DESIGN CHOICE, log entry 83). -/
opaque Config.rxPath : Nat

/-- The nonce of an ECDSA signature, by index (18 R496; DESIGN CHOICE, log entry 9). -/
opaque Config.ecdsaNonce : Nat → Nat

/-- The correction of the PUF's power-up content with the helper data of FACTORY (18 R495; DESIGN CHOICE, log entry 9): content, helper
data. -/
opaque Config.pufCorrect : List (BitVec 8) → List (BitVec 8) → List (BitVec 8)

/-- The bits of configuration words that the PCI Express base specification leaves to the implementation, by word (16 R424; DESIGN CHOICE, log entry
95). -/
opaque Config.cfgOpen : Nat → BitVec 32

/-- Deskew calibration: the lane crossing in which the reference shows in a context's captured samples (08 R255; DESIGN CHOICE, log
entry 16): the samples, oldest first, and the operands REF and WINDOW; none where it does not show. -/
opaque Config.deskewSeen : List Nat → BitVec 64 → BitVec 64 → Option Nat

end Sys2Proof
end

