-- ==== Sys2Proof/Machine/State.lean ====
section
/-! DEFINITION. The state of the block as plain data: every register, store, queue, counter, mode and pin of
spec/00 to spec/19, the queue of waiting commands, and State.reset (RESET_N released, before POWER_UP). Tables (Tbl)
hold what is many; the value an unlisted key reads as is named where each table is declared. -/

namespace Sys2Proof.Machine

/-- The reasons a command can stop the model. -/
inductive Fault where
  /-- Raised by any command that names a cell, lane, Quay, Field, rail, mailbox, table slot, register offset or other
  unit that the device does not have (DESIGN CHOICE, log entry 6). Safe: the spec gives such a command no effect. -/
  | noSuchUnit
deriving DecidableEq, Repr

/-- Why a command has no meaning here. -/
inductive Refusal where
  /-- Raised by a dispatch arm whose command has no meaning yet. Safe: nothing runs. -/
  | notModelled (mnemonic : String)
deriving DecidableEq, Repr

/-! ### Events and counters (16 R439, R81 and the register chapters) -/

/-- The sequence-clear status registers. -/
inductive EvtId where
  | lnk (l : Nat) | sxt (l : Nat) | chn (l : Nat) | fld (f : Nat) | wgmF (v : Nat) | wgmC (q : Nat) | alm (q : Nat)
  | cap | pair | chr | cig | hst | clk | pwr | runLat | runHz
deriving DecidableEq, Repr

/-- One sequence-clear register (R439): event bits, SEQ, and the SEQ of each bit's latest occurrence (unlisted: 0). -/
structure EvtReg where
  bits : Word
  seq  : Word
  last : Tbl Word
deriving DecidableEq, Repr

/-- The 64-bit event counters that count upwards without wrapping. -/
inductive CtrId where
  | fldOvf (f : Nat) | fldUnf (f : Nat) | fldEpd (f : Nat) | wgmTsat (v t : Nat) | wgmCsat (q : Nat) | wgmCfa (q : Nat)
  | almSlk (q : Nat) | almDlk (q : Nat) | almMiss (q : Nat) | almNokey (q : Nat) | almCe (q : Nat) | almUe (q : Nat)
  | capIgnPre | capIgnBusy | capIgnDrain | capMtv | capFill | capAvg | bcnHit (b : Nat)
  | lnk (l k : Nat) | hub (l k : Nat) | pair (k : Nat) | deviation | hstWdrop | hstPoison | cigPass | clkFlush | ccInv | ccOz
deriving DecidableEq, Repr

/-! ### The array (02, 05, 06) -/

/-- A token (02 R46). -/
structure Token where
  tag   : BitVec 2
  epoch : BitVec 2
  data  : Word
deriving DecidableEq, Repr

/-- A hold register with its tag (R42, R51). -/
structure Hold where
  data : Word
  tag  : BitVec 2
deriving DecidableEq, Repr

/-- One cell (R42). Unlisted words of the stores, accumulators, hold registers, parameter sets and detector maps read 0;
an unlisted queue is empty. -/
structure Cell where
  progA  : List (BitVec 96)
  progB  : List (BitVec 96)
  wgtA   : Tbl Word
  wgtB   : Tbl Word
  ws     : Tbl Word
  acc    : Tbl Word
  hold   : Tbl Hold
  flag   : Bool
  rq     : Tbl Word
  /-- Plane select: false, plane A is active. -/
  sel    : Bool
  epAct  : BitVec 2
  epSh   : BitVec 2
  queues : Tbl (List Token)
  onTree : Bool
  win    : Nat
  wtauN  : Nat
  dly    : Nat
  wout   : BitVec 8
  /-- Ticks until the seam once the waypoint has headed WIN (06 R193, R196). -/
  seam   : Option Nat
  /-- Detector maps by port (05 R172). -/
  maps   : Tbl (BitVec 64)
  bounds : Tbl Nat
  /-- Waypoint slot of the detector: the period tick within N (R172). -/
  wslot  : Option Nat
deriving DecidableEq, Repr

/-- Where a token in flight arrives: an input queue of a cell, or the Quay side of an edge port (edge × 1024 + index). -/
inductive Dest where
  | queue (cell port : Nat)
  | edge (port : Nat)
deriving DecidableEq, Repr

/-- A token on a link, with the ticks left until it arrives (R57, R69). -/
structure Flight where
  left : Nat
  dst  : Dest
  tok  : Token
deriving DecidableEq, Repr

/-- A hazard of the current tick (05 R173). -/
structure Violation where
  y    : Nat
  x    : Nat
  port : Nat
  kind : Nat
  exp  : BitVec 8
  obs  : BitVec 8
deriving DecidableEq, Repr

/-- A token that has reached a Quay from an edge port: the presented tick at which it stands there. -/
structure EdgeTok where
  port : Nat
  cn   : CN
  tick : Nat
  tok  : Token
deriving DecidableEq, Repr

/-- The array. A cell that is not listed runs the loop of R59 with zero stores, active epoch baseEp and shadow epoch
baseEp + 1. -/
structure ArrState where
  cells  : Tbl Cell
  baseEp : BitVec 2
  flight : List Flight
  /-- Cells that have issued in this tick. -/
  issued : List Nat
  /-- Cells whose waypoint arrival has been handled in this tick. -/
  wpDone : List Nat
  /-- The queue heads that leave at the tick's end, as (cell, port): pops of R57 and waypoints of 06 R196. -/
  pops   : List (Nat × Nat)
  /-- Queues read empty in this tick, as (cell, port), for R63. -/
  unf    : List (Nat × Nat)
  /-- Virtual Fields with a saturation flag in this tick (04 R120, R144). -/
  sats   : List Nat
  viol   : List Violation
  /-- Padding delays by receiver group (R163); see Placement. -/
  pads   : Tbl Nat
  edge   : List EdgeTok
  /-- First-overflow records by physical Field: FLD_OVFPOS and FLD_OVFCN (R62). -/
  ovfPos : Tbl Word
  ovfCn  : Tbl CN
  hzRec  : Word
  hzCn   : CN
  hzDet  : Word
deriving DecidableEq, Repr

/-- Shadow-plane states (06 R188). -/
inductive ShState where
  | empty | filling | ready | switching
deriving DecidableEq, Repr

/-- From input crossing c on, the epoch given and the image of the library slot compute (06 R190). -/
structure EpochRec where
  c     : CN
  epoch : BitVec 2
  slot  : Nat
deriving DecidableEq, Repr

/-- Plane control (06 R185 to R203). -/
structure Planes where
  sh      : ShState
  shSlot  : Nat
  /-- Bytes the fill has written, and the crossing by which it ends (R187). -/
  fillPos : Nat
  fillBy  : CN
  actSlot : Nat
  actEp   : BitVec 2
  /-- W of the switch in flight, and of the most recent accepted switch (RUN_SWCN). -/
  swW     : Option CN
  swCn    : CN
  /-- The waypoints of the switch in flight have been driven into the roots. -/
  wpSent  : Bool
  epochs  : List EpochRec
deriving DecidableEq, Repr

/-- Where a run is (00 R13, 14 R386). -/
inductive RunPhase where
  | idle | armed | running | draining | paused
deriving DecidableEq, Repr

/-- How the latest run ended. -/
inductive StopReason where
  | none | command | fault | yield | clock | hazard | thermal
deriving DecidableEq, Repr

/-- The run (00 R13, 05 R156, 14 R385 to R388). -/
structure RunState where
  phase   : RunPhase
  filling : Bool
  debug   : Bool
  replay  : Bool
  partialR : Bool
  pl      : Nat
  slot    : Nat
  seed    : Dword
  /-- First input crossing S, and the crossing after the fill's last. -/
  first   : CN
  fillEnd : CN
  stopAt  : Option CN
  /-- The crossing in which a fault of a solo run was raised (12 R353). -/
  faultAt : Option CN
  delta   : CN
  /-- In a replay: the real crossing less the recorded one (14 R393). -/
  rshift  : CN
  /-- P of the pause in progress. -/
  pcn     : CN
  /-- P of the latest pause, logbook latch or rebase latch (RUN_PCN). -/
  lastP   : CN
  /-- An accepted pause that waits for P, and an accepted resume that waits for Q. -/
  pauseAt : Option CN
  resumeQ : Option CN
  /-- The crossing in which the run became PAUSED. -/
  pausedAt : CN
  resumed : Bool
  reason  : StopReason
  /-- The MCLK measured at arming, in units of 10 Hz (17 R459). -/
  mclkArm : Nat
deriving DecidableEq, Repr

/-! ### The Weighmaster (04) -/

/-- One designated tensor (04 R120 to R131, R144). Crossing maxima and saturation counts are kept by presented report
crossing; an unlisted crossing has 0. -/
structure Tensor where
  cfg   : Word
  rdef  : Word
  m     : Tbl Word
  n     : Tbl Nat
  /-- r_now of R130: what the latest derivation or a clearing commit left. -/
  rNow  : Word
  /-- The range in force (RANGE of WGM_TNOW), which a clearing commit leaves (R142). -/
  rForce : Word
  seen  : Bool
  mNow  : BitVec 16
  sNow  : BitVec 6
  /-- The range, M and S derived for the next crossing, waiting for SCALE_APPLY. -/
  next  : Option (Word × BitVec 16 × BitVec 6)
  last  : Word
  twin  : Word
  fa    : Word
deriving DecidableEq, Repr

/-- A tensor's part of a pause record or latch (14 R387). -/
structure TensorLatch where
  key  : Nat
  m    : Tbl Word
  rNow : Word
  seen : Bool
  /-- The drain tail: m and n of the report crossings of the drain. -/
  tailM : Tbl Word
  tailN : Tbl Nat
deriving DecidableEq, Repr

/-- The Weighmaster: tensors by virtual Field × 64 + tensor (unlisted: not designated), the last channel saturation of
each Quay, and the presented crossings between which restored maxima stand (14 R388). -/
structure WgmState where
  tensors : Tbl Tensor
  clast   : Tbl Word
  clastCn : Tbl CN
  /-- Presented crossing before which no derivation is made and up to which reports raise no maximum (after a resume). -/
  hold    : Option CN
  /-- The presented crossing of the latest derivation. -/
  derived : Option CN
  /-- In a replay: the last presented report crossing whose saturation counts the start record's drain tail holds whole (14 R387). -/
  tailTo  : Option CN
deriving DecidableEq, Repr

/-! ### The Almanac (07) -/

/-- A write burst that waits for a slot: the row's line in one copy of a table (07 R224, R225), with the journal sequence of
the TWRITE it belongs to (0: a catch-up). -/
structure WBurst where
  jseq : Nat
  tid  : Nat
  copy : Nat
  face : Bool
  row  : Nat
  data : List Byte
deriving DecidableEq, Repr

/-- A host burst of a BAR4 request during a run (07 R224, R225, 16 R431): the bytes of one line from an address; for a read, where they
stand in the answer and the bits of noise of the line read; the request's number, the slots it still takes (two where a line is merged), and
whether its request has been counted in HST_POISONCNT or HST_WDROPCNT. -/
structure HostBurst where
  id    : Nat
  read  : Bool
  addr  : Nat
  len   : Nat
  ofs   : Nat
  data  : List Byte
  noise : BitVec 288
  left  : Nat
  told  : Bool
deriving DecidableEq, Repr

/-- A table swap from its acceptance until its catch-up (07 R237, R238). -/
structure Swap where
  tid  : Nat
  a    : CN
  jseq : Nat
  done : Bool
deriving DecidableEq, Repr

/-- One table: the faces loaded, the active face (false: A), and the rows written to the inactive face since the latest
swap (07 R235 to R238). -/
structure AlmTab where
  /-- The descriptor and copies under which the faces were loaded. -/
  desc   : Option (TblDesc × List CopyRec)
  loaded : BitVec 2
  active : Bool
  upd    : List (Nat × List Byte)
deriving DecidableEq, Repr

/-- The kinds of token the Almanac finds at a declared key tick (07 R206). -/
inductive KeyKind where
  | key | null | missing
deriving DecidableEq, Repr

/-- One key of a request in flight (07 R228): its kind, masked value and epoch, whether its line has been read, and the
payload it contributes. -/
structure KeySt where
  kind : KeyKind
  key  : Word
  epoch : BitVec 2
  read : Bool
  row  : Option (List Word)
deriving DecidableEq, Repr

/-- One request of one input crossing (real number), with its keys by index, and whether its result has been sent. -/
structure Pool where
  sent : Bool
  req  : Nat
  c    : CN
  keys : Tbl KeySt
deriving DecidableEq, Repr

/-- A line that the decoder found corrected or uncorrectable, or that missed: what R231 and R241 count for it (07 R228). ue:
uncorrectable; ce: corrected; rank of its order under R231; the word of ALM_UEREC; the crossing of the read; the input
crossing of its request. -/
structure Found where
  q    : Nat
  miss : Bool
  ce   : Bool
  ue   : Bool
  ord  : Nat
  recW : Word
  cnRd : CN
  c    : CN
deriving DecidableEq, Repr

/-- An activation of a bank in a recent slot (07 R222, R224): subchannel, rank × 16 + bank, crossing, position. -/
structure Act where
  sub  : Nat
  bank : Nat
  cn   : CN
  pos  : Nat
deriving DecidableEq, Repr

/-- The Almanac. found holds what LPDDR6 reads of the present crossing report in the next; ueAt, by Quay, the crossing and
order of the recorded uncorrectable line; trainRk, by subchannel, the rank that the next marked slot measures; refresh, by
subchannel, rank × 16 + bank of the latest refresh. Per-Quay tables are keyed by Quay; margins and streaks by Quay × 16 + i. Unlisted: ALM_MLIMIT
0x241A281C, everything else 0. -/
structure AlmState where
  tabs    : Tbl AlmTab
  pools   : List Pool
  writes  : List WBurst
  catchUp : List WBurst
  swaps   : List Swap
  locked  : Bool
  tideOn  : Bool
  trained : Bool
  ueRec   : Tbl Word
  ueCn    : Tbl CN
  ueAt    : Tbl (CN × Nat)
  found   : List Found
  acts    : List Act
  trainRk : Tbl Nat
  refresh : Tbl Nat
  mlimit  : Tbl Word
  margin  : Tbl Word
  streak  : Tbl Nat
  swapReg : Dword
  /-- Corrected lines to be rewritten (07 R230): copy, face and row of a table; the data is the line's own. -/
  fixes   : List WBurst
  /-- Host bursts through BAR4 that wait for refresh-slot data beats, the oldest first (07 R224). -/
  hostQ   : List HostBurst
  libG    : Nat
  /-- The slot whose image's ALMT section describes the tables that are loaded. -/
  tabSlot : Nat
deriving DecidableEq, Repr

/-! ### Channel contexts, wake buffer, Beacons and mask tests (08) -/

/-- One channel context (08 R248, 04 R139), by its words. Ages are by level 1 to 32 (unlisted: 0). -/
structure Ctx where
  ctl  : Word
  dsk  : Word
  cal  : Word
  env  : Word
  acc  : Dword
  done : Dword
  ages : Tbl Nat
  wgm  : Word
deriving DecidableEq, Repr

/-- A released lane payload: the bits lost are marked in lost (08 R250, R252; a bit set in lost means the sample bit at
that place was lost). -/
structure Payload where
  data : BitVec 1472
  lost : BitVec 1472
deriving DecidableEq, Repr

/-- A ring entry: the lane crossing it holds and its payload. -/
structure RingEnt where
  x   : CN
  pay : Payload
deriving DecidableEq, Repr

/-- Wake-buffer states (08 R263). -/
inductive CapStateK where
  | idle | prefill | armed | post | frozen | draining
deriving DecidableEq, Repr

/-- One wake-buffer frame of one Quay (08 R261). -/
structure Frame where
  cn     : CN
  lanes  : BitVec 16
  fault  : BitVec 16
  beacon : BitVec 16
  trig   : Bool
  mtv    : Bool
  pays   : List (BitVec 1472)
deriving DecidableEq, Repr

/-- Trigger sources (08 R265), in the order of SRC's bits. -/
structure Trig where
  t   : CN
  src : BitVec 4
deriving DecidableEq, Repr

/-- The wake buffer. Frames are by Quay, the oldest first; cands holds the triggers decided in the present crossing; a0Pend
says that A0 is the next frame written (AUTO, R264); sent holds the readout packets of the latest drain as (lane, blocks). -/
structure CapState where
  st      : CapStateK
  cfg     : Word
  win     : Word
  lanes   : Dword
  a0      : CN
  a0Pend  : Bool
  frames  : Tbl (List Frame)
  filled  : Nat
  trigCn  : CN
  trigSrc : BitVec 4
  lastFr  : CN
  mtRec   : Word
  mtCn    : CN
  cands   : List Trig
  /-- The device crossing at whose end the buffer freezes. -/
  stopFr  : Option CN
  sent    : List (Nat × List Dword)
deriving DecidableEq, Repr

/-- One Beacon (08 R271, R277). -/
structure Beacon where
  cfg    : Word
  min    : Word
  pat    : BitVec 4096
  care   : BitVec 4096
  lastCn : CN
deriving DecidableEq, Repr

/-- Contexts, payload rings, Beacons and envelopes. Rings are by lane, latest first, 16 entries; envelopes by
Quay × 4096 + index as (MIN, MAX); unlisted: the reset value. avgDue holds the contexts whose averaging block is complete,
stageAt the crossing whose channel stage has run. -/
structure ChanState where
  ctx     : Tbl Ctx
  ring    : Tbl (List RingEnt)
  bcn     : Tbl Beacon
  env     : Tbl (Word × Word)
  avgDue  : List Nat
  stageAt : Option CN
  /-- What the channel stage of this crossing measured: context, level and whether its word saturated (04 R135 to R137). -/
  levels  : List (Nat × Nat × Bool)
deriving DecidableEq, Repr

/-! ### Serial lanes (09) -/

/-- One received 66-bit block after decoding: header and payload, or a block of an uncorrectable codeword. -/
inductive Blk where
  | ok (hdr : BitVec 2) (pay : BitVec 64)
  | lost
deriving DecidableEq, Repr

/-- A block in a lane's transmit buffer: its header and payload before scrambling (09 R282), and for a crossing marker its sender's
number (09 R285). -/
structure TxBlk where
  hdr : BitVec 2
  pay : BitVec 64
  num : Option CN
deriving DecidableEq, Repr

/-- A received crossing frame: its number, its B blocks, at most the 31 of a mirror lane (12 R335), with the lost mask (09 R294), and when its last block left the
decoder (crossing and tick). -/
structure RxFrame where
  x    : CN
  pay  : BitVec 1984
  mask : BitVec 31
  cn   : CN
  tick : Nat
deriving DecidableEq, Repr

/-- One lane (09). -/
structure Lane where
  cfg    : Word
  lock   : Bool
  anchor : Bool
  eirx   : Bool
  eitx   : Bool
  lid    : BitVec 8
  cnofs  : BitVec 24
  flim   : Nat
  slackLast : BitVec 16
  slackMin  : BitVec 16
  txeq   : Word
  rxeq   : Word
  dfe    : Word
  /-- Q of a mirror lane (12 R335). -/
  mq     : Nat
  /-- Receive scrambler state, received blocks that no frame has taken yet with the crossing and
  tick at which they left the decoder. -/
  scr    : BitVec 58
  blocks : List (CN × Nat × Blk)
  /-- Blocks since the last predicted marker place, while locked, and whether a block was lost since the last decoded crossing
  marker (R289). -/
  rxPos  : Nat
  dmg    : Bool
  /-- Frames counted late (R291): TDEV of their records, and no second count when they arrive. -/
  late   : List CN
  /-- Position M of the next predicted marker, markers missed in a row, uncorrectable codewords in a row (R286). -/
  nextM  : Nat
  missed : Nat
  ueRun  : Nat
  /-- Blocks of the next codeword that stand before the marker which gave lock, and are not passed on (R288). -/
  skip   : Nat
  /-- A candidate marker's M before lock (R286), and whether a training burst has just ended (R303). -/
  cand   : Option Nat
  burst  : Bool
  /-- The lane has been told to leave electrical idle, by an arming or by command (R303). -/
  wake   : Bool
  /-- Number for the next crossing marker (R288), that of the last decoded one and whether it had one, whether an alignment marker gave the next
  number, and blocks since the last decoded crossing marker (R289). -/
  nextX  : CN
  prevX  : CN
  known  : Bool
  fresh  : Bool
  dist   : Nat
  /-- The frame of the last decoded crossing marker has been counted as long or short (R290). -/
  odd    : Bool
  /-- A CNOFS committed for a later device crossing (R304). -/
  cnofsAt : Option (CN × BitVec 24)
  buf    : List RxFrame
  /-- The 1,024 most recent released frames, latest first: true where substituted (R295). -/
  hist   : List Bool
  /-- Transmit: blocks sent in the superframe, the last frame's payload (block 0 first) and its crossing. -/
  txPos  : Nat
  txLast : List Dword
  txCn   : CN
  /-- Transmit scrambler state, blocks that wait in the transmit buffer, the 66-bit blocks of the codeword in progress, the bits of the
  latest codeword or training burst as sent, UI of a training burst still to send, and the part of a block time that has passed since the last
  block boundary, as a numerator (R279, R282 to R285, R303). -/
  txScr  : BitVec 58
  txq    : List TxBlk
  txCw   : List Nat
  txOut  : List Bool
  txBurst : Nat
  txFrac : Nat
deriving DecidableEq, Repr

/-- The Sextant of one lane (09 R300 to R306). -/
structure Sext where
  cfg    : Word
  limit  : Word
  margin : Word
  busy   : Bool
  eye    : BitVec 2
  done   : BitVec 13
  streak : Nat
  seen   : Bool
deriving DecidableEq, Repr

/-! ### Chains and hub (10) -/

/-- A held chain frame: its number, flits, and whether each flit is lost (10 R312). -/
structure ChainFrame where
  x     : CN
  flits : List (BitVec 512)
  lostF : List Bool
deriving DecidableEq, Repr

/-- A packet queued on a hub lane's side stream: TYPE and the bytes after the 8-byte header; for a forwarded timing frame its
ingress stamp on the step-free scale, in 2^-16 ns (13 R369); for a time-launched frame the journal sequence of its command (13 R371). -/
structure Pkt where
  typ  : Nat
  body : List Byte
  ingress : Option Int
  launch : Option Nat
deriving DecidableEq, Repr

/-- Chain and hub state of one lane. -/
structure HubLane where
  /-- Receive: frames held, the last released number. -/
  held   : List ChainFrame
  lastX  : Option CN
  histOn : Bool
  /-- Send: frames sent in this run as (C, flits), CX of the latest reverse frame, in-flight counts. -/
  sent   : List (CN × Nat)
  cx     : Option (BitVec 24)
  inflt  : BitVec 16
  maxfl  : BitVec 16
  /-- Reverse frame to send: CX last offered. -/
  cxOut  : BitVec 24
  /-- Side stream: bytes of the queue's packets and how many bytes of the first are gone. -/
  side   : List Pkt
  sidePos : Nat
  /-- Received packets that wait for Klowyn, with their ingress stamps (R322, 13 R368). -/
  rx     : List (Pkt × BitVec 128)
  /-- The latest hub frame sent, its blocks in order. -/
  last   : List Dword
deriving DecidableEq, Repr

/-- What the device keeps of one input crossing from its channel stage to its record (01 R33, 10 R317, 14 R382): the slot
and epoch that compute it, the channel part of its input digest, its digests, the decision bits, the record words, the chain
words as (lane, flit, word, DATA), whether it is assembled and whether its record has left. -/
structure OutRec where
  c     : CN
  slot  : Nat
  epoch : BitVec 2
  flags : BitVec 13
  inA   : List Byte
  idig  : Dword
  odig  : Dword
  fdec  : BitVec 16
  pay   : List Word
  chain : List (Nat × Nat × Nat × Word)
  asm   : Bool
  sent  : Bool
  auth  : Bool
  ictr  : Word
deriving DecidableEq, Repr

/-- A chain word that the chain stage drives (10 R312): the input crossing, the CRED map entry, the DATA, and whether it is
FILL for a lost flit. -/
structure ChainIn where
  c    : CN
  ix   : Nat
  data : Word
  lost : Bool
deriving DecidableEq, Repr

/-- The output side: records of input crossings in flight, oldest first; FDEC as driven; ICTR; deviation record. -/
structure OutState where
  recs   : List OutRec
  chainIn : List ChainIn
  fdec   : BitVec 16
  fdecZ  : Bool
  ictr   : Word
  latCn  : CN
  /-- Records already emitted, kept for re-emission (12 R345), latest first. -/
  kept   : List OutRec
deriving DecidableEq, Repr

/-! ### Commands as Klowyn holds them (15 R402, R406 to R410) -/

/-- A command as Klowyn takes it: opcode, header and body bytes (15 R402, R403). -/
structure KReq where
  op   : BitVec 16
  hdr  : CmdHdr
  body : List Byte
deriving DecidableEq, Repr

/-- An accepted command that waits for its crossing, or a long command in progress (15 R406 to R410). -/
structure Waiting where
  jseq : Nat
  mbx  : Nat
  req  : KReq
  cnAcc : CN
  /-- The real crossing named; meaningless for a long command. -/
  at_  : CN
  long : Bool
  /-- HST_WBASE at the acceptance, under which the command's BAR4 offsets stand (16 R430). -/
  base : BitVec 8
deriving DecidableEq, Repr

/-! ### The pair (12) -/

/-- PAIR_STAT.STATE (12 R354). -/
inductive PairSt where
  | off | forming | probation | joined | yielding | lost
deriving DecidableEq, Repr

/-- The status blocks of a mirror frame (12 R336). -/
structure MStatus where
  dcn    : CN
  yield  : Bool
  flt    : Bool
  subst  : Bool
  auth   : Bool
  role   : BitVec 2
  joined : Bool
  odig   : Dword
  idig   : Dword
  pairid : BitVec 16
  cack   : Word
  cause  : BitVec 8
  /-- No output assembly has completed: DCN and the digests are all ones. -/
  empty  : Bool
deriving DecidableEq, Repr

/-- One input crossing's own digests and flags (12 R340). -/
structure DigEnt where
  c     : CN
  odig  : Dword
  idig  : Dword
  flt   : Bool
  subst : Bool
  joined : Bool
deriving DecidableEq, Repr

/-- A mirrored command that waits for the Watch's CACK (12 R338), with what its completion is to carry. -/
structure MirCmd where
  seq    : Word
  w      : Waiting
  result : Dword
  buf    : List Byte
deriving DecidableEq, Repr

/-- The stream of one mirror lane to send (12 R337): what is left of the packet in progress, command packets, transfer packets. -/
structure MTx where
  cur   : List Byte
  cmds  : List (List Byte)
  xfers : List (List Byte)
deriving DecidableEq, Repr

/-- A pending change of authority (12 R343): K, the cause, whether this member yields, whether both do. -/
structure PendK where
  k     : CN
  cause : BitVec 8
  mine  : Bool
  both  : Bool
  lossOfPeer : Bool
deriving DecidableEq, Repr

/-- The shadow planes in a latch (14 R387, R393): their state, image slot, bytes filled and the crossing that bounds a fill. -/
structure ShadowLatch where
  st   : ShState
  slot : Nat
  pos  : Nat
  by_  : CN
deriving DecidableEq, Repr

/-- A latch of carry state (14 R387): tensors, the contexts' carry words, the shadow planes, and the crossing it was taken at. -/
structure Latch where
  p       : CN
  delta   : CN
  slot    : Nat
  ep      : BitVec 2
  meas    : List Byte
  frame   : List Byte
  tensors : List TensorLatch
  ctxs    : List (Nat × Ctx)
  shadow  : ShadowLatch
  valid   : Bool
  /-- Taken from a run that goes on, so that its tail counts every report of its crossings (14 R387). -/
  whole   : Bool
  /-- The drain tail has been taken. -/
  tailed  : Bool
deriving DecidableEq, Repr

/-- The pair (12). sent: statuses sent by send crossing, latest first; rx: the peer statuses that arrived, by send
crossing, with the mirror lanes that carried them. -/
structure PairState where
  cfg     : Word
  st      : PairSt
  role    : BitVec 2
  auth    : Bool
  /-- The partner's part in the pair: 0 none, 2 in probation, 3 a member; and JOINED of its latest status (R354). -/
  pst     : BitVec 3
  pjoin   : Bool
  mlanes  : BitVec 4
  cause   : BitVec 8
  side    : Bool
  kcn     : CN
  vcn     : CN
  vValid  : Bool
  mmcn    : CN
  mmSeen  : Bool
  xfer    : Dword
  digs    : List DigEnt
  sent    : List (CN × MStatus)
  rx      : List (CN × MStatus)
  /-- The send crossing of the latest release, and releases in a row without an intact status. -/
  relAt   : Option CN
  rxMiss  : Nat
  laneMiss : Tbl Nat
  /-- A fault of this member waits to be signalled as YIELD, with its cause. -/
  yieldCause : Option (BitVec 8)
  pend    : Option PendK
  probation : Nat
  /-- SEQ of the latest command packet sent, CACK, and the latest SEQs received intact (R336, R337). -/
  mseq    : Word
  cack    : Word
  taken   : List Nat
  waitCack : List MirCmd
  /-- By mirror lane: the stream to send, and the bytes of a packet received in part (none: the lane waits for an idle block). -/
  tx      : Tbl MTx
  rxBuf   : Tbl (Option (List Byte))
  /-- On the Helm: it serves a rejoin; the transfer packets sent, by SEQ. -/
  serving : Bool
  /-- On the Helm: the rejoining member has said that its step 2 has ended (R347). -/
  stepEnd : Bool
  xferOut : List (List Byte)
  /-- On the rejoining member: the transfer data received, by SEQ; whether the Helm has been told that its run is filled; mirrored
  commands that wait for the end of step 2, with their SEQ. -/
  xferGot : Tbl (List Byte)
  ready   : Bool
  defer   : List (Nat × List Byte)
  latchJ0 : Option CN
  rebaseJ : Option CN
  latch   : Option Latch
  /-- A rejoin in progress: SRC, and whether step 2 has ended. -/
  rejoin  : Option (Nat × Bool)
  takeC   : Option CN
deriving DecidableEq, Repr

/-! ### The Chronometer (13) -/

/-- CHR_STAT.STATE (13 R361). -/
inductive ChrSt where
  | unset | armed | locked
deriving DecidableEq, Repr

/-- A pulse generator: staging copy and values in force (13 R372, R377). -/
structure Pulse where
  stStart : BitVec 128
  stPer   : Word
  stWid   : Word
  start   : BitVec 128
  per     : Word
  wid     : Word
  en      : Bool
  done    : Bool
  high    : Bool
  /-- Step-free time at which the present high time ends, in 2^-16 ns. -/
  endAt   : Nat
  /-- Index of the next edge, the index after the last edge fired (R373), and the schedule (PSTART, PPER, PWID) of a commit deferred to the
  end of the present pulse (R372). -/
  nextK   : Nat
  firedK  : Nat
  defer   : Option (BitVec 128 × Word × Word)
  skip    : Dword
deriving DecidableEq, Repr

/-- A frame queued for launch (13 R371). -/
structure Launch where
  lane  : Nat
  time  : BitVec 128
  body  : List Byte
  mbx   : Nat
  jseq  : Nat
  tag   : Word
deriving DecidableEq, Repr

/-- The Chronometer. Counter mode: c, ofs, a in 2^-16 ns (96 bits); calendar mode: sec, ns, sub (R357, R358). free is the
step-free scale of R365 less the time, so that step-free time = time - steps. -/
structure Chrono where
  cfg     : Word
  st      : ChrSt
  srcX    : Bool
  stopped : Bool
  c       : BitVec 96
  ofs     : Int
  a       : BitVec 96
  sec     : Dword
  ns      : Nat
  sub     : BitVec 40
  inc     : BitVec 42
  /-- Sum of the steps applied since the last ARM, in 2^-16 ns. -/
  steps   : Int
  stStep  : BitVec 96
  stInc   : BitVec 42
  refCnt  : Dword
  lastRef : Dword
  lateCnt : Dword
  orbCn   : CN
  orbTime : BitVec 128
  pps     : Word
  ppsIn   : BitVec 128
  ppsHigh : Bool
  ppsEnd  : Nat
  /-- The last whole second that the time has reached with its edge driven or passed over, and the seconds whose edges have been driven, as
  ranges, the latest first (R374). -/
  ppsLast : Nat
  ppsRuns : List (Nat × Nat)
  pulses  : Tbl Pulse
  launches : List Launch
  /-- Orbit captures that the time service keeps: (CN, time), latest first; and stamps passed to Klowyn. -/
  captures : List (CN × BitVec 128)
  stamps  : List (BitVec 16 × BitVec 128)
  /-- Timing frames delivered to Klowyn with their ingress stamps, latest first (R368). -/
  inbox   : List (List Byte × BitVec 128)
deriving DecidableEq, Repr

/-! ### Mailboxes, journal and Klowyn (15) -/

/-- Ring entry kinds (15 R404). -/
inductive EntKind where
  | completion | effect | void
deriving DecidableEq, Repr

/-- A completion ring entry (15 R404). -/
structure RingEntry where
  tag    : Word
  op     : BitVec 16
  status : BitVec 16
  jseq   : Word
  jepoch : BitVec 16
  kind   : EntKind
  phase  : Bool
  cnAcc  : CN
  cnEff  : CN
  record : List Byte
deriving DecidableEq, Repr

/-- One mailbox (15 R399 to R401, R421). ring lists posted entries by index; cmd is the command that Klowyn holds; buf holds the bytes
of the command buffer, zeros beyond its end (at reset: DESIGN CHOICE, log entry 76); held lists what waits for room in the ring, the
completion of the command among it. -/
structure Mbx where
  busy  : Bool
  dbl   : Bool
  novf  : Bool
  held  : List RingEntry
  prod  : BitVec 6
  phase : Bool
  cons  : BitVec 6
  /-- Entries posted and not yet freed through MBX_CONS. -/
  used  : Nat
  ring  : Tbl RingEntry
  cmd   : Option KReq
  buf   : List Byte
deriving DecidableEq, Repr

/-- Journal entry states (15 R413). -/
inductive JSt where
  | accepted | done | void | failed
deriving DecidableEq, Repr

/-- A journal entry (15 R413). -/
structure JEnt where
  seq    : Nat
  mbx    : Nat
  st     : JSt
  op     : BitVec 16
  status : BitVec 16
  tag    : Word
  cnAcc  : CN
  len    : Nat
  acn    : CN
  flags  : BitVec 8
  digest : Dword
  result : Dword
  cnDone : CN
deriving DecidableEq, Repr

/-- The journal: epoch, newest SEQ, entries latest first (at most 4,096), JNL_PAGE. -/
structure Jnl where
  epoch : BitVec 16
  head  : Nat
  ents  : List JEnt
  page  : BitVec 2
deriving DecidableEq, Repr

/-- A health-log entry (15 R417). -/
structure HEnt where
  cn   : CN
  kind : BitVec 16
  src  : BitVec 16
  regs : List Byte
deriving DecidableEq, Repr

/-- One library slot (06 R181, R183), with the image as admitted. -/
structure Slot where
  used  : Bool
  gen   : BitVec 10
  img   : Image
  meas  : List Byte
  frame : List Byte
  bytes : Nat
  raw   : List Byte
deriving DecidableEq, Repr

/-- A histogram in progress (15 R407 HISTO). -/
structure Histo where
  target : Dword
  left   : Nat
  bins   : Tbl Nat
  w      : Waiting
deriving DecidableEq, Repr

/-- An admission in progress: its command, slot, decoded image, measurement, frame digest and length (06 R182). -/
structure Admission where
  w     : Waiting
  slot  : Nat
  img   : Image
  meas  : List Byte
  frame : List Byte
  bytes : Nat
  raw   : List Byte
deriving DecidableEq, Repr

/-- An entry of the logbook's event list (14 R392). -/
inductive LogEvt where
  | ccmd (cn : CN) (word : Byte)
  | cmd (w : Waiting)
  | loss (x : CN) (lane : Nat) (mask : BitVec 23)
  | pause (p : CN)
  | resume (p q : CN)
deriving DecidableEq, Repr

/-- The logbook (14 R390 to R392): mode (1 full-rate, 2 stream), the recorded lanes and their readout lanes by bytes, P0,
whether it waits for an arming, the event list, the loss queues, the LPDDR6 address of the frames staged for a stream replay (a full-rate
recording's stand in the wake buffer), the images by index, the crossing from which the recording is incomplete, and the start record: latch, seed, Δ, images by index. -/
structure LogState where
  mode    : Nat
  lanes   : Dword
  assign  : List Byte
  p0      : CN
  active  : Bool
  atArm   : Bool
  lossOvf : Bool
  evtOvf  : Bool
  events  : List LogEvt
  losses  : List LogEvt
  stage   : Nat
  broken  : Option CN
  /-- The latest lane crossing recorded. -/
  lastX   : CN
  start   : Option Latch
  seed    : Dword
  delta   : CN
  slots   : List (Nat × List Byte × List Byte)
deriving DecidableEq, Repr

/-- Klowyn's configuration record (15 R419). -/
structure KCfg where
  libg       : Nat
  standalone : Bool
  hostcmd    : Bool
  manOff     : Nat
  manLen     : Nat
deriving DecidableEq, Repr

/-- A lane alignment in progress (09 R306): the crossings left and the smallest slack seen. -/
structure Align where
  w     : Waiting
  left  : Nat
  minSl : Nat
deriving DecidableEq, Repr

/-- Klowyn: what it holds besides mailboxes and journal. -/
structure Klowyn where
  up       : Bool
  cfg      : KCfg
  waiting  : List Waiting
  longs    : List Waiting
  lib      : Tbl Slot
  admits   : List Admission
  health   : List HEnt
  healthN  : Nat
  timeEn   : Bool
  timeDom  : BitVec 8
  timeHub  : BitVec 8
  histo    : List Histo
  align    : List Align
  /-- A manifest runs: the place of its next record (R420). -/
  manPos   : Option Nat
  /-- The mailbox served last (R400); 15 at reset, so that the first turn begins at mailbox 0 (DESIGN CHOICE, log entry 76). -/
  lastMbx  : Nat
  pause    : Option Latch
  hostMgmt : List (List Byte)
deriving DecidableEq, Repr

/-! ### Host attachment and configuration integrity (16) -/

/-- The host side of the register interface. shadows are keyed by requester × 2^24 + byte offset of the higher word. -/
structure HostState where
  d3      : Bool
  idLoaded : Bool
  idDev   : Word
  idRev   : Word
  idSerial : Dword
  idFw    : Word
  idCap   : Word
  subsys  : Word
  scratch : Word
  wbase   : BitVec 8
  shadows : Tbl Word
  /-- MSI-X table words (unlisted: 0; the vector control words 4v+3 read 1, masked, at reset), pending bits, messages
  sent per vector, configuration-space words written. -/
  msix    : Tbl Word
  pend    : Dword
  sent    : Tbl Nat
  cfgw    : Tbl Word
  /-- What the latest reads returned, and the bytes that the device has written to host memory, by host address (the model's
  own observations). -/
  rdata   : List Word
  bdata   : List Byte
  /-- The number of the latest BAR4 read (the model's own), whose bursts fill bdata. -/
  rdId    : Nat
  /-- The number of the latest BAR4 write (the model's own). -/
  wrId    : Nat
  dma     : Tbl Byte
  poison  : Bool
  retry   : Bool
deriving DecidableEq, Repr

/-- The integrity engine (16 R451 to R457). Regions by r, staging and in force. -/
structure CigState where
  en     : Bool
  take   : Bool
  stale  : Bool
  learn  : Bool
  /-- The pass in progress is the one that LEARN loads (R454). -/
  learning : Bool
  stRef  : Word
  ref    : Word
  stRgn  : Tbl Word
  rgn    : Tbl Word
  last   : Word
deriving DecidableEq, Repr

/-! ### Clocks, power, boot, package (17, 18, 19) -/

/-- Clocks and monitors (17). -/
structure ClkState where
  mclkOk : Bool
  lrefOk : Bool
  xtalOk : Bool
  alock  : Bool
  oscDly : BitVec 2
  /-- MCLK as the latest arming measured it, in units of 10 Hz (R459, FREQ of CLK_MCLKF). -/
  freq   : BitVec 23
  /-- The frequency that MCLK has, in units of 10 Hz: as it recovered (R464; DESIGN CHOICE, log entry 93). -/
  mclk   : Nat
  gate   : BitVec 30
  ben    : BitVec 5
  gref   : Word
  cdc    : Word
  safe   : Bool
  /-- Sources whose recovery the device waits for. -/
  wait   : List ClkSrc
  oscRun : Bool
deriving DecidableEq, Repr

/-- A transition of level or sleep state in progress (17 R474, R477). -/
inductive PwrBusy where
  | none
  | level (pl : Nat) (w : Option Waiting)
  | sleep (st : Nat) (w : Option Waiting)
  | wake
deriving DecidableEq, Repr

/-- Power (17). Voltages in mV by quadrant. -/
structure PwrState where
  sst    : BitVec 2
  pl     : Nat
  busy   : PwrBusy
  railok : BitVec 8
  target : Tbl Nat
  read   : Tbl Nat
  trim   : Tbl Int
  wmask  : BitVec 3
  /-- Body bias of Fields and Quays, and SRAM write assist, in mV (R473, R476). -/
  bias   : Int
  assist : Int
  /-- Quay SRAM at its retention level, and LPDDR6 in self-refresh (R476). -/
  retain : Bool
  selfRef : Bool
  /-- A monitor failure has met the transition in progress (R479). -/
  failed : Bool
  /-- A WAKE that waits for a SLEEP in progress (R479). -/
  wakeReq : Bool
deriving DecidableEq, Repr

/-- An owner certificate (18 R490). -/
structure Cert where
  serial : Word
  bind   : Dword
  floor  : Word
  policy : BitVec 16
  key    : List Byte
deriving DecidableEq, Repr

/-- One copy of the STATE region: its sequence count and the journal epoch (18 R483). -/
structure EpochCopy where
  seq   : Nat
  epoch : BitVec 16
deriving DecidableEq, Repr

/-- The configuration flash (18 R482, R483): whether its SFDP table offers 8D-8D-8D mode, the bytes of its directory, the contents of the
regions by ID, and the two copies of STATE (none: damaged). -/
structure Flash where
  octal   : Bool
  dir     : List Byte
  regions : Tbl (List Byte)
  stA     : Option EpochCopy
  stB     : Option EpochCopy
deriving DecidableEq, Repr

/-- The xSPI controller as the boot ROM has set it (18 R482): SFDP read, 8D-8D-8D instead of 1S-1S-1S, clock in MHz, 4-byte addresses. -/
structure Xspi where
  sfdp  : Bool
  octal : Bool
  mhz   : Nat
  addr4 : Bool
deriving DecidableEq, Repr

/-- Boot and identity (18). Flash is held as the bytes of its regions. -/
structure BootState where
  powered : Bool
  pwrGood : Bool
  resetN  : Bool
  stage  : BitVec 4
  code   : BitVec 8
  owned  : Bool
  pufOk  : Bool
  /-- Power-up content of the PUF SRAM, and the private identity key in the cryptographic engine (0: none derived) (R495). -/
  puf    : List Byte
  idKey  : Nat
  /-- Link training is enabled (R485 step 3). -/
  link   : Bool
  /-- Klowyn as copied into Binnacle SRAM (R485 step 8). -/
  sram   : List Byte
  xspi   : Xspi
  /-- The JTAG instruction register (R498). -/
  jtagIr : BitVec 8
  brdOk  : Bool
  ksel   : BitVec 2
  stopped : Bool
  cert   : Option Cert
  certB  : Bool
  kmeas  : List Byte
  flash  : Flash
  /-- SHA-384 digests of the two vendor root keys in mask ROM. -/
  root0  : List Byte
  root1  : List Byte
  /-- Board table (09 R298) as loaded: ALLOW, LIMITS, TXEQ, RXEQ, DFE by lane × 16 bytes; subsystem IDs. -/
  board  : List Byte
  regAddr : List Byte
deriving DecidableEq, Repr

/-- The device as built: grade, disabled line (row or column) and retired columns by physical Field (02 R73, R77). -/
structure DevState where
  nc12    : Bool
  dis     : Option (Bool × Nat)
  retired : Tbl (List Nat)
deriving DecidableEq, Repr

/-- Package outputs and thermal state (19). -/
structure PkgState where
  alert   : Bool
  binOut  : Bool
  quayOut : Bool
  temps   : List Int
  trip    : Bool
  emerg   : Bool
  /-- The rails are off for a thermal shutdown, and the device waits for every sensor to cool (R521). -/
  cool    : Bool
  lastCmd : Byte
  ozRun   : Bool
deriving DecidableEq, Repr

/-! ### The state -/

/-- The state of the block. -/
structure State where
  /-- Commands that wait, first in, first out. -/
  pending : List Instr
  /-- Index of the next free value (the model's own). -/
  freeCtr : Nat
  cn      : CN
  tick    : Nat
  dev     : DevState
  clk     : ClkState
  pwr     : PwrState
  boot    : BootState
  pkg     : PkgState
  host    : HostState
  cig     : CigState
  evts    : Tbl EvtReg
  ctrs    : Tbl Dword
  flags   : Tbl Word
  mbx     : Tbl Mbx
  jnl     : Jnl
  kly     : Klowyn
  log     : LogState
  run     : RunState
  planes  : Planes
  arr     : ArrState
  wgm     : WgmState
  alm     : AlmState
  chan    : ChanState
  cap     : CapState
  mem     : Tbl Byte
  sram    : Tbl Byte
  lanes   : Tbl Lane
  sext    : Tbl Sext
  hub     : Tbl HubLane
  out     : OutState
  pair    : PairState
  chr     : Chrono
deriving DecidableEq, Repr

/-! ### Reset values -/

def EvtReg.reset : EvtReg := { bits := 0, seq := 0, last := [] }

/-- A cell after arming that the image does not use, with active epoch ep (02 R59, 06 R189); also the cell of an
unlisted key (DESIGN CHOICE, log entry 3). -/
def Cell.blank (ep : BitVec 2) : Cell :=
  { progA := [MInstr.idle], progB := [MInstr.idle], wgtA := [], wgtB := [], ws := [], acc := [], hold := [], flag := false
    rq := [], sel := false, epAct := ep, epSh := ep + 1, queues := [], onTree := false, win := 0, wtauN := 0, dly := 0
    wout := 0, seam := none, maps := [], bounds := [], wslot := none }

/-- A context's words before any image is loaded (08 R248). -/
def Ctx.reset : Ctx := { ctl := 0, dsk := 0, cal := 0, env := 0, acc := 0, done := 0, ages := [], wgm := 0 }

def Tensor.reset : Tensor :=
  { cfg := 0, rdef := 0, m := [], n := [], rNow := 0, rForce := 0, seen := false, mNow := 0, sNow := 0, next := none, last := 0
    twin := 0, fa := 0 }

def AlmTab.reset : AlmTab := { desc := none, loaded := 0, active := false, upd := [] }

def Beacon.reset : Beacon := { cfg := 0, min := 0, pat := 0, care := 0, lastCn := 0 }

def Lane.reset : Lane :=
  { cfg := 0, lock := false, anchor := false, eirx := true, eitx := true, lid := 0, cnofs := 0, flim := 0, slackLast := 0
    slackMin := 0xFFFF, txeq := 0x0003F000, rxeq := 0, dfe := 0, mq := 0, scr := 0, blocks := [], rxPos := 0, dmg := false, late := [], nextM := 0, missed := 0, skip := 0
    ueRun := 0, cand := none, burst := false, wake := false, nextX := 0, prevX := 0, known := false, fresh := false, dist := 0, odd := false, cnofsAt := none
    buf := [], hist := [], txPos := 0, txLast := [], txCn := 0, txScr := 0, txq := [], txCw := [], txOut := [], txBurst := 0, txFrac := 0 }

def Sext.reset : Sext :=
  { cfg := 0xA0000000, limit := 0x100A0805, margin := 0, busy := false, eye := 0, done := 0, streak := 0, seen := false }

def HubLane.reset : HubLane :=
  { held := [], lastX := none, histOn := false, sent := [], cx := none, inflt := 0, maxfl := 0, cxOut := 0, side := []
    sidePos := 0, rx := [], last := [] }

def Mbx.reset : Mbx :=
  { busy := false, dbl := false, novf := false, held := [], prod := 0, phase := true, cons := 0, used := 0, ring := [], cmd := none
    buf := [] }

def Pulse.reset : Pulse :=
  { stStart := 0, stPer := 0, stWid := 0, start := 0, per := 0, wid := 0, en := false, done := false, high := false
    endAt := 0, nextK := 0, firedK := 0, defer := none, skip := 0 }

def Slot.reset : Slot := { used := false, gen := 0, img := Image.none, meas := [], frame := [], bytes := 0, raw := [] }

def RunState.reset : RunState :=
  { phase := .idle, filling := false, debug := false, replay := false, partialR := false, pl := 0, slot := 0, seed := 0
    first := 0, fillEnd := 0, stopAt := none, faultAt := none, delta := 0, rshift := 0, pcn := 0, lastP := 0, pauseAt := none, resumeQ := none, pausedAt := 0
    resumed := false, reason := .none, mclkArm := 0 }

def Planes.reset : Planes :=
  { sh := .empty, shSlot := 0, fillPos := 0, fillBy := 0, actSlot := 0, actEp := 0, swW := none, swCn := 0, wpSent := false, epochs := [] }

def ArrState.reset : ArrState :=
  { cells := [], baseEp := 0, flight := [], issued := [], wpDone := [], pops := [], unf := [], sats := [], viol := [], pads := []
    edge := [], ovfPos := [], ovfCn := [], hzRec := 0, hzCn := 0, hzDet := 0 }

def WgmState.reset : WgmState := { tensors := [], clast := [], clastCn := [], hold := none, derived := none, tailTo := none }

def AlmState.reset : AlmState :=
  { tabs := [], pools := [], writes := [], catchUp := [], swaps := [], locked := false, tideOn := false, trained := false
    ueRec := [], ueCn := [], ueAt := [], found := [], acts := [], trainRk := [], refresh := [], mlimit := [], margin := [], streak := [], swapReg := 0, fixes := [], hostQ := [], libG := 512
    tabSlot := 0 }

def ChanState.reset : ChanState := { ctx := [], ring := [], bcn := [], env := [], avgDue := [], stageAt := none, levels := [] }

def CapState.reset : CapState :=
  { st := .idle, cfg := 0, win := 0, lanes := 0, a0 := 0, a0Pend := false, frames := [], filled := 0, trigCn := 0, trigSrc := 0
    lastFr := 0, mtRec := 0, mtCn := 0, cands := [], stopFr := none, sent := [] }

def OutState.reset : OutState := { recs := [], chainIn := [], fdec := 0, fdecZ := true, ictr := 0, latCn := 0, kept := [] }

/-- PAIR_CFG resets with MR 0x6 (12 R354). -/
def PairState.reset : PairState :=
  { cfg := 0x0C000000, st := .off, role := 0, auth := false, pst := 0, pjoin := false, mlanes := 0, cause := 0, side := false, kcn := 0
    vcn := 0, vValid := false, mmcn := 0, mmSeen := false, xfer := 0, digs := [], sent := [], rx := [], relAt := none, rxMiss := 0
    laneMiss := [], yieldCause := none, pend := none, probation := 0, mseq := 0, cack := 0, taken := [], waitCack := [], tx := [], rxBuf := [], serving := false, stepEnd := false, xferOut := [], xferGot := [], ready := false, defer := []
    latchJ0 := none, rebaseJ := none, latch := none, rejoin := none, takeC := none }

/-- CHR_CFG.STHR resets to 0x3E8, INC to 2^40, CHR_PPS.WIDTH to 0x064 (13 R376). -/
def Chrono.reset : Chrono :=
  { cfg := 0x3E8, st := .unset, srcX := false, stopped := false, c := 0, ofs := 0, a := 0, sec := 0, ns := 0, sub := 0
    inc := 0x10000000000, steps := 0, stStep := 0, stInc := 0x10000000000, refCnt := 0, lastRef := 0, lateCnt := 0
    orbCn := 0, orbTime := 0, pps := 0x06400000, ppsIn := 0, ppsHigh := false, ppsEnd := 0, ppsLast := 0, ppsRuns := [], pulses := []
    launches := [], captures := [], stamps := [], inbox := [] }

def Klowyn.reset : Klowyn :=
  { up := false, cfg := { libg := 512, standalone := false, hostcmd := false, manOff := 0, manLen := 0 }, waiting := []
    longs := [], lib := [], admits := [], health := [], healthN := 0, timeEn := false, timeDom := 0, timeHub := 0
    histo := [], align := [], manPos := none, lastMbx := 15, pause := none, hostMgmt := [] }

def LogState.reset : LogState :=
  { mode := 0, lanes := 0, assign := [], p0 := 0, active := false, atArm := false, lossOvf := false, evtOvf := false
    events := [], losses := [], stage := 0, broken := none, lastX := 0, start := none, seed := 0, delta := 0, slots := [] }

def HostState.reset : HostState :=
  { d3 := false, idLoaded := false, idDev := 0, idRev := 0, idSerial := 0, idFw := 0, idCap := 0, subsys := 0
    scratch := 0, wbase := 0, shadows := [], msix := [], pend := 0, sent := [], cfgw := [], rdata := [], bdata := [], rdId := 0, wrId := 0, dma := []
    poison := false, retry := false }

def CigState.reset : CigState :=
  { en := false, take := false, stale := true, learn := false, learning := false, stRef := 0, ref := 0, stRgn := [], rgn := [], last := 0 }

def ClkState.reset : ClkState :=
  { mclkOk := false, lrefOk := false, xtalOk := false, alock := false, oscDly := 0, freq := 0, mclk := 0, gate := 0, ben := 0
    gref := 0, cdc := 0, safe := false, wait := [], oscRun := false }

def PwrState.reset : PwrState :=
  { sst := 0, pl := 0, busy := .none, railok := 0, target := [], read := [], trim := [], wmask := 0, bias := 0, assist := 0, retain := false
    selfRef := false, failed := false, wakeReq := false }

def BootState.reset : BootState :=
  { powered := false, pwrGood := false, resetN := true, stage := 0, code := 0, owned := false, pufOk := false, puf := [], idKey := 0, link := false
    sram := [], xspi := { sfdp := false, octal := false, mhz := 0, addr4 := false }, jtagIr := 0xFF
    brdOk := false, ksel := 0, stopped := false, cert := none, certB := false, kmeas := []
    flash := { octal := false, dir := [], regions := [], stA := none, stB := none }, root0 := [], root1 := [], board := [], regAddr := [] }

def PkgState.reset : PkgState :=
  { alert := false, binOut := false, quayOut := false, temps := [], trip := false, emerg := false, cool := false
    lastCmd := 0, ozRun := false }

/-- The block right after RESET_N, before POWER_UP (17 R471, R472): every register at the reset value of its table, no
run, no command waiting. What the spec gives no value for stands as the assumption log says. The grade and the defect map before the boot has
read FACTORY (00 R1) are those of an NC-16F-A1 without a disabled line or retired column (DESIGN CHOICE, log entry 86). -/
def State.reset : State :=
  { pending := [], freeCtr := 0, cn := 0, tick := 0
    dev := { nc12 := false, dis := none, retired := [] }
    clk := ClkState.reset, pwr := PwrState.reset, boot := BootState.reset, pkg := PkgState.reset, host := HostState.reset
    cig := CigState.reset, evts := [], ctrs := [], flags := [], mbx := [], jnl := { epoch := 0, head := 0, ents := [], page := 0 }
    kly := Klowyn.reset, log := LogState.reset, run := RunState.reset, planes := Planes.reset, arr := ArrState.reset
    wgm := WgmState.reset, alm := AlmState.reset, chan := ChanState.reset, cap := CapState.reset, mem := [], sram := []
    lanes := [], sext := [], hub := [], out := OutState.reset, pair := PairState.reset, chr := Chrono.reset }

end Sys2Proof.Machine
end

