-- ==== Sys2Proof/Machine/Ops.lean ====
section
/-! DEFINITION. The named operations over State that the meanings share: crossing-number arithmetic, sequence-clear events
and their interrupts, counters, free values, and the readings of the armed run. -/

namespace Sys2Proof.Machine

/-- The outcome type of every meaning. -/
abbrev Out := Host.Outcome State Fault Refusal

/-! ### Crossing numbers (00 R10, R12) -/

/-- target lies in the future of now (R12). -/
def cnFuture (now target : CN) : Bool := decide (1 ≤ (target - now).toNat ∧ (target - now).toNat ≤ 2 ^ 47 - 1)

/-- a is not after b, compared as R12 compares. -/
def cnLe (a b : CN) : Bool := decide ((b - a).toNat < 2 ^ 47)

/-- a is before b. -/
def cnLt (a b : CN) : Bool := cnLe a b && decide (a ≠ b)

/-- The signed distance a - b (R12). -/
def cnDist (a b : CN) : Int := (a - b).toInt

def cnAdd (a : CN) (k : Nat) : CN := a + BitVec.ofNat 48 k
def cnSub (a : CN) (k : Nat) : CN := a - BitVec.ofNat 48 k

/-- The crossing number as 64-bit register value. -/
def cnDword (c : CN) : Dword := c.setWidth 64

/-- The presented number of a device crossing (14 R385). -/
def State.pres (s : State) (c : CN) : CN := c - s.run.delta

/-- The presented number of the present crossing. -/
def State.pcn (s : State) : CN := s.pres s.cn

/-! ### Images of the library and of the run -/

def State.libSlot (s : State) (k : Nat) : Slot := tget Slot.reset s.kly.lib k

/-- The image at a library slot. -/
def State.imgAt (s : State) (k : Nat) : Image := (s.libSlot k).img

/-- The image that the run armed. -/
def State.img (s : State) : Image := s.imgAt s.run.slot

/-- The header of the armed image; N, R_OFS, A and t are equal in every image of a family (06 R180). -/
def State.hdr (s : State) : Hdr := s.img.hdr

/-- A run is armed (00 R13). -/
def State.armed (s : State) : Bool := decide (s.run.phase ≠ .idle)

/-- The array issues: from the first crossing of the run to its end, the pause included (02 R59, 14 R386). -/
def State.live (s : State) : Bool :=
  match s.run.phase with
  | .running | .draining | .paused => true
  | _ => false

/-- L of the run (01 R28). -/
def State.latL (s : State) : Nat := s.hdr.rofs + 1 + s.hdr.a + 1

/-- The tick after the present one lies in the fill of R156. -/
def State.fillNext (s : State) : Bool :=
  s.run.filling && !(decide (s.tick + 1 ≥ s.hdr.n) && cnLe s.run.fillEnd (s.cn + 1))

/-- Reads of empty queues are handled as in a fill: in the fill of R156, and from crossing P + R_OFS + 1 of a pause on
(14 R386). The drain is exempt from no other check of the detector (05 R173; DEDUCED, log entry 91). -/
def State.fillRules (s : State) : Bool :=
  s.run.filling ||
  (match s.run.phase with
   | .draining | .paused => cnLe (cnAdd s.run.pcn (s.hdr.rofs + 1)) s.cn
   | _ => false)

/-- The image index of a library slot (06 R183). -/
def State.imgIndex (s : State) (k : Nat) : BitVec 16 := (s.libSlot k).gen ++ BitVec.ofNat 6 k

/-- The image's virtual rows (00 R4). -/
def Hdr.rows (h : Hdr) : Nat := if h.full then 1024 else 768

/-! ### Clock gating (17 R462) -/

/-- The parent of a node of CLK_GATE. -/
def gateParent (n : Nat) : Option Nat :=
  if 1 ≤ n ∧ n ≤ 20 then some 0 else if 25 ≤ n ∧ n ≤ 28 then some 29 else none

/-- A node runs: its own bit is 1, its parent runs, and no sleep state gates the array path (17 R462, R476). -/
def State.nodeRuns (s : State) (n : Nat) : Bool :=
  s.clk.gate.getLsbD n && (match gateParent n with
    | some p => s.clk.gate.getLsbD p
    | none => true) && (decide (21 ≤ n) || decide (s.pwr.sst = 0))

/-- The clock of a physical Field, of a Quay's array side, of its LPDDR6 interface and of its lanes runs. -/
def State.fieldRuns (s : State) (f : Nat) : Bool := s.nodeRuns (1 + f)
def State.quayRuns (s : State) (q : Nat) : Bool := s.nodeRuns (17 + q)
def State.qmemRuns (s : State) (q : Nat) : Bool := s.nodeRuns (21 + q)
def State.qlnRuns (s : State) (q : Nat) : Bool := s.nodeRuns (25 + q)

/-! ### Free values -/

/-- Takes the next index of free values. -/
def State.bumpFree (s : State) : State := { s with freeCtr := s.freeCtr + 1 }

/-! ### Events (16 R427, R428, R439) -/

/-- The table key of an event register. -/
def EvtId.code : EvtId → Nat
  | .lnk l => l
  | .sxt l => 64 + l
  | .chn l => 128 + l
  | .fld f => 192 + f
  | .wgmF v => 208 + v
  | .wgmC q => 224 + q
  | .alm q => 228 + q
  | .cap => 232
  | .pair => 233
  | .chr => 234
  | .cig => 235
  | .hst => 236
  | .clk => 237
  | .pwr => 238
  | .runLat => 239
  | .runHz => 240

/-- The MSI-X vector of an event register (R427). -/
def EvtId.vector : EvtId → Nat
  | .lnk _ => 21
  | .sxt _ => 21
  | .chn _ => 21
  | .fld _ => 17
  | .wgmF _ => 18
  | .wgmC _ => 18
  | .alm _ => 19
  | .cap => 20
  | .pair => 22
  | .chr => 23
  | .cig => 24
  | .hst => 25
  | .clk => 26
  | .pwr => 26
  | .runLat => 16
  | .runHz => 16

def State.evt (s : State) (i : EvtId) : EvtReg := tget EvtReg.reset s.evts i.code

/-- The vector control word of vector v: bit 0 masks it; it resets to 1 (PRESUMED, log entry 14). -/
def State.msixCtl (s : State) (v : Nat) : Word := tget 1 s.host.msix (4 * v + 3)

/-- The word of the MSI-X capability with its message control: Enable is bit 31, Function Mask bit 30, both 0 at reset (PRESUMED, log
entries 14 and 95). -/
def State.msixMc (s : State) : Word := tget 0x003F6011 s.host.cfgw 20

/-- Vector v may not be sent: masked by its own bit or by the function mask, or MSI-X is not enabled (PRESUMED, log entry 14). -/
def State.msixMasked (s : State) (v : Nat) : Bool := (s.msixCtl v).getLsbD 0 || s.msixMc.getLsbD 30 || !s.msixMc.getLsbD 31

/-- Signals vector v, or sets its pending bit where it is masked (R428). -/
def State.signal (s : State) (v : Nat) : State :=
  if s.msixMasked v then
    { s with host := { s.host with pend := s.host.pend ||| (1 : Dword) <<< v } }
  else
    { s with host := { s.host with sent := tset s.host.sent v (tget 0 s.host.sent v + 1) } }

/-- The register after an event of the bits of m in one clock cycle (R439). -/
def EvtReg.raise (r : EvtReg) (m : Word) : EvtReg :=
  let q := r.seq + 1
  { bits := r.bits ||| m
    seq := q
    last := (List.range 32).foldl (fun t b => if m.getLsbD b then tset t b q else t) r.last }

/-- An event: bits of m set, SEQ advanced, the vector signalled where a bit of m goes from 0 to 1 (R63, R428, R439). With
m zero nothing happens. -/
def State.raise (s : State) (i : EvtId) (m : Word) : State :=
  if m = 0 then s else
  let r := s.evt i
  let s1 := { s with evts := tset s.evts i.code (r.raise m) }
  if m &&& ~~~r.bits = 0 then s1 else s1.signal i.vector

/-- A single event bit. -/
def State.raiseBit (s : State) (i : EvtId) (b : Nat) : State := s.raise i ((1 : Word) <<< b)

/-- The register after a write of q to its clear alias that is valid (R440). -/
def EvtReg.clear (r : EvtReg) (q : Word) : EvtReg :=
  { r with bits := (List.range 32).foldl (fun w b =>
      if r.bits.getLsbD b && decide ((q - tget 0 r.last b).toNat ≥ 2 ^ 31) then w ||| (1 : Word) <<< b else w) 0 }

/-- A write to the clear alias (R440, R441). -/
def State.clearAlias (s : State) (i : EvtId) (q : Word) : State :=
  let r := s.evt i
  if (r.seq - q).toNat < 2 ^ 31 then
    let r' := r.clear q
    let s1 := { s with evts := tset s.evts i.code r' }
    if r'.bits = 0 then s1 else s1.signal i.vector
  else s.raiseBit .hst 4

/-- The whole 64-bit value of an event register. -/
def EvtReg.value (r : EvtReg) : Dword := r.seq ++ r.bits

/-! ### Counters -/

/-- The table key of a counter. -/
def CtrId.code : CtrId → Nat
  | .fldOvf f => f
  | .fldUnf f => 16 + f
  | .fldEpd f => 32 + f
  | .wgmCsat q => 48 + q
  | .wgmCfa q => 52 + q
  | .almSlk q => 56 + q
  | .almDlk q => 60 + q
  | .almMiss q => 64 + q
  | .almNokey q => 68 + q
  | .almCe q => 72 + q
  | .almUe q => 76 + q
  | .capIgnPre => 80
  | .capIgnBusy => 81
  | .capIgnDrain => 82
  | .capMtv => 83
  | .capFill => 84
  | .capAvg => 85
  | .bcnHit b => 86 + b
  | .hstWdrop => 102
  | .hstPoison => 103
  | .cigPass => 104
  | .clkFlush => 105
  | .ccInv => 106
  | .ccOz => 107
  | .deviation => 108
  | .pair k => 110 + k
  | .lnk l k => 1000 + 8 * l + k
  | .hub l k => 2000 + 8 * l + k
  | .wgmTsat v t => 4096 + 64 * v + t

def State.ctr (s : State) (i : CtrId) : Dword := tget 0 s.ctrs i.code

/-- Counts k upwards without wrapping. -/
def satAdd (w : Dword) (k : Nat) : Dword := BitVec.ofNat 64 (min (w.toNat + k) (2 ^ 64 - 1))

def State.count (s : State) (i : CtrId) (k : Nat) : State :=
  { s with ctrs := tput 0 s.ctrs i.code (satAdd (s.ctr i) k) }

def State.clearCtr (s : State) (i : CtrId) : State := { s with ctrs := tdel s.ctrs i.code }

/-! ### Table fields of State -/

def State.cellAt (s : State) (k : Nat) : Cell := tget (Cell.blank s.arr.baseEp) s.arr.cells k
def State.setCell (s : State) (k : Nat) (c : Cell) : State :=
  { s with arr := { s.arr with cells := tset s.arr.cells k c } }
def State.lane (s : State) (l : Nat) : Lane := tget Lane.reset s.lanes l
def State.setLane (s : State) (l : Nat) (x : Lane) : State := { s with lanes := tset s.lanes l x }
def State.sextOf (s : State) (l : Nat) : Sext := tget Sext.reset s.sext l
def State.setSext (s : State) (l : Nat) (x : Sext) : State := { s with sext := tset s.sext l x }
def State.hubOf (s : State) (l : Nat) : HubLane := tget HubLane.reset s.hub l
def State.setHub (s : State) (l : Nat) (x : HubLane) : State := { s with hub := tset s.hub l x }
def State.ctxOf (s : State) (x : Nat) : Ctx := tget Ctx.reset s.chan.ctx x
def State.setCtx (s : State) (x : Nat) (c : Ctx) : State :=
  { s with chan := { s.chan with ctx := tput Ctx.reset s.chan.ctx x c } }
def State.tensor (s : State) (k : Nat) : Tensor := tget Tensor.reset s.wgm.tensors k
def State.setTensor (s : State) (k : Nat) (t : Tensor) : State :=
  { s with wgm := { s.wgm with tensors := tset s.wgm.tensors k t } }
def State.mbxOf (s : State) (m : Nat) : Mbx := tget Mbx.reset s.mbx m
def State.setMbx (s : State) (m : Nat) (x : Mbx) : State := { s with mbx := tset s.mbx m x }
def State.tab (s : State) (t : Nat) : AlmTab := tget AlmTab.reset s.alm.tabs t
def State.setTab (s : State) (t : Nat) (x : AlmTab) : State := { s with alm := { s.alm with tabs := tset s.alm.tabs t x } }
def State.beacon (s : State) (b : Nat) : Beacon := tget Beacon.reset s.chan.bcn b
def State.setBeacon (s : State) (b : Nat) (x : Beacon) : State :=
  { s with chan := { s.chan with bcn := tset s.chan.bcn b x } }

/-! ### Record flags -/

/-- Sets FLAGS bits of every input crossing in whose array window the present crossing lies (10 R318). -/
def State.flagWindow (s : State) (b : BitVec 13) : State :=
  let inWin (r : OutRec) : Bool :=
    cnLe (cnAdd r.c (s.hdr.rofs + 1)) s.cn && cnLe s.cn (cnAdd r.c (s.hdr.rofs + s.hdr.a))
  let recs := s.out.recs.map fun r => if inWin r then { r with flags := r.flags ||| b } else r
  { s with out := { s.out with recs := recs } }

/-- bitlen: 0 for 0, otherwise one more than the highest set bit (04 R127). -/
def bitlen (n : Nat) : Nat := if n = 0 then 0 else Nat.log2 n + 1

/-! ### Bytes -/

/-- n little-endian bytes of a number. -/
def leBytes (n v : Nat) : List Byte :=
  match n with
  | 0 => []
  | n + 1 => BitVec.ofNat 8 v :: leBytes n (v / 256)

/-- The number that little-endian bytes spell. -/
def leNat : List Byte → Nat
  | [] => 0
  | b :: bs => b.toNat + 256 * leNat bs

/-- n bytes of a list from place i, zeros beyond its end. -/
def bytesAt (l : List Byte) (i n : Nat) : List Byte := (List.range n).map fun k => (l.drop i).getD k 0

/-- The LPDDR6 byte address of BAR4 offset o under HST_WBASE base (16 R425, R430). -/
def bar4At (base : BitVec 8) (o : Nat) : Nat := min base.toNat 240 * 2 ^ 30 + o

/-- The LPDDR6 address of a command's staging offset (DEDUCED, log entry 89). -/
def Waiting.staged (w : Waiting) (o : Nat) : Nat := bar4At w.base o

/-- The little-endian number of n bytes at place i. -/
def leAt (l : List Byte) (i n : Nat) : Nat := leNat (bytesAt l i n)

end Sys2Proof.Machine
end

