-- ==== Sys2Proof/Machine/Klowyn.lean ====
section
/-! DEFINITION. What Klowyn's commands share (15_binnacle_mailboxes.md): completion rings, notices, the journal, the health
log, the raising of a fault, and the checks of R405 that every command passes in order. -/

namespace Sys2Proof.Machine

/-! ### Rings (R401) -/

/-- The mailbox with an entry posted at MBX_PROD; BUSY falls with a completion (R400). -/
def Mbx.push (b : Mbx) (e : RingEntry) : Mbx :=
  { b with busy := b.busy && decide (e.kind ≠ .completion), ring := tset b.ring b.prod.toNat { e with phase := b.phase }
           prod := b.prod + 1, phase := if b.prod = 63 then !b.phase else b.phase, used := b.used + 1 }

/-- Notices held for want of room: NHELD. -/
def Mbx.notices (b : Mbx) : Nat := b.held.countP fun e => decide (e.kind ≠ .completion)

/-- Posts an entry, or holds it where the ring is full; a notice beyond 256 held ones is discarded, a completion never is (R401). -/
def State.post (s : State) (m : Nat) (e : RingEntry) : State :=
  if m < 16 then
    let b := s.mbxOf m
    if b.used < 64 ∧ b.held = [] then (s.setMbx m (b.push e)).signal m
    else if e.kind = .completion ∨ b.notices < 256 then s.setMbx m { b with held := b.held ++ [e] }
    else s.setMbx m { b with novf := true }
  else s

/-- Posts held entries, at most k, while the ring has room; each posting raises the vector. -/
def State.drainHeld (s : State) (m : Nat) : Nat → State
  | 0 => s
  | k + 1 =>
    match (s.mbxOf m).held with
    | [] => s
    | e :: r =>
      if (s.mbxOf m).used < 64 then State.drainHeld ((s.setMbx m { ((s.mbxOf m).push e) with held := r }).signal m) m k else s

/-- A write of i to MBX_CONS (R401): the entries read are freed and held entries posted. -/
def State.consWrite (s : State) (m : Nat) (i : BitVec 6) : State :=
  let b := s.mbxOf m
  let s1 := s.setMbx m { b with cons := i, used := b.used - (i - b.cons).toNat }
  s1.drainHeld m b.held.length

/-! ### Journal (R413 to R415) -/

/-- Appends a journal entry under the next SEQ. -/
def State.jAdd (s : State) (e : JEnt) : State :=
  { s with jnl := { s.jnl with head := s.jnl.head + 1
                               ents := ({ e with seq := s.jnl.head + 1 } :: s.jnl.ents).take 4096 } }

/-- Ends the entry of sequence q, where it still stands ACCEPTED (R414). -/
def State.jEnd (s : State) (q : Nat) (st : JSt) (status : BitVec 16) (result : Dword) : State :=
  let upd (e : JEnt) : JEnt :=
    if e.seq = q ∧ e.st = .accepted then
      { e with st := st, status := status, result := if e.mbx = 255 then e.result else result, cnDone := s.cn }
    else e
  { s with jnl := { s.jnl with ents := s.jnl.ents.map upd } }

/-- The FLAGS byte of a command header (R402). -/
def hdrFlags (h : CmdHdr) : BitVec 8 := (if h.at_ then 1 else 0) ||| (if h.rel then 2 else 0)

/-- DIGEST of R413. -/
def bodyDigest (l : List Byte) : Dword := if l = [] then 0 else crc64 l

/-! ### Records (05 R169) -/

/-- The fields of a refusal record; what a code does not name holds all ones. -/
structure Refuse where
  code   : Nat
  sect   : Nat := 0xFF
  port   : Nat := 0xFF
  x      : Nat := 0xFFFF
  y      : Nat := 0xFFFF
  tau    : Nat := 0xFFFF
  entry  : Nat := 0xFF
  item   : Nat := 0xFFFFFFFF
  expect : Nat := 0xFFFFFFFF
  found  : Nat := 0xFFFFFFFF
  x2     : Nat := 0xFFFF
  y2     : Nat := 0xFFFF
deriving DecidableEq, Repr

/-- The 32-byte record (R169). -/
def Refuse.record (r : Refuse) : List Byte :=
  leBytes 2 r.code ++ leBytes 1 r.sect ++ leBytes 1 r.port ++ leBytes 2 r.x ++ leBytes 2 r.y ++ leBytes 2 r.tau ++
  leBytes 1 r.entry ++ [0] ++ leBytes 4 r.item ++ leBytes 4 r.expect ++ leBytes 4 r.found ++ leBytes 2 r.x2 ++
  leBytes 2 r.y2 ++ [0, 0, 0, 0]

/-- The bytes 32 to 63 of a success completion: RESULT, then zeros (R404). -/
def resultRec (r : Dword) : List Byte := leBytes 8 r.toNat ++ List.replicate 24 0

/-! ### Completions and notices (R400, R404, R410) -/

/-- Klowyn drops its copy of mailbox m's command. -/
def State.unbusy (s : State) (m : Nat) : State :=
  if m < 16 then s.setMbx m { s.mbxOf m with cmd := none } else s

/-- The entry of a command. -/
def ringEntry (s : State) (r : KReq) (kind : EntKind) (status jseq : Nat) (cnAcc cnEff : CN) (rec32 : List Byte) :
    RingEntry :=
  { tag := r.hdr.tag, op := r.op, status := BitVec.ofNat 16 status, jseq := BitVec.ofNat 32 jseq, jepoch := s.jnl.epoch
    kind := kind, phase := false, cnAcc := cnAcc, cnEff := cnEff, record := rec32 }

/-- The command buffer with bytes l written from place i. -/
def Mbx.write (b : Mbx) (i : Nat) (l : List Byte) : Mbx :=
  { b with buf := (bytesAt b.buf 0 i ++ l ++ b.buf.drop (i + l.length)).take 4096 }

/-- The n bytes of the command buffer from byte 64: a body, or results longer than 32 bytes. -/
def Mbx.body (b : Mbx) (n : Nat) : List Byte := bytesAt b.buf 64 n

/-- Writes results longer than 32 bytes into the command buffer from byte 64 (R400). -/
def State.setBuf (s : State) (m : Nat) (l : List Byte) : State :=
  if m < 16 ∧ l ≠ [] then s.setMbx m ((s.mbxOf m).write 64 l) else s

/-! ### BAR2 (R399, R404) -/

/-- KIND of a ring entry (R404). -/
def EntKind.code : EntKind → Nat
  | .completion => 1
  | .effect => 2
  | .void => 3

/-- The 64 bytes of a ring entry (R404). -/
def RingEntry.bytes (e : RingEntry) : List Byte :=
  leBytes 4 e.tag.toNat ++ leBytes 2 e.op.toNat ++ leBytes 2 e.status.toNat ++ leBytes 4 e.jseq.toNat ++ leBytes 2 e.jepoch.toNat ++
  leBytes 1 e.kind.code ++ leBytes 1 (if e.phase then 1 else 0) ++ leBytes 6 e.cnAcc.toNat ++ [0, 0] ++ leBytes 6 e.cnEff.toNat ++ [0, 0] ++
  bytesAt e.record 0 32

/-- The byte at a BAR2 offset (R399): command buffer, completion ring, zero beyond the mailboxes. An index of the ring at which nothing
has been posted reads 0 (DESIGN CHOICE, log entry 76). -/
def State.bar2 (s : State) (off : Nat) : Byte :=
  if 0x20000 ≤ off then 0
  else
    let b := s.mbxOf (off / 0x2000)
    let o := off % 0x2000
    if o < 0x1000 then b.buf.getD o 0
    else match tfind b.ring ((o - 0x1000) / 64) with
      | some e => e.bytes.getD (o % 64) 0
      | none => 0

/-- Posts the completion of a refused command: its record, no journal entry (R405, R413). -/
def State.refuse (s : State) (m : Nat) (r : KReq) (f : Refuse) : State :=
  (s.post m (ringEntry s r .completion f.code 0 s.cn 0 f.record)).unbusy m

/-- Posts a success completion of journal sequence q (0 for a query). -/
def State.complete (s : State) (m : Nat) (r : KReq) (q : Nat) (cnAcc : CN) (result : Dword) (buf : List Byte) : State :=
  ((s.setBuf m buf).post m (ringEntry s r .completion 0 q cnAcc 0 (resultRec result))).unbusy m

/-- The completion of a mirrored command waits for the Watch's CACK (12 R338). -/
def State.awaitsCack (s : State) (q : Nat) : Bool := s.pair.waitCack.any fun c => c.w.jseq == q

/-- Ends a long command without success: its completion carries a status (R405 ABORTED, R412). -/
def State.abortLong (s : State) (w : Waiting) (f : Refuse) : State :=
  let s1 := s.jEnd w.jseq .failed (BitVec.ofNat 16 f.code) 0
  let p1 := { s1.pair with waitCack := s1.pair.waitCack.filter fun c => c.w.jseq != w.jseq }
  let s2 := { s1 with pair := p1 }
  (s2.post w.mbx (ringEntry s2 w.req .completion f.code w.jseq w.cnAcc 0 f.record)).unbusy w.mbx

/-- Ends a long command with success; the completion follows at once, or at the CACK of a mirrored command. -/
def State.endLong (s : State) (w : Waiting) (result : Dword) (buf : List Byte) : State :=
  let s1 := s.jEnd w.jseq .done 0 result
  let note (c : MirCmd) : MirCmd := if c.w.jseq = w.jseq then { c with result := result, buf := buf } else c
  if s1.awaitsCack w.jseq then { s1 with pair := { s1.pair with waitCack := s1.pair.waitCack.map note } } else s1.complete w.mbx w.req w.jseq w.cnAcc result buf

/-- DONE with the crossing of effect as CNDONE (R410, R413), where the entry still stands ACCEPTED. -/
def State.jEffect (s : State) (q : Nat) (cnEff : CN) : State :=
  let upd (e : JEnt) : JEnt :=
    if e.seq = q ∧ e.st = .accepted then
      { e with st := .done, status := 0, result := if e.mbx = 255 then e.result else 0, cnDone := cnEff }
    else e
  { s with jnl := { s.jnl with ents := s.jnl.ents.map upd } }

/-- The notice that an announced command's effect is complete (R410). -/
def State.effectNotice (s : State) (w : Waiting) (cnEff : CN) : State :=
  let s1 := s.jEffect w.jseq cnEff
  s1.post w.mbx (ringEntry s1 w.req .effect 0 w.jseq w.cnAcc cnEff (List.replicate 32 0))

/-- The notice that an announced command became void (R388, R410). -/
def State.voidNotice (s : State) (w : Waiting) (st : JSt) (status : Nat) : State :=
  let s1 := s.jEnd w.jseq st (BitVec.ofNat 16 status) 0
  s1.post w.mbx (ringEntry s1 w.req .void status w.jseq w.cnAcc 0 (List.replicate 32 0))

/-- The commands that wait for the present crossing with opcode op, in ascending journal sequence (R409). -/
def State.dueNow (s : State) (op : Nat) (c : CN) : List Waiting :=
  s.kly.waiting.filter fun w => w.req.op.toNat == op && decide (w.at_ = c)

/-- Drops a waiting command. -/
def State.dropWaiting (s : State) (q : Nat) : State :=
  { s with kly := { s.kly with waiting := s.kly.waiting.filter fun w => w.jseq != q } }

/-- The long command in progress with opcode op, if any. -/
def State.longOf (s : State) (op : Nat) : Option Waiting := s.kly.longs.find? fun w => w.req.op.toNat == op

/-- Drops a long command. -/
def State.dropLong (s : State) (w : Waiting) : State :=
  { s with kly := { s.kly with longs := s.kly.longs.filter fun x => x.jseq != w.jseq || x.mbx != w.mbx } }

/-! ### Side streams (10 R321, R418) -/

/-- Lanes in the hub role, in order of lane index: hub lane j is entry j (10 R320). -/
def State.hubLanes (s : State) : List Nat :=
  (List.range 64).filter fun l => decide ((s.lane l).cfg.extractLsb' 29 3 = 4)

/-- The packet's length with its header. -/
def Pkt.len (p : Pkt) : Nat := 8 + p.body.length

/-- The packet fits the 64 KiB of the lane's queue. -/
def HubLane.room (h : HubLane) (p : Pkt) : Bool := decide ((h.side.map Pkt.len).sum + p.len ≤ 65536)

/-- Queues a packet on a lane's side stream; one that does not fit is discarded and counted (10 R321, R328). -/
def State.sideQueue (s : State) (l : Nat) (p : Pkt) : State :=
  let h := s.hubOf l
  if h.room p then s.setHub l { h with side := h.side ++ [p] }
  else (s.count (.hub l 4) 1).raiseBit (.chn l) 2

/-- A management packet (R418). -/
def mgmtPkt (cls : Byte) (body : List Byte) : Pkt := { typ := 3, body := cls :: (List.replicate 7 0 ++ body), ingress := none, launch := none }

/-! ### Health log and faults (R417, 01 R37, 12 R341, R353) -/

/-- The 32 bytes of a health entry (R417). -/
def HEnt.bytes (e : HEnt) : List Byte := leBytes 6 e.cn.toNat ++ leBytes 2 e.kind.toNat ++ leBytes 2 e.src.toNat ++ bytesAt e.regs 0 22

/-- Writes a health entry; where a hub lane has room it also goes out as a management packet of class 0x02, on the first
such lane. -/
def State.healthAdd (s : State) (kind src : Nat) (regs : List Byte) : State :=
  let e : HEnt := { cn := s.cn, kind := BitVec.ofNat 16 kind, src := BitVec.ofNat 16 src, regs := regs.take 22 }
  let s1 := { s with kly := { s.kly with health := (e :: s.kly.health).take 1024, healthN := s.kly.healthN + 1 } }
  let p := mgmtPkt 2 e.bytes
  match s1.hubLanes.find? fun l => (s1.hubOf l).room p with
  | some l => s1.sideQueue l p
  | none => s1

/-! ### The logbook's event list (14 R392) -/

/-- Entries of 64 bytes that an event takes: a command's body longer than the 32 bytes beside its fields goes on in further
entries (DESIGN CHOICE, log entry 26). -/
def LogEvt.size : LogEvt → Nat
  | .cmd w => 1 + (w.req.body.length + 31) / 64
  | _ => 1

/-- From this crossing on the recording is incomplete. -/
def State.breakLog (s : State) : State :=
  { s with log := { s.log with broken := s.log.broken.orElse fun _ => some s.cn } }

/-- Enters an event; a full list sets EVTOVF. -/
def State.logEvent (s : State) (e : LogEvt) : State :=
  if !s.log.active then s
  else if (s.log.events.map LogEvt.size).sum + e.size > 16384 then
    ({ s with log := { s.log with evtOvf := true } }).breakLog
  else { s with log := { s.log with events := s.log.events ++ [e] } }

/-- The Quay whose queue holds a loss entry. -/
def LogEvt.quay : LogEvt → Nat
  | .loss _ l _ => l / 16
  | _ => 0

/-- Queues a loss entry at its Quay; a full queue, of 4,096 entries, sets LOSSOVF. -/
def State.logLoss (s : State) (e : LogEvt) : State :=
  if !s.log.active then s
  else if 4096 ≤ s.log.losses.countP fun x => decide (x.quay = e.quay) then ({ s with log := { s.log with lossOvf := true } }).breakLog
  else { s with log := { s.log with losses := s.log.losses ++ [e] } }

/-- Klowyn drains the loss queues into the event list. -/
def State.drainLosses (s : State) : State :=
  s.log.losses.foldl State.logEvent { s with log := { s.log with losses := [] } }

/-! ### Flushed crossings (17 R469) -/

/-- A clock crossing flushed because the domain `reset` was reset: n entries discarded (17 R469, R480). -/
def State.flushCrossing (s : State) (reset peer n : Nat) : State :=
  (({ s with clk := { s.clk with cdc := BitVec.ofNat 32 (16 * reset + peer) } }).count .clkFlush n).raiseBit .clk 4

/-- A reset of domain `reset`, seen from `peer`, which flushes the crossing and holds it until the reset side is ready (17 R469): Klowyn runs
again, the endpoint answers, the lane or the array is started. How many entries stand in its queues is open (DESIGN CHOICE, log entry 103). -/
def State.peerReset (s : State) (reset peer : Nat) : State := s.bumpFree.flushCrossing reset peer (Config.freeNat s.freeCtr)

/-! ### Covered words (16 R451, R454) -/

/-- The words of the fixed set that commands, commits and writes change. -/
def State.covKey (s : State) : List Word :=
  ((List.range 64).flatMap fun l =>
    let x := s.lane l
    let y := s.sextOf l
    [x.cfg, x.cnofs.setWidth 32, BitVec.ofNat 32 x.flim, x.txeq, x.rxeq, x.dfe, y.cfg, y.limit]) ++
  ((List.range 16).flatMap fun b => [(s.beacon b).cfg, (s.beacon b).min]) ++
  [s.pair.cfg, s.cap.cfg, s.cap.win, s.cap.lanes.extractLsb' 0 32, s.cap.lanes.extractLsb' 32 32, s.chr.cfg, s.chr.pps,
    s.clk.gate.setWidth 32, s.clk.ben.setWidth 32, s.pwr.wmask.setWidth 32] ++
  ((List.range 4).map fun q => tget 0x241A281C s.alm.mlimit q) ++
  (s.wgm.tensors.flatMap fun p => [BitVec.ofNat 32 p.1, p.2.cfg, p.2.rdef])

/-- A covered word has changed: STALE; a learning pass in progress starts anew. With learn, Klowyn writes LEARN (R454). -/
def State.coverChange (s : State) (learn : Bool) : State :=
  { s with cig := { s.cig with stale := true, learn := s.cig.learn || learn, learning := !s.cig.en } }

/-- The state after a change, with STALE where a covered word differs from the state before. -/
def State.covered (s old : State) (learn : Bool) : State := if s.covKey = old.covKey then s else s.coverChange learn

/-- A region in force covers a word at byte offsets lo to hi - 1 of BAR0. -/
def State.regionMeets (s : State) (lo hi : Nat) : Bool :=
  s.cig.rgn.any fun p =>
    let ofs := 4 * (p.2.extractLsb' 0 23).toNat
    let n := 4 * (p.2.extractLsb' 23 9).toNat
    decide (n ≠ 0 ∧ lo < ofs + n ∧ ofs < hi)

/-! ### Histograms (15 R407 HISTO) -/

/-- The 33 bins as the buffer holds them, 8 bytes each (DESIGN CHOICE, log entry 30). -/
def Histo.bytes (h : Histo) : List Byte := (List.range 33).flatMap fun b => leBytes 8 (tget 0 h.bins b)

/-- A histogram with one more sample, where it is taken at the target: counted by bitlen. -/
def Histo.sample (target mag : Nat) (h : Histo) : Histo :=
  if h.target.toNat ≠ target then h
  else { h with bins := tset h.bins (bitlen mag) (tget 0 h.bins (bitlen mag) + 1), left := h.left - 1 }

/-- A magnitude measured at a target: the histograms in progress there count it, and one completes at its last sample. -/
def State.histoTake (s : State) (target : Nat) (mag : Nat) : State :=
  let hs := s.kly.histo.map (Histo.sample target mag)
  let s1 := { s with kly := { s.kly with histo := hs.filter fun h => decide (h.left ≠ 0) } }
  (hs.filter fun h => decide (h.left = 0)).foldl (fun u h => (u.dropLong h.w).endLong h.w 0 h.bytes) s1

/-- The device runs in pair mode (12 R354). -/
def State.pairMode (s : State) : Bool := decide (s.pair.cfg.extractLsb' 30 2 = 1)

/-- The device runs beside a partner: pair mode, the peer neither lost nor gone (12 R351 to R353). -/
def State.paired (s : State) : Bool := s.pairMode && decide (s.pair.st ≠ .lost) && decide (s.pair.pst ≠ 0)

/-- A fault of this device (01 R37): logged, marked in the records of the window (10 R318), and, while a run is armed, it
stops a solo run at the end of this crossing or raises YIELD in a pair (12 R341, R352, R353). A Helm that serves a rejoin stops like a solo device,
and its frame tells the rejoining member (12 R351). Kind codes of the health
log: 1 margin, 2 fault, 3 yield, 4 refused step, 5 temperature, 6 rejected Klowyn copy, 7 manifest, 8 STATE region. -/
def State.fault (s : State) (cause : BitVec 8) (src : Nat) : State :=
  let s1 := (s.healthAdd 2 src [cause]).flagWindow 0x002
  if s1.armed then
    let y := { s1.pair with yieldCause := s1.pair.yieldCause.orElse fun _ => some cause }
    if s1.paired then { s1 with pair := y }
    else { s1 with run := { s1.run with faultAt := some s1.cn }, pair := if s1.pairMode && s1.pair.serving then y else s1.pair }
  else s1

end Sys2Proof.Machine
end

