-- ==== Sys2Proof/Machine/Container.lean ====
section
/-! DEFINITION. The Lomquet image container (06 R178, R179) and the reading of its sections into the records of Image.lean,
with the structure checks of 05 R525. Where the spec gives a section no byte layout (HDR, PROG, WGT, INIT, RQP, WGMD, and
the packing of PATH and JOIN records), the layout is the model's (DESIGN CHOICE, log entry 8). -/

namespace Sys2Proof.Machine

/-! ### Header and directory (R178) -/

/-- One directory entry. -/
structure DirEnt where
  id  : Nat
  pad : Nat
  len : Nat
  off : Nat
deriving DecidableEq, Repr

def dirOf (b : List Byte) : List DirEnt :=
  (List.range (leAt b 6 2)).map fun i =>
    let e := b.drop (64 + 16 * i)
    { id := leAt e 0 2, pad := leAt e 2 2, len := leAt e 4 4, off := leAt e 8 8 }

/-- The bytes of the section with this ID. -/
def sectBytes (b : List Byte) (id : Nat) : List Byte :=
  match (dirOf b).find? fun e => e.id == id with
  | some e => (b.drop e.off).take e.len
  | none => []

/-- A directory entry with its offset set to zero (06 R180). -/
def DirEnt.bare (e : DirEnt) : List Byte := leBytes 2 e.id ++ leBytes 2 0 ++ leBytes 4 e.len ++ leBytes 8 0

/-- Sections of these IDs, each preceded by its bare directory entry (06 R180, 14 R381, 18 R494). -/
def digestInput (b : List Byte) (ids : List Nat) : List Byte :=
  ((dirOf b).filter fun e => ids.contains e.id).flatMap fun e => e.bare ++ (b.drop e.off).take e.len

/-- Keys strictly rising. -/
def rising : List Nat → Bool
  | a :: b :: r => decide (a < b) && rising (b :: r)
  | _ => true

/-- A record of a section that breaks its structure (R525): its index, and the value required and held where there are such. -/
structure Flaw where
  item   : Nat
  expect : Nat := 0xFFFFFFFF
  found  : Nat := 0xFFFFFFFF

/-- The first record that fails, by the keys of the records from number k on (R161, R525): it breaks a condition of its own, or its key does not
rise above that of the record before it; equal keys may be allowed. -/
def recordsBad (equal : Bool) (f : Nat → Option Flaw) : Nat → Option Nat → List Nat → Option Flaw
  | _, _, [] => none
  | k, prev, b :: r =>
    (f k).orElse fun _ =>
      if (prev.map fun a => decide (a < b ∨ (equal ∧ a = b))).getD true then recordsBad equal f (k + 1) (some b) r else some { item := k }

/-- The first record that fails, of a section whose records have these keys. -/
def sectionBad (equal : Bool) (keys : List Nat) (f : Nat → Option Flaw) : Option Flaw := recordsBad equal f 0 none keys

/-- The first flaw of a list. -/
def firstFlaw : List (Option Flaw) → Option Flaw
  | [] => none
  | some f :: _ => some f
  | none :: l => firstFlaw l

/-- The flaw of the earlier record. -/
def earlierFlaw (a b : Option Flaw) : Option Flaw :=
  match a, b with
  | some f, some g => if g.item < f.item then some g else some f
  | none, g => g
  | f, none => f

/-- A count or value v that must lie between lo and hi; the limit that it breaks stands in expect. -/
def outside (i lo hi v : Nat) : Option Flaw :=
  if v < lo then some { item := i, expect := lo, found := v } else if v > hi then some { item := i, expect := hi, found := v } else none

/-- The refusal of a section. -/
def secBad (s : Nat) : Refuse := { code := 0x0101, sect := s }

/-- Sections that may not be empty (R157, R179). -/
def neverEmpty : List Nat := [0x01, 0x02, 0x06, 0x07, 0x08, 0x09, 0x0B, 0x10]

/-- The container's checks: header, directory, presence and length of every section (R157, R178, R179, 0x0101). len is the
length the command names. TIDE may be empty only where ALMT is. -/
def containerBad (b : List Byte) (len : Nat) : Option Refuse :=
  let d := dirOf b
  let n := leAt b 6 2
  let ids := d.map DirEnt.id
  if leAt b 0 4 ≠ 0x514D4F4C ∨ leAt b 4 2 ≠ 1 ∨ n = 0 ∨ n > 32 ∨ leAt b 8 8 ≠ len ∨ leAt b 16 1 > 1 ∨
      leNat (bytesAt b 17 47) ≠ 0 then some { code := 0x0101 }
  else match d.find? fun e => decide (e.pad ≠ 0 ∨ e.off % 64 ≠ 0 ∨ e.off < 64 + 16 * n ∨ e.off + e.len > len ∨ e.id = 0 ∨
      e.id > 0x11) with
  | some e => some (secBad e.id)
  | none =>
    if !rising ids then some { code := 0x0101 }
    else match (List.range 0x11).find? fun i => !ids.contains (i + 1) with
    | some i => some (secBad (i + 1))
    | none =>
      match neverEmpty.find? fun i => (sectBytes b i).isEmpty with
      | some i => some (secBad i)
      | none =>
        if (sectBytes b 0x0D).isEmpty && !(sectBytes b 0x0C).isEmpty then some (secBad 0x0D)
        else if decide (leAt b 16 1 = 1) == (sectBytes b 0x11).isEmpty then some (secBad 0x11)
        else none

/-! ### Sections (DESIGN CHOICE, log entry 8 where the spec gives no layout) -/

/-- A cell location word: Y in [19:10], X in [9:0]; as a cell key. -/
def locKey (w : Nat) : Nat := (w / 1024 % 1024) * 1024 + w % 1024

/-- Records by cell: a location word, a count, then count values of sz bytes. -/
def cellRecs (sz : Nat) : Nat → List Byte → List (Nat × List Nat)
  | 0, _ => []
  | f + 1, b =>
    if b.isEmpty then [] else
    let n := leAt b 4 4
    let v := (List.range n).map fun i => leAt b (8 + sz * i) sz
    (locKey (leAt b 0 4), v) :: cellRecs sz f (b.drop (8 + sz * n))

/-- The cell records of a section. -/
def cellsOf (sz : Nat) (b : List Byte) : List (Nat × List Nat) := cellRecs sz b.length b

/-- The cell records stand in order, hold 1 to most values each, of which bad ones break the section's structure, and fill the section; the
first record that does not. -/
def cellsBadBy (sz most : Nat) (bad : Nat → List Nat → Option Flaw) (b : List Byte) : Option Flaw :=
  let r := cellsOf sz b
  let tot := (r.map fun c => 8 + sz * c.2.length).sum
  (sectionBad false (r.map Prod.fst) fun i =>
    let v := (r.getD i (0, [])).2
    (outside i 1 most v.length).orElse fun _ => bad i v).orElse fun _ =>
  if tot ≠ b.length then some { item := r.length - 1, expect := tot, found := b.length } else none

def cellsBad (sz most : Nat) (b : List Byte) : Option Flaw := cellsBadBy sz most (fun _ _ => none) b

/-- RQP's structure: cell records of up to 16 sets whose reserved bits [1:0] are zero (03 R95, R525); the record that holds the
first set that breaks this. -/
def rqpBad (b : List Byte) : Option Flaw := cellsBadBy 4 16 (fun i v => v.findSome? fun w => outside i 0 0 (w % 4)) b

/-- The HDR section: TMID, N, R_OFS, A, t, extent, debug permission, default seed. -/
def hdrOf (b : List Byte) : Hdr :=
  { tmid := leAt b 0 2, n := leAt b 2 1, rofs := leAt b 3 1, a := leAt b 4 1, t := leAt b 5 1, full := leAt b 6 1 == 0
    debug := leAt b 7 1 == 1, seed := BitVec.ofNat 64 (leAt b 8 8) }

/-- HDR's structure (R525). -/
def hdrBad (b : List Byte) : Bool := decide (b.length ≠ 16 ∨ leAt b 6 1 > 1 ∨ leAt b 7 1 > 1)

/-- The limit of lo to hi that v breaks (R169). -/
def brokenLimit (lo hi v : Nat) : Nat := if v < lo then lo else hi

/-- HDR's values: TMODEL, N_RANGE, LATENCY (R9, R28, R150). -/
def hdrRefuse (h : Hdr) : Option Refuse :=
  if h.tmid ≠ 1 then some { code := 0x0102, sect := 1, expect := 1, found := h.tmid }
  else if h.n < 14 ∨ h.n > 30 then some { code := 0x0103, sect := 1, expect := brokenLimit 14 30 h.n, found := h.n }
  else if h.rofs < 2 ∨ h.rofs > 6 then some { code := 0x0104, sect := 1, expect := brokenLimit 2 6 h.rofs, found := h.rofs }
  else if h.a < 1 ∨ h.a > 144 then some { code := 0x0104, sect := 1, expect := brokenLimit 1 144 h.a, found := h.a }
  else if h.t ≥ h.n then some { code := 0x0104, sect := 1, expect := h.n - 1, found := h.t }
  else none

/-- PAR codes (R159); 0b11 is reserved. -/
def parOf (c : Nat) : Option Par :=
  match c with
  | 0 => some .every
  | 1 => some .even
  | 2 => some .odd
  | _ => none

/-- An edge port of 12 bits as edge × 1024 + index. -/
def edgeOf (w : Nat) : Nat := w % 4096

/-- The QBT entries (R158): BOUND [26:23], PORT [22:20], Y [19:10], X [9:0]. -/
def qbtOf (b : List Byte) : List QbEnt :=
  (List.range (b.length / 4)).map fun i =>
    let w := leAt b (4 * i) 4
    { x := w % 1024, y := w / 1024 % 1024, port := w / 2 ^ 20 % 8, bound := w / 2 ^ 23 % 16 }

def QbEnt.rank (q : QbEnt) : Nat := (q.y * 1024 + q.x) * 8 + q.port

/-- QBT's structure: whole words, reserved bits zero, sorted. -/
def qbtBad (b : List Byte) : Option Flaw :=
  (sectionBad false ((qbtOf b).map QbEnt.rank) fun i => outside i 0 0 (leAt b (4 * i) 4 / 2 ^ 27)).orElse fun _ =>
    if b.length % 4 ≠ 0 then some { item := b.length / 4 } else none

/-- A PATH record as read: its stream, its hop count and its bytes. -/
structure PathRaw where
  st   : Stream
  nhop : Nat
  raw  : List Byte
deriving DecidableEq, Repr

/-- Reads one PATH record: SID 4 bytes, OKIND, PAR, two zero bytes, OLOC 4, OTAU 2, NHOP 2, SLOC 4, STAU 2, two zero bytes,
then the hop bytes, padded to a multiple of 4. -/
def pathRec (b : List Byte) : PathRaw :=
  let ok := leAt b 4 1
  let ol := leAt b 8 4
  let sl := leAt b 16 4
  let nh := leAt b 14 2
  let okind : OKind := if ok = 2 then .cell else if ok = 3 then .almanac else .edge
  let oloc : Loc := if ok = 2 then .cell (ol / 64 % 1024) (ol / 2 ^ 16 % 1024) (ol / 4 % 16)
    else .edge (ol / 1024 % 4) (ol % 1024)
  let sloc : Loc := if sl / 8 % 8 = 4 then .edge (sl / 2 ^ 16 % 4) (sl / 64 % 1024)
    else .cell (sl / 64 % 1024) (sl / 2 ^ 16 % 1024) (sl % 8)
  let hops := (List.range nh).map fun i => let h := leAt b (24 + i) 1; (h / 16, h % 16)
  { st := { sid := leAt b 0 4, okind := okind, par := (parOf (leAt b 5 1)).getD .every, oloc := oloc, otau := leAt b 12 2
            hops := hops, sloc := sloc, stau := leAt b 20 2 }
    nhop := nh, raw := b.take (24 + nh) }

/-- A condition without values that record i breaks. -/
def brokenBy (i : Nat) (ok : Bool) : Option Flaw := if ok then none else some { item := i }

/-- What breaks the structure of PATH record i (R159, R525): a reserved code, bits that must be zero, an NHOP outside 1 to 4,096. -/
def PathRaw.flaw (i : Nat) (p : PathRaw) : Option Flaw :=
  let sl := leAt p.raw 16 4
  let nkind := sl / 8 % 8
  firstFlaw [brokenBy i (decide (1 ≤ leAt p.raw 4 1 ∧ leAt p.raw 4 1 ≤ 3)), brokenBy i (parOf (leAt p.raw 5 1)).isSome,
    outside i 0 0 (leAt p.raw 6 2), outside i 1 4096 p.nhop, brokenBy i (decide (nkind = 0 ∨ nkind = 4)),
    if nkind = 4 then (outside i 0 0 (sl / 2 ^ 18 % 256)).orElse fun _ => outside i 0 0 (sl % 8) else none,
    outside i 0 0 (leAt p.raw 22 2), brokenBy i (p.st.hops.all fun h => decide (h.1 ≤ 9))]

def pathRecs : Nat → List Byte → List PathRaw
  | 0, _ => []
  | f + 1, b =>
    if b.isEmpty then [] else
    let r := pathRec b
    r :: pathRecs f (b.drop (24 + (r.nhop + 3) / 4 * 4))

def pathRaws (b : List Byte) : List PathRaw := pathRecs b.length b

/-- PATH's structure. -/
def pathBad (b : List Byte) : Option Flaw :=
  let r := pathRaws b
  let tot := (r.map fun p => 24 + (p.nhop + 3) / 4 * 4).sum
  (sectionBad false (r.map fun p => p.st.sid) fun i => r[i]?.bind (PathRaw.flaw i)).orElse fun _ =>
    if tot ≠ b.length then some { item := r.length - 1, expect := tot, found := b.length } else none

/-- One JOIN record: X, Y, ITAU and the branch count of 2 bytes each, then per branch SID 4, port 1, a zero byte, HOLD 2. -/
def joinRec (b : List Byte) : Join :=
  { x := leAt b 0 2, y := leAt b 2 2, itau := leAt b 4 2
    branches := (List.range (leAt b 6 2)).map fun i =>
      { sid := leAt b (8 + 8 * i) 4, port := leAt b (12 + 8 * i) 1, hold := leAt b (14 + 8 * i) 2 } }

def joinRecs : Nat → List Byte → List Join
  | 0, _ => []
  | f + 1, b =>
    if b.isEmpty then [] else
    let r := joinRec b
    r :: joinRecs f (b.drop (8 + 8 * r.branches.length))

def joinsOf (b : List Byte) : List Join := joinRecs b.length b

def Join.rank (j : Join) : Nat := ((j.y * 1024 + j.x) * 65536) + j.itau

/-- JOIN's structure: lengths, 1 to 8 branches, ports and coordinates in range, sorted. -/
def joinBad (b : List Byte) : Option Flaw :=
  let r := joinsOf b
  let one (i : Nat) : Option Flaw :=
    let j := r.getD i { x := 0, y := 0, itau := 0, branches := [] }
    (outside i 1 8 j.branches.length).orElse fun _ => (outside i 0 1023 j.x).orElse fun _ => (outside i 0 1023 j.y).orElse fun _ =>
    (j.branches.findSome? fun k => outside i 0 7 k.port)
  let tot := (r.map fun j => 8 + 8 * j.branches.length).sum
  (sectionBad true (r.map Join.rank) one).orElse fun _ =>
    if tot ≠ b.length then some { item := r.length - 1, expect := tot, found := b.length } else none

/-- OSCH (10 R319). -/
def oschEnt (w : Nat) : OschEnt :=
  let ix := w / 2 ^ 40 % 65536
  { kind := match w / 2 ^ 62 with
      | 0 => .fdec ix
      | 1 => .record ix
      | _ => .chain (ix / 1024) (ix / 16 % 2) (ix % 16)
    edge := w / 2 ^ 28 % 4096, stau := w / 2 ^ 12 % 65536, par := (parOf (w / 1024 % 4)).getD .every }

def oschWords (b : List Byte) : List Nat := (List.range (leAt b 0 2)).map fun i => leAt b (8 + 8 * i) 8

def oschOf (b : List Byte) : Osch := { plen := leAt b 2 2, ht := leAt b 4 1, ents := (oschWords b).map oschEnt }

/-- The index of entry i outside the range of its kind, or a reserved kind (R319, R525). -/
def oschIndexBad (plen i w : Nat) : Option Flaw :=
  let ix := w / 2 ^ 40 % 65536
  match w / 2 ^ 62 with
  | 0 => outside i 0 15 ix
  | 1 => if ix < plen / 4 then none else some { item := i, expect := plen / 4 - 1, found := ix }
  | 2 => outside i 0 0 (ix / 32 % 32)
  | _ => some { item := i }

/-- OSCH's structure. A PLEN above 608 has a code of its own, at the last step (11 R329, R525). -/
def oschBad (n : Nat) (b : List Byte) : Option Flaw :=
  let ws := oschWords b
  let h := 0xFFFFFFFF
  let head := firstFlaw [outside h 1 65535 ws.length, outside h 0 0 (leAt b 2 2 % 4), outside h 0 (n - 1) (leAt b 4 1),
    outside h 0 0 (leNat (bytesAt b 5 3)), outside h (8 + 8 * ws.length) (8 + 8 * ws.length) b.length]
  head.orElse fun _ => sectionBad false ((oschOf b).ents.map fun e => e.stau * 4096 + e.edge) fun i =>
    let w := ws.getD i 0
    firstFlaw [oschIndexBad (leAt b 2 2) i w, outside i 0 0 (w / 2 ^ 56 % 64), brokenBy i (parOf (w / 1024 % 4)).isSome, outside i 0 0 (w % 1024)]

/-- WGMD: entries of 16 bytes as a WGMCOMMIT entry (15 R407). -/
def wgmdOf (b : List Byte) : List WgmDesc :=
  (List.range (b.length / 16)).map fun i =>
    { vf := leAt b (16 * i) 1, tensor := leAt b (16 * i + 1) 1, cfg := BitVec.ofNat 32 (leAt b (16 * i + 8) 4)
      rdef := BitVec.ofNat 32 (leAt b (16 * i + 12) 4) }

def wgmdBad (b : List Byte) : Option Flaw :=
  let r := wgmdOf b
  (sectionBad false (r.map fun d => 64 * d.vf + d.tensor) fun i =>
    firstFlaw [outside i 0 15 (leAt b (16 * i) 1), outside i 0 63 (leAt b (16 * i + 1) 1), outside i 0 0 (leAt b (16 * i + 2) 6)]).orElse
  fun _ => if b.length % 16 ≠ 0 then some { item := r.length } else none

/-- CMAP (08 R244): a header, the entries, then the contexts' numbers of 2 bytes. -/
def cmapOf (b : List Byte) : List CmapEnt :=
  let n := leAt b 0 4
  (List.range n).map fun i =>
    let w := leAt b (8 + 8 * i) 8
    { ctx := leAt b (8 + 8 * n + 2 * i) 2, width := BitVec.ofNat 2 (w / 2 ^ 54), slot := w / 2 ^ 51 % 8, tick := w / 2 ^ 46 % 32
      edge := w / 2 ^ 34 % 4096, sgn := w / 2 ^ 33 % 2 == 1, bw := w / 2 ^ 29 % 16 + 1, bofs := w / 2 ^ 18 % 2048
      lane := w / 2 ^ 14 % 16 }

def cmapBad (b : List Byte) : Option Flaw :=
  let n := leAt b 0 4
  let h := 0xFFFFFFFF
  let head := firstFlaw [outside h 1 65536 n, outside h 0 0 (leAt b 4 4), outside h (8 + 10 * n) (8 + 10 * n) b.length]
  head.orElse fun _ => sectionBad true ((cmapOf b).map CmapEnt.ctx) fun i =>
    let w := leAt b (8 + 8 * i) 8
    (outside i 0 0 (w / 2 ^ 56)).orElse fun _ => outside i 0 0 (w % 2 ^ 14)

/-- One request record of ALMT (07 R212). -/
def reqRec (b : List Byte) : ReqRec :=
  let e := leAt b 2 2
  { tid := leAt b 0 2, edge := e % 4096, par := (parOf (e / 4096 % 4)).getD .every, tau0 := leAt b 4 2
    keys := (List.range (leAt b 6 1)).map fun i => BitVec.ofNat 32 (leAt b (8 + 4 * i) 4) }

/-- Bytes of a request record of nk keys (R212). -/
def reqLen (nk : Nat) : Nat := (8 + 4 * nk + 7) / 8 * 8

def reqRecs : Nat → List Byte → List (ReqRec × Bool)
  | 0, _ => []
  | f + 1, b =>
    let r := reqRec b
    let ok := decide (1 ≤ r.keys.length ∧ r.keys.length ≤ 16 ∧ leAt b 7 1 = 0 ∧ leAt b 2 2 < 2 ^ 14) &&
      (parOf (leAt b 2 2 / 4096 % 4)).isSome
    (r, ok) :: reqRecs f (b.drop (reqLen r.keys.length))

def tblDesc (b : List Byte) : TblDesc :=
  { tid := leAt b 0 2, kind := BitVec.ofNat 8 (leAt b 2 1), kw := leAt b 3 1, salt := BitVec.ofNat 32 (leAt b 4 4)
    rows := leAt b 8 4, words := leAt b 12 1, shape := BitVec.ofNat 8 (leAt b 13 1), d := leAt b 14 1
    copy0 := leAt b 16 4, ncopy := leAt b 20 2 }

def almtReqs (b : List Byte) : List (ReqRec × Bool) :=
  reqRecs (leAt b 2 2) (b.drop (16 + 32 * leAt b 0 2 + 8 * leAt b 4 4))

/-- ALMT (07 R209 to R212). -/
def almtOf (b : List Byte) : Almt :=
  let nt := leAt b 0 2
  { tables := (List.range nt).map fun i => tblDesc (b.drop (16 + 32 * i))
    copies := (List.range (leAt b 4 4)).map fun i =>
      let c := b.drop (16 + 32 * nt + 8 * i)
      { tid := leAt c 0 2, place := BitVec.ofNat 8 (leAt c 2 1), bank := leAt c 3 1, base := leAt c 4 4 }
    reqs := (almtReqs b).map Prod.fst }

def ReqRec.rank (r : ReqRec) : Nat := r.tau0 * 4096 + r.edge

def almtBad (b : List Byte) : Option Flaw :=
  if b.isEmpty then none else
  let rs := almtReqs b
  let tot := 16 + 32 * leAt b 0 2 + 8 * leAt b 4 4 + (rs.map fun r => reqLen r.1.keys.length).sum
  let h := 0xFFFFFFFF
  let head := firstFlaw [outside h 0 4096 (leAt b 0 2), outside h 0 8192 (leAt b 2 2), outside h 0 0 (leAt b 8 8)]
  (head.orElse fun _ => sectionBad true (rs.map fun r => r.1.rank) fun i =>
    let r := rs.getD i ({ tid := 0, edge := 0, par := .every, tau0 := 0, keys := [] }, true)
    (outside i 1 16 r.1.keys.length).orElse fun _ => brokenBy i r.2).orElse fun _ => outside h tot tot b.length

/-- TIDE (07 R220): 11,264 words. -/
def tideOf (b : List Byte) : Tbl Word :=
  tofList 0 ((List.range (b.length / 4)).map fun i => BitVec.ofNat 32 (leAt b (4 * i) 4))

def tideBad (b : List Byte) : Bool := decide (b.length ≠ 0 ∧ b.length ≠ 45056)

/-- CRED (10 R315). -/
def credOf (b : List Byte) : Cred :=
  let nl := leAt b 1 1
  { stage := leAt b 0 1, origin := leAt b 2 2
    loops := (List.range nl).map fun i =>
      let l := b.drop (8 + 16 * i)
      { lane := leAt l 0 1, recv := leAt l 1 1 == 1, nf0 := leAt l 2 1, nf1 := leAt l 3 1, bound := leAt l 4 2
        hold := leAt l 6 1, frofs := leAt l 7 1, fill := BitVec.ofNat 32 (leAt l 8 4), upl := leAt l 12 2 }
    maps := (List.range (leAt b 4 2)).map fun i =>
      let w := leAt b (8 + 16 * nl + 8 * i) 8
      { lane := w / 2 ^ 58, flit := w / 2 ^ 56 % 2, word := w / 2 ^ 52 % 16, par := (parOf (w / 2 ^ 50 % 4)).getD .every
        edge := w / 2 ^ 36 % 4096, tau := w / 2 ^ 20 % 65536 } }

def credBad (b : List Byte) : Option Flaw :=
  if b.isEmpty then none else
  let nl := leAt b 1 1
  let nm := leAt b 4 2
  let h := 0xFFFFFFFF
  let head := firstFlaw [outside h 1 64 nl, outside h 0 1085 (leAt b 2 2), outside h 0 4096 nm, outside h 0 0 (leAt b 6 2),
    outside h (8 + 16 * nl + 8 * nm) (8 + 16 * nl + 8 * nm) b.length]
  let loop (i : Nat) : Option Flaw :=
    let l := b.drop (8 + 16 * i)
    let send := decide (leAt l 1 1 ≠ 1)
    firstFlaw [outside i 0 63 (leAt l 0 1), outside i 0 1 (leAt l 1 1), outside i 0 2 (leAt l 2 1), outside i 0 2 (leAt l 3 1),
      if send then outside i 2 6 (leAt l 7 1) else outside i 0 0 (leAt l 7 1), if send then outside i 0 0 (leAt l 8 4) else none,
      if send then outside i 0 0 (leAt l 12 2) else none, outside i 0 0 (leAt l 14 2)]
  let map (i : Nat) : Option Flaw :=
    let w := leAt b (8 + 16 * nl + 8 * i) 8
    firstFlaw [outside (nl + i) 0 0 (w / 2 ^ 57 % 2), brokenBy (nl + i) (parOf (w / 2 ^ 50 % 4)).isSome, outside (nl + i) 0 0 (w / 2 ^ 48 % 4),
      outside (nl + i) 0 0 (w % 2 ^ 20)]
  firstFlaw [head, (List.range nl).findSome? loop, (List.range nm).findSome? map]

/-- WPT (06 R194): records of 12 bytes. -/
def wptRec (w : Nat) : WptRec :=
  let loc := w / 2 ^ 68 % 2 ^ 26
  if w / 2 ^ 94 = 1 then .root (loc / 1024 % 4) (loc % 1024) (w / 2 ^ 49 % 65536)
  else .cell (loc / 64 % 1024) (loc / 2 ^ 16 % 1024) (w / 2 ^ 65 % 8) (w / 2 ^ 49 % 65536) (w / 2 ^ 36 % 8192)
    (BitVec.ofNat 8 (w / 2 ^ 28))

def wptWords (b : List Byte) : List Nat := (List.range (b.length / 12)).map fun i => leAt b (12 * i) 12

def wptOf (b : List Byte) : List WptRec := (wptWords b).map wptRec

/-- Roots first by edge and index, then cells by Y and X. -/
def WptRec.rank : WptRec → Nat
  | .root e i _ => e * 1024 + i
  | .cell x y _ _ _ _ => 2 ^ 20 + y * 1024 + x

def wptBad (b : List Byte) : Option Flaw :=
  (sectionBad false ((wptOf b).map WptRec.rank) fun i =>
    let w := leAt b (12 * i) 12
    let root := decide (w / 2 ^ 94 = 1)
    firstFlaw [brokenBy i (decide (w / 2 ^ 94 ≤ 1)), if root then outside i 0 0 (w / 2 ^ 65 % 8) else none,
      if root then outside i 0 0 (w / 2 ^ 28 % 2 ^ 21) else outside i 1 8191 (w / 2 ^ 36 % 8192), outside i 0 0 (w % 2 ^ 28)]).orElse fun _ =>
  if b.length % 12 ≠ 0 then some { item := b.length / 12 } else none

/-- LANE (09 R297): 64 entries of 8 bytes. -/
def laneOf (b : List Byte) : List LaneEnt :=
  (List.range (b.length / 8)).map fun i =>
    { role := leAt b (8 * i) 1, rate := leAt b (8 * i + 1) 1, blk := leAt b (8 * i + 2) 1, rofs := leAt b (8 * i + 3) 1
      explid := leAt b (8 * i + 4) 1 }

def laneBad (b : List Byte) : Bool := decide (b.length ≠ 512)

/-! ### The whole image -/

/-- A cell section as a table of word tables. -/
def wordTable (l : List (Nat × List Nat)) : Tbl (Tbl Word) :=
  l.foldl (fun t c => tset t c.1 (tofList 0 (c.2.map fun v => BitVec.ofNat 32 v))) []

/-- The image that a container holds. -/
def parseImage (b : List Byte) : Image :=
  let s := sectBytes b
  { hdr := hdrOf (s 0x01)
    prog := (cellsOf 12 (s 0x02)).foldl (fun t c => tset t c.1 (c.2.map fun v => BitVec.ofNat 96 v)) []
    wgt := wordTable (cellsOf 4 (s 0x03)), init := wordTable (cellsOf 4 (s 0x04)), rqp := wordTable (cellsOf 4 (s 0x05))
    qbt := qbtOf (s 0x06), path := (pathRaws (s 0x07)).map PathRaw.st, join := joinsOf (s 0x08), osch := oschOf (s 0x09)
    wgmd := wgmdOf (s 0x0A), cmap := cmapOf (s 0x0B), almt := almtOf (s 0x0C), tide := tideOf (s 0x0D), tideGiven := decide (s 0x0D ≠ [])
    cred := credOf (s 0x0E), wpt := wptOf (s 0x0F), lane := laneOf (s 0x10), sig := s 0x11 }

/-- The sections of the frame digest (R180) and of the measurement (14 R381). -/
def frameIds : List Nat := [0x01, 0x04, 0x05, 0x0A, 0x0B, 0x0C, 0x0D, 0x0E, 0x0F, 0x10]
def measIds : List Nat := [0x02, 0x03, 0x09, 0x0B, 0x0D]
/-- Every section but SIG (18 R494). -/
def signedIds : List Nat := (List.range 0x10).map (· + 1)

end Sys2Proof.Machine
end

