-- ==== Sys2Proof/Machine/Operands.lean ====
section
/-! DEFINITION. Operand and route sources of a micro-instruction (02 R51), the links between cells and the placement of the
virtual grid (02 R64 to R79). -/

namespace Sys2Proof.Machine

/-! ### Placement (R76 to R79) -/

/-- The disabled line that the placement works around: that of the defect map on an NC-12F-A1, physical row 3 for an image
of the reduced extent on an NC-16F-A1 (R77, R79). (false, r): row r. (true, k): column k. -/
def State.placeLine (s : State) : Option (Bool × Nat) :=
  if s.dev.nc12 then s.dev.dis else if s.hdr.full then none else some (false, 3)

/-- The good rows or columns, rising (R77). -/
def goodLines : Option (Bool × Nat) → List Nat
  | none => [0, 1, 2, 3]
  | some (_, r) => [0, 1, 2, 3].filter (· ≠ r)

/-- The virtual grid is turned (R77). -/
def turned : Option (Bool × Nat) → Bool
  | some (true, _) => true
  | _ => false

/-- The physical Field of virtual Field (fx, fy) (R76, R77, R79). -/
def physField (pl : Option (Bool × Nat)) (fx fy : Nat) : Nat :=
  let g := (goodLines pl).getD fy 0
  if turned pl then 4 * fx + g else 4 * g + fx

/-- The Quay that serves a virtual edge (R76, R77). -/
def edgeQuay (pl : Option (Bool × Nat)) (edge : Nat) : Nat := if turned pl then 3 - edge else edge

/-- The physical columns of a Field that are not retired, rising. -/
def goodColumns (retired : List Nat) : List Nat := (List.range 264).filter fun c => !retired.contains c

/-- The physical column of virtual column v: the (v + 1)-th that is not retired (R73). -/
def physColumn (retired : List Nat) (v : Nat) : Nat := (goodColumns retired).getD v 264

/-- The columns left over after virtual column 255, which are clock-gated (R73). -/
def idleColumns (retired : List Nat) : List Nat := (goodColumns retired).drop 256

/-- Where a virtual cell lies: physical Field, row and column (R73, R77). -/
def physCell (pl : Option (Bool × Nat)) (retired : Tbl (List Nat)) (x y : Nat) : Nat × Nat × Nat :=
  let f := physField pl (x / 256) (y / 256)
  let col (v : Nat) : Nat := physColumn (tget [] retired f) v
  if turned pl then (f, x % 256, col (y % 256)) else (f, y % 256, col (x % 256))

/-- The physical port of a virtual port: in a turned Field N and W change places, and E and S, mesh and express alike (R77). -/
def physPort (pl : Option (Bool × Nat)) (p : Nat) : Nat := if turned pl then p / 4 * 4 + (3 - p % 4) else p

/-- The place of a cell of the run. -/
def State.cellPlace (s : State) (x y : Nat) : Nat × Nat × Nat := physCell s.placeLine s.dev.retired x y

/-- The physical Field of a cell of the run. -/
def State.cellField (s : State) (x y : Nat) : Nat := (s.cellPlace x y).1

/-- Groups of receivers with one padding delay: the bridges in x, the bridges in y below virtual Field row fy, and the
edge ports of each virtual edge (R69, R163). -/
inductive PadKey where
  | bridgeX
  | bridgeY (fy : Nat)
  | edge (e : Nat)
deriving DecidableEq, Repr

def PadKey.code : PadKey → Nat
  | .bridgeX => 0
  | .bridgeY fy => 1 + fy
  | .edge e => 10 + e

/-- The physical latency of a link group on this placement, in ticks (R69). -/
def PadKey.phys (pl : Option (Bool × Nat)) : PadKey → Nat
  | .bridgeX => 2
  | .bridgeY fy => if (goodLines pl).getD (fy + 1) 0 = (goodLines pl).getD fy 0 + 1 then 2 else 4
  | .edge e =>
    if e = 0 then (if (goodLines pl).head? = some 0 then 1 else 3)
    else if e = 2 then (if (goodLines pl).getLast? = some 3 then 1 else 3)
    else 1

/-- The TM-1 value of a link group (05 R147). -/
def PadKey.model : PadKey → Nat
  | .edge _ => 3
  | _ => 4

/-- The link groups of a placement. -/
def padKeys (pl : Option (Bool × Nat)) : List PadKey :=
  .bridgeX :: ((List.range ((goodLines pl).length - 1)).map .bridgeY ++ (List.range 4).map .edge)

/-- The padding the loader writes: the model value less the physical latency (05 R163). -/
def padsOf (pl : Option (Bool × Nat)) : Tbl Nat :=
  (padKeys pl).foldl (fun t k => tput 0 t k.code (k.model - k.phys pl)) []

/-- The travel time of a link group as padded. -/
def State.travel (s : State) (k : PadKey) : Nat := k.phys s.placeLine + tget 0 s.arr.pads k.code

/-! ### Links (R64 to R70) -/

/-- Where a token that leaves cell (x, y) on output port p arrives, and after how many ticks (R64 to R71). Ports are N, E,
S, W, XN, XE, XS, XW. A hop that does not exist carries nothing (R67). -/
def State.link (s : State) (x y p : Nat) : Option (Dest × Nat) :=
  let rows := s.hdr.rows
  let step := if p < 4 then 1 else 16
  let vert (y2 : Nat) (inPort : Nat) : Option (Dest × Nat) :=
    some (.queue (y2 * 1024 + x) inPort, if y / 256 = y2 / 256 then 1 else s.travel (.bridgeY (min y y2 / 256)))
  let horz (x2 : Nat) (inPort : Nat) : Option (Dest × Nat) :=
    some (.queue (y * 1024 + x2) inPort, if x / 256 = x2 / 256 then 1 else s.travel .bridgeX)
  match p with
  | 0 => if y = 0 then some (.edge x, s.travel (.edge 0)) else vert (y - 1) 2
  | 1 => if x = 1023 then some (.edge (1024 + y), s.travel (.edge 1)) else horz (x + 1) 3
  | 2 => if y + 1 = rows then some (.edge (2048 + x), s.travel (.edge 2)) else vert (y + 1) 0
  | 3 => if x = 0 then some (.edge (3072 + y), s.travel (.edge 3)) else horz (x - 1) 1
  | 4 => if y < step then none else vert (y - step) 6
  | 5 => if x + step > 1023 then none else horz (x + step) 7
  | 6 => if y + step ≥ rows then none else vert (y + step) 4
  | 7 => if x < step then none else horz (x - step) 5
  | _ => none

/-- The cell and its outward-facing port at an edge port (edge × 1024 + index) (R70). -/
def State.edgeCell (s : State) (e : Nat) : Nat × Nat × Nat :=
  let i := e % 1024
  match e / 1024 with
  | 0 => (i, 0, 0)
  | 1 => (1023, i, 1)
  | 2 => (i, s.hdr.rows - 1, 2)
  | _ => (0, i, 3)

/-- The token list with one more token that the Quay drives into edge port e, heading the edge cell's queue after extra
ticks and the edge travel time (R71). -/
def State.driveEdge (s : State) (e extra : Nat) (t : Token) : State :=
  let c := s.edgeCell e
  { s with arr := { s.arr with
      flight := s.arr.flight ++ [{ left := extra + s.travel (.edge (e / 1024)), dst := .queue (c.2.1 * 1024 + c.1) c.2.2
                                   tok := t }] } }

/-! ### Sources (R51) -/

/-- A cell's queue at a port. -/
def Cell.queue (c : Cell) (p : Nat) : List Token := tget [] c.queues p

/-- A waypoint token. -/
def Token.isWp (t : Token) : Bool := decide (t.tag = 3)

/-- The head that a program sees: none where the queue is empty or a waypoint heads it (06 R196). -/
def Cell.head? (c : Cell) (p : Nat) : Option Token :=
  match c.queue p with
  | t :: _ => if t.isWp then none else some t
  | [] => none

def Cell.wsAt (c : Cell) (a : Nat) : Word := tget 0 c.ws a
def Cell.accAt (c : Cell) (n : Nat) : Word := tget 0 c.acc n
def Cell.holdAt (c : Cell) (n : Nat) : Hold := tget { data := 0, tag := 0 } c.hold n
def Cell.rqAt (c : Cell) (n : Nat) : Word := tget 0 c.rq n
/-- The active weight plane's word (R43). -/
def Cell.wgtAt (c : Cell) (a : Nat) : Word := tget 0 (if c.sel then c.wgtB else c.wgtA) a
/-- The active program plane. -/
def Cell.prog (c : Cell) : List MInstr := if c.sel then c.progB else c.progA

/-- The token that a source gives: idle (tag 0b00, DATA 0) for an empty queue (R51, R63). Code 0x9 of an operand is the
accumulator named by ACC; a route's code 0x9 is the result and is not read here. -/
def Cell.source (c : Cell) (e : MInstr) (code : Nat) : Token :=
  let plain (w : Word) : Token := { tag := 1, epoch := c.epAct, data := w }
  if code = 0 then plain 0
  else if code ≤ 8 then (c.head? (code - 1)).getD { tag := 0, epoch := 0, data := 0 }
  else if code = 9 then plain (c.accAt e.acc)
  else if code ≤ 13 then
    let h := c.holdAt (code - 10)
    { tag := if h.tag = 0 then 1 else h.tag, epoch := c.epAct, data := h.data }
  else if code = 14 then plain (c.wsAt e.addrA)
  else plain (c.wgtAt e.addrW)

/-- The queues that an issue reads, by operands and routes, and that show empty (R63). -/
def Cell.emptyReads (c : Cell) (e : MInstr) : List Nat :=
  let codes := e.srcA :: e.srcB :: e.routes.map Prod.snd
  (List.range 8).filter fun p => codes.contains (p + 1) && (c.head? p).isNone

/-- The queues that an issue pops and that show empty (05 R173). -/
def Cell.emptyPops (c : Cell) (e : MInstr) : List Nat :=
  (List.range 8).filter fun p => e.pops p && (c.head? p).isNone

end Sys2Proof.Machine
end

