-- ==== Sys2Proof/Machine/Flags.lean ====
section
/-! DEFINITION. The flag and tag computations of a cell: COND (02 R55), TAG_OUT (02 R56) and F (03 R86). -/

namespace Sys2Proof.Machine

/-- COND (R55): f is F, t the tag of operand A. -/
def condHolds (cond : Nat) (f : Bool) (t : BitVec 2) : Bool :=
  match cond with
  | 0 => true
  | 1 => f
  | 2 => !f
  | 3 => decide (t = 2)
  | _ => decide (t ≠ 2)

/-- TAG_OUT (R56): f is F at the start of the tick, t the tag of operand A. -/
def resultTag (tagOut : Nat) (f : Bool) (t : BitVec 2) : BitVec 2 :=
  match tagOut with
  | 0 => if f then 2 else 1
  | 1 => 1
  | 2 => 2
  | _ => if t = 1 ∨ t = 2 then t else 1

/-- F after the tick (R55, R86): unchanged unless the condition holds and the operation gives F a value. -/
def nextFlag (f : Bool) (o : Option OpOut) : Bool := (o.bind OpOut.f).getD f

end Sys2Proof.Machine
end

