-- ==== Sys2Proof/Machine/Cells.lean ====
section
/-! DEFINITION. The issue commands of the array: one cell issues the micro-instruction of the present tick (02 R57 to R59).
Each command names the cell and the opcode its active plane holds at this tick; the operation's exact result is in
Arith.lean. -/

namespace Sys2Proof.Machine

/-! ### Reports to the Weighmaster (03 R100, R115, 04 R120) -/

/-- A tensor is designated (R118). -/
def Tensor.enabled (t : Tensor) : Bool := t.cfg.getLsbD 31

/-- Reports for this presented crossing raise no maximum: the restored maxima of a resume stand (14 R388). -/
def State.wgmHeld (s : State) (j : CN) : Bool :=
  match s.wgm.hold with
  | some h => cnLe j h
  | none => false

/-- A MAXABS report of a tensor (04 R120): it joins m of the report crossing. -/
def State.wgmReport (s : State) (k : Nat) (mag : Nat) : State :=
  let t := s.tensor k
  if t.enabled && !s.wgmHeld s.pcn then
    s.setTensor k { t with m := tput 0 t.m s.pcn.toNat (BitVec.ofNat 32 (max mag (tget 0 t.m s.pcn.toNat).toNat)) }
  else s

/-- The drain tail of a replay's start record holds the saturation counts of report crossing j whole (14 R387). -/
def State.wgmTold (s : State) (j : CN) : Bool :=
  match s.wgm.tailTo with
  | some h => cnLe j h
  | none => false

/-- A saturation flag of a tensor (03 R100, 04 R120, R144). -/
def State.wgmSat (s : State) (k : Nat) : State :=
  let t := s.tensor k
  if t.enabled then
    let s1 := if s.wgmTold s.pcn then s else s.setTensor k { t with n := tput 0 t.n s.pcn.toNat (tget 0 t.n s.pcn.toNat + 1) }
    let s2 := s1.count (.wgmTsat (k / 64) (k % 64)) 1
    let s3 := { s2 with arr := { s2.arr with sats := s2.arr.sats ++ [k / 64] } }
    s3.flagWindow 0x100
  else s

/-- The reports and flags of one operation from cell (x, y) (R100, R115). -/
def State.reportAll (s : State) (x y : Nat) (c : Cell) (e : MInstr) (o : Option OpOut) : State :=
  match o with
  | none => s
  | some r =>
    let base := 64 * (4 * (y / 256) + x / 256)
    let p := c.rqAt e.rqs
    let s1 := if e.maxabs && rqTvalid p then s.wgmReport (base + rqTensor p) r.report else s
    r.sats.foldl (fun s j => let q := c.rqAt j; if rqTvalid q then s.wgmSat (base + rqTensor q) else s) s1

/-! ### One issue (R57) -/

/-- The index that a cell issues at the present tick (R58). -/
def State.issueIndex (s : State) (len : Nat) : Nat := (s.pcn.toNat * s.hdr.n + s.tick) % len

/-- The entry that a cell issues at the present tick (R58). -/
def State.entryOf (s : State) (c : Cell) : Option MInstr :=
  (loopLen c.prog).bind fun len => c.prog[s.issueIndex len]?

/-- A waypoint heads the cell's queue WIN at its declared tick with the shadow epoch (06 R196). -/
def State.wpQualifies (s : State) (c : Cell) : Bool :=
  c.onTree && decide (s.tick = c.wtauN) &&
  (match c.queue c.win with
   | t :: _ => t.isWp && decide (t.epoch = c.epSh)
   | [] => false)

/-- The output port p is one on which the waypoint leaves (06 R194): [35] N down to [28] XW. -/
def woutHas (w : BitVec 8) (p : Nat) : Bool := w.getLsbD (7 - p)

/-- What the operation of entry e reads at cell (x, y). -/
def State.opIn (s : State) (x y : Nat) (c : Cell) (e : MInstr) : OpIn :=
  { e := e, a := (c.source e e.srcA).data, b := (c.source e e.srcB).data, acc := c.accAt
    hold := fun n => (c.holdAt n).data, f := c.flag, rq := c.rqAt, wgt := c.wgtAt, seed := s.run.seed, cn := s.pcn
    x := x, y := y, k := s.tick }

/-- The tag of operand A (R51). -/
def Cell.tagA (c : Cell) (e : MInstr) : BitVec 2 := (c.source e e.srcA).tag

/-- The operation's effects, where its condition holds (R55). -/
def State.opOut (s : State) (x y : Nat) (c : Cell) (e : MInstr) (op : OpIn → OpOut) : Option OpOut :=
  if condHolds e.cond c.flag (c.tagA e) then some (op (s.opIn x y c e)) else none

/-- The tokens that the routes drive (R51, R55, R57): (output port, token). -/
def State.driven (s : State) (c : Cell) (e : MInstr) (o : Option OpOut) : List (Nat × Token) :=
  e.routes.filterMap fun r =>
    let t : Option Token :=
      if r.2 = 0 then none
      else if r.2 = 9 then
        (o.bind OpOut.res).map fun w => { tag := resultTag e.tagOut c.flag (c.tagA e), epoch := c.epAct, data := w }
      else
        let t := c.source e r.2
        if t.tag = 0 then none else some t
    if s.wpQualifies c && woutHas c.wout r.1 then none else t.map fun t => (r.1, t)

/-- Puts tokens that leave cell (x, y) on their links. -/
def State.send (s : State) (x y : Nat) (l : List (Nat × Token)) : State :=
  let fl : List Flight := l.filterMap fun p => (s.link x y p.1).map fun d => { left := d.2, dst := d.1, tok := p.2 }
  { s with arr := { s.arr with flight := s.arr.flight ++ fl } }

/-- The destination write of R54 and R88, F and the accumulators. -/
def Cell.write (c : Cell) (e : MInstr) (o : Option OpOut) : Cell :=
  match o with
  | none => c
  | some r =>
    let c1 := { c with acc := r.accs.foldl (fun t p => tput 0 t p.1 p.2) c.acc, flag := nextFlag c.flag (some r) }
    match (r.dest.orElse fun _ => r.res) with
    | none => c1
    | some w =>
      match e.dst with
      | 1 => if r.accs = [] then { c1 with acc := tput 0 c1.acc e.acc w } else c1
      | 2 => { c1 with ws := tput 0 c1.ws e.addrD w }
      | 3 => { c1 with hold := tput { data := 0, tag := 0 } c1.hold (e.addrD % 4)
                                 { data := w, tag := resultTag e.tagOut c.flag (c.tagA e) } }
      | _ => c1

/-- The queues that POP names; a pop of a queue that shows empty is ignored (R63, 06 R196). -/
def Cell.popped (c : Cell) (e : MInstr) : List Nat := (List.range 8).filter fun p => e.pops p && (c.head? p).isSome

/-- Underflows of an issue: noted for the tick's end in production mode, hazards in debug mode, neither in a fill (R63, 05
R156, R173). -/
def State.noteUnf (s : State) (x y : Nat) (c : Cell) (e : MInstr) : State :=
  if s.fillRules then s
  else if s.run.debug then
    let ps := (c.emptyReads e ++ c.emptyPops e).eraseDups
    let vs : List Violation := ps.map fun p => { y := y, x := x, port := p, kind := 2, exp := 0, obs := 0 }
    { s with arr := { s.arr with viol := s.arr.viol ++ vs } }
  else
    let us := (c.emptyReads e).map fun p => (y * 1024 + x, p)
    { s with arr := { s.arr with unf := s.arr.unf ++ us } }

/-- One issue of entry e at cell (x, y) with the operation op (R57). The heads that it pops leave at the tick's end. -/
def issueEffect (s : State) (x y : Nat) (c : Cell) (e : MInstr) (op : OpIn → OpOut) : State :=
  let o := s.opOut x y c e op
  let s1 := s.setCell (y * 1024 + x) (c.write e o)
  let s2 := s1.send x y (s.driven c e o)
  let s3 := s2.noteUnf x y c e
  let s4 := { s3 with arr := { s3.arr with issued := (y * 1024 + x) :: s3.arr.issued
                                           pops := s3.arr.pops ++ (c.popped e).map fun p => (y * 1024 + x, p) } }
  s4.reportAll x y c e o

/-- The device has cell (x, y) (00 R1). -/
def State.hasCell (s : State) (x y : Nat) : Bool := decide (x < 1024 ∧ y < if s.dev.nc12 then 768 else 1024)

/-- Cell (x, y) issues now an entry with opcode opc: a run is live, the cell lies in the image's extent, its Field is clocked (17 R462), it has
not issued in this tick, and its active plane holds that opcode at this tick (R58, R59; DESIGN CHOICE, log entry 7). -/
def State.issueDue (s : State) (x y opc : Nat) : Option MInstr :=
  if s.live && decide (y < s.hdr.rows) && s.fieldRuns (s.cellField x y) && !s.arr.issued.contains (y * 1024 + x) then
    (s.entryOf (s.cellAt (y * 1024 + x))).filter fun e => e.opc == opc
  else none

/-- An issue command (02 R57). -/
def issueOp (opc : Nat) (op : OpIn → OpOut) (x y : Nat) (s : State) : Out :=
  if s.hasCell x y then
    match s.issueDue x y opc with
    | some e => .next (issueEffect s x y (s.cellAt (y * 1024 + x)) e op)
    | none => .next s
  else .fault .noSuchUnit

/-- NOP, opcode 0x00 (03 R86). -/
def execNop (x y : Nat) (s : State) : Out := issueOp 0x00 opNop x y s
/-- MACD, opcode 0x01 (03 R86). -/
def execMacd (x y : Nat) (s : State) : Out := issueOp 0x01 opMacd x y s
/-- MACDZ, opcode 0x02 (03 R86). -/
def execMacdz (x y : Nat) (s : State) : Out := issueOp 0x02 opMacdz x y s
/-- MACV, opcode 0x03 (03 R86). -/
def execMacv (x y : Nat) (s : State) : Out := issueOp 0x03 opMacv x y s
/-- MACVZ, opcode 0x04 (03 R86). -/
def execMacvz (x y : Nat) (s : State) : Out := issueOp 0x04 opMacvz x y s
/-- ACCADD, opcode 0x05 (03 R86). -/
def execAccadd (x y : Nat) (s : State) : Out := issueOp 0x05 opAccadd x y s
/-- ACCSUB, opcode 0x06 (03 R86). -/
def execAccsub (x y : Nat) (s : State) : Out := issueOp 0x06 opAccsub x y s
/-- ACCLD, opcode 0x07 (03 R86). -/
def execAccld (x y : Nat) (s : State) : Out := issueOp 0x07 opAccld x y s
/-- ACCCLR, opcode 0x08 (03 R86). -/
def execAccclr (x y : Nat) (s : State) : Out := issueOp 0x08 opAccclr x y s
/-- ACCMAX, opcode 0x09 (03 R86). -/
def execAccmax (x y : Nat) (s : State) : Out := issueOp 0x09 opAccmax x y s
/-- ACCMIN, opcode 0x0A (03 R86). -/
def execAccmin (x y : Nat) (s : State) : Out := issueOp 0x0A opAccmin x y s
/-- RQS, opcode 0x10 (03 R86). -/
def execRqs (x y : Nat) (s : State) : Out := issueOp 0x10 opRqs x y s
/-- RQV, opcode 0x11 (03 R86). -/
def execRqv (x y : Nat) (s : State) : Out := issueOp 0x11 opRqv x y s
/-- RQVC, opcode 0x12 (03 R86). -/
def execRqvc (x y : Nat) (s : State) : Out := issueOp 0x12 opRqvc x y s
/-- LUTV8, opcode 0x18 (03 R86). -/
def execLutv8 (x y : Nat) (s : State) : Out := issueOp 0x18 opLutv8 x y s
/-- LUTV4, opcode 0x19 (03 R86). -/
def execLutv4 (x y : Nat) (s : State) : Out := issueOp 0x19 opLutv4 x y s
/-- LUTS, opcode 0x1A (03 R86). -/
def execLuts (x y : Nat) (s : State) : Out := issueOp 0x1A opLuts x y s
/-- LUTI, opcode 0x1B (03 R86). -/
def execLuti (x y : Nat) (s : State) : Out := issueOp 0x1B opLuti x y s
/-- CMPLT, opcode 0x20 (03 R86). -/
def execCmplt (x y : Nat) (s : State) : Out := issueOp 0x20 opCmplt x y s
/-- CMPLE, opcode 0x21 (03 R86). -/
def execCmple (x y : Nat) (s : State) : Out := issueOp 0x21 opCmple x y s
/-- CMPEQ, opcode 0x22 (03 R86). -/
def execCmpeq (x y : Nat) (s : State) : Out := issueOp 0x22 opCmpeq x y s
/-- CMPLTU, opcode 0x23 (03 R86). -/
def execCmpltu (x y : Nat) (s : State) : Out := issueOp 0x23 opCmpltu x y s
/-- SEL, opcode 0x24 (03 R86). -/
def execSel (x y : Nat) (s : State) : Out := issueOp 0x24 opSel x y s
/-- MIN, opcode 0x25 (03 R86). -/
def execMin (x y : Nat) (s : State) : Out := issueOp 0x25 opMin x y s
/-- MAX, opcode 0x26 (03 R86). -/
def execMax (x y : Nat) (s : State) : Out := issueOp 0x26 opMax x y s
/-- CX, opcode 0x27 (03 R86). -/
def execCx (x y : Nat) (s : State) : Out := issueOp 0x27 opCx x y s
/-- VMAX, opcode 0x28 (03 R86). -/
def execVmax (x y : Nat) (s : State) : Out := issueOp 0x28 opVmax x y s
/-- VMIN, opcode 0x29 (03 R86). -/
def execVmin (x y : Nat) (s : State) : Out := issueOp 0x29 opVmin x y s
/-- HMAX, opcode 0x2A (03 R86). -/
def execHmax (x y : Nat) (s : State) : Out := issueOp 0x2A opHmax x y s
/-- ABS, opcode 0x2B (03 R86). -/
def execAbs (x y : Nat) (s : State) : Out := issueOp 0x2B opAbs x y s
/-- AND, opcode 0x30 (03 R86). -/
def execAnd (x y : Nat) (s : State) : Out := issueOp 0x30 opAnd x y s
/-- OR, opcode 0x31 (03 R86). -/
def execOr (x y : Nat) (s : State) : Out := issueOp 0x31 opOr x y s
/-- XOR, opcode 0x32 (03 R86). -/
def execXor (x y : Nat) (s : State) : Out := issueOp 0x32 opXor x y s
/-- ANDN, opcode 0x33 (03 R86). -/
def execAndn (x y : Nat) (s : State) : Out := issueOp 0x33 opAndn x y s
/-- SHL, opcode 0x34 (03 R86). -/
def execShl (x y : Nat) (s : State) : Out := issueOp 0x34 opShl x y s
/-- SHR, opcode 0x35 (03 R86). -/
def execShr (x y : Nat) (s : State) : Out := issueOp 0x35 opShr x y s
/-- SAR, opcode 0x36 (03 R86). -/
def execSar (x y : Nat) (s : State) : Out := issueOp 0x36 opSar x y s
/-- POPC, opcode 0x37 (03 R86). -/
def execPopc (x y : Nat) (s : State) : Out := issueOp 0x37 opPopc x y s
/-- MOV, opcode 0x38 (03 R86). -/
def execMov (x y : Nat) (s : State) : Out := issueOp 0x38 opMov x y s
/-- BCAST, opcode 0x39 (03 R86). -/
def execBcast (x y : Nat) (s : State) : Out := issueOp 0x39 opBcast x y s
/-- UNPK, opcode 0x3A (03 R86). -/
def execUnpk (x y : Nat) (s : State) : Out := issueOp 0x3A opUnpk x y s

end Sys2Proof.Machine
end

