-- ==== Sys2Proof/Machine/ReedSolomon.lean ====
section
/-! DEFINITION. Reed–Solomon codes over GF(2^m) with generator roots α^0 to α^(2t-1): the memory code of 07 R229 (m = 8,
t = 2) and the lane code of 09 R284 (m = 10, t = 4). -/

namespace Sys2Proof.Machine

/-- A field GF(2^m) by its polynomial, the leading term included. -/
structure GF where
  m    : Nat
  poly : Nat

/-- x times α. -/
def GF.dbl (f : GF) (x : Nat) : Nat := if 2 * x ≥ 2 ^ f.m then (2 * x) ^^^ f.poly else 2 * x

/-- The product. -/
def GF.mul (f : GF) (x y : Nat) : Nat :=
  (List.range f.m).foldl (fun a i => let a2 := f.dbl a; if y.testBit (f.m - 1 - i) then a2 ^^^ x else a2) 0

/-- Powers. -/
def GF.pow (f : GF) (x : Nat) : Nat → Nat
  | 0 => 1
  | n + 1 => f.mul x (f.pow x n)

/-- The inverse of a nonzero x, x^(2^m - 2). -/
def GF.inv (f : GF) (x : Nat) : Nat :=
  ((List.range (f.m - 1)).foldl (fun p _ => let q := f.mul p.1 p.1; (q, f.mul p.2 q)) (x, 1)).2

/-- The sum of products of two lists. -/
def GF.dot (f : GF) : List Nat → List Nat → Nat
  | x :: xs, y :: ys => f.mul x y ^^^ f.dot xs ys
  | _, _ => 0

/-- Solves n linear equations, each row its coefficients and then its right side. -/
def GF.solve (f : GF) : Nat → List (List Nat) → Option (List Nat)
  | 0, _ => some []
  | n + 1, rows =>
    match rows.find? fun r => r.headD 0 != 0 with
    | none => none
    | some p =>
      let q := p.tail.map (f.mul (f.inv (p.headD 0)))
      let rest := (rows.erase p).map fun r => (r.tail.zip q).map fun e => e.1 ^^^ f.mul (r.headD 0) e.2
      (f.solve n rest).map fun xs => (q.getLastD 0 ^^^ f.dot q.dropLast xs) :: xs

/-- The value of a codeword, its first symbol the highest coefficient, at x. -/
def GF.eval (f : GF) (l : List Nat) (x : Nat) : Nat := l.foldl (fun a s => f.mul a x ^^^ s) 0

/-- The k syndromes of a received word. -/
def GF.syndromes (f : GF) (k : Nat) (l : List Nat) : List Nat := (List.range k).map fun j => f.eval l (f.pow 2 j)

/-- The generator's coefficients below its leading one, highest first: the product of x + α^j for j below k. -/
def GF.generator (f : GF) (k : Nat) : List Nat :=
  ((List.range k).foldl (fun (g : List Nat) j =>
    let r := f.pow 2 j
    ((g ++ [0]).zip (0 :: g)).map fun (e : Nat × Nat) => e.1 ^^^ f.mul r e.2) [1]).tail

/-- The check symbols of a message: the remainder of message × x^k. The first symbol sent is the coefficient of the highest power (09 R284; DESIGN
CHOICE, log entry 32). -/
def GF.parity (f : GF) (k : Nat) (msg : List Nat) : List Nat :=
  let g := f.generator k
  msg.foldl (fun (r : List Nat) s =>
    let h := r.headD 0 ^^^ s
    ((r.tail ++ [0]).zip g).map fun (e : Nat × Nat) => e.1 ^^^ f.mul h e.2) (List.replicate k 0)

/-- The positions and values of v errors that explain the syndromes, positions counted from the word's end. -/
def GF.locate (f : GF) (n v : Nat) (syn : List Nat) : Option (List (Nat × Nat)) :=
  match f.solve v ((List.range v).map fun j => (syn.drop j).take (v + 1)) with
  | none => none
  | some sig =>
    let at_ := (List.range n).filter fun p => f.eval (1 :: sig.reverse) (f.pow 2 p) == 0
    if at_.length ≠ v then none
    else (f.solve v ((List.range v).map fun j => at_.map (fun p => f.pow (f.pow 2 p) j) ++ [syn.getD j 0])).map at_.zip

/-- The word with errors removed. -/
def fixWord (l : List Nat) (es : List (Nat × Nat)) : List Nat :=
  es.foldl (fun w e => w.modify (l.length - 1 - e.1) (fun x => x ^^^ e.2)) l

/-- Tries v errors, then fewer. -/
def GF.tryFix (f : GF) (k : Nat) (l syn : List Nat) : Nat → Option (List Nat)
  | 0 => none
  | v + 1 =>
    match f.locate l.length (v + 1) syn with
    | some es =>
      let w := fixWord l es
      if (f.syndromes k w).all (· == 0) then some w else f.tryFix k l syn v
    | none => f.tryFix k l syn v

/-- The decoder of k check symbols: the word corrected in at most k / 2 places, or none. -/
def GF.decode (f : GF) (k : Nat) (l : List Nat) : Option (List Nat) :=
  let syn := f.syndromes k l
  if syn.all (· == 0) then some l else f.tryFix k l syn (k / 2)

/-- The field of the memory code: x^8 + x^4 + x^3 + x^2 + 1 (07 R229). -/
def gfMem : GF := { m := 8, poly := 0x11D }

/-- The field of the lane code: x^10 + x^3 + 1 (09 R284). -/
def gfLane : GF := { m := 10, poly := 0x409 }

end Sys2Proof.Machine
end

