-- ==== Sys2Proof/Machine/Lines.lean ====
section
/-! DEFINITION. The lines of the two memory tiers (07 R204, R210, R229, 16 R429): where a line of a copy lies, a read through
the decoder, a write. -/

namespace Sys2Proof.Machine

/-! ### Places -/

/-- A line of either tier. -/
inductive LineRef where
  | sram (quay bank line : Nat)
  | dram (sub rank bank line : Nat)
deriving DecidableEq, Repr

/-- LPDDR6 byte address of a line (16 R429). -/
def dramAddr (sub rank bank line : Nat) : Nat := line * 32768 + bank * 2048 + rank * 1024 + sub * 32

/-- SRAM byte key of a line: banks of 65,536 lines, 32 banks a Quay (R210). -/
def sramAddr (quay bank line : Nat) : Nat := ((quay * 32 + bank) * 65536 + line) * 32

/-- Line `line` of a copy (R210). -/
def CopyRec.lineRef (c : CopyRec) (lpddr : Bool) (line : Nat) : LineRef :=
  if lpddr then .dram (c.place.extractLsb' 0 5).toNat (c.place.extractLsb' 5 1).toNat c.bank (c.base + line)
  else .sram (c.place.extractLsb' 0 2).toNat (c.place.extractLsb' 2 5).toNat (c.base + line)

/-- The Quay that serves a line (R210). -/
def LineRef.quay : LineRef → Nat
  | .sram q _ _ => q
  | .dram sub _ _ _ => sub / 8

/-- The 5 virtual bytes of a line's address under the code of R229 (DESIGN CHOICE, log entry 25). -/
def LineRef.code : LineRef → List Byte
  | .sram q b l => leBytes 5 ((q * 32 + b) * 65536 + l)
  | .dram s r b l => leBytes 5 (2 ^ 39 + ((s * 2 + r) * 16 + b) * 8388608 + l)

/-- The 32 data bytes of a line as stored. -/
def State.lineData (s : State) : LineRef → List Byte
  | .sram q b l => tgets 0 s.sram (sramAddr q b l) 32
  | .dram u r b l => tgets 0 s.mem (dramAddr u r b l) 32

/-- Writes a line; its code follows from address and data, and is not state of its own (DESIGN CHOICE, log entry 25). -/
def State.writeLine (s : State) (r : LineRef) (d : List Byte) : State :=
  match r with
  | .sram q b l => { s with sram := tputs 0 s.sram (sramAddr q b l) (d.take 32) }
  | .dram u k b l => { s with mem := tputs 0 s.mem (dramAddr u k b l) (d.take 32) }

/-! ### Reads through the decoder (R229 to R231) -/

/-- What a read gives: the data, or none where the line is uncorrectable, and whether the decoder corrected it. -/
structure LineRead where
  data  : Option (List Byte)
  fixed : Bool

/-- The bytes of an error pattern, byte 0 of the line first. -/
def noiseBytes (n : BitVec 288) : List Nat := (List.range 36).map fun i => (n.extractLsb' (8 * i) 8).toNat

/-- A line read with the bits of noise wrong (R229): at most 2 erroneous bytes are corrected; an error in the address bytes,
which are not stored, makes the line uncorrectable. -/
def decodeLine (addr data : List Byte) (noise : BitVec 288) : LineRead :=
  let a := addr.map BitVec.toNat
  let d := data.map BitVec.toNat
  let stored := ((d ++ gfMem.parity 4 (a ++ d)).zip (noiseBytes noise)).map fun e => e.1 ^^^ e.2
  match gfMem.decode 4 (a ++ stored) with
  | none => { data := none, fixed := false }
  | some w =>
    if w.take 5 = a then
      { data := some (((w.drop 5).take 32).map (BitVec.ofNat 8)), fixed := decide (w.drop 5 ≠ stored) }
    else { data := none, fixed := false }

/-- The read of a line. -/
def State.readLine (s : State) (r : LineRef) (noise : BitVec 288) : LineRead := decodeLine r.code (s.lineData r) noise

/-- The line's 8 words. -/
def lineWords (d : List Byte) : List Word := (List.range 8).map fun i => BitVec.ofNat 32 (leAt d (4 * i) 4)

/-! ### BAR4 pieces and host bursts (16 R429 to R432, R224, R225) -/

/-- The line that holds LPDDR6 byte address a (16 R429). -/
def lineOf (a : Nat) : LineRef := .dram (a / 32 % 32) (a / 1024 % 2) (a / 2048 % 16) (a / 32768)

/-- Byte address a lies in a line at or above the library boundary (R211). -/
def State.inLibrary (s : State) (a : Nat) : Bool := decide (8388608 - 512 * s.alm.libG ≤ a / 32768)

/-- The bytes of one line from address a, n of them. -/
structure Piece where
  addr : Nat
  len  : Nat

/-- The pieces, a line each, of n bytes from address a. -/
def pieces (a n : Nat) : List Piece :=
  if n = 0 then []
  else
    (List.range ((a % 32 + n - 1) / 32 + 1)).map fun i =>
      let lo := if i = 0 then a else a / 32 * 32 + 32 * i
      { addr := lo, len := min (a + n) (lo / 32 * 32 + 32) - lo }

/-- LPDDR6 is powered (17 R481: RAILOK bit 5), and the interface of the Quay of byte address a is clocked (R462). -/
def State.memOn (s : State) (a : Nat) : Bool := s.pwr.railok.getLsbD 5 && s.qmemRuns (lineOf a).quay

/-- n free bytes, and the state that has taken them (DESIGN CHOICE, log entry 16). -/
def State.freeBytes (s : State) (n : Nat) : List Byte × State :=
  ((List.range n).map fun i => Config.freeByte (s.freeCtr + i), { s with freeCtr := s.freeCtr + n })

/-- Adds bytes to what a BAR4 read has returned. -/
def State.gives (s : State) (l : List Byte) : State := { s with host := { s.host with bdata := s.host.bdata ++ l } }

/-- One line of a BAR4 read: its bytes; for an uncorrectable line, for one of the library, whose placing the spec leaves to Klowyn,
and for memory without power or clock, free bytes. An uncorrectable line is poisoned wherever it lies (16 R431). -/
def State.readPiece (s : State) (p : Piece) (noise : BitVec 288) : State :=
  let free := let f := s.freeBytes p.len; f.2.gives f.1
  if !s.memOn p.addr then free
  else match (s.readLine (lineOf p.addr) noise).data with
    | some d => if s.inLibrary p.addr then free else s.gives (bytesAt d (p.addr % 32) p.len)
    | none => { free with host := { free.host with poison := true } }

/-- One line of a BAR4 write, kept out of protected lines. -/
def State.putPiece (s : State) (p : Piece) (l : List Byte) (keepOut : Bool) : State :=
  if !s.memOn p.addr || keepOut then s else { s with mem := tputs 0 s.mem p.addr l }

/-- The waiting bursts of the request of burst b, marked as counted. -/
def State.tellBursts (s : State) (b : HostBurst) : State :=
  let mark (x : HostBurst) : HostBurst := if x.id = b.id ∧ x.read = b.read then { x with told := true } else x
  { s with alm := { s.alm with hostQ := s.alm.hostQ.map mark } }

/-- A burst of a read: its bytes in the answer of the latest read; an uncorrectable line poisons it, and its request counts once
(16 R431). -/
def State.readBurst (s : State) (b : HostBurst) : State :=
  let u := ({ s with host := { s.host with bdata := [], poison := false } } : State).readPiece { addr := b.addr, len := b.len } b.noise
  let mine := decide (b.id = s.host.rdId)
  let v := { u with host := { u.host with
      bdata := if mine then bytesAt s.host.bdata 0 b.ofs ++ u.host.bdata ++ s.host.bdata.drop (b.ofs + b.len) else s.host.bdata
      poison := s.host.poison || (mine && u.host.poison) } }
  if u.host.poison && !b.told then ((v.tellBursts b).count .hstPoison 1).raiseBit .hst 6 else v

/-- A burst of a write: merged by reading and rewriting the line, which takes a burst before it; discarded at a protected line, where its
request counts once (16 R431, R432). -/
def State.writeHost (s : State) (b : HostBurst) (keepOut : Bool) : State :=
  let u := s.putPiece { addr := b.addr, len := b.len } b.data keepOut
  if keepOut && !b.told then ((u.tellBursts b).count .hstWdrop 1).raiseBit .hst 5 else u

/-- One waiting host burst carried. -/
def State.carryBurst (s : State) (b : HostBurst) (keepOut : Bool) : State :=
  if 2 ≤ b.left then
    { s with alm := { s.alm with hostQ := s.alm.hostQ.map fun x => if x = b then { b with left := b.left - 1 } else x } }
  else
    let s1 := { s with alm := { s.alm with hostQ := s.alm.hostQ.erase b } }
    if b.read then s1.readBurst b else s1.writeHost b keepOut

/-- Every waiting host burst, at the full memory rate, as a run ends (16 R431): the library alone is protected then (16 R432). -/
def State.drainHost (s : State) : State :=
  s.alm.hostQ.foldl (fun u b =>
    let v := { u with alm := { u.alm with hostQ := u.alm.hostQ.tail } }
    let c := (u.alm.hostQ.headD b)
    if c.read then v.readBurst c else v.writeHost c (v.inLibrary c.addr)) s

/-! ### Bursts (R224, R225, R238) -/

/-- The line that a burst writes: of the face's row in a copy of the table as it was loaded. -/
def State.burstRef (s : State) (w : WBurst) : Option LineRef :=
  (s.tab w.tid).desc.bind fun d => d.2[w.copy]?.map fun c =>
    c.lineRef (d.1.kind.getLsbD 0) ((if w.face then d.1.rows + 1 else 0) + w.row)

/-- Writes a burst. -/
def State.writeBurst (s : State) (w : WBurst) : State :=
  match s.burstRef w with
  | some r => s.writeLine r w.data
  | none => s

/-- One burst per row per copy (R225). -/
def AlmTab.bursts (t : AlmTab) (jseq tid : Nat) (face : Bool) (rows : List (Nat × List Byte)) : List WBurst :=
  match t.desc with
  | none => []
  | some d => rows.flatMap fun r => (List.range d.2.length).map fun k =>
      { jseq := jseq, tid := tid, copy := k, face := face, row := r.1, data := r.2 }

/-- A corrected line rewritten with what the decoder gives for it (R230). -/
def State.rewriteLine (s : State) (w : WBurst) : State :=
  match s.burstRef w with
  | some r => match (s.readLine r 0).data with
    | some d => s.writeLine r d
    | none => s
  | none => s

/-- The corrected lines of a face of a table rewritten: after the table's swap, when no lookup reads the face (R230). -/
def State.rewriteFixed (s : State) (tid : Nat) (face : Bool) : State :=
  let hit (w : WBurst) : Bool := w.tid == tid && w.face == face
  (s.alm.fixes.filter hit).foldl State.rewriteLine { s with alm := { s.alm with fixes := s.alm.fixes.filter fun w => !hit w } }

/-- Every corrected line rewritten: after the run (R230). -/
def State.rewriteAll (s : State) : State := s.alm.fixes.foldl State.rewriteLine { s with alm := { s.alm with fixes := [] } }

/-- The table lies in the LPDDR6 tier. -/
def AlmTab.lpddr (t : AlmTab) : Bool := (t.desc.map fun d => d.1.kind.getLsbD 0).getD false

/-- The catch-up of table tid is queued (R238): the rows of the update for the newly inactive face, at the LPDDR6 tier as
bursts, at the SRAM tier through its write ports at once. Rows of the writes that waited behind it form the next update. -/
def State.queueCatchUp (s : State) (tid : Nat) : State :=
  let t := s.tab tid
  let bs := t.bursts 0 tid (!t.active) t.upd
  let next := (s.alm.writes.filter fun w => w.tid == tid && w.copy == 0).map fun w => (w.row, w.data)
  let s1 := s.setTab tid { t with upd := next }
  let s2 := { s1 with alm := { s1.alm with swaps := s1.alm.swaps.filter fun w => w.tid != tid } }.rewriteFixed tid (!t.active)
  if t.lpddr then { s2 with alm := { s2.alm with catchUp := s2.alm.catchUp ++ bs } }
  else bs.foldl State.writeBurst s2

end Sys2Proof.Machine
end

