-- ==== Sys2Proof/Machine/Run.lean ====
section
/-! DEFINITION. The end of a run (00 R13): what every stop does, whatever its reason. -/

namespace Sys2Proof.Machine

/-- The CLK_GATE bits of physical Fields 12 to 15 (17 R462): bits 13 to 16. -/
def gateF12 : BitVec 30 := 0x1E000

/-- An image of the reduced extent runs on an NC-16F-A1, so that F12 to F15 are gated (02 R79). -/
def State.gatedF12 (s : State) : Bool := s.armed && !s.dev.nc12 && !s.hdr.full

/-- Opcodes of long commands that need the run: HISTO, LANEALIGN, and REJOIN once its run is armed (15 R405, R407, R412). TWRITE does not: its bursts complete
outside the run (07 R239). -/
def needsRun (op : Nat) : Bool := op == 0x0A03 || op == 0x0A06 || op == 0x0803

/-- The commands that a stop makes void, and the long commands it aborts (R410, R412). -/
def State.voidWaiting (s : State) : State :=
  let s1 := s.kly.waiting.foldl (fun t w => t.voidNotice w .void 0xB00D) s
  let s2 := { s1 with kly := { s1.kly with waiting := [] } }
  let ab := s2.kly.longs.filter fun w => needsRun w.req.op.toNat
  let s3 := ab.foldl (fun t w => t.abortLong w { code := 0xB00D }) s2
  { s3 with kly := { s3.kly with longs := s3.kly.longs.filter (fun w => !needsRun w.req.op.toNat), histo := []
                                 align := [] } }

/-- The Almanac at the end of a run: the catch-up of a swap that has taken effect is written, other swaps are void; catch-ups, then table
writes, and host bursts complete at the full memory rate, here at once (07 R239, 16 R431; DESIGN CHOICE, log entry 78), and corrected lines are
rewritten (07 R230). -/
def State.settleSwaps (s : State) : State :=
  let s1 := (s.alm.swaps.filter Swap.done).foldl (fun t w => t.queueCatchUp w.tid) s
  let s2 := (s1.alm.catchUp ++ s1.alm.writes).foldl State.writeBurst { s1 with alm := { s1.alm with catchUp := [], writes := [], swaps := [] } }
  let s3 := s2.drainHost.rewriteAll
  { s3 with alm := { s3.alm with pools := [], found := [], acts := [], locked := false, tideOn := false, trained := false } }

/-- The array side of a stop: ACLK is gated, nothing is in flight, the shadow planes are EMPTY (06 R188, 17 R459). -/
def State.quietArray (s : State) : State :=
  { s with
    arr := { s.arr with flight := [], issued := [], wpDone := [], pops := [], unf := [], sats := [], viol := [], edge := [] }
    planes := { s.planes with sh := .empty, shSlot := 0, fillPos := 0, swW := none, swCn := 0, wpSent := false, epochs := [] }
    clk := { s.clk with alock := false, gate := if s.gatedF12 then s.clk.gate ||| gateF12 else s.clk.gate }
    tick := 0 }

/-- The end of a run (R13): a recording ends with its queued losses, waiting commands become void, the array falls quiet and its
crossing control flushes what crosses to it (17 R468, R469), FDEC is low and no record follows (10 R323). -/
def State.stopRun (s : State) (why : StopReason) : State :=
  let s1 := s.drainLosses.voidWaiting.settleSwaps.quietArray
  let s2 :=
    { s1 with
      run := { s1.run with phase := .idle, filling := false, stopAt := none, faultAt := none, pauseAt := none
                           resumeQ := none, resumed := false, reason := why, replay := false, partialR := false, delta := 0 }
      log := { s1.log with active := false, start := s1.log.start.map fun l => { l with tailed := true } }
      out := { s1.out with recs := [], chainIn := [], fdec := 0 }
      kly := { s1.kly with pause := none }
      pair := { s1.pair with rejoin := none } }
  if s.armed then (s2.peerReset 0 1).coverChange false else s2

end Sys2Proof.Machine
end

