-- ==== Sys2Proof/Machine/Commands.lean ====
section
/-! DEFINITION. How Klowyn takes a command (15_binnacle_mailboxes.md R399 to R412): the checks of R405 in their order, the
announced crossing of R406 and its lead of R408, the journal entry, the completion, the wait for the crossing or the
effect at once outside a run, and the mirroring of 12 R338. -/

namespace Sys2Proof.Machine

/-- The column "In run" of R407. -/
inductive RunRule where
  | any | no | yes | paused
deriving DecidableEq, Repr

/-- A row of R407: opcode, largest and smallest values of its operands and what else makes an operand's value a valid one, the starred
operands, what length of list the
operands ask for, the run column, whether it names a crossing, whether it is long (W), and its J and M flags. -/
structure CmdSpec where
  op    : Nat
  maxs  : List Nat
  mins  : List Nat := []
  ok    : Nat → Dword → Bool := fun _ _ => true
  zero  : List Nat := []
  list  : List Dword → Nat → Bool := fun _ n => n == 0
  run   : RunRule
  cross : List Dword → Bool := fun _ => false
  jrn   : Bool := true
  mir   : Bool := false

/-- What the owning chapter answers when it is asked: a refusal, acceptance with RESULT and the buffer's bytes, or a long
command that goes on. -/
inductive KAns where
  | refuse (f : Refuse)
  | now (s : State) (result : Dword) (buf : List Byte)
  | long (s : State)

/-- A command: its row, the owning chapter's checks and acceptance, and its effect at its crossing. -/
structure KCmd where
  spec : CmdSpec
  own  : State → Waiting → KAns
  act  : State → Waiting → State

/-- Operand k of a body (R403). -/
def KReq.opd (r : KReq) (k : Nat) : Dword := BitVec.ofNat 64 (leAt r.body (8 * k) 8)

/-- The list of a body whose command has n fixed operands. -/
def KReq.list (r : KReq) (n : Nat) : List Byte := r.body.drop (8 * n)

/-- A request from a command's header, operands and list. -/
def mkReq (op : Nat) (h : CmdHdr) (ops : List Dword) (lst : List Byte) : KReq :=
  { op := BitVec.ofNat 16 op, hdr := h, body := ops.flatMap (fun d => leBytes 8 d.toNat) ++ lst }

/-- The fixed operands. -/
def CmdSpec.opds (c : CmdSpec) (r : KReq) : List Dword := (List.range c.maxs.length).map r.opd

/-! ### The checks of R405 -/

/-- LENGTH (R402, R403). -/
def CmdSpec.lenOk (c : CmdSpec) (r : KReq) : Bool :=
  let n := 8 * c.maxs.length
  decide (r.hdr.len = r.body.length ∧ r.hdr.len ≤ 4032 ∧ n ≤ r.body.length) && c.list (c.opds r) (r.body.length - n)

/-- The first operand outside its range. -/
def CmdSpec.badOp (c : CmdSpec) (r : KReq) : Option Nat :=
  (List.range c.maxs.length).find? fun k =>
    decide ((r.opd k).toNat > c.maxs.getD k 0) || decide ((r.opd k).toNat < c.mins.getD k 0) || !c.ok k (r.opd k)

/-- The first starred operand that is zero. -/
def CmdSpec.zeroOp (c : CmdSpec) (r : KReq) : Option Nat := c.zero.find? fun k => decide (r.opd k = 0)

/-- The run state allows the row (R407); 0xA001 of R202 is FILL's and SWITCH's answer without a run or in a pause. -/
def CmdSpec.runCode (c : CmdSpec) (s : State) : Nat :=
  let nr := c.op == 0x0301 || c.op == 0x0303
  match c.run with
  | .any => 0
  | .no => if s.armed then 0xB007 else 0
  | .yes => if !s.armed then (if nr then 0xA001 else 0xB007) else if nr && decide (s.run.phase = .paused) then 0xA001 else 0
  | .paused => match s.run.phase with
    | .idle | .armed | .running => 0xB007
    | _ => 0

/-- A query, ATTEST or SLEEP: what a sleeping device takes (17 R477). -/
def CmdSpec.query (c : CmdSpec) : Bool := !c.jrn && !c.mir

/-- The sleep state allows the command (17 R477). -/
def CmdSpec.sleepOk (c : CmdSpec) (s : State) : Bool := decide (s.pwr.sst = 0) || c.query || c.op == 0x0B01

/-- The Watch refuses the command from its host: it is mirrored, or, as DESKEW, ends in commits that the Helm alone makes (08 R259, 12 R338, 15
R411; DEDUCED, log entry 105). -/
def CmdSpec.helmOnly (c : CmdSpec) : Bool := c.mir || c.op == 0x0A01

/-- The refusal of the pair role (12 R338, R352, R411). YIELD stays open to a member in LOST, since R352 asks for it; commands of Klowyn's own
meet none. -/
def CmdSpec.pairCode (c : CmdSpec) (s : State) : Nat :=
  if s.pairMode && decide (s.pair.st = .lost) && c.jrn && c.op != 0x0802 then 0xB009
  else if s.pairMode && c.helmOnly && decide (s.pair.role = 2) then 0xA00C
  else 0

/-- The lead of R408. -/
def State.lead (s : State) (op len : Nat) : Nat :=
  256 + (len + 63) / 64 + (if s.pairMode then 2 * (s.pair.cfg.extractLsb' 25 4).toNat + 4 else 0) +
  (if op == 0x0201 || op == 0x0703 || op == 0x0204 then 262144 else 0)

/-- The real crossing that a header names (R406). -/
def State.target (s : State) (h : CmdHdr) : CN := if h.rel then s.cn + h.acn else h.acn

/-- A command that starts a run waits for its crossing although no run is armed (R407). -/
def startsRun (op : Nat) : Bool := op == 0x0201 || op == 0x0703

/-- The command acts at once: no crossing, or no run (R407). -/
def CmdSpec.atOnce (c : CmdSpec) (s : State) (r : KReq) : Bool :=
  !c.cross (c.opds r) || (!s.armed && !startsRun c.op)

/-- The announced crossing breaks its lead (R12, R408). -/
def CmdSpec.late (c : CmdSpec) (s : State) (r : KReq) : Bool :=
  let d := (s.target r.hdr - s.cn).toNat
  !c.atOnce s r && (decide (d < s.lead c.op r.hdr.len) || decide (d > 2 ^ 47 - 1))

/-- Klowyn's certificate policy bits (18 R490). -/
def State.policy (s : State) : BitVec 16 := (s.boot.cert.map Cert.policy).getD 0

/-- POLICY (15 R419, 18 R491): an unowned device, or one with BRDOK 0, takes queries, ATTEST and OWNERUPD alone; standalone
operation without HOSTCMD takes no command marked M from a host. -/
def CmdSpec.policyBars (c : CmdSpec) (s : State) (m : Nat) : Bool :=
  ((!s.boot.owned || !s.boot.brdOk) && !c.query && c.op != 0x0C02) ||
  (s.kly.cfg.standalone && !s.kly.cfg.hostcmd && c.mir && decide (m < 16))

/-- The checks of R405 before those of the owning chapter. A command from the partner has passed the Helm's (R338), and a
command that a replay repeats those of its recording (14 R393). -/
def kCheck (c : CmdSpec) (m : Nat) (r : KReq) (s : State) : Option Refuse :=
  let mirrored := m == 255 || (m == 253 && s.run.replay)
  if !c.lenOk r then some { code := 0xB002, expect := 8 * c.maxs.length, found := r.hdr.len }
  else match c.badOp r with
  | some k => some { code := 0xB003, item := k, expect := c.maxs.getD k 0, found := (r.opd k).toNat }
  | none =>
    if r.hdr.rsvd || decide (r.hdr.at_ ≠ c.cross (c.opds r)) then some { code := 0xB003 }
    else match c.zeroOp r with
    | some k => some { code := 0xB004, item := k }
    | none =>
      let rc := c.runCode s
      let pc := if mirrored || m == 253 then 0 else c.pairCode s
      if rc ≠ 0 then some { code := rc }
      else if !c.sleepOk s then some { code := 0xB007 }
      else if pc ≠ 0 then some { code := pc }
      else if !mirrored && c.late s r then
        some { code := 0xB005, expect := s.lead c.op r.hdr.len, found := (s.target r.hdr - s.cn).toNat }
      else if !mirrored && c.policyBars s m then some { code := 0xB00A }
      else none

/-! ### Taking a command -/

/-- The journal entry of an accepted command (R413). -/
def State.jEntry (s : State) (c : CmdSpec) (m : Nat) (r : KReq) (res : Dword) : JEnt :=
  { seq := 0, mbx := m, st := .accepted, op := r.op, status := 0, tag := r.hdr.tag, cnAcc := s.cn, len := r.hdr.len
    acn := if !r.hdr.at_ then 0 else if c.atOnce s r then s.cn else s.target r.hdr
    flags := hdrFlags r.hdr, digest := bodyDigest r.body, result := res, cnDone := 0 }

/-- The Helm of a formed pair mirrors the commands marked M (R338). -/
def State.mirrors (s : State) (c : CmdSpec) : Bool :=
  s.pairMode && (s.paired || s.pair.serving) && c.mir && decide (s.pair.role = 1) && decide (s.pair.st = .joined)

/-- A stream packet (12 R337): LEN in [15:0], KIND in [19:16], SEQ in [63:32], then the body. Packets begin at a block and are
padded to whole blocks (DESIGN CHOICE, log entry 41). -/
def streamPkt (kind : Nat) (seq : Nat) (body : List Byte) : List Byte :=
  let l := leBytes 4 (8 + body.length + 65536 * kind) ++ leBytes 4 seq ++ body
  l ++ List.replicate ((8 - l.length % 8) % 8) 0

/-- What a command packet carries: the fields of the header with the crossing as an absolute one, the journal sequence and epoch, and the body. It
fits the 4,096 bytes of a packet with any body (DESIGN CHOICE, log entry 41). -/
def mirrorBody (epoch : BitVec 16) (w : Waiting) : List Byte :=
  let h := w.req.hdr
  leBytes 4 h.tag.toNat ++ leBytes 2 w.req.op.toNat ++ leBytes 2 h.len ++ leBytes 6 (if h.at_ then w.at_.toNat else 0) ++
  [if h.at_ then 1 else 0, 0] ++ leBytes 4 w.jseq ++ leBytes 2 epoch.toNat ++ [0, 0] ++ w.req.body

def MTx.none : MTx := { cur := [], cmds := [], xfers := [] }
def State.mtx (s : State) (i : Nat) : MTx := tget MTx.none s.pair.tx i
def State.setMtx (s : State) (i : Nat) (t : MTx) : State := { s with pair := { s.pair with tx := tset s.pair.tx i t } }

/-- Step 2 of a rejoin is in progress on the Helm: swaps and switches are refused (12 R347). -/
def State.transferring (s : State) : Bool := s.pair.serving && !s.pair.stepEnd

/-- A command packet goes out on every mirror lane. -/
def State.sendCmd (s : State) (p : List Byte) : State :=
  (List.range 4).foldl (fun u i => u.setMtx i { u.mtx i with cmds := (u.mtx i).cmds ++ [p] }) s

/-- Queues the packet under the command's journal SEQ (15 R411), and notes that the completion waits for its CACK. -/
def State.mirror (s : State) (w : Waiting) (result : Dword) (buf : List Byte) : State :=
  let q := BitVec.ofNat 32 w.jseq
  let s1 := s.sendCmd (streamPkt 1 q.toNat (mirrorBody s.jnl.epoch w))
  { s1 with pair := { s1.pair with
      mseq := q, waitCack := s1.pair.waitCack ++ [{ seq := q, w := w, result := result, buf := buf }] } }

/-- The completion of an accepted command that is not long: at once, or at its CACK. Its journal entry ends here unless it
waits for a crossing. -/
def kFinish (c : CmdSpec) (s : State) (w : Waiting) (result : Dword) (buf : List Byte) : State :=
  if s.mirrors c then s.mirror w result buf
  else
    let s1 := if c.cross (c.opds w.req) then s else s.jEnd w.jseq .done 0 result
    if w.mbx < 16 then s1.complete w.mbx w.req w.jseq w.cnAcc result buf else s1

/-- The waiting command as accepted at the present crossing. -/
def State.mkWaiting (s : State) (c : CmdSpec) (m : Nat) (r : KReq) : Waiting :=
  { jseq := if c.jrn then s.jnl.head + 1 else 0, mbx := m, req := r, cnAcc := s.cn
    at_ := if c.atOnce s r then s.cn else s.target r.hdr, long := false, base := s.host.wbase }

/-- Adds an announced command to those that wait (R409: by ascending journal sequence). -/
def State.await (s : State) (w : Waiting) : State := { s with kly := { s.kly with waiting := s.kly.waiting ++ [w] } }

/-- Adds a long command in progress. -/
def State.awaitLong (s : State) (w : Waiting) : State :=
  { s with kly := { s.kly with longs := s.kly.longs ++ [{ w with long := true }] } }

/-- Klowyn runs a command of mailbox m: refusal, or acceptance with all that follows (R404 to R410). -/
def kRun (c : KCmd) (m : Nat) (r : KReq) (s : State) : State :=
  match kCheck c.spec m r s with
  | some f => s.refuse m r f
  | none =>
    let w := s.mkWaiting c.spec m r
    let sj := if c.spec.jrn then s.jAdd (s.jEntry c.spec m r 0) else s
    let note (u : State) : State := if c.spec.mir then u.logEvent (.cmd w) else u
    match c.own sj w with
    | .refuse f => s.refuse m r f
    | .long s1 => (note (if s1.mirrors c.spec then s1.mirror w 0 [] else s1)).awaitLong w
    | .now s1 result buf =>
      let s2 := note (kFinish c.spec s1 w result buf)
      if !c.spec.cross (c.spec.opds r) then c.act s2 w
      else if c.spec.atOnce s r then (c.act s2 w).effectNotice w s.cn
      else s2.await w

/-- A mailbox holds a command that Klowyn has taken and not completed. -/
def State.inWork (s : State) (m : Nat) : Bool :=
  (s.kly.longs.any fun w => w.mbx == m) || s.pair.waitCack.any fun c => c.w.mbx == m

/-- Klowyn can take the command of mailbox m: it runs, and two entries of the ring are free (R401). -/
def State.canTake (s : State) (m : Nat) : Bool := s.kly.up && decide ((s.mbxOf m).used ≤ 62)

/-- The 64 bytes of a command header, its crossing as given (R402). RSVD bits that are not zero stand as the first of them. -/
def hdrBytes (r : KReq) : List Byte :=
  let h := r.hdr
  leBytes 4 h.tag.toNat ++ leBytes 2 r.op.toNat ++ leBytes 2 h.len ++ leBytes 6 h.acn.toNat ++ leBytes 1 (hdrFlags h).toNat ++
  leBytes 1 (if h.rsvd then 1 else 0) ++ List.replicate 48 0

/-- The command that a command buffer of mailbox m holds (R402, R403). -/
def bufReq (m : Nat) (c : List Byte) : KReq :=
  let flags := leAt c 14 1
  let len := leAt c 6 2
  let h : CmdHdr := { mbx := m, tag := BitVec.ofNat 32 (leAt c 0 4), len := len, acn := BitVec.ofNat 48 (leAt c 8 6), at_ := flags.testBit 0
                      rel := flags.testBit 1, rsvd := decide (flags / 4 ≠ 0 ∨ leNat (bytesAt c 15 49) ≠ 0) }
  { op := BitVec.ofNat 16 (leAt c 4 2), hdr := h, body := bytesAt c 64 (min len 4032) }

/-- The mailbox with a doorbell accepted: BUSY, DBL cleared, the command held (R400, R421). -/
def Mbx.accept (b : Mbx) (r : KReq) : Mbx := { b with busy := true, dbl := false, cmd := some r }

/-- The mailbox with a command written into its buffer and submitted. -/
def Mbx.submit (b : Mbx) (r : KReq) : Mbx := (b.write 0 (hdrBytes r ++ r.body)).accept r

/-- A command that a host writes into the buffer of its mailbox and submits (R400): the doorbell of a mailbox that is BUSY is ignored
and sets DBL (R412); a command that Klowyn cannot take yet stays held. -/
def kSubmit (c : KCmd) (r : KReq) (s : State) : Out :=
  let m := r.hdr.mbx
  if 16 ≤ m then .fault .noSuchUnit
  else if (s.mbxOf m).busy then .next (s.setMbx m { s.mbxOf m with dbl := true })
  else
    let s1 := s.setMbx m ((s.mbxOf m).submit r)
    if s1.canTake m then
      let u := kRun c m r s1
      .next { u with kly := { u.kly with lastMbx := m } }
    else .next s1

/-- The effects of the commands with this opcode that wait for crossing t, in ascending journal sequence (R409), each with
its notice of effect at crossing e. -/
def State.applyDue (s : State) (c : KCmd) (t e : CN) : State :=
  (s.dueNow c.spec.op t).foldl (fun u w => ((c.act (u.dropWaiting w.jseq) w).effectNotice w e)) s

/-- The effects of the commands of several opcodes that wait for crossing t, in ascending journal sequence across the opcodes, up to
the last of opcode op: effects of different commands that touch one field (R409). -/
def State.applyGroup (s : State) (cs : List KCmd) (op : Nat) (t e : CN) : State :=
  let due := s.kly.waiting.filter fun w => (cs.any fun c => c.spec.op == w.req.op.toNat) && decide (w.at_ = t)
  let last := ((due.filter fun w => w.req.op.toNat == op).map Waiting.jseq).foldl max 0
  (due.filter fun w => decide (w.jseq ≤ last)).foldl (fun u w =>
    match cs.find? fun c => c.spec.op == w.req.op.toNat with
    | some c => (c.act (u.dropWaiting w.jseq) w).effectNotice w e
    | none => u) s

/-- No effect at a crossing of its own. -/
def noAct (s : State) (_ : Waiting) : State := s

end Sys2Proof.Machine
end

