-- ==== Sys2Proof/Machine/Weighmaster.lean ====
section
/-! DEFINITION. The Weighmaster (04_weighmaster_scales.md): ranges, multipliers and shifts of tensors and channel contexts,
the descriptor commit, and what arming sets. -/

namespace Sys2Proof.Machine

/-! ### Scale (R127) -/

/-- M and S of range r, 1 to 2^31, for target t, 1 to 32767 (R127). -/
def scaleOf (r t : Nat) : BitVec 16 × BitVec 6 :=
  let sh := 14 + bitlen r - bitlen t
  let q := t <<< sh / r
  if q < 16384 then (BitVec.ofNat 16 (t <<< (sh + 1) / r), BitVec.ofNat 6 (sh + 1)) else (BitVec.ofNat 16 q, BitVec.ofNat 6 sh)

/-- Bits of a WIDTH code: 4, 8 or 16. -/
def widthBits (w : BitVec 2) : Nat := match w.toNat with | 0 => 4 | 1 => 8 | _ => 16

/-- The target (2^(w-1) - 1) >> h. -/
def targetOf (w h : Nat) : Nat := (2 ^ (w - 1) - 1) >>> h

/-! ### Descriptors (R144) -/

def tcEnable (c : Word) : Bool := c.getLsbD 31
def tcKm1 (c : Word) : Nat := (c.extractLsb' 25 6).toNat
def tcHead (c : Word) : Nat := (c.extractLsb' 23 2).toNat
def tcWidth (c : Word) : BitVec 2 := c.extractLsb' 21 2
def tcLink (c : Word) : Nat := (c.extractLsb' 16 5).toNat
def tcDrop (c : Word) : Nat := (c.extractLsb' 12 4).toNat
def tcFaThr (c : Word) : Nat := (c.extractLsb' 0 12).toNat

/-- The target of a descriptor. -/
def tcTarget (c : Word) : Nat := targetOf (widthBits (tcWidth c)) (tcHead c)

/-- Condition TARGET of 0x0404 (R126, R144, R170). -/
def targetBad (cfg rdef : Word) : Bool :=
  (tcWidth cfg == 0 && tcHead cfg == 3) || tcWidth cfg == 3 ||
  (tcEnable cfg && (rdef == 0 || decide (rdef.toNat > 2 ^ 31)))

/-! ### Tensors -/

/-- M and S of a tensor's range in force, for the parameter sets. -/
def Tensor.scaled (t : Tensor) (r : Word) : Tensor :=
  let p := scaleOf r.toNat (tcTarget t.cfg)
  { t with mNow := p.1, sNow := p.2, rForce := r }

/-- A cleared window (R142): maxima 0, seen 0, r_now the default. -/
def Tensor.clearWindow (t : Tensor) : Tensor := { t with m := [], seen := false, rNow := t.rdef }

/-- A tensor as arming leaves it (R131). -/
def Tensor.armed (cfg rdef : Word) : Tensor :=
  let t : Tensor := { Tensor.reset with cfg := cfg, rdef := rdef, rNow := rdef }
  if tcEnable cfg then t.scaled rdef else t

/-- m[j] of a tensor. -/
def Tensor.mAt (t : Tensor) (j : CN) : Nat := (tget 0 t.m j.toNat).toNat
/-- n[j] of a tensor. -/
def Tensor.nAt (t : Tensor) (j : CN) : Nat := tget 0 t.n j.toNat

/-- The window maximum over report crossings c - K to c - 1 (R122). -/
def Tensor.windowMax (t : Tensor) (c : CN) : Nat :=
  ((List.range (tcKm1 t.cfg + 1)).map fun i => t.mAt (cnSub c (i + 1))).foldl max 0

/-- The members of a tensor's link group, or the tensor alone (R134). -/
def State.group (s : State) (k : Nat) : List Tensor :=
  let g := tcLink (s.tensor k).cfg
  if g = 0 then [s.tensor k]
  else (s.wgm.tensors.map Prod.snd).filter fun t => tcEnable t.cfg && tcLink t.cfg == g

/-- The derivation of R130 on group values: the range of the next crossing, the seen flag, the window maximum before fast
attack, and whether fast attack acted. -/
def deriveRange (cfg : Word) (wmax mc nc : Nat) (rNow : Word) (seen : Bool) : Word × Bool × Bool :=
  let fa := decide (tcFaThr cfg ≠ 0 ∧ nc ≥ tcFaThr cfg ∧ mc > wmax)
  let w := if fa then mc else wmax
  if w = 0 then (rNow, seen, fa)
  else if !seen then (BitVec.ofNat 32 w, true, fa)
  else if tcDrop cfg = 0 then (BitVec.ofNat 32 w, true, fa)
  else (BitVec.ofNat 32 (max w (rNow.toNat - rNow.toNat >>> tcDrop cfg)), true, fa)

/-- The k most recent report crossings at crossing c, and later ones. -/
def recent {α : Type} (k : Nat) (c : CN) (t : Tbl α) : Tbl α :=
  t.filter fun p => decide ((c - BitVec.ofNat 48 p.1).toNat < k) || cnLt c (BitVec.ofNat 48 p.1)

/-- Range, M and S for the next crossing (R127, R130); none where no range stands. -/
def Tensor.scaleNext (t : Tensor) (r : Word) : Option (Word × BitVec 16 × BitVec 6) :=
  if r = 0 then none else some (r, scaleOf r.toNat (tcTarget t.cfg))

/-- One tensor's derivation in presented crossing c. Maxima and counts stay for the 64 crossings of R123 and for A more, which a drain tail may
hold (14 R387). Each tensor that takes a fast attack is an event of its Field (DESIGN CHOICE,
log entry 74). -/
def State.deriveTensor (s : State) (g : List Tensor) (k : Nat) (c : CN) : State :=
  let t := s.tensor k
  if !tcEnable t.cfg then s else
  let wmax := (g.map fun u => u.windowMax c).foldl max 0
  let mc := (g.map fun u => u.mAt c).foldl max 0
  let nc := (g.map fun u => u.nAt c).sum
  let d := deriveRange t.cfg wmax mc nc t.rNow t.seen
  let t1 := { t with next := t.scaleNext d.1, rNow := d.1, seen := d.2.1, twin := BitVec.ofNat 32 wmax, last := BitVec.ofNat 32 (t.mAt (cnSub c 1))
                     fa := if d.2.2 && t.fa != 0xFFFFFFFF#32 then t.fa + 1 else t.fa
                     m := recent (64 + s.hdr.a) c t.m, n := recent (64 + s.hdr.a) c t.n }
  let s1 := s.setTensor k t1
  if d.2.2 then s1.raiseBit (.wgmF (k / 64)) 1 else s1

/-! ### Channel contexts (R135 to R139) -/

/-- The range of a channel level (R135). -/
def levelRange (l : Nat) : Nat := if l ≥ 32 then 2 ^ 31 else 2 ^ l - 1

def cwKm1 (w : Word) : Nat := (w.extractLsb' 26 6).toNat
def cwHead (w : Word) : Nat := (w.extractLsb' 24 2).toNat
def cwWidth (w : Word) : BitVec 2 := w.extractLsb' 22 2
def cwRnd (w : Word) : Bool := w.getLsbD 21
def cwFa (w : Word) : Bool := w.getLsbD 20
def cwDstep (w : Word) : Nat := (w.extractLsb' 16 4).toNat
def cwSeen (w : Word) : Bool := w.getLsbD 15
def cwLf (w : Word) : Nat := (w.extractLsb' 9 6).toNat
def cwLdef (w : Word) : Nat := (w.extractLsb' 3 6).toNat

/-- A control word with SEEN and LF replaced. -/
def cwWith (w : Word) (seen : Bool) (lf : Nat) : Word :=
  w.extractLsb' 16 16 ++ BitVec.ofBool seen ++ BitVec.ofNat 6 lf ++ w.extractLsb' 0 9

/-- The 32-byte Weighmaster record of a context (R139): age[e] in bits [7e - 1 : 7e - 7] of bytes 0 to 27, the control word in bytes
28 to 31. -/
def wgmRecord (ages : Tbl Nat) (w : Word) : List Byte :=
  leBytes 28 ((List.range 32).foldl (fun n i => n + min (tget 0 ages (i + 1)) 127 * 2 ^ (7 * i)) 0) ++ leBytes 4 w.toNat

/-- The ages of a record. -/
def wgmAges (l : List Byte) : Tbl Nat :=
  let n := leAt l 0 28
  (List.range 32).foldl (fun t i => tput 0 t (i + 1) (n / 2 ^ (7 * i) % 128)) []

/-- The ladder after a word of level l (R136). -/
def ladderStep (ages : Tbl Nat) (l : Nat) : Tbl Nat :=
  (List.range 32).foldl (fun t i => let e := i + 1; tput 0 t e (if e ≤ l then 0 else min (tget 0 ages e + 1) 64)) []

/-- The window level: the largest e with age[e] at most K - 1, or 0 (R136). -/
def windowLevel (ages : Tbl Nat) (km1 : Nat) : Nat :=
  ((List.range 32).map fun i => if tget 0 ages (i + 1) ≤ km1 then i + 1 else 0).foldl max 0

/-- The level of the next crossing: LF, SEEN, and whether fast attack acted (R130, R137). -/
def deriveLevel (w : Word) (wl l : Nat) (sat : Bool) : Nat × Bool × Bool :=
  let fa := cwFa w && sat && decide (l > wl)
  let v := if fa then l else wl
  if v = 0 then (cwLf w, cwSeen w, fa)
  else if !cwSeen w ∨ cwDstep w = 0 then (v, true, fa)
  else (max v (cwLf w - cwDstep w), true, fa)

/-- The derivation of one context after its word of the present crossing, and its ladder update (R136, R137). A FIXED
context (08 R248) keeps its level, and counts no fast attack (DESIGN CHOICE, log entry 74). Each context that takes one is an event of
its Quay (DESIGN CHOICE, log entry 74). -/
def State.deriveCtx (s : State) (e : Nat × Nat × Bool) : State :=
  let c := s.ctxOf e.1
  let d := deriveLevel c.wgm (windowLevel c.ages (cwKm1 c.wgm)) e.2.1 e.2.2
  let fixed := c.ctl.getLsbD 30
  let wgm := if fixed then cwWith c.wgm d.2.1 (cwLdef c.wgm) else cwWith c.wgm d.2.1 d.1
  let s1 := s.setCtx e.1 { c with wgm := wgm, ages := ladderStep c.ages e.2.1 }
  if d.2.2 && !fixed then (s1.count (.wgmCfa (e.1 / 16384)) 1).raiseBit (.wgmC (e.1 / 16384)) 1 else s1

/-! ### Commands -/

/-- Derivations run in a live run, once a presented crossing, and after a resume only beyond the restored crossings
(R131). -/
def State.derivable (s : State) : Bool :=
  s.live && decide (s.wgm.derived ≠ some s.pcn) &&
  (match s.wgm.hold with
   | some h => cnLt h s.pcn
   | none => true)

/-- Every tensor's derivation, each on the group values as they stood before it. -/
def State.deriveAll (s : State) : State :=
  let c := s.pcn
  (tkeys s.wgm.tensors).foldl (fun u k => u.deriveTensor (s.group k) k c) s

/-- A histogram of a tensor samples its crossing maximum at each derivation (DESIGN CHOICE, log entry 30). -/
def State.histoTensor (s : State) (c : CN) : State :=
  let ts := ((s.kly.histo.filter fun h => !h.target.getLsbD 16).map fun h => h.target.toNat).eraseDups
  ts.foldl (fun u t => u.histoTake t ((u.tensor (64 * (t % 256) + t / 256 % 64)).mAt c)) s

/-! ### Latches (14 R387) -/

/-- A tensor's part of a latch: its 64 maxima up to presented report crossing h, range and seen. -/
def Tensor.latch (h : CN) (kt : Nat × Tensor) : TensorLatch :=
  { key := kt.1, m := (recent 64 h kt.2.m).filter (fun p => cnLe (BitVec.ofNat 48 p.1) h), rNow := kt.2.rNow
    seen := kt.2.seen, tailM := [], tailN := [] }

/-- The drain tail: the report crossings from h + 1 to h + a (presented). -/
def TensorLatch.withTail (h : CN) (a : Nat) (s : State) (l : TensorLatch) : TensorLatch :=
  let t := s.tensor l.key
  let tail (k : Nat) : Bool := decide (1 ≤ (BitVec.ofNat 48 k - h).toNat ∧ (BitVec.ofNat 48 k - h).toNat ≤ a)
  { l with tailM := t.m.filter (fun p => tail p.1), tailN := t.n.filter (fun p => tail p.1) }

/-- The last report crossing of a latch that is no drain tail, as presented. -/
def Latch.h (l : Latch) (s : State) : CN := cnAdd (l.p - l.delta) s.hdr.rofs

/-- The tensors of a latch at P, latched in crossing P + R_OFS + 1, before the derivation of that crossing. -/
def Latch.take (s : State) (l : Latch) : Latch :=
  { l with tensors := s.wgm.tensors.map (Tensor.latch (l.h s)), valid := true }

/-- The drain tail of a latch. -/
def Latch.tail (s : State) (l : Latch) : Latch :=
  { l with tensors := l.tensors.map (TensorLatch.withTail (l.h s) s.hdr.a s), tailed := true }

/-- What a latch of this run takes in the present crossing. -/
def Latch.due (s : State) (l : Latch) : Latch :=
  if l.delta ≠ s.run.delta then l
  else if !l.valid && decide (s.cn = cnAdd l.p (s.hdr.rofs + 1)) then l.take s
  else if l.valid && !l.tailed && decide (s.cn = cnAdd l.p (s.hdr.rofs + s.hdr.a + 1)) then l.tail s
  else l

/-- The latches in progress: of a pause, of a logbook, of a rebase. -/
def State.takeLatches (s : State) : State :=
  { s with kly := { s.kly with pause := s.kly.pause.map (Latch.due s) }
           log := { s.log with start := s.log.start.map (Latch.due s) }
           pair := { s.pair with latch := s.pair.latch.map (Latch.due s) } }

/-- WGM_DERIVATION (R130): tensors for the next crossing, and the channel contexts whose words this crossing formed. -/
def execWgmDerivation (s : State) : Out :=
  let sl := if s.live then s.takeLatches else s
  let s0 := sl.chan.levels.foldl (fun u e => u.deriveCtx e) sl
  let s1 := { s0 with chan := { s0.chan with levels := [] } }
  if s1.derivable then
    let s2 := s1.deriveAll.histoTensor s.pcn
    .next { s2 with wgm := { s2.wgm with derived := some s.pcn } }
  else .next s1

/-- M and S of a tensor written to every parameter set of its Field that has WGM = 1 and names it (03 R99). -/
def writeScale (k : Nat) (m : BitVec 16) (sh : BitVec 6) (kc : Nat × Cell) : Nat × Cell :=
  let vf := 4 * (kc.1 / 1024 / 256) + kc.1 % 1024 / 256
  if vf = k / 64 then
    let upd (w : Word) : Word := if rqWgm w && rqTensor w == k % 64 then rqWithMS w m sh else w
    (kc.1, { kc.2 with rq := kc.2.rq.map fun p => (p.1, upd p.2) })
  else kc

/-- The sets of a tensor take the M and S now in force. -/
def State.pushScale (s : State) (k : Nat) : State :=
  let t := s.tensor k
  { s with arr := { s.arr with cells := s.arr.cells.map (writeScale k t.mNow t.sNow) } }

/-- A tensor's derived range, M and S come into force. -/
def State.applyScale (s : State) (k : Nat) : State :=
  let t := s.tensor k
  match t.next with
  | some (r, m, sh) => (s.setTensor k { t with mNow := m, sNow := sh, rForce := r, next := none }).pushScale k
  | none => s

/-- The boundary between two crossings of a run: tick 0, before any cell issues and before this crossing's derivation (R99). -/
def State.atBoundary (s : State) : Bool :=
  s.live && decide (s.tick = 0) && s.arr.issued.isEmpty && decide (s.wgm.derived ≠ some s.pcn)

/-- SCALE_APPLY (03 R99): at the boundary between two crossings the derived ranges come into force. -/
def execScaleApply (s : State) : Out :=
  if s.atBoundary then .next ((tkeys s.wgm.tensors).foldl (fun u k => u.applyScale k) s) else .next s

/-! ### Descriptor commits (R142) -/

/-- A list entry of WGMCOMMIT (15 R407). -/
structure WgmEnt where
  vf   : Nat
  tns  : Nat
  zero : Bool
  cfg  : Word
  rdef : Word

def wgmEnts (l : List Byte) (n : Nat) : List WgmEnt :=
  (List.range n).map fun i =>
    let b := l.drop (16 * i)
    { vf := leAt b 0 1, tns := leAt b 1 1, zero := leAt b 2 6 == 0, cfg := BitVec.ofNat 32 (leAt b 8 4)
      rdef := BitVec.ofNat 32 (leAt b 12 4) }

def WgmEnt.key (e : WgmEnt) : Nat := 64 * e.vf + e.tns

/-- A parameter set of the image names tensor k with TVALID 1 (R119). -/
def Image.names (i : Image) (k : Nat) : Bool :=
  i.rqp.any fun c => decide (4 * (c.1 / 1024 / 256) + c.1 % 1024 / 256 = k / 64) &&
    c.2.any fun p => rqTvalid p.2 && rqTensor p.2 == k % 64

/-- Virtual Fields of the armed image's extent; 16 outside a run, where no image sets one (DESIGN CHOICE, log entry 18). -/
def State.vfields (s : State) : Nat := if s.armed && !s.hdr.full then 12 else 16

/-- The descriptors that would stand after a commit, as (key, cfg, rdef). -/
def afterCommit (s : State) (es : List WgmEnt) : Tbl (Word × Word) :=
  es.foldl (fun t e => tset t e.key (e.cfg, e.rdef)) (s.wgm.tensors.map fun p => (p.1, p.2.cfg, p.2.rdef))

/-- The members of a link group have one descriptor (R133). -/
def linkBad (t : Tbl (Word × Word)) (e : WgmEnt) : Bool :=
  tcLink e.cfg != 0 && t.any fun p => tcLink p.2.1 == tcLink e.cfg && (p.2.1 != e.cfg || p.2.2 != e.rdef)

/-- The code with which an entry of a tensor commit fails, 0 where it does not (R142); t holds the descriptors after the commit. -/
def wgmEntBad (s : State) (t : Tbl (Word × Word)) (e : WgmEnt) : Nat :=
  if e.vf ≥ s.vfields ∨ e.tns ≥ 64 ∨ !e.zero then 0xB003
  else if s.armed && !tcEnable e.cfg && s.img.names e.key then 0x0403
  else if targetBad e.cfg e.rdef then 0x0404
  else if linkBad t e then 0x0405
  else 0

/-- The refusal of a tensor commit, naming the first failing entry (R142). -/
def wgmCommitBad (s : State) (es : List WgmEnt) : Option Refuse :=
  let codes := es.map (wgmEntBad s (afterCommit s es))
  (codes.findIdx? (· ≠ 0)).map fun i => { code := codes.getD i 0, item := i }

/-- One entry's commit: the descriptor changes; CLEAR, or ENABLE going to 1, clears the window. -/
def State.commitTensor (clear : Bool) (s : State) (e : WgmEnt) : State :=
  let t := s.tensor e.key
  let t1 := { t with cfg := e.cfg, rdef := e.rdef }
  s.setTensor e.key (if clear || (!tcEnable t.cfg && tcEnable e.cfg) then t1.clearWindow else t1)

def ownWgmcommit (s : State) (w : Waiting) : KAns :=
  match wgmCommitBad s (wgmEnts (w.req.list 2) (w.req.opd 1).toNat) with
  | some f => .refuse f
  | none => .now s 0 []

/-- A commit takes effect as it was accepted (R142, 15 R410). -/
def actWgmcommit (s : State) (w : Waiting) : State :=
  ((wgmEnts (w.req.list 2) (w.req.opd 1).toNat).foldl (State.commitTensor (w.req.opd 0 == 1)) s).covered s true

def cmdWgmcommit : KCmd :=
  { spec := { op := 0x0501, maxs := [1, 2 ^ 64 - 1], zero := [1], run := .any, mir := true, cross := fun _ => true
              list := fun o n => decide (n = 16 * (o.getD 1 0).toNat) }
    own := ownWgmcommit, act := actWgmcommit }

/-- WGMCOMMIT (R142, 15 R407). -/
def execWgmcommit (h : CmdHdr) (clear count : Dword) (lst : List Byte) (s : State) : Out :=
  kSubmit cmdWgmcommit (mkReq 0x0501 h [clear, count] lst) s

/-! ### Arming and restoring (R131, R140) -/

/-- The Weighmaster at the arming of an image. -/
def wgmArmed (i : Image) : WgmState :=
  { WgmState.reset with
    tensors := i.wgmd.foldl (fun t d => tset t (64 * d.vf + d.tensor) (Tensor.armed d.cfg d.rdef)) [] }

/-- Every tensor's M and S in force written to the parameter sets. -/
def State.pushAllScales (s : State) : State :=
  (tkeys s.wgm.tensors).foldl (fun u k => if tcEnable (u.tensor k).cfg then u.pushScale k else u) s

/-- Restores a tensor from a latch (R131, 14 R388); the maxima and the tail together, later reports merging into both. -/
def State.restoreTensor (s : State) (l : TensorLatch) : State :=
  let t := s.tensor l.key
  let m := l.tailM.foldl (fun u p => tput 0 u p.1 p.2) l.m
  let t1 := { t with m := m, n := l.tailN, rNow := l.rNow, seen := l.seen, next := none }
  s.setTensor l.key (if tcEnable t.cfg ∧ l.rNow ≠ 0 then t1.scaled l.rNow else t1)

end Sys2Proof.Machine
end

