-- ==== Sys2Proof/Machine/LoadProgram.lean ====
section
/-! DEFINITION. Steps 3 and 4 of the loader's checks (05 R161, R170, R524), the program and the scales, with the pieces of
step 2, the extent. Each check answers the first item that fails, in the order R161 gives. -/

namespace Sys2Proof.Machine

/-- The first refusal of a list of checks. -/
def firstOf : List (Option Refuse) → Option Refuse
  | [] => none
  | some r :: _ => some r
  | none :: l => firstOf l

/-- The first item of a list that a check refuses. -/
def firstItem {α : Type} (l : List α) (f : α → Option Refuse) : Option Refuse := l.findSome? f

/-! ### Extent (0x0105) -/

/-- A cell beyond the extent. -/
def cellOut (rows s : Nat) (x y : Nat) : Option Refuse :=
  if x > 1023 then some { code := 0x0105, sect := s, x := x, y := y, expect := 1023, found := x }
  else if y ≥ rows then some { code := 0x0105, sect := s, x := x, y := y, expect := rows - 1, found := y } else none

/-- An edge port beyond the extent, of edge × 1024 + index. -/
def edgeOut (rows s : Nat) (e : Nat) : Option Refuse :=
  if (e / 1024 = 1 ∨ e / 1024 = 3) ∧ e % 1024 ≥ rows then
    some { code := 0x0105, sect := s, x := e % 1024, y := e / 1024, expect := rows - 1, found := e % 1024 }
  else none

def keyOut (rows s : Nat) (k : Nat) : Option Refuse := cellOut rows s (k % 1024) (k / 1024)

def locOut (rows s : Nat) : Loc → Option Refuse
  | .cell x y _ => cellOut rows s x y
  | .edge e i => edgeOut rows s (e * 1024 + i)

/-! ### The program (0x0301 to 0x030D) -/

/-- The opcodes of 03 R86 with the FMT codes each accepts, by bit of FMT. -/
def fmtMask (opc : Nat) : Nat :=
  match opc with
  | 0x01 | 0x02 => 0b01111
  | 0x03 | 0x04 | 0x28 | 0x29 | 0x2A | 0x39 => 0b00111
  | 0x18 => 0b00010
  | 0x19 | 0x3A => 0b00001
  | 0x1B => 0b00100
  | 0x00 | 0x05 | 0x06 | 0x07 | 0x08 | 0x09 | 0x0A | 0x10 | 0x11 | 0x12 | 0x1A | 0x20 | 0x21 | 0x22 | 0x23 | 0x24
  | 0x25 | 0x26 | 0x27 | 0x2B | 0x30 | 0x31 | 0x32 | 0x33 | 0x34 | 0x35 | 0x36 | 0x37 | 0x38 => 0b10000
  | _ => 0

/-- The opcode is defined. -/
def opcDefined (opc : Nat) : Bool := fmtMask opc != 0

def isMacClass (opc : Nat) : Bool := decide (1 ≤ opc ∧ opc ≤ 0x0A)
def isMac4 (opc : Nat) : Bool := decide (1 ≤ opc ∧ opc ≤ 4)
def isRq (opc : Nat) : Bool := decide (0x10 ≤ opc ∧ opc ≤ 0x12)
def isLut (opc : Nat) : Bool := decide (0x18 ≤ opc ∧ opc ≤ 0x1B)

/-- The opcode reads A, and B (R89). -/
def readsA (opc : Nat) : Bool := !(opc == 0 || opc == 8 || opc == 0x11 || opc == 0x12)
def readsB (opc : Nat) : Bool :=
  isMac4 opc || decide (0x20 ≤ opc ∧ opc ≤ 0x29) || decide (0x30 ≤ opc ∧ opc ≤ 0x37) || opc == 0x39 || opc == 0x3A

/-- The source codes an entry uses: operands that are read, and routes. -/
def operandCodes (e : MInstr) : List Nat :=
  (if readsA e.opc then [e.srcA] else []) ++ (if readsB e.opc then [e.srcB] else [])
def routeCodes (e : MInstr) : List Nat := e.routes.map Prod.snd

/-- A field of R50 with its lowest bit, its value and whether R54, R55 or R89 refuses it, in ascending order of bit. -/
def fieldChecks (e : MInstr) : List (Nat × Nat × Bool) :=
  let codes := operandCodes e ++ routeCodes e
  let opc := e.opc
  let int16 := isMac4 opc && e.fmt == 2
  let dstMem := e.dst == 2 || e.dst == 3
  let usesAcc := isMacClass opc || opc == 0x11 || opc == 0x12 || e.dst == 1 || (operandCodes e).contains 9
  [(0, e.cond, decide (e.cond > 4)),
   (7, e.satw, e.satw == 3 || (!isRq opc && e.satw != 0)),
   (9, e.rnd, e.rnd == 3 || (!isRq opc && e.rnd != 0)),
   (11, e.rqs, !isRq opc && !e.maxabs && e.rqs != 0),
   (49, e.addrD, if int16 then decide (e.addrD > 1) else (isMacClass opc || !dstMem) && e.addrD != 0),
   (57, e.dst, decide (e.dst > 3)),
   (60, e.acc, !usesAcc && e.acc != 0),
   (63, e.addrW, !codes.contains 15 && !isLut opc && e.addrW != 0),
   (71, e.addrA, !codes.contains 14 && e.addrA != 0),
   (79, e.srcB, !readsB opc && e.srcB != 0),
   (83, e.srcA, !readsA opc && e.srcA != 0)]

/-- DST is allowed for the opcode (R88). -/
def dstAllowed (opc dst : Nat) : Bool :=
  if opc = 0 then dst == 0
  else if isMacClass opc then dst == 1
  else if opc = 0x27 then dst == 2 || dst == 3
  else decide (dst ≤ 3)

/-- The cell has express port p, 4 to 7 for XN, XE, XS, XW (02 R65). -/
def hasExpress (x y p : Nat) : Bool := if p = 4 ∨ p = 6 then x % 16 == 0 else y % 16 == 0

/-- The code fields of an entry with their lowest bits, in ascending order: the vertical and horizontal express routes, the
mesh routes, SRCB, SRCA. -/
def codeFields (e : MInstr) : List (Nat × Nat) :=
  [(16, e.rtXV), (21, e.rtXH), (25, e.rtW), (29, e.rtS), (33, e.rtE), (37, e.rtN), (79, e.srcB), (83, e.srcA)]

/-- The express ports named that the cell lacks, as (lowest bit of the field, port) (R51). -/
def missingExpress (x y : Nat) (e : MInstr) : List (Nat × Nat) :=
  (codeFields e).flatMap fun f =>
    let port := if f.1 = 16 then (if e.xvDir then 6 else 4) else (if e.xhDir then 7 else 5)
    let out := if (f.1 = 16 ∨ f.1 = 21) ∧ f.2 ≠ 0 ∧ !hasExpress x y port then [(f.1, port)] else []
    let src := if 5 ≤ f.2 ∧ f.2 ≤ 8 ∧ !hasExpress x y (f.2 - 1) then [(f.1, f.2 - 1)] else []
    out ++ src

/-- The landing cell of an express hop on port p (R66), as integers. -/
def expressLanding (x y p : Nat) : Int × Int :=
  match p with
  | 4 => (x, (y : Int) - 16)
  | 5 => ((x : Int) + 16, y)
  | 6 => (x, (y : Int) + 16)
  | _ => ((x : Int) - 16, y)

/-- The landing of an express hop from a cell that has its port, where it lies beyond the extent (R67). -/
def hopOut (rows x y p : Nat) : Option (Int × Int) :=
  let l := expressLanding x y p
  if 4 ≤ p ∧ p < 8 ∧ hasExpress x y p ∧ (l.1 < 0 ∨ l.1 > 1023 ∨ l.2 < 0 ∨ l.2 ≥ rows) then some l else none

/-- Express routes whose landing cell lies beyond the extent (R67), as (port, landing). -/
def missingHop (rows x y : Nat) (e : MInstr) : List (Nat × Int × Int) :=
  (e.routes.filter fun r => decide (r.1 ≥ 4 ∧ r.2 ≠ 0)).filterMap fun r =>
    let l := expressLanding x y r.1
    if l.1 < 0 ∨ l.1 > 1023 ∨ l.2 < 0 ∨ l.2 ≥ rows then some (r.1, l.1, l.2) else none

/-- The last accumulator that a span needs (R91, R97); 0 where the operation has none. -/
def accSpan (e : MInstr) : Nat :=
  let f := (fmtOf e.fmt).getD .word
  if e.opc = 3 ∨ e.opc = 4 then e.acc + (if f = .int16 then 1 else f.lanes) - 1
  else if e.opc = 0x11 ∨ e.opc = 0x12 then e.acc + 32 / satWidth e.satw - 1
  else 0

/-- The last parameter set that RQVC needs (R97). -/
def rqsSpan (e : MInstr) : Nat := if e.opc = 0x12 then e.rqs + 32 / satWidth e.satw - 1 else 0

/-- The last word that a lookup table needs (R106). -/
def lutSpan (e : MInstr) : Nat :=
  match e.opc with
  | 0x18 => e.addrW + 63
  | 0x19 => e.addrW + 1
  | 0x1A | 0x1B => e.addrW + 127
  | _ => 0

/-- A cell of the program with its parameter sets. -/
structure ProgCell where
  key  : Nat
  prog : List MInstr
  rqp  : Tbl Word

def Image.progCells (i : Image) : List ProgCell :=
  i.prog.map fun p => { key := p.1, prog := p.2, rqp := tget [] i.rqp p.1 }

/-- A check over every entry of every cell, in the order of R161. -/
def eachEntry (i : Image) (f : ProgCell → Nat → Nat → Nat → MInstr → Option Refuse) : Option Refuse :=
  firstItem i.progCells fun c => firstItem c.prog.zipIdx fun ek => f c (c.key % 1024) (c.key / 1024) ek.2 ek.1

/-- The base of a PROG refusal (R524). -/
def progRef (code x y k : Nat) : Refuse := { code := code, sect := 2, x := x, y := y, entry := k }

/-- LOOP (R58). -/
def loopBad (n : Nat) (c : ProgCell) : Option Refuse :=
  match loopLen c.prog with
  | none => some { progRef 0x0301 (c.key % 1024) (c.key / 1024) 0xFF with expect := n }
  | some len =>
    if n % len = 0 ∨ len = 2 * n then none
    else some { progRef 0x0301 (c.key % 1024) (c.key / 1024) (len - 1) with expect := n, found := len }

/-- The program step (R161 step 3, R524), codes in ascending order. X2 and Y2 of a landing cell north or west of the grid hold its negative
coordinate modulo 2^16 (DESIGN CHOICE, log entry 98). -/
def programBad (i : Image) : Option Refuse :=
  let rows := i.hdr.rows
  firstOf [
    firstItem i.progCells (loopBad i.hdr.n),
    eachEntry i fun _ x y k e => if opcDefined e.opc then none else some { progRef 0x0302 x y k with found := e.opc },
    eachEntry i fun _ x y k e =>
      if (fmtMask e.opc).testBit e.fmt.toNat then none
      else some { progRef 0x0303 x y k with expect := e.opc, found := e.fmt.toNat },
    eachEntry i fun _ x y k e =>
      ((fieldChecks e).find? fun f => f.2.2).map fun f => { progRef 0x0304 x y k with item := f.1, found := f.2.1 },
    eachEntry i fun _ x y k e =>
      if dstAllowed e.opc e.dst then none else some { progRef 0x0305 x y k with expect := e.opc, found := e.dst },
    eachEntry i fun _ x y k e =>
      (missingExpress x y e).head?.map fun m => { progRef 0x0306 x y k with port := m.2, item := m.1 },
    eachEntry i fun _ x y k e =>
      (missingHop rows x y e).head?.map fun m =>
        { progRef 0x0307 x y k with port := m.1, x2 := (m.2.1 % 65536).toNat, y2 := (m.2.2 % 65536).toNat },
    eachEntry i fun _ x y k e =>
      if (e.opc = 1 ∨ e.opc = 2) ∧ e.fmt = 3 ∧ e.srcA ≠ 10 then some { progRef 0x0308 x y k with expect := 10, found := e.srcA }
      else none,
    eachEntry i fun _ x y k e =>
      if accSpan e > 7 then some { progRef 0x0309 x y k with expect := 7, found := accSpan e } else none,
    eachEntry i fun _ x y k e =>
      if rqsSpan e > 15 then some { progRef 0x030A x y k with expect := 15, found := rqsSpan e } else none,
    eachEntry i fun _ x y k e =>
      if lutSpan e > 255 then some { progRef 0x030B x y k with expect := 255, found := lutSpan e } else none,
    eachEntry i fun c x y k e =>
      if e.maxabs && (e.opc == 0 || !rqTvalid (tget 0 c.rqp e.rqs)) then
        some { progRef 0x030C x y k with item := e.rqs, found := e.opc } else none,
    eachEntry i fun _ x y k e =>
      if e.cond = 0 then none
      else (e.routes.find? fun r => r.2 == 9).map fun r => { progRef 0x030D x y k with port := r.1, found := e.cond }]

/-! ### Scales (0x0401 to 0x0406) -/

/-- Every parameter set of the image as (cell key, set, value). -/
def Image.sets (i : Image) : List (Nat × Nat × Word) := i.rqp.flatMap fun c => c.2.map fun p => (c.1, p.1, p.2)

/-- The descriptor of tensor k, if WGMD has one. -/
def Image.desc (i : Image) (k : Nat) : Option WgmDesc := i.wgmd.find? fun d => 64 * d.vf + d.tensor == k

/-- The tensor key that a set of a cell names. -/
def setTensorKey (cell : Nat) (w : Word) : Nat := 64 * (4 * (cell / 1024 / 256) + cell % 1024 / 256) + rqTensor w

/-- The base of an RQP refusal. -/
def rqpRef (code cell set : Nat) : Refuse := { code := code, sect := 5, x := cell % 1024, y := cell / 1024, item := set }

/-- The ticks of a crossing at which entry k of a loop of length len issues (R58). -/
def issueTicks (n len k : Nat) : List Nat := (List.range n).filter fun t => decide (k < len) && (if len ≤ n then t % len == k else t == k % n)

/-- The parameter sets through which an entry reports or flags: MAXABS names RQS, a requantise its lanes' sets. -/
def reportSets (e : MInstr) : List Nat :=
  if isRq e.opc then (if e.opc = 0x12 then (List.range (32 / satWidth e.satw)).map (e.rqs + ·) else [e.rqs])
  else if e.maxabs then [e.rqs] else []

/-- FA_TICK of one entry (R125). -/
def faBad (i : Image) (c : ProgCell) (x y k : Nat) (e : MInstr) : Option Refuse :=
  let len := (loopLen c.prog).getD 1
  firstItem (reportSets e) fun j =>
    let w := tget 0 c.rqp j
    if rqTvalid w && ((i.desc (setTensorKey c.key w)).map fun d => tcFaThr d.cfg != 0).getD false then
      ((issueTicks i.hdr.n len k).find? fun t => decide (t + 13 > i.hdr.n)).map fun t =>
        { progRef 0x0406 x y k with tau := t, item := rqTensor w, expect := i.hdr.n - 13, found := t }
    else none

/-- The first member of a descriptor's link group differs from it (R133). -/
def linkDiffers (i : Image) (d : WgmDesc) : Bool :=
  tcLink d.cfg != 0 &&
  match i.wgmd.find? fun e => tcLink e.cfg == tcLink d.cfg with
  | some e => e.cfg != d.cfg || e.rdef != d.rdef
  | none => false

/-- The scales step (R161 step 4). -/
def scalesBad (i : Image) : Option Refuse :=
  firstOf [
    firstItem i.sets fun s => if rqS s.2.2 > 47 then some { rqpRef 0x0401 s.1 s.2.1 with found := rqS s.2.2 } else none,
    firstItem i.sets fun s => if rqWgm s.2.2 && !rqTvalid s.2.2 then some (rqpRef 0x0402 s.1 s.2.1) else none,
    firstItem i.sets fun s =>
      if rqTvalid s.2.2 && !((i.desc (setTensorKey s.1 s.2.2)).map fun d => tcEnable d.cfg).getD false then
        some { rqpRef 0x0403 s.1 s.2.1 with found := rqTensor s.2.2 } else none,
    firstItem i.wgmd fun d =>
      if targetBad d.cfg d.rdef then some { code := 0x0404, sect := 0x0A, x := d.vf, item := d.tensor } else none,
    firstItem i.wgmd fun d =>
      if linkDiffers i d then some { code := 0x0405, sect := 0x0A, item := tcLink d.cfg, x := d.vf, y := d.tensor } else none,
    eachEntry i (faBad i)]

end Sys2Proof.Machine
end

