-- ==== Sys2Proof/Machine/LoadPaths.lean ====
section
/-! DEFINITION. Steps 5 to 8 of the loader's checks: queues, streams, joins and the output schedule (05 R158 to R168, 10
R319). -/

namespace Sys2Proof.Machine

/-! ### Walking a stream (R159, R166) -/

/-- Where a stream stands: in a cell (in its queue of port q; 8 at an origin), before an edge port, or beyond one. -/
inductive Pos where
  | cell (x y q : Nat)
  | into (edge : Nat)
  | beyond (edge : Nat)
deriving DecidableEq, Repr

/-- The edge ports of a cell, as edge × 1024 + index, lowest edge first. -/
def edgesOf (rows x y : Nat) : List Nat :=
  (if y = 0 then [x] else []) ++ (if x = 1023 then [1024 + y] else []) ++ (if y + 1 = rows then [2048 + x] else []) ++
  (if x = 0 then [3072 + y] else [])

/-- The parities of C that PAR admits. -/
def Par.parities : Par → List Nat
  | .every => [0, 1]
  | .even => [0]
  | .odd => [1]

/-- Some input crossing is admitted by both. -/
def Par.meets (a b : Par) : Bool := a.parities.any b.parities.contains

/-- A request drives key 0 at an edge port and stream time, in an input crossing that PAR admits (07 R208). -/
def ReqRec.keyAt (r : ReqRec) (p : Par) (e tau : Nat) : Bool := r.edge == e && r.tau0 == tau && r.par.meets p

/-- The edge port of an Almanac hop: that of the request whose key 0 is driven there at this stream time, else the lowest
(R208, R240). -/
def almEdge (i : Image) (p : Par) (x y tau : Nat) : Option Nat :=
  let es := edgesOf i.hdr.rows x y
  (es.find? fun e => i.almt.reqs.any fun r => r.keyAt p e tau).orElse fun _ => es.head?

/-- The edge cell of an edge port and its outward port. -/
def edgeCellOf (rows e : Nat) : Nat × Nat × Nat :=
  let k := e % 1024
  match e / 1024 with
  | 0 => (k, 0, 0)
  | 1 => (1023, k, 1)
  | 2 => (k, rows - 1, 2)
  | _ => (0, k, 3)

/-- The cell that an inner link of direction d from (x, y) reaches, with its input port. -/
def neighbour (rows x y d : Nat) : Option (Nat × Nat × Nat) :=
  let s := if d < 4 then 1 else 16
  if d ≥ 4 ∧ !hasExpress x y d then none else
  match d % 4 with
  | 0 => if y < s then none else some (x, y - s, d + 2)
  | 1 => if x + s > 1023 then none else some (x + s, y, d + 2)
  | 2 => if y + s ≥ rows then none else some (x, y + s, d - 2)
  | _ => if x < s then none else some (x - s, y, d - 2)

/-- A hop from a position: where it ends and the model value of its link (R147); none where no such link exists. -/
def hopFrom (i : Image) (par : Par) (tau : Nat) (p : Pos) (h : Nat × Nat) : Option (Pos × Nat) :=
  let rows := i.hdr.rows
  match p with
  | .beyond _ => none
  | .into e =>
    let c := edgeCellOf rows e
    if h.1 = (c.2.2 + 2) % 4 then some (.cell c.1 c.2.1 c.2.2, 3) else none
  | .cell x y _ =>
    if h.1 < 8 then
      match neighbour rows x y h.1 with
      | some (x2, y2, q) => some (.cell x2 y2 q, if x / 256 = x2 / 256 ∧ y / 256 = y2 / 256 then 1 else 4)
      | none =>
        if h.1 < 4 then
          ((edgesOf rows x y).find? fun e => e / 1024 == h.1).map fun e => (.beyond e, 3)
        else none
    else (almEdge i par x y tau).map fun e => (.cell x y (e / 1024), h.2)

/-- Ticks that a hop takes (R166). -/
def hopTicks (n : Nat) (h : Nat × Nat) : Nat := if h.1 < 8 then h.2 else (h.2 + 1) * n

/-- One hop of a walk. -/
structure Leg where
  pos : Pos
  tau : Nat
  hop : Nat × Nat
  /-- The output port of the cell that the hop takes. -/
  out : Nat
  res : Option (Pos × Nat)
deriving DecidableEq, Repr

/-- The output port that a hop takes from a position. -/
def hopPort (i : Image) (par : Par) (tau : Nat) (p : Pos) (h : Nat × Nat) : Nat :=
  match p with
  | .cell x y _ => if h.1 < 8 then h.1 else ((almEdge i par x y tau).map (· / 1024)).getD 0
  | _ => h.1

/-- The legs of a walk, up to the first hop that names no link. -/
def legs (i : Image) (par : Par) (p : Pos) (tau : Nat) : List (Nat × Nat) → List Leg
  | [] => []
  | h :: hs =>
    let r := hopFrom i par tau p h
    { pos := p, tau := tau, hop := h, out := hopPort i par tau p h, res := r } ::
      (match r with
       | some (q, _) => legs i par q (tau + hopTicks i.hdr.n h) hs
       | none => [])

/-- A stream's origin. -/
def Stream.start (s : Stream) : Pos :=
  match s.oloc with
  | .cell x y _ => .cell x y 8
  | .edge e k => .into (e * 1024 + k)

def Stream.legs (i : Image) (s : Stream) : List Leg := Machine.legs i s.par s.start s.otau s.hops

/-- Where a walk ends. -/
def Stream.last (i : Image) (s : Stream) : Option Pos := ((s.legs i).getLast?.bind Leg.res).map Prod.fst

/-- The sink as a position. -/
def Stream.sink (s : Stream) : Pos :=
  match s.sloc with
  | .cell x y q => .cell x y q
  | .edge e k => .beyond (e * 1024 + k)

/-- A position as X, Y and PORT of a record. -/
def Pos.fill (r : Refuse) : Pos → Refuse
  | .cell x y q => { r with x := x, y := y, port := if q < 8 then q else 0xFF }
  | .into e => { r with x := e % 1024, y := e / 1024 }
  | .beyond e => { r with x := e % 1024, y := e / 1024 }

/-! ### Parities and period ticks (R168) -/

/-- The period ticks of stream time tau under PAR. -/
def periodTicks (n : Nat) (p : Par) (tau : Nat) : List Nat :=
  p.parities.map fun q => (q + tau / n) % 2 * n + tau % n

/-- The entry that a cell issues at period tick b (R58). -/
def entryAt (i : Image) (x y b : Nat) : MInstr :=
  let pr := tget [MInstr.idle] i.prog (y * 1024 + x)
  pr.getD (b % (loopLen pr).getD 1) MInstr.idle

/-- The code routed onto output port p, 0 for none. -/
def routeCode (e : MInstr) (p : Nat) : Nat :=
  match e.routes.find? fun r => r.1 == p && r.2 != 0 with
  | some r => r.2
  | none => 0

/-- The code that drives output port p; a NOP's result route drives nothing (R87). -/
def routedOn (e : MInstr) (p : Nat) : Nat := if routeCode e p = 9 ∧ e.opc = 0 then 0 else routeCode e p

/-! ### Queues (0x0501, 0x0502) -/

/-- The input ports whose queues an entry reads or pops. -/
def queuesUsed (e : MInstr) : List Nat :=
  (List.range 8).filter fun p => (operandCodes e ++ routeCodes e).contains (p + 1) || e.pops p

/-- QBT has an entry for a queue. -/
def Image.hasQ (i : Image) (x y p : Nat) : Bool := i.qbt.any fun q => q.x == x && q.y == y && q.port == p

/-- The queues that a stream enters, with their stream times. -/
def Stream.queues (i : Image) (s : Stream) : List (Nat × Nat × Nat × Nat) :=
  (s.legs i).filterMap fun l =>
    match l.res with
    | some (.cell x y q, _) => some (x, y, q, l.tau + hopTicks i.hdr.n l.hop)
    | _ => none

/-- The queues step (R158). -/
def queuesBad (i : Image) : Option Refuse :=
  firstOf [
    firstItem i.qbt fun q =>
      if q.bound = 0 ∨ q.bound > 8 then
        some { code := 0x0501, sect := 6, x := q.x, y := q.y, port := q.port, expect := 8, found := q.bound } else none,
    eachEntry i fun _ x y k e =>
      ((queuesUsed e).find? fun p => !i.hasQ x y p).map fun p => { progRef 0x0502 x y k with sect := 6, port := p },
    firstItem i.path fun s =>
      ((s.queues i).find? fun q => !i.hasQ q.1 q.2.1 q.2.2.1).map fun q =>
        { code := 0x0502, sect := 7, x := q.1, y := q.2.1, port := q.2.2.1, tau := q.2.2.2, item := s.sid },
    firstItem i.wpt fun w =>
      match w with
      | .root _ _ _ => none
      | .cell x y win wtau _ _ => if i.hasQ x y win then none else some { code := 0x0502, sect := 6, x := x, y := y, port := win, tau := wtau }]

/-! ### Streams (0x0504, 0x0506, 0x0507) -/

/-- The far end of a leg's link as X2 and Y2 of a record, where a cell stands there (R169). -/
def Leg.fill (l : Leg) (r : Refuse) : Refuse :=
  match l.res with
  | some (.cell x y _, m) => { r with expect := m, found := l.hop.2, x2 := x, y2 := y }
  | some (_, m) => { r with expect := m, found := l.hop.2 }
  | none => r

/-- PATH_MODEL of one stream: the first leg without a link or with a wrong delay, its direction in PORT, or the sum of the travel
times. -/
def pathModelBad (i : Image) (s : Stream) : Option Refuse :=
  let base : Refuse := { code := 0x0504, sect := 7, item := s.sid }
  match (s.legs i).find? fun l => match l.res with
      | none => true
      | some (_, m) => decide (l.hop.2 ≠ m) with
  | some l =>
    some { l.fill (Pos.fill base l.pos) with tau := l.tau, port := l.out % 8 }
  | none =>
    let sum := (s.hops.map (hopTicks i.hdr.n)).sum
    if s.otau + sum = s.stau then none
    else some { Pos.fill base s.start with tau := s.otau, expect := s.stau - s.otau, found := sum }

/-- One output port of a cell that a stream uses: cell, port, source code, stream time (R166). -/
structure PortUse where
  x : Nat
  y : Nat
  port : Nat
  code : Nat
  tau : Nat
deriving DecidableEq, Repr

/-- The uses of a stream: its origin's route and every forward. -/
def Stream.uses (i : Image) (s : Stream) : List PortUse :=
  (s.legs i).filterMap fun l =>
    match l.pos with
    | .cell x y q =>
      let code := if q < 8 then q + 1 else match s.oloc with
        | .cell _ _ c => c
        | _ => 0
      some { x := x, y := y, port := l.out, code := code, tau := l.tau }
    | _ => none

/-- The entry number that a cell issues at period tick b. -/
def entryNo (i : Image) (x y b : Nat) : Nat := b % (loopLen (tget [MInstr.idle] i.prog (y * 1024 + x))).getD 1

/-- A use of an output port as (cell key × 8 + port). -/
def PortUse.key (u : PortUse) : Nat := (u.y * 1024 + u.x) * 8 + u.port

/-- PATH_ROUTE of one use of a stream at one period tick: the issue does not route as declared, or an earlier stream claims the
port. -/
def useBad (i : Image) (claims : List (Nat × Nat)) (s : Stream) (u : PortUse) : Option Refuse :=
  firstItem (periodTicks i.hdr.n s.par u.tau) fun b =>
    let f := routeCode (entryAt i u.x u.y b) u.port
    let r : Refuse := { code := 0x0506, sect := 7, x := u.x, y := u.y, port := u.port, tau := u.tau, item := s.sid
                        entry := entryNo i u.x u.y b }
    if f ≠ u.code then some { r with expect := u.code, found := f }
    else if claims.contains (u.key, b) then some r else none

/-- Every use of an output port by a stream as (key, period tick). -/
def Stream.claims (i : Image) (s : Stream) : List (Nat × Nat) :=
  (s.uses i).flatMap fun u => (periodTicks i.hdr.n s.par u.tau).map fun b => (u.key, b)

/-- PATH_ROUTE of the streams in their order, with what the earlier ones claim. -/
def routesBad (i : Image) (claims : List (Nat × Nat)) : List Stream → Option Refuse
  | [] => none
  | s :: r => (firstItem (s.uses i) (useBad i claims s)).orElse fun _ => routesBad i (claims ++ s.claims i) r

/-- The branches of JOIN that consume stream s at its sink. -/
def Image.joinsFor (i : Image) (s : Stream) : List (Join × Branch) :=
  i.join.flatMap fun j => (j.branches.filter fun b => b.sid == s.sid).map fun b => (j, b)

/-- The last stream time at which a stream's token stands in its sink's queue. -/
def Image.heldTo (i : Image) (s : Stream) : Nat := ((i.joinsFor s).head?.map fun jb => jb.1.itau).getD s.stau

/-- Every (queue key, period tick) at which a stream's token stands in a queue (R168). -/
def Image.standing (i : Image) : List (Nat × Nat) :=
  i.path.flatMap fun s => (s.queues i).flatMap fun q =>
    let upto := if .cell q.1 q.2.1 q.2.2.1 = s.sink ∧ q.2.2.2 = s.stau then i.heldTo s else q.2.2.2
    (List.range (upto - q.2.2.2 + 1)).flatMap fun d =>
      (periodTicks i.hdr.n s.par (q.2.2.2 + d)).map fun b => ((q.2.1 * 1024 + q.1) * 8 + q.2.2.1, b)

/-- Code c routed at a cell at period tick b drives a token: a queue head does where the queue is declared occupied (02 R63). -/
def drives (held : List (Nat × Nat)) (key b c : Nat) : Bool :=
  c != 0 && (decide (8 < c) || held.contains (key * 8 + (c - 1), b))

/-- Routes that drive a token of no stream. -/
def strayRoute (i : Image) : Option Refuse :=
  let uses := i.path.flatMap (Stream.claims i)
  let held := i.standing
  firstItem i.progCells fun c => firstItem (List.range (2 * i.hdr.n)) fun b =>
    let x := c.key % 1024
    let y := c.key / 1024
    let code (p : Nat) : Nat := routedOn (entryAt i x y b) p
    ((List.range 8).find? fun p => drives held c.key b (code p) && !uses.contains (c.key * 8 + p, b)).map fun p =>
      { code := 0x0506, sect := 7, x := x, y := y, port := p, tau := b, entry := entryNo i x y b, found := code p }

/-- Uses of edge ports by a stream: (edge port, inward, stream time). -/
def Stream.edgeUses (i : Image) (s : Stream) : List (Nat × Bool × Nat) :=
  let origin := match s.start with
    | .into e => [(e, true, s.otau)]
    | _ => []
  origin ++ (s.legs i).flatMap fun l =>
    match l.res with
    | some (.beyond e, _) => [(e, false, l.tau + 3)]
    | some (.cell x y q, _) =>
      if l.hop.1 ≥ 8 then
        let e := ((edgesOf i.hdr.rows x y).find? fun e => e / 1024 == q).getD 0
        [(e, false, l.tau + 3), (e, true, l.tau + hopTicks i.hdr.n l.hop - 3)]
      else []
    | _ => []

/-- The edge ports that a stream uses, as (edge port, inward, period tick). -/
def Stream.edgeTicks (i : Image) (s : Stream) : List (Nat × Bool × Nat) :=
  (s.edgeUses i).flatMap fun u => (periodTicks i.hdr.n s.par u.2.2).map fun b => (u.1, u.2.1, b)

/-- The words that the channel stage and the chain stage drive, as (edge port, inward, period tick): one for the channel words
that share an edge port and tick, one for each chain map entry (08 R246, 10 R312). -/
def Image.wordTicks (i : Image) : List (Nat × Bool × Nat) :=
  let n := i.hdr.n
  ((i.cmap.map fun e => (e.edge, (i.hdr.rofs + 1) * n + e.tick)).eraseDups.flatMap fun e =>
    (periodTicks n .every e.2).map fun b => (e.1, true, b)) ++
  i.cred.maps.flatMap fun m => (periodTicks n m.par m.tau).map fun b => (m.edge, true, b)

/-- A use of an edge port that meets an earlier stream's, or that two words feed in one tick (10 R316). -/
def edgeMeets (used words : List (Nat × Bool × Nat)) (k : Nat × Bool × Nat) : Bool := used.contains k || decide (words.count k > 1)

/-- PATH_SINK of one stream: its last hop does not end at SLOC. -/
def sinkBad (i : Image) (s : Stream) : Option Refuse :=
  if s.last i = some s.sink then none
  else some { Pos.fill { code := 0x0507, sect := 7, item := s.sid } s.sink with tau := s.stau }

/-- PATH_SINK of the streams in their order: the sink, then two streams, or two words, on one edge port in one direction and
period tick. used: what the earlier streams use. -/
def sinksBad (i : Image) (words used : List (Nat × Bool × Nat)) : List Stream → Option Refuse
  | [] => none
  | s :: r =>
    (sinkBad i s).orElse fun _ =>
    match (s.edgeUses i).find? fun u => (periodTicks i.hdr.n s.par u.2.2).any fun b => edgeMeets used words (u.1, u.2.1, b) with
    | some u => some { code := 0x0507, sect := 7, x := u.1 % 1024, y := u.1 / 1024, tau := u.2.2, item := s.sid }
    | none => sinksBad i words (used ++ s.edgeTicks i) r

/-- A chain word that shares an edge port and tick with another word, where no stream stands to name it (10 R316). -/
def chainWordBad (i : Image) (words : List (Nat × Bool × Nat)) (m : ChainMap) : Option Refuse :=
  if (periodTicks i.hdr.n m.par m.tau).any fun b => decide (words.count (m.edge, true, b) > 1) then
    some { code := 0x0507, sect := 0x0E, x := m.edge % 1024, y := m.edge / 1024, tau := m.tau, item := m.lane }
  else none

/-- The streams step (R166). -/
def streamsBad (i : Image) : Option Refuse :=
  firstOf [firstItem i.path (pathModelBad i), routesBad i [] i.path, strayRoute i, sinksBad i i.wordTicks [] i.path,
    firstItem i.cred.maps (chainWordBad i i.wordTicks)]

/-! ### Joins (0x0507, 0x0505, 0x0503) -/

/-- A cell sink has exactly one JOIN record, at its cell and port (R160). -/
def joinMissing (i : Image) (s : Stream) : Option Refuse :=
  match s.sloc with
  | .edge _ _ => none
  | .cell x y q =>
    match i.joinsFor s with
    | [(j, b)] => if j.x = x ∧ j.y = y ∧ b.port = q then none
        else some { code := 0x0507, sect := 8, x := x, y := y, port := q, tau := s.stau, item := s.sid }
    | _ => some { code := 0x0507, sect := 8, x := x, y := y, port := q, tau := s.stau, item := s.sid }

def Image.stream (i : Image) (sid : Nat) : Option Stream := i.path.find? fun s => s.sid == sid

/-- PARs that may meet in one record (R167). -/
def Par.compatible (a b : Par) : Bool := a == b || a == .every || b == .every

/-- A branch of a record names no stream, a stream with another sink, or one that an earlier branch names (R160). seen: the SIDs
of the earlier branches. -/
def branchBad (i : Image) (seen : List Nat) : List (Join × Branch) → Option Refuse
  | [] => none
  | (j, b) :: r =>
    let ok : Bool := match i.stream b.sid with
      | some s => decide (s.sloc = .cell j.x j.y b.port) && !seen.contains b.sid
      | none => false
    if ok then branchBad i (b.sid :: seen) r
    else some { code := 0x0507, sect := 8, x := j.x, y := j.y, port := b.port, tau := j.itau, item := b.sid }

/-- The parities in which a record's issue consumes. -/
def Join.parities (i : Image) (j : Join) : List Nat :=
  j.branches.flatMap fun b => ((i.stream b.sid).map fun s => s.par.parities).getD [0, 1]

/-- The second of two records of one consuming issue (R160, R525). seen: the ranks and parities of the earlier records. -/
def joinTwice (i : Image) (seen : List (Nat × Nat)) (k : Nat) : List Join → Option Flaw
  | [] => none
  | j :: r =>
    let mine := (j.parities i).map fun p => (j.rank, p)
    if mine.any seen.contains then some { item := k } else joinTwice i (mine ++ seen) (k + 1) r

/-- PATH_UNEQUAL among the branches of one record: the first that does not meet ITAU, or whose PAR does not go with those of the
branches before it (R167). -/
def branchUnequal (i : Image) (j : Join) (pars : List Par) : List Branch → Option Refuse
  | [] => none
  | b :: r =>
    let f : Refuse := { code := 0x0505, sect := 8, port := b.port, x := j.x, y := j.y, tau := j.itau, item := b.sid
                        expect := j.itau }
    match i.stream b.sid with
    | none => some f
    | some s =>
      if s.stau + b.hold = j.itau ∧ pars.all s.par.compatible then branchUnequal i j (s.par :: pars) r
      else some { f with found := s.stau + b.hold }

/-- PATH_UNEQUAL of one record (R167). -/
def joinUnequal (i : Image) (j : Join) : Option Refuse := branchUnequal i j [] j.branches

/-- Every (queue key, period tick) that a declared token occupies, waypoints included (R168, 06 R196). -/
def Image.occupied (i : Image) : List (Nat × Nat) :=
  i.standing ++ i.wpt.flatMap fun w =>
    match w with
    | .root _ _ _ => []
    | .cell x y win wtau _ _ => (periodTicks i.hdr.n .every wtau).map fun b => ((y * 1024 + x) * 8 + win, b)

/-- QB_DECL (R168). -/
def occupancyBad (i : Image) : Option Refuse :=
  let occ := i.occupied
  firstItem i.qbt fun q =>
    let mine := occ.filter fun o => o.1 == q.rank
    ((List.range (2 * i.hdr.n)).find? fun b => decide (mine.countP (fun o => o.2 == b) > q.bound)).map fun b =>
      { code := 0x0503, sect := 6, x := q.x, y := q.y, port := q.port, tau := b, expect := q.bound
        found := mine.countP fun o => o.2 == b }

/-- The joins step. -/
def joinsBad (i : Image) : Option Refuse :=
  firstOf [branchBad i [] (i.join.flatMap fun j => j.branches.map fun b => (j, b)),
    firstItem i.path (joinMissing i), firstItem i.join (joinUnequal i), occupancyBad i]

/-! ### Output schedule (0x0508) -/

/-- The array window in stream time (R152). -/
def Hdr.winLo (h : Hdr) : Nat := (h.rofs + 1) * h.n
def Hdr.winHi (h : Hdr) : Nat := (h.rofs + h.a + 1) * h.n - 1

/-- A sink stream that carries a further key of a request (07 R208): it reaches the edge three ticks after its drive. -/
def Image.isKeyStream (i : Image) (s : Stream) : Bool :=
  match s.sloc with
  | .cell _ _ _ => false
  | .edge e k => i.almt.reqs.any fun r => r.edge == e * 1024 + k && r.par.meets s.par && (List.range r.keys.length).any fun j =>
      decide (s.stau = r.tau0 + j + 3)

/-- The output streams (R319). -/
def Image.outputs (i : Image) : List Stream :=
  i.path.filter fun s => (match s.sloc with
    | .edge _ _ => true
    | _ => false) && !i.isKeyStream s

/-- A stream feeds an entry in parity q. -/
def feeds (q : Nat) (s : Stream) (e : OschEnt) : Bool :=
  s.par.parities.contains q && e.par.parities.contains q && s.stau == e.stau &&
  (match s.sloc with
   | .edge d k => d * 1024 + k == e.edge
   | _ => false)

/-- An input that a chain map entry drives (10 R312). -/
def Image.isChainIn (i : Image) (s : Stream) : Bool :=
  match s.oloc with
  | .edge e k => i.cred.maps.any fun m => m.edge == e * 1024 + k && m.tau == s.otau
  | _ => false

/-- The base of a DEPTH refusal about an edge port. -/
def depthRef (e tau : Nat) : Refuse := { code := 0x0508, sect := 9, x := e % 1024, y := e / 1024, tau := tau }

/-- An edge location as edge × 1024 + index. -/
def Loc.edgeNo : Loc → Nat
  | .edge d k => d * 1024 + k
  | .cell _ _ _ => 0

/-- A stream of OKIND 1 that is driven outside the window's first crossing, or, for a chain word, past the window (R152). -/
def driveBad (i : Image) (s : Stream) : Option Refuse :=
  let h := i.hdr
  let hi := if i.isChainIn s then h.winHi else h.winLo + h.n - 1
  if s.okind == .edge && ((decide (s.otau < h.winLo) && !i.isChainIn s) || decide (s.otau > hi)) then
    some { depthRef s.oloc.edgeNo s.otau with sect := 7, item := s.sid, expect := if s.otau > hi then hi else h.winLo, found := s.otau }
  else none

/-- An output stream that reaches its edge outside the window. -/
def dueBad (i : Image) (s : Stream) : Option Refuse :=
  let h := i.hdr
  if i.outputs.contains s && decide (s.stau < h.winLo ∨ s.stau > h.winHi) then
    some { depthRef s.sloc.edgeNo s.stau with sect := 7, item := s.sid, expect := brokenLimit h.winLo h.winHi s.stau, found := s.stau }
  else none

/-- An output stream that feeds no entry, or several, in some parity. -/
def unscheduled (i : Image) (s : Stream) : Option Refuse :=
  if !i.outputs.contains s || s.par.parities.all fun q => (i.osch.ents.countP fun e => feeds q s e) == 1 then none
  else some { Pos.fill { code := 0x0508, sect := 7, item := s.sid } s.sink with tau := s.stau }

/-- The output-schedule step (R152, R161, R319): OSCH's entries and words against PATH, then the streams of PATH. -/
def outputsBad (i : Image) : Option Refuse :=
  firstOf [
    firstItem i.osch.ents fun e =>
      if e.par.parities.all fun q => (i.outputs.countP fun s => feeds q s e) == 1 then none else some (depthRef e.edge e.stau),
    firstItem (List.range (i.osch.plen / 4)) fun w =>
      if [0, 1].all fun q => i.osch.ents.any fun e => decide (e.kind = .record w) && e.par.parities.contains q then none
      else some { code := 0x0508, sect := 9, item := w },
    firstItem i.path fun s => firstOf [driveBad i s, dueBad i s, unscheduled i s]]

end Sys2Proof.Machine
end

