-- ==== Sys2Proof/Machine/LoadTables.lean ====
section
/-! DEFINITION. Steps 9 to 13 of the loader's checks: padding, tables and the tide table, channels, chains, lanes and the
hub frame (05 R164, 07 R240, 08 R247, 10 R316, R319, R320, 09 R299). -/

namespace Sys2Proof.Machine

/-! ### Table descriptors (07 R209 to R211) -/

def TblDesc.lpddr (t : TblDesc) : Bool := t.kind.getLsbD 0
def TblDesc.hashed (t : TblDesc) : Bool := t.kind.getLsbD 1
def TblDesc.faces (t : TblDesc) : Nat := if t.kind.getLsbD 2 then 2 else 1
def TblDesc.elem (t : TblDesc) : Nat := (t.shape.extractLsb' 0 2).toNat
def TblDesc.pool (t : TblDesc) : Nat := (t.shape.extractLsb' 2 2).toNat
def TblDesc.widen (t : TblDesc) : Bool := t.shape.getLsbD 4
/-- RW. -/
def TblDesc.rw (t : TblDesc) : Nat := if t.widen then 2 * t.words else t.words
/-- Lines of a copy. -/
def TblDesc.lines (t : TblDesc) : Nat := t.faces * (t.rows + 1)

/-- The bank of a copy, as one number: SRAM Quay and bank, or subchannel, rank and bank. -/
def CopyRec.bankKey (lpddr : Bool) (c : CopyRec) : Nat :=
  if lpddr then 4096 + (c.place.extractLsb' 0 6).toNat * 16 + c.bank else (c.place.extractLsb' 0 7).toNat

/-- Lines of a bank that a copy may use: the library boundary of R211 for LPDDR6. -/
def bankLines (g : Nat) (lpddr : Bool) : Nat := if lpddr then 8388608 - 512 * g else 65536

def Image.table (i : Image) (tid : Nat) : Option TblDesc := i.almt.tables.find? fun t => t.tid == tid

/-- The copies of a table with their indices. -/
def Image.copiesOf (i : Image) (t : TblDesc) : List (CopyRec × Nat) :=
  (i.almt.copies.zipIdx.drop t.copy0).take t.ncopy

/-- The first limit that fails, with the value held (R240). -/
def firstLimit (l : List (Bool × Nat × Nat)) : Option (Nat × Nat) := (l.find? Prod.fst).map Prod.snd

/-- The first field of a descriptor that breaks its limit (R209): limit and value. -/
def descBad (p : Nat) (raw : List Byte) (t : TblDesc) : Option (Nat × Nat) :=
  let kw := if t.hashed then 31 else 32
  let ws := if t.hashed then 7 else 8
  firstLimit [
    (decide (t.tid ≠ p), p, t.tid), (decide (t.kind.toNat > 7), 7, t.kind.toNat), (decide (t.kw < 1), 1, t.kw),
    (decide (t.kw > kw), kw, t.kw), (!t.hashed && t.salt != 0, 0, t.salt.toNat), (decide (t.rows < 1), 1, t.rows),
    (decide (t.words < 1), 1, t.words), (decide (t.words > ws), ws, t.words), (t.elem == 3, 2, t.elem), (t.pool == 3, 2, t.pool),
    (decide (t.shape.toNat > 31), 31, t.shape.toNat), (t.widen && (t.pool != 1 || t.elem == 2), 0, 1),
    (t.widen && decide (t.words > 4), 4, t.words), (decide (t.ncopy < 1), 1, t.ncopy), (decide (t.ncopy > 64), 64, t.ncopy),
    (leAt raw 15 1 != 0, 0, leAt raw 15 1), (leNat (bytesAt raw 22 10) != 0, 0, leAt raw 22 4)]

/-- A copy's place (R210, R211): limit and value. -/
def copyBad (g : Nat) (t : TblDesc) (c : CopyRec) : Option (Nat × Nat) :=
  let pl := if t.lpddr then 63 else 127
  let bk := if t.lpddr then 15 else 0
  firstLimit [(c.tid != t.tid, t.tid, c.tid), (decide (c.place.toNat > pl), pl, c.place.toNat), (decide (c.bank > bk), bk, c.bank),
    (decide (c.base + t.lines > bankLines g t.lpddr), bankLines g t.lpddr, c.base + t.lines)]

/-- A copy that repeats a bank of its table or overlaps an earlier copy: the bases stand as limit and value. -/
def spanBad (l : List (Nat × Nat × Nat × Nat × Nat)) (a : Nat × Nat × Nat × Nat × Nat) : Option (Nat × Nat) :=
  (l.find? fun b => decide (b.2.2.2.2 < a.2.2.2.2) && b.1 == a.1 &&
    (b.2.2.2.1 == a.2.2.2.1 || decide (a.2.1 < b.2.2.1 ∧ b.2.1 < a.2.2.1))).map fun b => (b.2.1, a.2.1)

/-- Every copy as (bank, base, end, table, index). -/
def Image.spans (i : Image) : List (Nat × Nat × Nat × Nat × Nat) :=
  i.almt.tables.flatMap fun t => (i.copiesOf t).map fun c =>
    (c.1.bankKey t.lpddr, c.1.base, c.1.base + t.lines, t.tid, c.2)

def almRef (code tid : Nat) : Refuse := { code := code, sect := 0x0C, item := tid }

/-- ALM_TABLE of a table, with a limit and the value that breaks it. -/
def almLimit (tid : Nat) (v : Nat × Nat) : Refuse := { almRef 0x0603 tid with expect := v.1, found := v.2 }

/-- ALM_TABLE (0x0603). raw is the section. -/
def almTableBad (g : Nat) (raw : List Byte) (i : Image) : Option Refuse :=
  let sp := i.spans
  firstOf [
    firstItem i.almt.tables.zipIdx fun t =>
      ((descBad t.2 (raw.drop (16 + 32 * t.2)) t.1).map (almLimit t.2)).orElse fun _ =>
        if t.1.copy0 + t.1.ncopy > i.almt.copies.length then
          some (almLimit t.2 (i.almt.copies.length, t.1.copy0 + t.1.ncopy)) else none,
    firstItem i.almt.tables fun t => firstItem (i.copiesOf t) fun c =>
      (copyBad g t c.1).map fun v => { almLimit t.tid v with x := c.2 },
    firstItem sp fun a => (spanBad sp a).map fun v => { almLimit a.2.2.2.1 v with x := a.2.2.2.2 },
    firstItem i.almt.reqs fun r =>
      match i.table r.tid with
      | none => some (almRef 0x0603 r.tid)
      | some t =>
        if t.pool = 0 ∧ r.keys.length > 1 then some { almRef 0x0603 r.tid with expect := 1, found := r.keys.length }
        else firstItem r.keys fun k =>
          if t.lpddr then (if k = 0 then none else some { almRef 0x0603 r.tid with found := k.toNat })
          else
            let ci := (k.extractLsb' 0 16).toNat
            if k.toNat < 2 ^ 24 ∧ t.copy0 ≤ ci ∧ ci < t.copy0 + t.ncopy then none
            else some { almRef 0x0603 r.tid with x := ci }]

/-! ### Latency and rate (0x0602, 0x0601) -/

/-- READ of an SRAM key (R212). -/
def keyRead (k : Word) : Nat := (k.extractLsb' 16 8).toNat

/-- The Almanac hops of a stream: cell and port, stream time, hop. -/
def Stream.almHops (i : Image) (s : Stream) : List (Nat × Nat × Nat × Nat × Nat × Nat) :=
  (s.legs i).filterMap fun l =>
    match l.pos with
    | .cell x y _ => if l.hop.1 ≥ 8 then some (x, y, l.out, l.tau, l.hop.1, l.hop.2) else none
    | _ => none

/-- The edge port of a cell's outward port. -/
def cellEdge (x y p : Nat) : Nat := p * 1024 + if p = 0 ∨ p = 2 then x else y

/-- The request whose key 0 a stream of this PAR drives from an edge port at a stream time. -/
def Image.reqAt (i : Image) (p : Par) (e tau : Nat) : Option (ReqRec × Nat) :=
  i.almt.reqs.zipIdx.find? fun r => r.1.keyAt p e tau

/-- An Almanac hop against its request and table (R208, R240). -/
def almHopBad (i : Image) (s : Stream) : Option Refuse :=
  firstItem (s.almHops i) fun h =>
    let x := h.1
    let y := h.2.1
    match i.reqAt s.par (cellEdge x y h.2.2.1) h.2.2.2.1 with
    | none => some { code := 0x0602, sect := 7, item := s.sid, x := x, y := y, tau := h.2.2.2.1 }
    | some (r, k) =>
      match i.table r.tid with
      | none => none
      | some t =>
        if (h.2.2.2.2.1 = 9) ≠ t.lpddr ∨ h.2.2.2.2.2 + 1 ≠ t.d then
          some { almRef 0x0602 k with entry := 0, expect := t.d - 1, found := h.2.2.2.2.2 } else none

/-- The crossings between key 0's arrival at the Almanac and key k's (R221). -/
def keyLag (n tau0 k : Nat) : Nat := (tau0 + k + 3) / n - (tau0 + 3) / n

/-- A tide entry (R220); the default table of R226 where the section is empty. -/
def Image.tideAt (i : Image) (sub ph pos : Nat) : Word :=
  if !i.tideGiven ∧ i.almt.tables = [] then
    if pos < 8 then 0x40000000 else if pos = 9 ∧ (ph = 0 ∨ ph = 16) then 0xC0000000 else if pos < 10 then 0x80000000 else 0
  else tget 0 i.tide ((sub * 32 + ph) * 11 + pos)

def tideClass (w : Word) : Nat := (w.extractLsb' 30 2).toNat
def tideBank (w : Word) : Nat := (w.extractLsb' 26 4).toNat
def tideReq (w : Word) : Nat := (w.extractLsb' 13 13).toNat
def tideKey (w : Word) : Nat := (w.extractLsb' 9 4).toNat
def tideDelta (w : Word) : Nat := (w.extractLsb' 5 4).toNat

/-- Every lookup entry as (subchannel, phase, position, word). -/
def Image.lookups (i : Image) : List (Nat × Nat × Nat × Word) :=
  (List.range 32).flatMap fun sub => (List.range 32).flatMap fun ph => (List.range 8).filterMap fun pos =>
    let w := i.tideAt sub ph pos
    if tideClass w = 0 then some (sub, ph, pos, w) else Option.none

/-- The request and table of an LPDDR6 key; none where REQ and KEY name no such key, which 0x0604 refuses. -/
def Image.lpddrKey (i : Image) (r k : Nat) : Option (ReqRec × TblDesc) :=
  match i.almt.reqs[r]? with
  | some q => (i.table q.tid).bind fun t => if t.lpddr && decide (k < q.keys.length) then some (q, t) else Option.none
  | Option.none => Option.none

/-- ALM_LAT (0x0602). -/
def almLatBad (i : Image) : Option Refuse :=
  let n := i.hdr.n
  firstOf [
    firstItem i.almt.tables fun t =>
      if (if t.lpddr then decide (5 ≤ t.d ∧ t.d ≤ 16) else t.d == 2) then none
      else some { almRef 0x0602 t.tid with expect := if !t.lpddr then 2 else brokenLimit 5 16 t.d, found := t.d },
    firstItem i.path (almHopBad i),
    firstItem i.almt.reqs.zipIdx fun r =>
      if i.path.any fun s => (s.almHops i).any fun h => r.1.keyAt s.par (cellEdge h.1 h.2.1 h.2.2.1) h.2.2.2.1 then none
      else some { almRef 0x0602 r.2 with entry := 0 },
    firstItem i.almt.reqs.zipIdx fun r =>
      match i.table r.1.tid with
      | none => none
      | some t =>
        if t.lpddr then none
        else firstItem r.1.keys.zipIdx fun k =>
          if keyRead k.1 < 5 then some { almRef 0x0602 r.2 with entry := k.2, expect := 5, found := keyRead k.1 }
          else if k.2 + keyRead k.1 > 2 * n - 7 then
            some { almRef 0x0602 r.2 with entry := k.2, expect := 2 * n - 7 - k.2, found := keyRead k.1 } else none,
    firstItem i.lookups fun l =>
      let r := tideReq l.2.2.2
      let k := tideKey l.2.2.2
      let dl := tideDelta l.2.2.2
      match i.lpddrKey r k with
      | none => none
      | some (q, t) =>
        let most := t.d - 3 - keyLag n q.tau0 k
        if dl < 2 then some { almRef 0x0602 r with entry := k, expect := 2, found := dl }
        else if dl > most then some { almRef 0x0602 r with entry := k, expect := most, found := dl } else none]

/-- Keys of a Quay's SRAM tier, or of LPDDR6, in a parity of the crossing, for the rate check: a key counts in the crossing of its drive, not in
that of its arrival three ticks later (DESIGN CHOICE, log entry 102). -/
def keyLoad (i : Image) (q : Nat) (par : Nat) : Nat :=
  (i.almt.reqs.map fun r =>
    match i.table r.tid with
    | none => 0
    | some t =>
      (r.keys.zipIdx.map fun k =>
        let here := if t.lpddr then q == 4 else
          ((i.almt.copies[(k.1.extractLsb' 0 16).toNat]?).map fun c => (c.place.extractLsb' 0 2).toNat == q).getD false
        if here && (periodTicks i.hdr.n r.par (r.tau0 + k.2)).any fun b => b / i.hdr.n == par then 1 else 0).sum).sum

/-- Every SRAM read as (bank key, period tick) (R216). -/
def Image.sramReads (i : Image) : List (Nat × Nat) :=
  i.almt.reqs.flatMap fun r =>
    match i.table r.tid with
    | Option.none => []
    | some t => if t.lpddr then [] else r.keys.zipIdx.flatMap fun k =>
        match i.almt.copies[(k.1.extractLsb' 0 16).toNat]? with
        | Option.none => []
        | some c => (periodTicks i.hdr.n r.par (r.tau0 + k.2 + keyRead k.1)).map fun b => (c.bankKey false, b)

/-- The first value that stands twice in a list. -/
def firstDup {α : Type} [BEq α] : List α → Option α
  | [] => none
  | a :: r => if r.contains a then some a else firstDup r

/-- ALM_RATE (0x0601). -/
def almRateBad (i : Image) : Option Refuse :=
  firstOf [
    firstItem (List.range 5) fun q =>
      let m := max (keyLoad i q 0) (keyLoad i q 1)
      if m > 256 then some { almRef 0x0601 q with expect := 256, found := m } else none,
    firstItem (List.range (2 * i.hdr.n)) fun b =>
      let l := (i.sramReads.filter fun d => d.2 == b).map Prod.fst
      (firstDup l).map fun d => { almRef 0x0601 (d % 4) with x := d / 4, tau := b, expect := 1, found := l.count d }]

/-! ### The tide table (0x0604) -/

def tideRef (sub ph pos : Nat) : Refuse := { code := 0x0604, sect := 0x0D, x := sub, y := ph, entry := pos }

/-- A CLASS that its position does not allow, or fields that must be zero (R220). -/
def tideClassBad (pos : Nat) (w : Word) : Bool :=
  let c := tideClass w
  if pos < 8 then decide (c > 1) || (c == 1 && decide (w.toNat % 2 ^ 30 ≠ 0)) || decide (w.toNat % 32 ≠ 0)
  else if pos < 10 then decide (c < 2) || decide (w.toNat % 2 ^ 30 ≠ 0)
  else w != 0

/-- The arrival phases of a key under PAR (R221), by parity. -/
def arrivalPhases (n : Nat) (r : ReqRec) (k : Nat) : List Nat :=
  (List.range 32).filter fun ph => r.par.parities.any fun q => (q + (r.tau0 + k + 3) / n) % 2 == ph % 2

/-- The slot number of an entry within the period of 352 slots (R222). -/
def slotNo (ph pos : Nat) : Nat := 11 * ph + pos

/-- Two lookups of one bank that break R222's spacing. -/
def tooClose (a b : Nat × Nat × Nat × Word) : Bool :=
  let d := (slotNo b.2.1 b.2.2.1 + 352 - slotNo a.2.1 a.2.2.1) % 352
  a.1 == b.1 && a.2.2.1 % 2 == b.2.2.1 % 2 && tideBank a.2.2.2 == tideBank b.2.2.2 && decide (0 < d ∧ d < 22)

/-- A lookup in its bank's refresh crossing or the one after (R222, R223). -/
def inRefresh (l : Nat × Nat × Nat × Word) : Bool :=
  let rf := 2 * tideBank l.2.2.2 + l.2.2.1 % 2
  l.2.1 == rf || l.2.1 == (rf + 1) % 32

/-- The bank of a lookup holds a copy of its request's table. -/
def bankHolds (i : Image) (l : Nat × Nat × Nat × Word) : Bool :=
  match i.lpddrKey (tideReq l.2.2.2) (tideKey l.2.2.2) with
  | none => false
  | some (_, t) => (i.copiesOf t).any fun c => c.1.bank == tideBank l.2.2.2 && (c.1.place.extractLsb' 0 5).toNat == l.1 &&
          c.1.place.getLsbD 5 == decide (l.2.2.1 % 2 = 1)

/-- How often a key of an arrival phase is served. -/
def served (ls : List (Nat × Nat × Nat × Word)) (r k ph : Nat) : Nat :=
  ls.countP fun l => tideReq l.2.2.2 == r && tideKey l.2.2.2 == k && (ph + tideDelta l.2.2.2) % 32 == l.2.1

/-- TIDE (0x0604). -/
def tideContentBad (i : Image) : Option Refuse :=
  if !i.tideGiven ∧ i.almt.tables = [] then none else
  let ls := i.lookups
  firstOf [
    firstItem (List.range 32) fun sub => firstItem (List.range 32) fun ph => firstItem (List.range 11) fun pos =>
      if tideClassBad pos (i.tideAt sub ph pos) then
        some { tideRef sub ph pos with found := tideClass (i.tideAt sub ph pos) } else none,
    firstItem i.almt.reqs.zipIdx fun r =>
      if !((i.table r.1.tid).map TblDesc.lpddr).getD false then none
      else firstItem (List.range r.1.keys.length) fun k => firstItem (arrivalPhases i.hdr.n r.1 k) fun ph =>
        if served ls r.2 k ph = 1 then none
        else some { code := 0x0604, sect := 0x0D, y := ph, item := r.2, expect := 1, found := served ls r.2 k ph },
    firstItem ls fun l => if bankHolds i l then none else some { tideRef l.1 l.2.1 l.2.2.1 with item := tideReq l.2.2.2 },
    firstItem ls fun l =>
      if inRefresh l || ls.any (fun a => tooClose a l) then some { tideRef l.1 l.2.1 l.2.2.1 with item := tideReq l.2.2.2 }
      else none,
    firstItem (List.range 32) fun sub =>
      let m := ((List.range 32).map fun ph => (if tideClass (i.tideAt sub ph 8) = 3 then 1 else 0) +
        if tideClass (i.tideAt sub ph 9) = 3 then 1 else 0).sum
      if 1 ≤ m ∧ m ≤ 4 then none else some { code := 0x0604, sect := 0x0D, x := sub, expect := brokenLimit 1 4 m, found := m }]

/-! ### Channels (0x0701) -/

def Image.laneAt (i : Image) (l : Nat) : LaneEnt :=
  i.lane.getD l { role := 0, rate := 0, blk := 0, rofs := 0, explid := 0 }

/-- The lane index of a CMAP entry (R243). -/
def CmapEnt.laneIx (e : CmapEnt) : Nat := 16 * (e.ctx / 16384) + e.lane

/-- Stream time of a token that the channel stage drives (R246). -/
def Hdr.chanTau (h : Hdr) (tick : Nat) : Nat := (h.rofs + 1) * h.n + tick

/-- PATH has a stream of OKIND 1 at an edge port and stream time. -/
def Image.inputAt (i : Image) (e tau : Nat) : Bool :=
  i.path.any fun s => s.okind == .edge && s.otau == tau && (match s.oloc with
    | .edge d k => d * 1024 + k == e
    | _ => false)

def cmapRef (e : CmapEnt) : Refuse :=
  { code := 0x0701, sect := 0x0B, item := e.ctx, x := e.edge % 1024, y := e.edge / 1024 }

/-- The refusal of an entry with the limit that its field breaks, where its condition has one (R169). -/
def Image.cmapRefuse (i : Image) (e : CmapEnt) : Refuse :=
  let l := i.laneAt e.laneIx
  if l.role ≠ 1 then { cmapRef e with found := e.lane }
  else if e.bofs + e.bw - 1 > 1471 ∨ e.bofs + e.bw > 64 * l.blk then
    { cmapRef e with expect := min 1471 (64 * l.blk - 1), found := e.bofs + e.bw - 1 }
  else if e.width = 3 then { cmapRef e with found := e.width.toNat }
  else if e.slot ≥ 32 / widthBits e.width then { cmapRef e with expect := 32 / widthBits e.width - 1, found := e.slot }
  else if e.tick ≥ i.hdr.n then { cmapRef e with expect := i.hdr.n - 1, found := e.tick }
  else cmapRef e

/-- CMAP (R247). -/
def channelsBad (i : Image) : Option Refuse :=
  let bad (e : CmapEnt) : Bool :=
    let l := i.laneAt e.laneIx
    l.role != 1 || decide (e.bofs + e.bw - 1 > 1471 ∨ e.bofs + e.bw > 64 * l.blk) || e.width == 3 ||
    decide (e.slot ≥ 32 / widthBits e.width ∨ e.tick ≥ i.hdr.n) || decide (i.cmap.countP (fun f => f.ctx == e.ctx) > 1) ||
    i.cmap.any (fun f => f.ctx != e.ctx && f.edge == e.edge && f.tick == e.tick && (f.slot == e.slot || f.width != e.width)) ||
    !i.inputAt e.edge (i.hdr.chanTau e.tick)
  firstOf [
    firstItem i.cmap fun e => if bad e then some (i.cmapRefuse e) else none,
    firstItem (i.path.filter fun s => s.okind == .edge && !i.isChainIn s) fun s =>
      let e := match s.oloc with
        | .edge d k => d * 1024 + k
        | _ => 0
      if i.cmap.any fun c => c.edge == e && i.hdr.chanTau c.tick == s.otau then none
      else some { code := 0x0701, sect := 7, x := e % 1024, y := e / 1024, tau := s.otau }]

/-! ### Chains (0x0801, 0x0802) -/

/-- The largest number of flits in rtt consecutive crossings (R314). -/
def flitNeed (nf0 nf1 rtt : Nat) : Nat := rtt / 2 * (nf0 + nf1) + if rtt % 2 = 1 then max nf0 nf1 else 0

/-- Flits of a loop in a parity of C. -/
def Loop.nf (l : Loop) (q : Nat) : Nat := if q = 0 then l.nf0 else l.nf1
def Loop.f (l : Loop) : Nat := max l.nf0 l.nf1

def Image.recvLoop (i : Image) (lane : Nat) : Option Loop := i.cred.loops.find? fun l => l.recv && l.lane == lane
def Image.sendLoop (i : Image) (lane : Nat) : Option Loop := i.cred.loops.find? fun l => !l.recv && l.lane == lane

def credRef (code k : Nat) : Refuse := { code := code, sect := 0x0E, item := k }

/-- One loop under 0x0802. -/
def loopSchedBad (i : Image) (l : Loop) : Bool :=
  let ln := i.laneAt l.lane
  ln.role != 2 || (l.recv && i.cred.stage == 0) ||
  (!l.recv && decide (flitNeed l.nf0 l.nf1 (9 + l.frofs + l.hold + ln.rofs) > l.bound)) ||
  (l.recv && i.cred.loops.any fun m => m.recv && m.upl != l.upl)

/-- B that R310 gives the frames a chain lane receives: those of its receive loop, or the header alone where it has none (DEDUCED, log entry
92). -/
def Image.chainB (i : Image) (lane : Nat) : Nat := 1 + 8 * ((i.recvLoop lane).map Loop.f).getD 0

/-- The chain lanes whose B in LANE differs from R310; ITEM is the loop, or the lane where no loop runs on it (DESIGN CHOICE, log entry 92). -/
def chainBBad (i : Image) (l : Nat) : Option Refuse :=
  let e := i.laneAt l
  if e.role = 2 ∧ e.blk ≠ i.chainB l then
    match i.cred.loops.zipIdx.find? fun m => m.1.lane == l with
    | some m => some { credRef 0x0802 m.2 with expect := i.chainB l, found := e.blk }
    | none => some { code := 0x0802, sect := 0x10, item := l, expect := i.chainB l, found := e.blk }
  else none

/-- One chain map entry under 0x0802 (R312, R316). PAR admits input crossings of this stage, and NF is the sender's, of crossing X - UPL
(R311). -/
def mapBad (i : Image) (m : ChainMap) : Bool :=
  match i.recvLoop m.lane with
  | none => true
  | some l =>
    let ro := (i.laneAt m.lane).rofs
    decide (m.tau < (ro + 1) * i.hdr.n ∨ m.tau / i.hdr.n > ro + l.hold ∨ m.tau > i.hdr.winHi) ||
    m.par.parities.any fun q => decide (m.flit ≥ l.nf ((q + l.upl) % 2))

/-- CRED and the chain entries of OSCH (R316, R319). -/
def chainsBad (i : Image) : Option Refuse :=
  firstOf [
    firstItem i.cred.loops.zipIdx fun l =>
      if l.1.bound = 0 ∨ l.1.bound > 8192 then some { credRef 0x0801 l.2 with expect := 8192, found := l.1.bound }
      else if l.1.recv && decide ((l.1.hold + 1) * l.1.f > l.1.bound) then
        some { credRef 0x0801 l.2 with expect := l.1.bound, found := (l.1.hold + 1) * l.1.f } else none,
    if i.cred.stage > 7 then some { code := 0x0802, sect := 0x0E, expect := 7, found := i.cred.stage } else none,
    firstItem i.cred.loops.zipIdx fun l => if loopSchedBad i l.1 then some (credRef 0x0802 l.2) else none,
    firstItem (List.range 64) (chainBBad i),
    firstItem i.cred.maps fun m =>
      if mapBad i m then some { credRef 0x0802 m.lane with x := m.edge % 1024, y := m.edge / 1024, tau := m.tau } else none,
    firstItem i.osch.ents fun e =>
      match e.kind with
      | .chain ln fl _ =>
        let ok := match i.sendLoop ln with
          | none => false
          | some l => e.par.parities.all fun q => decide (fl < l.nf q)
        if ok then none else some { code := 0x0802, sect := 9, item := ln, x := e.edge % 1024, y := e.edge / 1024, tau := e.stau }
      | _ => none]

/-- An empty CRED stands only where no lane has the chain role (R157). -/
def credMissing (i : Image) : Bool := i.cred.loops.isEmpty && i.lane.any fun l => l.role == 2

/-! ### Lanes and the hub frame (0x0901) -/

/-- Line rates by RATE code, in Hz ÷ 10 (R279). -/
def lineRate (c : Nat) : Nat :=
  match c with
  | 0 => 6400000000
  | 1 => 3200000000
  | 2 => 2560000000
  | 3 => 1600000000
  | _ => 1024000000

/-- Blocks per second at a rate, times 1730 × 16384, in units of 10 Hz (R279). -/
def blockRate (c : Nat) : Nat := lineRate c * 25 * 16383
def blockDen : Nat := 1730 * 16384

/-- Q at MCLK m, in units of 10 Hz (R287). -/
def qOf (c m : Nat) : Nat := if m = 0 then 0 else blockRate c / (blockDen * m)

/-- The ratio of blocks per second to MCLK lies within 0.001 of a whole number (R299). -/
def qUnstable (c m : Nat) : Bool :=
  let d := blockDen * m
  let r := blockRate c % d
  decide (1000 * r ≤ d ∨ 1000 * (d - r) ≤ d)

/-- MCLK nominal, 40.079 MHz, in units of 10 Hz. -/
def mclkNominal : Nat := 4007900

/-- The hub lanes of an image, in order of lane index. -/
def Image.hubs (i : Image) : List Nat := (List.range 64).filter fun l => (i.laneAt l).role == 4

/-- Blocks of a record (R320). -/
def recBlocks (plen : Nat) : Nat := 4 + (plen + 7) / 8

/-- The record does not fit the hub frame at MCLK m (R320). -/
def hubUnfit (i : Image) (m : Nat) : Bool :=
  let h := i.hubs.length
  let q := qOf ((i.laneAt (i.hubs.headD 0)).rate) m
  decide (h = 0 ∨ 1 + (recBlocks i.osch.plen + h - 1) / h > q - 1)

/-- One LANE entry against the board table (R297 to R299). -/
def laneEntBad (i : Image) (raw board : List Byte) (l : Nat) : Bool :=
  let e := i.laneAt l
  let allow := leAt board (16 * l) 1
  let limit := leAt board (16 * l + 1) 1 % 8
  decide (e.role > 5 ∨ e.rate > 4 ∨ leNat (bytesAt raw (8 * l + 5) 3) ≠ 0) ||
  (e.role != 0 && !allow.testBit (e.role - 1)) || decide (e.rate < limit) ||
  (if e.role = 1 ∨ e.role = 2 then decide (e.blk < 1 ∨ e.blk > qOf e.rate mclkNominal) else e.blk != 0) ||
  (if e.role = 1 then e.rofs != i.hdr.rofs else if e.role = 2 then decide (e.rofs < 2 ∨ e.rofs > 6) else e.rofs != 0)

/-- LANE, PLEN and the hub frame at the nominal MCLK (R299, R320, 11 R329). -/
def lanesBad (i : Image) (raw board : List Byte) : Option Refuse :=
  let r : Refuse := { code := 0x0901, sect := 0x10 }
  firstOf [
    firstItem (List.range 64) fun l =>
      if laneEntBad i raw board l || (i.hubs.contains l && (i.laneAt l).rate != (i.laneAt (i.hubs.headD 0)).rate) then some { r with item := l }
      else none,
    if i.hubs = [] ∨ i.hubs.length > 8 then some r else none,
    if i.osch.plen > 608 then some { code := 0x0901, sect := 9, expect := 608, found := i.osch.plen } else none,
    if hubUnfit i mclkNominal then some { r with expect := qOf (i.laneAt (i.hubs.headD 0)).rate mclkNominal - 1 } else none]

/-! ### Padding (0x0201, 0x0202) -/

/-- The padding step on placement pl (R164): a link group slower than its model value, or one that needs more than 7 ticks.
On stepping A1 no placement has either (R165). -/
def paddingBad (pl : Option (Bool × Nat)) : Option Refuse :=
  firstItem (padKeys pl) fun k =>
    if k.phys pl > k.model then some { code := 0x0201, expect := k.model, found := k.phys pl }
    else if k.model - k.phys pl > 7 then some { code := 0x0202, expect := 7, found := k.model - k.phys pl } else none

end Sys2Proof.Machine
end

