-- ==== Sys2Proof/Machine/LaneTx.lean ====
section
/-! DEFINITION. Lane fields and lane transmission (09_serial_lanes.md R278 to R285, R296, R303): what a lane's registers say of it, the
transmit buffer, alignment markers, the scrambler, codewords, training bursts, and the line's levels. -/

namespace Sys2Proof.Machine

/-! ### Fields (R305) -/

def Lane.role (x : Lane) : Nat := (x.cfg.extractLsb' 29 3).toNat
def Lane.rate (x : Lane) : Nat := (x.cfg.extractLsb' 26 3).toNat
def Lane.blk (x : Lane) : Nat := (x.cfg.extractLsb' 21 5).toNat
def Lane.qblk (x : Lane) : Nat := (x.cfg.extractLsb' 16 5).toNat
def Lane.rofs (x : Lane) : Nat := (x.cfg.extractLsb' 13 3).toNat
def Lane.poltx (x : Lane) : Bool := x.cfg.getLsbD 11
def Lane.explid (x : Lane) : BitVec 8 := x.cfg.extractLsb' 0 8

/-- Bits of one symbol: PAM4 rates carry two (R279). -/
def Lane.ui (x : Lane) : Nat := if x.rate ≤ 1 then 2 else 1

/-- The lane without lock: no numbering, nothing received, no frame to deliver (R286). -/
def Lane.unlocked (x : Lane) : Lane :=
  { x with lock := false, anchor := false, cand := none, missed := 0, ueRun := 0, blocks := [], buf := [], dmg := false, dist := 0
           skip := 0, known := false, fresh := false, odd := false }

/-! ### The transmit buffer (R287, R296) -/

/-- The blocks of a frame or packet: the first a crossing marker with its sender's number, the rest data (R287). -/
def txBlocks (num : CN) : List Dword → List TxBlk
  | [] => []
  | d :: r => { hdr := 3, pay := d, num := some num } :: r.map fun x => { hdr := 1, pay := x, num := none }

/-- A frame or packet handed to the transmit buffer; a transmitter in electrical idle sends none of it. -/
def Lane.send (x : Lane) (cn num : CN) (blocks : List Dword) : Lane :=
  { x with txLast := blocks, txCn := cn, txq := if x.eitx then x.txq else x.txq ++ txBlocks num blocks }

/-- The lane's frame of the present crossing, under its sender's number. -/
def State.sendFrame (s : State) (l : Nat) (num : CN) (blocks : List Dword) : State := s.setLane l ((s.lane l).send s.cn num blocks)

/-- The lane has sent a frame in this crossing. -/
def State.sentNow (s : State) (l : Nat) : Bool := decide ((s.lane l).txLast ≠ [] ∧ (s.lane l).txCn = s.cn)

/-! ### Training bursts (R303) -/

/-- Bits of the PRBS-9 sequence x^9 + x^5 + 1 from a state (PRESUMED, log entry 80). -/
def prbs9 : Nat → BitVec 9 → List Bool
  | 0, _ => []
  | n + 1, st =>
    let b := st.getLsbD 8 ^^ st.getLsbD 4
    b :: prbs9 n ((st <<< 1) ||| (BitVec.ofBool b).setWidth 9)

/-- The bits of a training burst: 1,024 UI. A lane sends 66 of them in a block time. -/
def Lane.burstBits (x : Lane) : List Bool := prbs9 (1024 * x.ui) 0x1FF

/-- The transmitter leaves electrical idle: a training burst, then a new superframe. -/
def Lane.light (x : Lane) : Lane := { x with eitx := false, txBurst := 1024, txPos := 0, txq := [], txCw := [], txOut := [], txFrac := 0 }

/-- The transmitter in electrical idle. -/
def Lane.quietTx (x : Lane) : Lane := { x with eitx := true, txBurst := 0, txPos := 0, txq := [], txCw := [], txOut := [] }

/-! ### Blocks on the line (R282 to R285) -/

/-- One payload scrambled under x^58 + x^39 + 1, with the scrambler state after it: state bit i is the bit sent i + 1 bits ago (R283). -/
def scramble (st : BitVec 58) (pay : BitVec 64) : BitVec 58 × BitVec 64 :=
  (List.range 64).foldl (fun a i =>
    let y := (pay.getLsbD i ^^ a.1.getLsbD 38) ^^ a.1.getLsbD 57
    ((a.1 <<< 1) ||| (BitVec.ofBool y).setWidth 58, a.2 ||| ((BitVec.ofBool y).setWidth 64) <<< i)) (st, 0)

/-- The payload of alignment marker m of lane l (R285, R296): LID is the lane index + 1. -/
def alignMarker (m l : Nat) (cnx : BitVec 24) : Dword :=
  cnx ++ BitVec.ofNat 8 (l + 1) ++ (0 : BitVec 3) ++ BitVec.ofNat 5 m ++ (0xF628 : BitVec 16) ++ (0xB4 : BitVec 8)

/-- An idle block (R282). -/
def idleBlk : TxBlk := { hdr := 2, pay := 0x1E, num := none }

/-- The sender's number for the next crossing marker (R285): that of the first one queued; else on a chain lane the input crossing of the
next frame (10 R311), on other lanes the crossing in which it is sent (DESIGN CHOICE, log entry 80). -/
def State.nextNum (s : State) (l : Nat) : CN :=
  match (s.lane l).txq.findSome? TxBlk.num with
  | some n => n
  | none =>
    let c := if s.sentNow l then s.cn + 1 else s.cn
    if (s.lane l).role = 2 then cnSub c (s.latL + 3) else c

/-- The next block, and what stays queued: an alignment marker at every 16,384th place of the superframe, else the first queued block, else
an idle block (R285, R296). -/
def State.txNext (s : State) (l : Nat) : TxBlk × List TxBlk :=
  let x := s.lane l
  if x.txPos % 16384 = 0 then
    ({ hdr := 2, pay := alignMarker (x.txPos / 16384) l ((s.nextNum l).extractLsb' 0 24), num := none }, x.txq)
  else match x.txq with
    | b :: r => (b, r)
    | [] => (idleBlk, [])

/-- A codeword: the 165 symbols of 25 blocks, the first bit sent of each being its bit 0, and 8 parity symbols (R284; log entry 32). -/
def codeword (blocks : List Nat) : List Nat :=
  let v := blocks.foldr (fun b n => n * 2 ^ 66 + b) 0
  let d := (List.range 165).map fun i => v / 1024 ^ i % 1024
  d ++ gfLane.parity 8 d

/-- The bits of symbols, bit 0 first (R284). -/
def symBits (l : List Nat) : List Bool := l.flatMap fun x => (List.range 10).map x.testBit

/-- The lane with one more block sent: scrambled unless it is an alignment marker, and placed in its codeword. -/
def Lane.txPut (x : Lane) (b : TxBlk) (rest : List TxBlk) : Lane :=
  let sc := if x.txPos % 16384 = 0 then (x.txScr, b.pay) else scramble x.txScr b.pay
  let cw := x.txCw ++ [b.hdr.toNat + 4 * sc.2.toNat]
  let full := decide (cw.length = 25)
  { x with txq := rest, txPos := (x.txPos + 1) % 409600, txScr := sc.1, txCw := if full then [] else cw
           txOut := if full then symBits (codeword cw) else x.txOut }

/-- The lane with the next 66 bits of its training burst sent. -/
def Lane.burstPut (x : Lane) : Lane :=
  { x with txBurst := x.txBurst - 66 / x.ui, txOut := x.burstBits.take ((1024 - (x.txBurst - 66 / x.ui)) * x.ui) }

/-- One block time of a lane's transmitter: the training burst, or a block. -/
def State.txBlock (s : State) (l : Nat) : State :=
  let x := s.lane l
  if x.eitx then s
  else if x.txBurst ≠ 0 then s.setLane l x.burstPut
  else
    let b := s.txNext l
    s.setLane l (x.txPut b.1 b.2)

/-- A tick as a part of a block time, alignment markers included: 25 blocks in the 1,730 bits of a codeword (R279, R284), over numerator and
denominator. -/
def State.tickParts (s : State) (x : Lane) : Nat × Nat := (lineRate x.rate * 25, 1730 * s.clk.mclk * s.hdr.n)

/-- Block boundaries in the present cycle: as many as have passed since the last cycle in a run, one a cycle outside (DESIGN CHOICE, log entry
80). -/
def State.blocksNow (s : State) (x : Lane) : Nat :=
  let p := s.tickParts x
  if !s.live ∨ p.2 = 0 then 1 else (x.txFrac + p.1) / p.2

/-- The lane's part of a block time after the present cycle. -/
def State.fracNow (s : State) (x : Lane) : Nat :=
  let p := s.tickParts x
  if !s.live ∨ p.2 = 0 then 0 else (x.txFrac + p.1) % p.2

/-- One cycle of lane l's transmitter. -/
def State.lineCycle (s : State) (l : Nat) : State :=
  let n := s.blocksNow (s.lane l)
  let s1 := s.setLane l { s.lane l with txFrac := s.fracNow (s.lane l) }
  (List.range n).foldl (fun v _ => v.txBlock l) s1

/-- The lanes' part of one cycle: the line clock comes from LREFCLK (R280, R296), through the clock node of the lane's Quay (17 R462). -/
def State.lineTick (s : State) : State :=
  if s.clk.lrefOk then ((tkeys s.lanes).filter fun l => s.qlnRuns (l / 16)).foldl State.lineCycle s else s

/-! ### Levels (R281) -/

/-- The PAM4 level of two bits, the first transmitted first. -/
def pam4 (first second : Bool) : Int :=
  match first, second with
  | false, false => -3
  | false, true => -1
  | true, true => 1
  | true, false => 3

/-- The levels of a bit sequence: pairs in PAM4, single bits in NRZ with 1 the positive level. -/
def levels (ui : Nat) : List Bool → List Int
  | [] => []
  | b :: r =>
    if ui = 2 then match r with
      | c :: r2 => pam4 b c :: levels ui r2
      | [] => [pam4 b false]
    else (if b then 1 else -1) :: levels ui r

/-- The levels of the latest codeword or training burst at the pins, with the transmit polarity of LNK_CFG. -/
def Lane.line (x : Lane) : List Int := (levels x.ui x.txOut).map fun v => if x.poltx then -v else v

end Sys2Proof.Machine
end

