-- ==== Sys2Proof/Machine/Sha384.lean ====
section
/-! DEFINITION. SHA-384, the digest of measurements, frame digests and signatures (06 R180, 14 R381, 18 R484). -/

namespace Sys2Proof.Machine

/-! ### SHA-384 -/

/-- The primes below 410, the first 80. -/
def shaPrimes : List Nat := (List.range 410).filter fun n => decide (2 ≤ n) && (List.range n).all fun d => decide (d < 2 ∨ d * d > n) || n % d != 0

/-- The largest number below 2^b beyond r whose k-th power does not exceed x. -/
def rootFloor (k x : Nat) : Nat → Nat → Nat
  | 0, r => r
  | b + 1, r => rootFloor k x b (if (r + 2 ^ b) ^ k ≤ x then r + 2 ^ b else r)

/-- The first 64 bits of the fraction of the k-th root of p. -/
def rootFraction (k p : Nat) : BitVec 64 := BitVec.ofNat 64 (rootFloor k (p * 2 ^ (64 * k)) 69 0)

/-- The round constants: fractions of the cube roots of the first 80 primes. -/
def shaK : List (BitVec 64) := shaPrimes.map (rootFraction 3)

/-- The initial hash value of SHA-384: fractions of the square roots of the ninth to sixteenth primes. -/
def shaInit : List (BitVec 64) := ((shaPrimes.drop 8).take 8).map (rootFraction 2)

/-- n big-endian bytes of a number. -/
def beBytes (n v : Nat) : List Byte := (List.range n).map fun i => BitVec.ofNat 8 (v >>> (8 * (n - 1 - i)))

/-- The number that big-endian bytes spell. -/
def beNat (l : List Byte) : Nat := l.foldl (fun a b => 256 * a + b.toNat) 0

/-- The padded message. -/
def shaPad (m : List Byte) : List Byte :=
  let z := (239 - m.length % 128) % 128
  m ++ [0x80] ++ List.replicate z 0 ++ beBytes 16 (8 * m.length)

/-- The message schedule, latest word first, from its 16 words latest first. -/
def shaSched : Nat → List (BitVec 64) → List (BitVec 64)
  | 0, w => w
  | k + 1, w =>
    let a := w.getD 1 0
    let b := w.getD 14 0
    let s1 := a.rotateRight 19 ^^^ a.rotateRight 61 ^^^ (a >>> 6)
    let s0 := b.rotateRight 1 ^^^ b.rotateRight 8 ^^^ (b >>> 7)
    shaSched k ((s1 + w.getD 6 0 + s0 + w.getD 15 0) :: w)

/-- The eight working variables. -/
structure ShaV where
  a : BitVec 64
  b : BitVec 64
  c : BitVec 64
  d : BitVec 64
  e : BitVec 64
  f : BitVec 64
  g : BitVec 64
  h : BitVec 64

/-- One round with constant plus schedule word kw. -/
def ShaV.round (v : ShaV) (kw : BitVec 64) : ShaV :=
  let s1 := v.e.rotateRight 14 ^^^ v.e.rotateRight 18 ^^^ v.e.rotateRight 41
  let ch := (v.e &&& v.f) ^^^ (~~~v.e &&& v.g)
  let t1 := v.h + s1 + ch + kw
  let s0 := v.a.rotateRight 28 ^^^ v.a.rotateRight 34 ^^^ v.a.rotateRight 39
  let mj := (v.a &&& v.b) ^^^ (v.a &&& v.c) ^^^ (v.b &&& v.c)
  { a := t1 + (s0 + mj), b := v.a, c := v.b, d := v.c, e := v.d + t1, f := v.e, g := v.f, h := v.g }

/-- One block of 128 bytes. -/
def shaBlock (v : ShaV) (m : List Byte) : ShaV :=
  let w0 := (List.range 16).map fun i => BitVec.ofNat 64 (beNat ((m.drop (8 * i)).take 8))
  let ws := (shaSched 64 w0.reverse).reverse
  let r := (shaK.zipWith (· + ·) ws).foldl ShaV.round v
  { a := v.a + r.a, b := v.b + r.b, c := v.c + r.c, d := v.d + r.d, e := v.e + r.e, f := v.f + r.f, g := v.g + r.g
    h := v.h + r.h }

/-- The blocks of a padded message. -/
def shaBlocks : Nat → ShaV → List Byte → ShaV
  | 0, v, _ => v
  | k + 1, v, m => shaBlocks k (shaBlock v (m.take 128)) (m.drop 128)

/-- The 48-byte SHA-384 digest of a byte sequence. -/
def sha384 (m : List Byte) : List Byte :=
  let p := shaPad m
  let g (i : Nat) : BitVec 64 := shaInit.getD i 0
  let v := shaBlocks (p.length / 128)
    { a := g 0, b := g 1, c := g 2, d := g 3, e := g 4, f := g 5, g := g 6, h := g 7 } p
  [v.a, v.b, v.c, v.d, v.e, v.f].flatMap fun x => beBytes 8 x.toNat

end Sys2Proof.Machine
end

