-- ==== Sys2Proof/Machine/Ecdsa.lean ====
section
/-! DEFINITION. ECDSA on brainpoolP384r1 (18_boot_and_identity.md R484, R495, R496). The spec names the curve and not its parameters, which
are those of the standard (PRESUMED, log entry 9). -/

namespace Sys2Proof.Machine

/-! ### The curve y^2 = x^3 + a·x + b over the integers mod p -/

def bpP : Nat := 0x8CB91E82A3386D280F5D6F7E50E641DF152F7109ED5456B412B1DA197FB71123ACD3A729901D1A71874700133107EC53
def bpA : Nat := 0x7BC382C63D8C150C3C72080ACE05AFA0C2BEA28E4FB22787139165EFBA91F90F8AA5814A503AD4EB04A8C7DD22CE2826
def bpB : Nat := 0x04A8C7DD22CE28268B39B55416F0447C2FB77DE107DCD2A62E880EA53EEB62D57CB4390295DBC9943AB78696FA504C11
def bpGx : Nat := 0x1D1C64F068CF45FFA2A63A81B7C13F6B8847A3E77EF14FE3DB7FCAFE0CBD10E8E826E03436D646AAEF87B2E247D4AF1E
def bpGy : Nat := 0x8ABE1D7520F9C2A45CB1EB8E95CFD55262B70B29FEEC5864E19C054FF99129280E4646217791811142820341263C5315

/-- The order n of the base point. -/
def bpN : Nat := 0x8CB91E82A3386D280F5D6F7E50E641DF152F7109ED5456B31F166E6CAC0425A7CF3AB6AF6B7FC3103B883202E9046565

/-- b^e mod m, over the lowest `fuel` bits of e. -/
def powMod (m : Nat) : Nat → Nat → Nat → Nat
  | 0, _, _ => 1 % m
  | fuel + 1, b, e => (if e % 2 = 1 then b else 1) * powMod m fuel (b * b % m) (e / 2) % m

/-- The inverse of x modulo a prime m of 384 bits. -/
def invMod (m x : Nat) : Nat := powMod m 384 (x % m) (m - 2)

/-- A point of the curve; none is the point at infinity. -/
abbrev EcPoint := Option (Nat × Nat)

/-- A point (x/z^2, y/z^3) in Jacobian coordinates; z = 0 is the point at infinity. -/
structure Jac where
  x : Nat
  y : Nat
  z : Nat
deriving DecidableEq, Repr

def Jac.inf : Jac := { x := 1, y := 1, z := 0 }

def Jac.of (q : EcPoint) : Jac :=
  match q with
  | some (x, y) => { x := x, y := y, z := 1 }
  | none => .inf

/-- a - b mod p. -/
def subP (a b : Nat) : Nat := (a + (bpP - b % bpP)) % bpP

/-- Twice a point. -/
def Jac.double (p : Jac) : Jac :=
  let yy := p.y * p.y % bpP
  let s := 4 * p.x * yy % bpP
  let m := (3 * p.x * p.x + bpA * (p.z * p.z * p.z * p.z % bpP)) % bpP
  let x := subP (m * m) (2 * s)
  { x := x, y := subP (m * subP s x) (8 * yy * yy), z := 2 * p.y * p.z % bpP }

/-- The sum of two points. -/
def Jac.add (p q : Jac) : Jac :=
  if p.z = 0 then q
  else if q.z = 0 then p
  else
    let u := p.x * (q.z * q.z % bpP) % bpP
    let s := p.y * (q.z * q.z * q.z % bpP) % bpP
    let h := subP (q.x * (p.z * p.z % bpP)) u
    let r := subP (q.y * (p.z * p.z * p.z % bpP)) s
    if h = 0 then (if r = 0 then p.double else .inf)
    else
      let hh := h * h % bpP
      let x := subP (r * r) (h * hh + 2 * u * hh)
      { x := x, y := subP (r * subP (u * hh) x) (s * (h * hh % bpP)), z := h * p.z * q.z % bpP }

/-- k times a point, over the lowest `fuel` bits of k. -/
def Jac.mul : Nat → Nat → Jac → Jac
  | 0, _, _ => .inf
  | fuel + 1, k, q => (if k % 2 = 1 then q else .inf).add (Jac.mul fuel (k / 2) q.double)

def Jac.affine (p : Jac) : EcPoint :=
  if p.z = 0 then none
  else
    let w := invMod bpP p.z
    some (p.x * (w * w % bpP) % bpP, p.y * (w * w * w % bpP) % bpP)

/-- k times a point with coordinates below p, for k below 2^fuel. -/
def ecMul (fuel k : Nat) (q : EcPoint) : EcPoint := (Jac.mul fuel k (Jac.of q)).affine

def bpG : EcPoint := some (bpGx, bpGy)

/-! ### Keys and signatures (R484) -/

/-- The 97 bytes 0x04‖X‖Y of a public key. -/
def keyBytes (q : EcPoint) : List Byte :=
  match q with
  | some (x, y) => 0x04 :: (beBytes 48 x ++ beBytes 48 y)
  | none => []

/-- The point that 97 bytes name, where it lies on the curve. -/
def keyPoint (l : List Byte) : EcPoint :=
  let x := beNat ((l.drop 1).take 48)
  let y := beNat ((l.drop 49).take 48)
  if l.length = 97 ∧ l.head? = some 0x04 ∧ x < bpP ∧ y < bpP ∧ y * y % bpP = (x * x * x + bpA * x + bpB) % bpP then some (x, y) else none

/-- The signature r‖s verifies over a 48-byte digest under a public key (R484). -/
def ecdsaVerify (key dig sig : List Byte) : Bool :=
  match keyPoint key with
  | none => false
  | some q =>
    let r := beNat (sig.take 48)
    let s := beNat (sig.drop 48)
    let w := invMod bpN s
    let u := ((Jac.mul 384 (beNat dig * w % bpN) (Jac.of bpG)).add (Jac.mul 384 (r * w % bpN) (Jac.of (some q)))).affine
    decide (sig.length = 96 ∧ 0 < r ∧ r < bpN ∧ 0 < s ∧ s < bpN) &&
      (match u with
       | some (x, _) => decide (x % bpN = r)
       | none => false)

/-- The 96 bytes r‖s of a signature by private key d over a digest, with the nonce of index i, which the spec leaves open (log entry 9). -/
def ecdsaSign (d : Nat) (dig : List Byte) (i : Nat) : List Byte :=
  let k := Config.ecdsaNonce i % (bpN - 1) + 1
  let r := match ecMul 384 k bpG with
    | some (x, _) => x % bpN
    | none => 0
  beBytes 48 r ++ beBytes 48 (invMod bpN k * (beNat dig + r * d) % bpN)

/-- The private key that a corrected content of the PUF gives (R495). -/
def pufKey (content : List Byte) : Nat := beNat (sha384 content) % (bpN - 1) + 1

end Sys2Proof.Machine
end

