-- ==== Sys2Proof/Machine/ArrayTick.lean ====
section
/-! DEFINITION. The end of a tick in the array: the arrivals of 02 R57, the events of 02 R62, R63 and 06 R191, the hazard
detector of 05 R171 to R175, the seam count of 06 R193; and the waypoint commands of 06 R192 to R196. -/

namespace Sys2Proof.Machine

/-! ### The hazard detector -/

/-- The order of R175: lowest Y, then X, then PORT, then KIND. -/
def Violation.rank (v : Violation) : Nat := ((v.y * 1024 + v.x) * 8 + v.port) * 16 + v.kind

/-- The violation that the freeze records (R175). -/
def firstViolation : List Violation → Option Violation
  | [] => none
  | v :: vs =>
    match firstViolation vs with
    | none => some v
    | some w => if v.rank ≤ w.rank then some v else some w

/-- RUN_HZREC (R176). -/
def Violation.recWord (v : Violation) (tick : Nat) : Word :=
  BitVec.ofNat 4 v.kind ++ BitVec.ofNat 3 v.port ++ BitVec.ofNat 5 tick ++ BitVec.ofNat 10 v.y ++ BitVec.ofNat 10 v.x

/-- RUN_HZDET (R176), with the number of other violations. -/
def Violation.detWord (v : Violation) (more : Nat) : Word :=
  v.exp ++ v.obs ++ BitVec.ofNat 8 (min more 255) ++ (0 : BitVec 8)

/-- The earlier of two crossings at whose end the wake buffer freezes. -/
def earlierFreeze (a : Option CN) (c : CN) : Option CN :=
  match a with
  | some b => some (if cnLe b c then b else c)
  | none => some c

/-- The wake buffer stops at the end of the crossing of a hazard freeze (R174, 08 R269). -/
def State.freezeCapture (s : State) : State :=
  match s.cap.st with
  | .prefill | .armed | .post => { s with cap := { s.cap with stopFr := earlierFreeze s.cap.stopFr s.cn } }
  | _ => s

/-- The freeze of R174 at the end of tick k of crossing cn, in which n violations occurred: the record, the end of the run, FDEC
low. -/
def State.hazardFreeze (s : State) (v : Violation) (k n : Nat) : State :=
  let a := { s.arr with hzRec := v.recWord k, hzCn := s.cn, hzDet := v.detWord (n - 1) }
  let s1 := ({ s with arr := a }).raiseBit .runHz 0
  s1.freezeCapture.stopRun .hazard

/-- The period tick of the tick after the present one (R172). -/
def State.nextPeriod (s : State) : Nat :=
  if s.tick + 1 = s.hdr.n then (if s.pcn.getLsbD 0 then 0 else s.hdr.n)
  else (if s.pcn.getLsbD 0 then s.hdr.n else 0) + s.tick + 1

/-- EXPECT of UNSCHEDULED (R173): the first period tick after b whose bit is 1, cyclically; 0xFF when none is. -/
def nextScheduled (m : BitVec 64) (n2 b : Nat) : Nat :=
  match (List.range n2).find? fun i => m.getLsbD ((b + 1 + i) % n2) with
  | some i => (b + 1 + i) % n2
  | none => 0xFF

/-- The period tick b lies in the cell's waypoint slot (R172). -/
def inSlot (c : Cell) (n b : Nat) : Bool := decide (c.wslot = some (b % n))

/-- The checks of one arrival in debug mode: EPOCH and BOUND from the first tick, UNSCHEDULED outside a fill (R173). occ is
the occupancy at the end of the tick, 9 for a ninth token. -/
def arrivalChecks (c : Cell) (x y p : Nat) (t : Token) (occ n b : Nat) (fill : Bool) : List Violation :=
  let bound := tget 0 c.bounds p
  let m := tget 0 c.maps p
  let vEp : List Violation :=
    if t.epoch = c.epAct ∨ t.epoch = c.epSh then [] else
      [{ y := y, x := x, port := p, kind := 5, exp := (0 : BitVec 4) ++ c.epSh ++ c.epAct, obs := t.epoch.setWidth 8 }]
  let vB : List Violation :=
    if occ ≤ bound then [] else
      [{ y := y, x := x, port := p, kind := 1, exp := BitVec.ofNat 8 bound, obs := BitVec.ofNat 8 occ }]
  let sched := m.getLsbD b || (t.isWp && decide (p = c.win) && inSlot c n b)
  let vU : List Violation :=
    if fill || sched then [] else
      [{ y := y, x := x, port := p, kind := 3, exp := BitVec.ofNat 8 (nextScheduled m (2 * n) b), obs := BitVec.ofNat 8 b }]
  vEp ++ vB ++ vU

/-- The MISSING checks at period tick b: queues whose map bit is 1 and where no token arrived (R173). -/
def missingChecks (cells : Tbl Cell) (arrived : List (Nat × Nat)) (b : Nat) : List Violation :=
  cells.flatMap fun kc => (List.range 8).filterMap fun p =>
    if (tget 0 kc.2.maps p).getLsbD b && !arrived.contains (kc.1, p) then
      some { y := kc.1 / 1024, x := kc.1 % 1024, port := p, kind := 4, exp := BitVec.ofNat 8 b, obs := 0xFF }
    else none

/-! ### Production-mode events -/

/-- Overflow: counted, and recorded when it is the Field's first of the run (R62). -/
def State.overflow (s : State) (x y p : Nat) : State :=
  let f := s.cellField x y
  let s1 := if s.ctr (.fldOvf f) = 0 then
      { s with arr := { s.arr with
          ovfPos := tset s.arr.ovfPos f (BitVec.ofNat 5 s.tick ++ BitVec.ofNat 3 p ++ (0 : BitVec 4) ++ BitVec.ofNat 10 y ++ BitVec.ofNat 10 x)
          ovfCn := tset s.arr.ovfCn f s.cn } }
    else s
  (s1.count (.fldOvf f) 1).flagWindow 0x200

/-- Epoch drop: counted (06 R191). -/
def State.epochDrop (s : State) (x y : Nat) : State := (s.count (.fldEpd (s.cellField x y)) 1).flagWindow 0x200

/-- The event bits that one tick has set per physical Field, raised together (16 R439). -/
def State.raiseField (s : State) (ev : List (Nat × Word)) : State :=
  (List.range 16).foldl
    (fun t f => t.raise (.fld f) ((ev.filter fun e => e.1 == f).foldl (fun w e => w ||| e.2) 0)) s

/-- The underflows of the tick: one count per empty queue read (R63). -/
def State.countUnf (s : State) : State × List (Nat × Word) :=
  let fs := s.arr.unf.map fun u => s.cellField (u.1 % 1024) (u.1 / 1024)
  let s1 := fs.foldl (fun t f => t.count (.fldUnf f) 1) s
  (if fs = [] then s1 else s1.flagWindow 0x200, fs.map fun f => (f, (2 : Word)))

/-- The saturation events of the tick, per virtual Field (04 R144). -/
def State.raiseSats (s : State) : State := (s.arr.sats.eraseDups).foldl (fun t v => t.raise (.wgmF v) 1) s

/-! ### Arrivals -/

/-- What the end of a tick accumulates: the state, hazards of the next tick, Field event bits, queues at which a token
arrived. -/
structure TickAcc where
  s       : State
  viol    : List Violation
  ev      : List (Nat × Word)
  arrived : List (Nat × Nat)

/-- The Field of a cell is clocked (17 R462). -/
def State.cellRuns (s : State) (cell : Nat) : Bool := s.fieldRuns (s.cellField (cell % 1024) (cell / 1024))

/-- One arrival at an input queue (R57 step 5, R62, R191, R173). A queue without its clock takes nothing (17 R462; DEDUCED, log entry 96). -/
def arriveQueue (acc : TickAcc) (cell p : Nat) (t : Token) : TickAcc :=
  let s := acc.s
  let x := cell % 1024
  let y := cell / 1024
  let c := s.cellAt cell
  let q := c.queue p
  let push : State := s.setCell cell { c with queues := tset c.queues p (q ++ [t]) }
  if !s.cellRuns cell then acc
  else if s.run.debug then
    let vs := arrivalChecks c x y p t (q.length + 1) s.hdr.n s.nextPeriod s.fillNext
    { s := if q.length < 8 then push else s, viol := acc.viol ++ vs, ev := acc.ev, arrived := (cell, p) :: acc.arrived }
  else if t.epoch ≠ c.epAct ∧ t.epoch ≠ c.epSh then
    { acc with s := s.epochDrop x y, ev := acc.ev ++ [(s.cellField x y, 4)] }
  else if q.length < 8 then { acc with s := push }
  else { acc with s := s.overflow x y p, ev := acc.ev ++ [(s.cellField x y, 1)] }

/-- One arrival at the Quay side of an edge port, standing there at the next tick (R71); a Quay's array side without its clock takes nothing (17
R462). -/
def arriveEdge (acc : TickAcc) (e : Nat) (t : Token) : TickAcc :=
  let s := acc.s
  let wrap := decide (s.tick + 1 = s.hdr.n)
  let k : EdgeTok := { port := e, cn := if wrap then s.cn + 1 else s.cn, tick := if wrap then 0 else s.tick + 1, tok := t }
  if s.quayRuns (edgeQuay s.placeLine (e / 1024)) then { acc with s := { s with arr := { s.arr with edge := s.arr.edge ++ [k] } } } else acc

def arrive (acc : TickAcc) (f : Flight) : TickAcc :=
  match f.dst with
  | .queue cell p => arriveQueue acc cell p f.tok
  | .edge e => arriveEdge acc e f.tok

/-- The order in which simultaneous arrivals are taken: Y, then X, then PORT (R62). -/
def Flight.rank (f : Flight) : Nat :=
  match f.dst with
  | .queue cell p => cell * 8 + p
  | .edge e => 8388608 + e

/-- Insertion into a list in order of rank. -/
def insertFlight (f : Flight) : List Flight → List Flight
  | [] => [f]
  | g :: r => if f.rank ≤ g.rank then f :: g :: r else g :: insertFlight f r

/-- The heads popped in this tick and the waypoints handled in it leave their queues (R57 step 5, 06 R196). -/
def State.removeHeads (s : State) : State :=
  s.arr.pops.foldl (fun t cp =>
    let c := t.cellAt cp.1
    t.setCell cp.1 { c with queues := tput [] c.queues cp.2 ((c.queue cp.2).drop 1) }) s

/-- One tick of every seam count (06 R193). -/
def State.seamTick (s : State) : State :=
  let dec (c : Cell) : Cell :=
    match c.seam with
    | some (k + 1) => { c with seam := some k }
    | _ => c
  { s with arr := { s.arr with cells := s.arr.cells.map fun kc => (kc.1, if s.cellRuns kc.1 then dec kc.2 else kc.2) } }

/-- Delivers the tokens whose travel time ends with this tick. -/
def State.deliver (s : State) : TickAcc :=
  let now := (s.arr.flight.filter fun f => decide (f.left ≤ 1)).foldr insertFlight []
  let rest := (s.arr.flight.filter fun f => decide (f.left > 1)).map fun f => { f with left := f.left - 1 }
  now.foldl arrive { s := { s with arr := { s.arr with flight := rest } }, viol := [], ev := [], arrived := [] }

/-- Clears what belongs to one tick and moves to the next. -/
def State.nextTick (s : State) (viol : List Violation) : State :=
  { s with arr := { s.arr with issued := [], wpDone := [], pops := [], unf := [], sats := [], viol := viol }
           tick := if s.tick + 1 ≥ s.hdr.n then 0 else s.tick + 1 }

/-- The end of a tick of a live run (R57, R62, R63, R173, R174): a freeze comes after what the tick's end does to queues, stores
and registers. -/
def State.liveTick (s : State) : State :=
  let u := s.countUnf
  let s1 := u.1.raiseSats.removeHeads.seamTick
  let d := s1.deliver
  let t := d.s.raiseField (u.2 ++ d.ev)
  match (if s.run.debug then firstViolation s.arr.viol else none) with
  | some v => t.hazardFreeze v s.tick s.arr.viol.length
  | none =>
    let miss := if s.run.debug && !s.fillNext then missingChecks (s1.arr.cells.filter fun kc => s1.cellRuns kc.1) d.arrived s1.nextPeriod else []
    t.nextTick (d.viol ++ miss)

/-- The array's part of one cycle of every running clock: a live run ends its tick, an armed run that waits for its first
crossing counts ticks; otherwise ACLK is gated (17 R459). -/
def State.arrayTick (s : State) : State :=
  if s.live then s.liveTick
  else if s.armed then { s with tick := if s.tick + 1 ≥ s.hdr.n then 0 else s.tick + 1 }
  else s

/-! ### Waypoint commands (06 R192 to R196) -/

/-- The ports of a WOUT field. -/
def woutPorts (w : BitVec 8) : List Nat := (List.range 8).filter (woutHas w)

/-- The waypoint copies that leave a cell on WOUT. -/
def State.forwardWp (s : State) (x y : Nat) (c : Cell) (t : Token) : State :=
  s.send x y ((woutPorts c.wout).map fun p => (p, t))

/-- The arrival of waypoints at the heads of a cell's queues (R196): the one that qualifies is forwarded on WOUT and starts
the seam count; every other is removed and counted, and sets no FLAGS.QUEUE, for it is no event of FLD_EVT (10 R318; DESIGN CHOICE, log entry
97). Both leave their queue at the tick's end. -/
def State.wpArrive (s : State) (x y : Nat) : State :=
  let key := y * 1024 + x
  let c := s.cellAt key
  let heads := (List.range 8).filter fun p => ((c.queue p).head?.map Token.isWp).getD false
  let good := s.wpQualifies c
  let others := heads.filter fun p => !(good && decide (p = c.win))
  let s1 := if good then
      (s.forwardWp x y c ((c.queue c.win).headD { tag := 3, epoch := c.epSh, data := 0 })).setCell key { c with seam := some c.dly }
    else s
  let s2 := s1.count (.fldEpd (s.cellField x y)) others.length
  { s2 with arr := { s2.arr with wpDone := key :: s2.arr.wpDone, pops := s2.arr.pops ++ heads.map fun p => (key, p) } }

/-- WAYPOINT_ARRIVAL (R196). Without effect where no run is live, or when the cell's waypoints of this tick are handled
(DESIGN CHOICE, log entry 5). -/
def execWaypointArrival (x y : Nat) (s : State) : Out :=
  if s.hasCell x y then
    if s.live && s.cellRuns (y * 1024 + x) && !s.arr.wpDone.contains (y * 1024 + x) then .next (s.wpArrive x y) else .next s
  else .fault .noSuchUnit

/-- The exchange of planes and epochs at the seam (R193). -/
def Cell.swapPlanes (c : Cell) : Cell := { c with sel := !c.sel, epAct := c.epSh, epSh := c.epAct, seam := none }

/-- SEAM (R193): the cell whose seam count has run out exchanges active and shadow. -/
def execSeam (x y : Nat) (s : State) : Out :=
  if s.hasCell x y then
    let c := s.cellAt (y * 1024 + x)
    if s.live && s.cellRuns (y * 1024 + x) && decide (c.seam = some 0) then .next (s.setCell (y * 1024 + x) c.swapPlanes) else .next s
  else .fault .noSuchUnit

end Sys2Proof.Machine
end

