-- ==== Sys2Proof/Machine/Loader.lean ====
section
/-! DEFINITION. The loader's checks at admission in the order of 05 R161, and those at a fill (06 R197) and at arming (05
R161, 08 R249). -/

namespace Sys2Proof.Machine

/-! ### Extent (0x0105) -/

/-- A hop onto an express link that lands outside the declared extent (R4, 02 R67). One after a hop through an output edge port names no link,
which is PATH_MODEL's (R166). -/
def Leg.leaves (i : Image) (l : Leg) : Option Refuse :=
  let r : Refuse := { Pos.fill { code := 0x0105, sect := 7, tau := l.tau } l.pos with port := l.out % 8 }
  match l.pos, l.res with
  | .cell x y _, none => (hopOut i.hdr.rows x y l.hop.1).map fun p =>
      { r with x2 := (p.1 % 65536).toNat, y2 := (p.2 % 65536).toNat, expect := i.hdr.rows - 1 }
  | _, _ => none

/-- A PATH record against the extent: its origin, its sink, its hops. -/
def pathOut (i : Image) (s : Stream) : Option Refuse :=
  (locOut i.hdr.rows 7 s.oloc).orElse fun _ => (locOut i.hdr.rows 7 s.sloc).orElse fun _ =>
    (firstItem (s.legs i) (Leg.leaves i)).map fun r => { r with item := s.sid }

/-- A WPT record against the extent: its place, and the express links it forwards onto. -/
def wptOut (i : Image) (w : WptRec) : Option Refuse :=
  let rows := i.hdr.rows
  match w with
  | .root e k _ => edgeOut rows 0x0F (e * 1024 + k)
  | .cell x y _ wtau _ wout => (cellOut rows 0x0F x y).orElse fun _ => (woutPorts wout).findSome? fun d =>
      (hopOut rows x y d).map fun p => { code := 0x0105, sect := 0x0F, x := x, y := y, port := d, tau := wtau, expect := rows - 1
                                         x2 := (p.1 % 65536).toNat, y2 := (p.2 % 65536).toNat }

/-- The extent step (R4, R118, R161): sections in ID order, then the extent against the grade. -/
def extentBad (nc12 : Bool) (i : Image) : Option Refuse :=
  let r := i.hdr.rows
  let vf (d : WgmDesc) : Option Refuse :=
    if d.vf * 64 ≥ r then
      some { code := 0x0105, sect := 0x0A, x := d.vf % 4 * 256, y := d.vf / 4 * 256, item := d.tensor, expect := r - 1, found := d.vf / 4 * 256 }
    else none
  firstOf [firstItem (tkeys i.prog) (keyOut r 2), firstItem (tkeys i.wgt) (keyOut r 3), firstItem (tkeys i.init) (keyOut r 4),
    firstItem (tkeys i.rqp) (keyOut r 5), firstItem i.qbt (fun q => cellOut r 6 q.x q.y),
    firstItem i.path (pathOut i),
    firstItem i.join (fun j => cellOut r 8 j.x j.y), firstItem i.osch.ents (fun e => edgeOut r 9 e.edge),
    firstItem i.wgmd vf,
    firstItem i.cmap (fun e => edgeOut r 0x0B e.edge), firstItem i.almt.reqs (fun q => edgeOut r 0x0C q.edge),
    firstItem i.cred.maps (fun m => edgeOut r 0x0E m.edge), firstItem i.wpt (wptOut i),
    if i.hdr.full && nc12 then some { code := 0x0105, sect := 1 } else none]

/-! ### Admission (R161) -/

/-- A structure refusal of section s (R525). -/
def structBad (s : Nat) (k : Option Flaw) : Option Refuse :=
  k.map fun f => { secBad s with item := f.item, expect := f.expect, found := f.found }

/-- Steps 1 to 4: container, extent, program, scales. -/
def loadStart (nc12 : Bool) (b : List Byte) (len : Nat) : List (Option Refuse) :=
  let sec := sectBytes b
  let i := parseImage b
  [containerBad b len, if (sec 0x0E).isEmpty && credMissing i then some (secBad 0x0E) else none, if hdrBad (sec 1) then some (secBad 1) else none, hdrRefuse i.hdr, extentBad nc12 i,
    structBad 2 (cellsBad 12 64 (sec 2)), structBad 3 (cellsBad 4 256 (sec 3)), structBad 4 (cellsBad 4 256 (sec 4)),
    programBad i, structBad 5 (rqpBad (sec 5)), structBad 0x0A (wgmdBad (sec 0x0A)), scalesBad i]

/-- Steps 5 to 9: queues, streams, joins, output schedule, padding. -/
def loadPaths (pl : Option (Bool × Nat)) (b : List Byte) : List (Option Refuse) :=
  let sec := sectBytes b
  let i := parseImage b
  [structBad 6 (qbtBad (sec 6)), queuesBad i, structBad 7 (pathBad (sec 7)), streamsBad i,
    structBad 8 (earlierFlaw (joinBad (sec 8)) (joinTwice i [] 0 i.join)),
    joinsBad i, structBad 9 (oschBad i.hdr.n (sec 9)), outputsBad i, paddingBad pl]

/-- Steps 10 to 13: tables, channels, chains, lanes and records. -/
def loadEnds (libg : Nat) (board b : List Byte) : List (Option Refuse) :=
  let sec := sectBytes b
  let i := parseImage b
  [structBad 0x0C (almtBad (sec 0x0C)), if tideBad (sec 0x0D) then some (secBad 0x0D) else none,
    almTableBad libg (sec 0x0C) i, almLatBad i, almRateBad i, tideContentBad i, structBad 0x0B (cmapBad (sec 0x0B)),
    channelsBad i, structBad 0x0E (credBad (sec 0x0E)), chainsBad i,
    if laneBad (sec 0x10) then some (secBad 0x10) else none, structBad 0x0F (wptBad (sec 0x0F)), lanesBad i (sec 0x10) board]

/-- All thirteen steps of R161 over the image's bytes, stopping at the first refusal: the device's grade, the placement, the
library granules, the board table, the bytes and the length given. -/
def admitBad (nc12 : Bool) (pl : Option (Bool × Nat)) (libg : Nat) (board b : List Byte) (len : Nat) : Option Refuse :=
  firstOf (loadStart nc12 b len ++ loadPaths pl b ++ loadEnds libg board b)

/-! ### A fill (06 R195, R197, R202) -/

/-- The tree's records by cell. -/
structure TreeCell where
  x    : Nat
  y    : Nat
  win  : Nat
  wtau : Nat
  dly  : Nat
  wout : BitVec 8

def Image.tree (i : Image) : List TreeCell :=
  i.wpt.filterMap fun w =>
    match w with
    | .root _ _ _ => Option.none
    | .cell x y win wtau dly wout => some { x := x, y := y, win := win, wtau := wtau, dly := dly, wout := wout }

def Image.roots (i : Image) : List (Nat × Nat) :=
  i.wpt.filterMap fun w =>
    match w with
    | .root e k t => some (e * 1024 + k, t)
    | .cell _ _ _ _ _ _ => Option.none

/-- Arrivals at a tree cell's queue WIN: those that roots and other tree cells send, as stream times. -/
def Image.parents (i : Image) (c : TreeCell) : List (Nat × Nat) :=
  let rows := i.hdr.rows
  let fromRoots := i.roots.filterMap fun r =>
    let e := edgeCellOf rows r.1
    if e.1 = c.x ∧ e.2.1 = c.y then some (e.2.2, r.2 + 3) else Option.none
  let fromCells := i.tree.flatMap fun p => (woutPorts p.wout).filterMap fun d =>
    match hopFrom i .every p.wtau (.cell p.x p.y p.win) (d, 0) with
    | some (.cell x y q, m) => if x = c.x ∧ y = c.y then some (q, p.wtau + m) else Option.none
    | _ => Option.none
  fromRoots ++ fromCells

/-- Every cell that an image uses: it runs a program, or a stream or output touches it. -/
def Image.usedCells (i : Image) : List Nat :=
  tkeys i.prog ++ tkeys i.wgt ++ (i.qbt.map fun q => q.y * 1024 + q.x)

def wptRef (code x y tau : Nat) : Refuse := { code := code, x := x, y := y, tau := tau }

/-- WPT_TREE (0xA004): obligations 1 and 2, one parent, every used cell of both images on the tree. -/
def treeBad (i : Image) (used : List Nat) : Option Refuse :=
  firstOf [
    firstItem i.roots fun r =>
      if i.hdr.winLo ≤ r.2 ∧ r.2 < i.hdr.winLo + i.hdr.n then none
      else some { wptRef 0xA004 (r.1 % 1024) (r.1 / 1024) r.2 with expect := i.hdr.winLo, found := r.2 },
    firstItem i.tree fun c =>
      match i.parents c with
      | [p] => if p = (c.win, c.wtau) then none
          else some { wptRef 0xA004 c.x c.y c.wtau with expect := p.2, found := c.wtau }
      | ps => some { wptRef 0xA004 c.x c.y c.wtau with expect := 1, found := ps.length },
    firstItem used fun k =>
      if i.tree.any fun c => c.y * 1024 + c.x == k then none else some (wptRef 0xA004 (k % 1024) (k / 1024) 0xFFFF)]

/-- WPT_SLOT (0xA005) for one program: obligation 4, and the waypoint within the declared bound (R168, R196). -/
def slotBad (i : Image) : Option Refuse :=
  let held := i.standing
  firstOf [
    firstItem i.tree fun c =>
      firstItem (periodTicks i.hdr.n .every c.wtau) fun b =>
        let e := entryAt i c.x c.y b
        ((woutPorts c.wout).find? fun p => routedOn e p != 0).map (fun p => { wptRef 0xA005 c.x c.y c.wtau with port := p })
        |>.orElse fun _ => if (queuesUsed e).contains c.win || held.contains (((c.y * 1024 + c.x) * 8 + c.win), b) then
            some { wptRef 0xA005 c.x c.y c.wtau with port := c.win } else none,
    (occupancyBad i).map fun r => { wptRef 0xA005 r.x r.y r.tau with port := r.port }]

/-- The stream times at which a stream is touched in a cell: origin, forwards and its ITAU (R197). -/
def Image.touches (i : Image) (s : Stream) : List (Nat × Nat × Nat) :=
  ((s.uses i).map fun u => (u.x, u.y, u.tau)) ++
  (match s.sloc with
   | .cell x y _ => [(x, y, i.heldTo s)]
   | .edge _ _ => [])

/-- SEAM (0xA006): obligations 3 and 5. -/
def seamBad (i : Image) : Option Refuse :=
  firstOf [
    firstItem i.tree fun c =>
      let sm := c.wtau + c.dly
      if i.hdr.winLo ≤ sm ∧ sm ≤ i.hdr.winHi then none
      else some { wptRef 0xA006 c.x c.y sm with expect := sm, found := sm },
    firstItem i.path fun st => firstItem (i.touches st) fun t =>
      match i.tree.find? fun c => c.x == t.1 && c.y == t.2.1 with
      | none => none
      | some c =>
        let sm := c.wtau + c.dly
        if sm ≤ t.2.2 ∧ t.2.2 < sm + i.hdr.n then none
        else some { wptRef 0xA006 t.1 t.2.1 t.2.2 with item := st.sid, expect := sm, found := t.2.2 }]

/-- The ticks relative to tick 0 of crossing W at which tokens of an image stand in a queue, for input crossings W + k
(R197): PAR is taken for both parities of W. -/
def Image.standsAt (i : Image) (ks : List Int) (q : QbEnt) (parW : Nat) : List Int :=
  let n : Int := i.hdr.n
  i.path.flatMap fun s => (s.queues i).flatMap fun e =>
    if e.1 = q.x ∧ e.2.1 = q.y ∧ e.2.2.1 = q.port then
      let upto := if .cell e.1 e.2.1 e.2.2.1 = s.sink ∧ e.2.2.2 = s.stau then i.heldTo s else e.2.2.2
      (ks.filter fun (k : Int) => s.par.parities.contains ((k + parW) % 2).toNat).flatMap fun k =>
        (List.range (upto - e.2.2.2 + 1)).map fun d => k * n + e.2.2.2 + d
    else []

/-- TRANSITION (0xA007): at most 8 entries at every queue while old streams end and new ones begin. -/
def transitionBad (old new : Image) : Option Refuse :=
  let h := old.hdr
  let span : Int := h.rofs + h.a + 1
  let ks := List.range (2 * (h.rofs + h.a + 1) + 1)
  let before := (ks.map fun k => (k : Int) - span).filter fun k => decide (k < 0)
  let after := (ks.map fun k => (k : Int) - span).filter fun k => decide (0 ≤ k)
  firstItem (old.qbt ++ new.qbt) fun q => firstItem [0, 1] fun p =>
    let w := (old.tree.filter fun c => c.x == q.x && c.y == q.y && c.win == q.port).map fun c => ((c.wtau : Int))
    let at_ := old.standsAt before q p ++ new.standsAt after q p ++ w
    (at_.find? fun t => decide (at_.countP (fun u => u == t) > 8)).map fun t =>
      { wptRef 0xA007 q.x q.y t.toNat with port := q.port, found := at_.countP fun u => u == t }

/-- DEBUG_PATH (0xA00A): the first of PATH, JOIN and QBT that differs. -/
def debugPathBad (old new : Image) : Option Refuse :=
  let r (s : Nat) : Refuse := { code := 0xA00A, sect := s }
  if old.path ≠ new.path then some (r 7) else if old.join ≠ new.join then some (r 8)
  else if old.qbt ≠ new.qbt then some (r 6) else none

/-- The checks of R197 in their order: the active slot's image and the one to be filled, their frame digests. The order within check 2, old image
before new, is the model's (DESIGN CHOICE, log entry 88). -/
def fillBad (debug : Bool) (slot : Nat) (old new : Image) (fOld fNew : List Byte) : Option Refuse :=
  if old.wpt = [] ∨ new.wpt = [] then some { code := 0xA002, item := slot }
  else if fOld ≠ fNew then some { code := 0xA003, item := slot }
  else firstOf [treeBad new (old.usedCells ++ new.usedCells), slotBad old, slotBad new, seamBad old, seamBad new,
    transitionBad old new, if debug then debugPathBad old new else none]

end Sys2Proof.Machine
end

