-- ==== Sys2Proof/Machine/Library.lean ====
section
/-! DEFINITION. Signed envelopes (18_boot_and_identity.md R484, R494) and the image library (06 R181 to R184): ADMIT,
ADMISSION_COMPLETE, EVICT and LIBQUERY. -/

namespace Sys2Proof.Machine

/-! ### Envelopes (R484) -/

/-- The payload of an envelope. -/
def envPayload (l : List Byte) : List Byte := (l.drop 192).take (leAt l 12 4)
/-- VERSION of an envelope. -/
def envVersion (l : List Byte) : Nat := leAt l 8 4
/-- The digest that an envelope's signature covers: header, key field and payload. -/
def envDigest (l : List Byte) : List Byte := sha384 (l.take (192 + leAt l 12 4))

/-- The header, lengths and zero fields of an envelope of type typ. -/
def envForm (typ : Nat) (l : List Byte) : Bool :=
  decide (leAt l 0 4 = 0x4753594E ∧ leAt l 4 1 = typ ∧ leAt l 6 2 = 0 ∧ leNat (bytesAt l 16 48) = 0 ∧
    l.length = 192 + leAt l 12 4 + 96)

/-- A vendor-signed envelope of type typ verifies under the mask-ROM hashes root0 and root1. -/
def vendorOk (root0 root1 : List Byte) (typ : Nat) (l : List Byte) : Bool :=
  let key := (l.drop 64).take 97
  let root := if leAt l 5 1 = 0 then root0 else root1
  envForm typ l && decide (leAt l 5 1 ≤ 1) && decide (leNat (bytesAt l 161 31) = 0) && decide (sha384 key = root) &&
  ecdsaVerify key (envDigest l) ((l.drop (192 + leAt l 12 4)).take 96)

/-- An owner-signed envelope of type typ verifies under the owner key. -/
def ownerOk (key : List Byte) (typ : Nat) (l : List Byte) : Bool :=
  envForm typ l && decide (leAt l 5 1 = 2) && decide (leNat (bytesAt l 64 128) = 0) &&
  ecdsaVerify key (envDigest l) ((l.drop (192 + leAt l 12 4)).take 96)

/-! ### Flash (17 R463, R483) -/

/-- A Binnacle peripheral is clocked (17 R463): 0 xSPI, 1 I3C, 2 PMBus and AVSBus, 3 GPIO, 4 the cryptographic engine. -/
def State.periph (s : State) (k : Nat) : Bool := s.clk.ben.getLsbD k

/-- The IDs that a directory lists (R483). -/
def dirIds (d : List Byte) : List Nat := (List.range (leAt d 6 2)).map fun k => leAt d (16 + 16 * k) 2

/-- The bytes of a region, where the directory lists it; zeros while the xSPI controller is gated (17 R463). -/
def State.region (s : State) (id : Nat) : List Byte :=
  let b := if (dirIds s.boot.flash.dir).contains id then tget [] s.boot.flash.regions id else []
  if s.periph 0 then b else b.map fun _ => 0

/-! ### The owner policy on images (R491, R494) -/

/-- A SIG section verifies under the owner key. -/
def sigOk (key b : List Byte) : Bool :=
  let sig := sectBytes b 0x11
  decide (sig.length = 112 ∧ sig.take 16 = (sha384 key).take 16) &&
  ecdsaVerify key (sha384 (digestInput b signedIds)) (sig.drop 16)

/-- The policy refuses the image: no SIG where SIGIMG asks for one, or a SIG that fails. -/
def State.sigBad (s : State) (b : List Byte) : Bool :=
  let key := (s.boot.cert.map Cert.key).getD []
  if sectBytes b 0x11 = [] then s.policy.getLsbD 0 else !(s.periph 4 && sigOk key b)

/-! ### The library (R181 to R184) -/

/-- Granules of 16 MiB that a length takes (R181). -/
def granules (len : Nat) : Nat := (len + 2 ^ 24 - 1) / 2 ^ 24

/-- Granules held by the slots other than k, admissions in progress included. -/
def State.libHeld (s : State) (k : Nat) : Nat :=
  (s.kly.lib.map fun p => if p.1 ≠ k ∧ p.2.used then granules p.2.bytes else 0).sum +
  (s.kly.admits.map fun a => granules a.bytes).sum

/-- Slot k holds the active image or the image in the shadow planes, or one of a fill or switch in flight (R184). -/
def State.slotInUse (s : State) (k : Nat) : Bool :=
  s.armed && (decide (k = s.run.slot) || decide (k = s.planes.actSlot) ||
    (decide (s.planes.sh ≠ .empty) && decide (k = s.planes.shSlot)))

/-- The bytes of an image for admission (R182, R407): from LPDDR6 address off, or from the IMAGES region of flash at place off. -/
def State.imageBytes (s : State) (src off len : Nat) : List Byte :=
  if src = 0 then tgets 0 s.mem off len else bytesAt (s.region 8) off len

/-- The bytes named do not exist. -/
def State.sourceBad (s : State) (src off len : Nat) : Bool :=
  if src = 0 then decide (off + len > 2 ^ 38) else decide (off + len > (s.region 8).length)

def ownAdmit (s : State) (w : Waiting) : KAns :=
  let slot := (w.req.opd 0).toNat
  let src := (w.req.opd 1).toNat
  let off := if src = 0 then w.staged (w.req.opd 2).toNat else (w.req.opd 2).toNat
  let len := (w.req.opd 3).toNat
  let b := s.imageBytes src off len
  if s.slotInUse slot then .refuse { code := 0xB007, item := slot }
  else if s.sourceBad src off len then .refuse { code := 0xB003, item := 2 }
  else if s.libHeld slot + granules len > s.kly.cfg.libg then .refuse { code := 0xB00C }
  else if s.sigBad b then .refuse { code := 0xB00A }
  else match admitBad s.dev.nc12 (if s.dev.nc12 then s.dev.dis else none) s.kly.cfg.libg s.boot.board b len with
    | some f => .refuse f
    | none =>
      let a : Admission := { w := w, slot := slot, img := parseImage b, meas := sha384 (digestInput b measIds)
                             frame := sha384 (digestInput b frameIds), bytes := len, raw := b }
      .long { s with kly := { s.kly with admits := s.kly.admits ++ [a] } }

def cmdAdmit : KCmd :=
  { spec := { op := 0x0101, maxs := [63, 1, 2 ^ 38 - 1, 2 ^ 38 - 1], zero := [3], run := .any, mir := true }
    own := ownAdmit, act := noAct }

/-- ADMIT (R182, 15 R407). -/
def execAdmit (h : CmdHdr) (slot src offset length : Dword) (s : State) : Out :=
  kSubmit cmdAdmit (mkReq 0x0101 h [slot, src, offset, length] []) s

/-- The slot after an admission: the image with the next generation number (R183). -/
def Slot.admitted (k : Slot) (a : Admission) : Slot :=
  { used := true, gen := k.gen + 1, img := a.img, meas := a.meas, frame := a.frame, bytes := a.bytes, raw := a.raw }

/-- The oldest admission in progress ends. A slot that a run has taken meanwhile is not overwritten (R184). -/
def State.admitDone (s : State) (a : Admission) (rest : List Admission) : State :=
  let s1 := { s with kly := { s.kly with admits := rest } }
  let s2 := s1.dropLong a.w
  if s2.slotInUse a.slot then s2.abortLong a.w { code := 0xB007, item := a.slot }
  else
    let k := (s2.libSlot a.slot).admitted a
    let s3 := { s2 with kly := { s2.kly with lib := tset s2.kly.lib a.slot k }
                        alm := { s2.alm with tabSlot := if a.img.almt.tables = [] then s2.alm.tabSlot else a.slot } }
    s3.endLong a.w (BitVec.ofNat 64 (s3.imgIndex a.slot).toNat) []

/-- ADMISSION_COMPLETE (R183). -/
def execAdmissionComplete (s : State) : Out :=
  match s.kly.admits with
  | [] => .next s
  | a :: rest => .next (s.admitDone a rest)

def ownEvict (s : State) (w : Waiting) : KAns :=
  let slot := (w.req.opd 0).toNat
  let k := s.libSlot slot
  if !k.used then .refuse { code := 0xA00B, item := slot }
  else if s.slotInUse slot then .refuse { code := 0xB007, item := slot }
  else .now { s with kly := { s.kly with lib := tset s.kly.lib slot { Slot.reset with gen := k.gen } } } 0 []

def cmdEvict : KCmd := { spec := { op := 0x0102, maxs := [63], run := .any, mir := true }, own := ownEvict, act := noAct }

/-- EVICT (R184, 15 R407). -/
def execEvict (h : CmdHdr) (slot : Dword) (s : State) : Out := kSubmit cmdEvict (mkReq 0x0102 h [slot] []) s

def ownLibquery (s : State) (w : Waiting) : KAns :=
  let slot := (w.req.opd 0).toNat
  let k := s.libSlot slot
  if !k.used then .refuse { code := 0xA00B, item := slot }
  else .now s (BitVec.ofNat 64 (s.imgIndex slot).toNat) (k.meas ++ k.frame)

def cmdLibquery : KCmd :=
  { spec := { op := 0x0103, maxs := [63], run := .any, jrn := false }, own := ownLibquery, act := noAct }

/-- LIBQUERY (14 R381, 15 R407). -/
def execLibquery (h : CmdHdr) (slot : Dword) (s : State) : Out := kSubmit cmdLibquery (mkReq 0x0103 h [slot] []) s

end Sys2Proof.Machine
end

