-- ==== Sys2Proof/Machine/Arming.lean ====
section
/-! DEFINITION. Arming (05 R161, 06 R185, 08 R249, 17 R459): ARM, the end of the fill (05 R156) and the loaded
training (07 R232). -/

namespace Sys2Proof.Machine

/-! ### Context fields (08 R248) -/

def Ctx.en (c : Ctx) : Bool := c.ctl.getLsbD 31
def Ctx.fixed (c : Ctx) : Bool := c.ctl.getLsbD 30
def Ctx.mask (c : Ctx) : Bool := c.ctl.getLsbD 29
def Ctx.avg (c : Ctx) : Bool := c.ctl.getLsbD 28
def Ctx.avgk (c : Ctx) : Nat := (c.ctl.extractLsb' 23 5).toNat
def Ctx.hthr (c : Ctx) : Nat := (c.ctl.extractLsb' 5 16).toNat
def Ctx.cross (c : Ctx) : Nat := (c.dsk.extractLsb' 28 4).toNat
def Ctx.fill (c : Ctx) : BitVec 16 := c.dsk.extractLsb' 0 16
def Ctx.gm (c : Ctx) : Int := (c.cal.extractLsb' 16 16).toInt
def Ctx.gs (c : Ctx) : Nat := (c.env.extractLsb' 28 4).toNat
def Ctx.grnd (c : Ctx) : Bool := c.env.getLsbD 27
def Ctx.envp (c : Ctx) : Nat := (c.env.extractLsb' 0 12).toNat

/-- The envelope of a context (R273). -/
def State.envOf (s : State) (x : Nat) (c : Ctx) : Word × Word := tget (0, 0) s.chan.env (x / 16384 * 4096 + c.envp)

/-- An enabled context breaks a condition of R249, with the WIDTH that CMAP gives. -/
def State.ctxBad (s : State) (x : Nat) (c : Ctx) (width : BitVec 2) : Bool :=
  let e := s.envOf x c
  c.en && (decide (c.gm = 0) || decide (cwLdef c.wgm = 0 ∨ cwLdef c.wgm > 32) ||
    (c.avg && decide (c.avgk = 0 ∨ c.avgk > 16)) || (c.mask && decide (e.1.toInt > e.2.toInt)) ||
    (decide (width = 0) && decide (cwHead c.wgm = 3)))

/-- A context as arming leaves it (R249, 04 R139). -/
def Ctx.armed (c : Ctx) (e : CmapEnt) : Ctx :=
  let w := c.wgm.extractLsb' 24 8 ++ e.width ++ c.wgm.extractLsb' 0 22
  { c with dsk := c.dsk.extractLsb' 28 4 ++ BitVec.ofNat 5 e.tick ++ c.dsk.extractLsb' 0 23
           acc := 0, done := 0, wgm := cwWith w false (cwLdef w), ages := (List.range 32).map fun i => (i + 1, 64) }

/-! ### The arming checks (05 R161) -/

/-- MCLK × N ceilings in kHz by level (17 R473). -/
def plCeiling (pl : Nat) : Nat := match pl with | 0 => 1125000 | 1 => 845000 | _ => 565000

/-- 0x0106 (17 R459): MCLK in units of 10 Hz. -/
def clockBad (freq n pl : Nat) : Option Refuse :=
  if freq * 1002 * n > plCeiling pl * 100000 then
    some { code := 0x0106, expect := plCeiling pl, found := freq * 1002 * n / 100000 }
  else none

/-- 0x0107 (R171, 12 R335): fewer than four mirror lanes, else the first that is not at 64.0 Gb/s or is one too many. -/
def modeBad (debug pair : Bool) (i : Image) : Option Refuse :=
  let r : Refuse := { code := 0x0107 }
  let ms := (List.range 64).filter fun l => (i.laneAt l).role == 3
  if debug && (pair || !i.hdr.debug) then some r
  else if !pair then none
  else if ms.length < 4 then some r
  else (ms.zipIdx.find? fun l => (i.laneAt l.1).rate != 0 || decide (4 ≤ l.2)).map fun l => { r with item := l.1 }

/-- The lane and hub frame checks at MCLK m (09 R299, 10 R320). -/
def armLaneBad (i : Image) (m : Nat) : Option Refuse :=
  let r : Refuse := { code := 0xB006 }
  firstOf [
    firstItem (List.range 64) fun l =>
      let e := i.laneAt l
      if (e.role = 1 ∨ e.role = 2) ∧ e.blk > qOf e.rate m then some { r with item := l, expect := qOf e.rate m, found := e.blk }
      else if (e.role = 1 ∨ e.role = 2 ∨ e.role = 4) ∧ qUnstable e.rate m then some { r with item := l } else none,
    if hubUnfit i m then some r else none]

/-- 0x0702 (08 R249). -/
def State.armCtxBad (s : State) (i : Image) : Option Refuse :=
  firstItem i.cmap fun e => if s.ctxBad e.ctx (s.ctxOf e.ctx) e.width then some { code := 0x0702, item := e.ctx } else none

/-- A table of the image is not marked loaded under its descriptor and copies (07 R235). -/
def State.tabUnloaded (s : State) (i : Image) (t : TblDesc) : Bool :=
  let a := s.tab t.tid
  decide (a.desc ≠ some (t, (i.copiesOf t).map Prod.fst)) || !a.loaded.getLsbD 0 || (t.faces == 2 && !a.loaded.getLsbD 1)

/-- Lanes that a LANES operand names. -/
def recLanes (m : Dword) : List Nat := (List.range 64).filter fun l => m.getLsbD l

/-- A stream recording's assignment at MCLK m does not fit: a byte names no readout lane, or a readout lane carries more than Q - 1 blocks
(14 R391). role, rate and blk are the lanes' own. -/
def streamBad (role rate blk : Nat → Nat) (m : Nat) (lanes : Dword) (lst : List Byte) : Bool :=
  let load (o : Nat) : Nat := (((recLanes lanes).zip lst).map fun p => if p.2.toNat = o then 1 + blk p.1 else 0).sum
  lst.any fun b => role b.toNat != 5 || decide (load b.toNat > qOf (rate b.toNat) m - 1)

/-- A stream recording that waits for this arming is assigned to lanes that the image does not give (14 R391; DESIGN CHOICE, log entry
43). -/
def State.armLogBad (s : State) (i : Image) : Option Refuse :=
  let e (l : Nat) : LaneEnt := i.laneAt l
  if s.log.atArm && s.log.mode == 2 &&
    streamBad (fun l => (e l).role) (fun l => (e l).rate) (fun l => (e l).blk) s.clk.mclk s.log.lanes s.log.assign then
    some { code := 0xB007 }
  else none

/-- Every check of an arming, in order, with MCLK as Klowyn measures it now (17 R459). No run is armed during a change of level or of sleep
state (R13, 17 R474, R477; DEDUCED, log entry 104). -/
def State.armBad (s : State) (slot pl : Nat) (debug : Bool) : Option Refuse :=
  let i := s.imgAt slot
  let f := s.clk.mclk
  if !(s.libSlot slot).used then some { code := 0xA00B, item := slot }
  else if debug && !s.policy.getLsbD 1 then some { code := 0xB00A }
  else if s.pairMode && decide (s.pair.st ≠ .joined ∧ s.pair.st ≠ .probation ∧ s.pair.st ≠ .lost) then some { code := 0xB007 }
  else if s.pwr.busy ≠ .none then some { code := 0xB007 }
  else if s.clk.wait ≠ [] ∨ !s.clk.mclkOk then some { code := 0xB006 }
  else if i.almt.tables.any TblDesc.lpddr && decide (f > 4060000) then some { code := 0xB006, expect := 40600, found := f / 100 }
  else match i.almt.tables.find? (s.tabUnloaded i) with
    | some t => some { code := 0xB008, item := t.tid }
    | none => firstOf [clockBad f i.hdr.n pl, modeBad debug s.pairMode i, armLaneBad i f, s.armCtxBad i, s.armLogBad i]

/-! ### What an accepted arming sets -/

/-- LNK_CFG of a lane (09 R305). -/
def laneCfg (i : Image) (board : List Byte) (m l : Nat) : Word :=
  let e := i.laneAt l
  let lim := leAt board (16 * l + 1) 1
  let framed := e.role = 1 ∨ e.role = 2
  let q := if framed ∨ e.role = 4 then qOf e.rate m else 0
  BitVec.ofNat 3 e.role ++ BitVec.ofNat 3 e.rate ++ BitVec.ofNat 5 (if framed then e.blk else 0) ++ BitVec.ofNat 5 q ++
  BitVec.ofNat 3 (if framed then e.rofs else 0) ++ BitVec.ofBool (lim.testBit 3) ++ BitVec.ofBool (lim.testBit 4) ++
  (0 : BitVec 3) ++ BitVec.ofNat 8 e.explid

/-- The lane after an arming (R303, R305, R311, R335): a changed role or rate loses lock; Off lanes, mirror lanes of a solo
device and the transmit side of input lanes stay in electrical idle; slack and fault history are cleared, and other transmitters leave
electrical idle. -/
def armLane (i : Image) (board : List Byte) (m : Nat) (pair : Bool) (l : Nat) (x : Lane) : Lane :=
  let c := laneCfg i board m l
  let e := i.laneAt l
  let quiet := e.role == 0 || (e.role == 3 && !pair)
  let same := x.role == e.role && x.rate == e.rate
  let upl : BitVec 24 := match i.recvLoop l with
    | some lp => BitVec.ofNat 24 lp.upl
    | none => x.cnofs
  let y := { (if same && !quiet then x else x.unlocked) with
    cfg := c, mq := qOf e.rate m, wake := !quiet, eirx := x.eirx || quiet, cnofs := upl, slackLast := 0, slackMin := 0xFFFF, hist := []
    txeq := BitVec.ofNat 32 (leAt board (16 * l + 2) 4) &&& 0x3FFFFFFF, rxeq := BitVec.ofNat 32 (leAt board (16 * l + 6) 4) &&& 0xFFFF0000
    dfe := BitVec.ofNat 32 (leAt board (16 * l + 10) 4) &&& 0x3FFFFFFF }
  if quiet || e.role == 1 then y.quietTx else if x.eitx then y.light else y

def State.armLanes (s : State) (i : Image) (m : Nat) : State :=
  (List.range 64).foldl (fun u l => u.setLane l (armLane i u.boot.board m u.pairMode l (u.lane l))) s

/-- Chain state and role counters of a lane at arming (10 R312, R313, R328). -/
def HubLane.armed (h : HubLane) : HubLane :=
  { h with held := [], lastX := none, histOn := false, sent := [], cx := none, inflt := 0, maxfl := 0, cxOut := 0 }

/-- The counters that clear at arming (02 R81, 04 R144, 07 R241, 09 R305, 10 R328, 12 R354, 19 R513), by key. -/
def clearsAtArming (k : Nat) : Bool := decide (k < 80) || k == 107 || decide (110 ≤ k)

/-! ### Performance levels (17 R473, R474) -/

/-- The core voltage of a level in mV (R473). -/
def plVolt (pl : Nat) : Int := match pl with | 0 => 800 | 1 => 700 | _ => 620

/-- The body bias and the SRAM write assist of a level in mV (R473). -/
def plBias (pl : Nat) : Int := match pl with | 0 => 0 | 1 => 60 | _ => 120
def plAssist (pl : Nat) : Int := match pl with | 0 => 0 | 1 => -60 | _ => -100

/-- The target of quadrant q at a level: with its trim, clamped to 620 to 820 mV (19 R504). -/
def State.vfldTarget (s : State) (pl q : Nat) : Nat := (max 620 (min 820 (plVolt pl + tget 0 s.pwr.trim q))).toNat

/-- The quadrants' rails on at the voltage of a level. -/
def State.fieldRails (s : State) (pl : Nat) : State :=
  { s with pwr := { s.pwr with railok := s.pwr.railok ||| 0x0F, target := tofList 0 ((List.range 4).map (s.vfldTarget pl)) } }

/-- Body bias and write assist of a level applied. -/
def State.levelBias (s : State) (pl : Nat) : State :=
  { s with pwr := { s.pwr with bias := plBias pl, assist := plAssist pl } }

/-- Klowyn begins a change of level (R474). A rise applies the new bias and assist and then raises the voltage, which completes it; a fall
lowers the voltage first. -/
def State.startLevel (s : State) (pl : Nat) (w : Option Waiting) : State :=
  if pl = s.pwr.pl then s
  else
    let s1 := if pl < s.pwr.pl then s.levelBias pl else s.fieldRails pl
    { s1 with pwr := { s1.pwr with busy := .level pl w } }

/-- The change of level ends (R474): the voltage of the new level with its bias and assist. -/
def State.endLevel (s : State) (pl : Nat) : State :=
  let s1 := (s.fieldRails pl).levelBias pl
  ({ s1 with pwr := { s1.pwr with pl := pl, busy := .none } }).raiseBit .pwr 1

/-- A change of level that an arming began has completed by the first crossing (R474: within 2 ms, which lies within the lead). -/
def State.levelDone (s : State) : State :=
  match s.pwr.busy with
  | .level pl none => s.endLevel pl
  | _ => s

/-- The counters and records of an arming, cleared as the run is armed (02 R81, 04 R144, 05 R176, R177, 07 R236, R241, 09 R305, 10 R312, R317,
R328, 12 R354). Event bits and SEQ of the sequence-clear registers stay, but for RUN_HZST, which is part of the record (04 R144; DESIGN CHOICE, log entry
74). -/
def State.clearForRun (s : State) : State :=
  { s with
    ctrs := s.ctrs.filter fun p => !clearsAtArming p.1
    evts := tdel s.evts EvtId.runHz.code
    arr := { s.arr with ovfPos := [], ovfCn := [], hzRec := 0, hzCn := 0, hzDet := 0 }
    alm := { s.alm with ueRec := [], ueCn := [], ueAt := [], margin := [], streak := [], trainRk := [], swapReg := 0, pools := []
                        swaps := [], found := [], acts := []
                        tabs := s.alm.tabs.map fun p => (p.1, { p.2 with active := false }) }
    hub := s.hub.map fun p => (p.1, p.2.armed)
    sext := s.sext.map fun p => (p.1, { p.2 with margin := 0, streak := 0, seen := false })
    out := { OutState.reset with fdecZ := s.out.fdecZ, latCn := s.out.latCn }
    pair := { s.pair with mmSeen := false, mmcn := 0, digs := [], sent := [], vValid := true, vcn := s.run.first - 1, takeC := none } }

/-- The acceptance of an arming: the counters and records clear, the run is armed for first input crossing S (R13), MCLK is measured and ACLK locks (17 R459), Fields 12 to 15 of
an NC-16F-A1 are gated under the reduced extent (02 R79), the contexts, the Weighmaster and the lanes take their armed values,
and Klowyn learns the integrity reference anew (16 R454). -/
def State.armRun (s : State) (slot pl : Nat) (seed : Dword) (debug : Bool) (first : CN) : State :=
  let i := s.imgAt slot
  let m := s.clk.mclk
  let s1 := { s with
    run := { RunState.reset with phase := .armed, slot := slot, pl := pl, seed := seed, debug := debug, first := first
                                 mclkArm := m, lastP := s.run.lastP }
    planes := { Planes.reset with actSlot := slot }
    wgm := wgmArmed i
    alm := { s.alm with trained := false, tideOn := false, locked := decide (m ≤ 4060000) }
    chan := { s.chan with levels := [], avgDue := [] }
    log := { s.log with active := s.log.active || s.log.atArm, p0 := if s.log.atArm then first else s.log.p0
                        lastX := if s.log.atArm then cnSub first 16 else s.log.lastX }
    pkg := { s.pkg with ozRun := false, alert := false } }
  let s2 := i.cmap.foldl (fun u e => u.setCtx e.ctx ((u.ctxOf e.ctx).armed e)) s1.clearForRun
  let s3 := s2.armLanes i m
  let s4 := { s3 with clk := { s3.clk with alock := true, freq := BitVec.ofNat 23 m, gate := if s3.gatedF12 then s3.clk.gate &&& ~~~gateF12 else s3.clk.gate } }
  (s4.startLevel pl none).coverChange true

def ownArm (s : State) (w : Waiting) : KAns :=
  let slot := (w.req.opd 0).toNat
  let debug := w.req.opd 4 == 1
  match (if s.pairMode && decide (s.pair.st ≠ .joined ∧ s.pair.st ≠ .lost) then some { code := 0xB007 } else s.armBad slot (w.req.opd 1).toNat debug) with
  | some f => .refuse f
  | none =>
    let seed := if w.req.opd 3 = 1 then w.req.opd 2 else (s.imgAt slot).hdr.seed
    .now (s.armRun slot (w.req.opd 1).toNat seed debug w.at_) 0 []

/-! ### RUN_START (04 R131, 06 R185, R189) -/

/-- The waypoint registers of a cell (06 R194, 05 R172). -/
def Cell.withTree (c : Cell) (n : Nat) (debug : Bool) : WptRec → Cell
  | .root _ _ _ => c
  | .cell _ _ win wtau dly wout =>
    { c with onTree := true, win := win, wtauN := wtau % n, dly := dly, wout := wout
             wslot := if debug then some (wtau % n) else none }

/-- The cell key of a queue-bound entry. -/
def QbEnt.cell (q : QbEnt) : Nat := q.y * 1024 + q.x

/-- The cell key of a tree record. -/
def WptRec.key? : WptRec → Option Nat
  | .root _ _ _ => none
  | .cell x y _ _ _ _ => some (y * 1024 + x)

/-- Every cell that an image names in some section. -/
def Image.cellKeys (i : Image) : List Nat :=
  (tkeys i.prog ++ tkeys i.wgt ++ tkeys i.init ++ tkeys i.rqp ++ i.qbt.map QbEnt.cell ++ i.wpt.filterMap WptRec.key?).eraseDups

/-- The tree record of a cell. -/
def Image.wptAt (i : Image) (k : Nat) : Option WptRec := i.wpt.find? fun w => w.key? == some k

/-- A cell with plane A active and written from the image, its stores cleared or initialised (02 R44, 03 R95, 06 R185). -/
def Image.cellOf (i : Image) (debug : Bool) (ep : BitVec 2) (k : Nat) : Cell :=
  let c := { Cell.blank ep with
    progA := tget [MInstr.idle] i.prog k, wgtA := tget [] i.wgt k, ws := tget [] i.init k, rq := tget [] i.rqp k }
  match i.wptAt k with
  | some w => c.withTree i.hdr.n debug w
  | .none => c

/-- One scheduled arrival in a detector map (05 R172). -/
def mapArrival (t : Tbl Cell) (ep : BitVec 2) (key p b : Nat) : Tbl Cell :=
  let c := tget (Cell.blank ep) t key
  tset t key { c with maps := tput 0 c.maps p (tget 0 c.maps p ||| (1 : BitVec 64) <<< b) }

/-- The detector's maps and bounds (05 R172). -/
def Image.withMaps (i : Image) (ep : BitVec 2) (t : Tbl Cell) : Tbl Cell :=
  let arrivals := i.path.flatMap fun s => (s.queues i).flatMap fun q =>
    (periodTicks i.hdr.n s.par q.2.2.2).map fun b => (q.2.1 * 1024 + q.1, q.2.2.1, b)
  let t1 := arrivals.foldl (fun u a => mapArrival u ep a.1 a.2.1 a.2.2) t
  i.qbt.foldl (fun u q =>
    let c := tget (Cell.blank ep) u (q.y * 1024 + q.x)
    tset u (q.y * 1024 + q.x) { c with bounds := tput 0 c.bounds q.port q.bound }) t1

/-- Every cell as the loader writes it, with active epoch ep. -/
def Image.cells (i : Image) (debug : Bool) (ep : BitVec 2) : Tbl Cell :=
  let t := i.cellKeys.foldl (fun t k => tset t k (i.cellOf debug ep k)) []
  if debug then i.withMaps ep t else t

/-- The array as the loader leaves it at tick 0 of crossing S. -/
def State.loadArray (s : State) (ep : BitVec 2) : State :=
  let s1 := { s with
    tick := 0
    arr := { ArrState.reset with cells := s.img.cells s.run.debug ep, baseEp := ep, pads := padsOf s.placeLine
                                 ovfPos := s.arr.ovfPos, ovfCn := s.arr.ovfCn, hzRec := s.arr.hzRec, hzCn := s.arr.hzCn
                                 hzDet := s.arr.hzDet } }
  s1.pushAllScales

/-- The effect of ARM at crossing S: the loader's writes, and the run with its fill (05 R156). -/
def actArm (s : State) (_ : Waiting) : State :=
  let s1 := s.levelDone.loadArray 0
  let e : EpochRec := { c := s.cn, epoch := 0, slot := s.run.slot }
  { s1 with
    run := { s1.run with phase := .running, filling := true, fillEnd := cnAdd s.cn (s.hdr.rofs + s.hdr.a + 1) }
    planes := { s1.planes with actEp := 0, epochs := [e] }
    alm := { s1.alm with tideOn := s1.alm.locked } }

def cmdArm : KCmd :=
  { spec := { op := 0x0201, maxs := [63, 2, 2 ^ 64 - 1, 1, 1], run := .no, cross := fun _ => true, mir := true }
    own := ownArm, act := actArm }

/-- ARM (R185, 15 R407). -/
def execArm (h : CmdHdr) (slot pl seed seedv debug : Dword) (s : State) : Out :=
  kSubmit cmdArm (mkReq 0x0201 h [slot, pl, seed, seedv, debug] []) s

/-- The run waits for its first crossing, and this is it. -/
def State.startDue (s : State) : Bool := decide (s.run.phase = .armed ∧ s.cn = s.run.first)

/-- RUN_FILL_END (05 R156): the crossing after the fill's last. -/
def execRunFillEnd (s : State) : Out :=
  if s.live && s.run.filling && cnLe s.run.fillEnd s.cn then .next { s with run := { s.run with filling := false, resumed := false } }
  else .next s

/-- LOADED_TRAINING_COMPLETE (07 R232): before the first crossing of an armed or resumed run. -/
def execLoadedTrainingComplete (s : State) : Out :=
  if s.armed && !s.alm.trained && decide (s.run.phase = .armed ∨ (s.run.phase = .paused ∧ s.run.resumeQ ≠ none)) then
    .next { s with alm := { s.alm with trained := true } }
  else .next s

end Sys2Proof.Machine
end

