-- ==== Sys2Proof/Machine/Planes.lean ====
section
/-! DEFINITION. Shadow planes and switches (06_programs_and_waypoints.md R186 to R202): FILL, FILL_COMPLETE, CANCEL, SWITCH,
WAYPOINT_INJECTION and SWITCH_COMPLETE. -/

namespace Sys2Proof.Machine

/-! ### What computes an input crossing (R190) -/

/-- The latest of the records that begin at or before c. -/
def epochIn (d : EpochRec) (c : CN) : List EpochRec → EpochRec
  | [] => d
  | e :: r => epochIn (if cnLe e.c c then e else d) c r

/-- The epoch and the image of input crossing c; the first record's for a crossing before the run's first. -/
def State.epochOf (s : State) (c : CN) : EpochRec :=
  let d : EpochRec := { c := c, epoch := s.planes.actEp, slot := s.planes.actSlot }
  epochIn (s.planes.epochs.headD d) c s.planes.epochs

/-! ### FILL and CANCEL (R186 to R188, R197) -/

/-- Active cells of the run: those of the extent. -/
def State.activeCells (s : State) : Nat := 1024 * s.hdr.rows

/-- B of R187. -/
def State.fillBytes (s : State) : Nat := 1792 * s.activeCells

def ownFill (s : State) (w : Waiting) : KAns :=
  let slot := (w.req.opd 0).toNat
  let act := s.libSlot s.planes.actSlot
  let new := s.libSlot slot
  if s.planes.sh = .filling ∨ s.planes.sh = .switching then .refuse { code := 0xA008 }
  else if !new.used then .refuse { code := 0xA00B, item := slot }
  else if s.run.mclkArm > 4060000 then .refuse { code := 0xB006, expect := 40600, found := s.run.mclkArm / 100 }
  else match fillBad s.run.debug slot act.img new.img act.frame new.frame with
    | some f => .refuse f
    | none =>
      let by_ := cnAdd s.cn ((s.fillBytes + 1919) / 1920)
      .now { s with planes := { s.planes with sh := .filling, shSlot := slot, fillPos := 0, fillBy := by_ } } (cnDword by_) []

def cmdFill : KCmd := { spec := { op := 0x0301, maxs := [63], run := .yes, mir := true }, own := ownFill, act := noAct }

/-- FILL (R186, 15 R407). -/
def execFill (h : CmdHdr) (slot : Dword) (s : State) : Out := kSubmit cmdFill (mkReq 0x0301 h [slot] []) s

/-- The cell with its shadow planes written (R186). -/
def Cell.writeShadow (c : Cell) (prog : List MInstr) (wgt : Tbl Word) : Cell :=
  if c.sel then { c with progA := prog, wgtA := wgt } else { c with progB := prog, wgtB := wgt }

/-- The shadow planes of every cell written from an image. -/
def State.fillShadow (s : State) (i : Image) : State :=
  let keys := (tkeys s.arr.cells ++ tkeys i.prog ++ tkeys i.wgt).eraseDups
  keys.foldl (fun u k => u.setCell k ((u.cellAt k).writeShadow (tget [MInstr.idle] i.prog k) (tget [] i.wgt k))) s

/-- The fill has written its last burst, or the crossing that bounds it has come (R187). -/
def State.fillDue (s : State) : Bool :=
  s.live && decide (s.planes.sh = .filling) && (decide (s.planes.fillPos ≥ s.fillBytes) || cnLe s.planes.fillBy s.cn)

/-- FILL_COMPLETE (R188). -/
def execFillComplete (s : State) : Out :=
  if s.fillDue then
    let u := s.fillShadow (s.imgAt s.planes.shSlot)
    .next { u with planes := { u.planes with sh := .ready } }
  else .next s

def ownCancel (s : State) (_ : Waiting) : KAns :=
  if s.planes.sh = .filling then .now { s with planes := { s.planes with sh := .empty, shSlot := 0, fillPos := 0 } } 0 []
  else .refuse { code := 0xB007 }

def cmdCancel : KCmd := { spec := { op := 0x0302, maxs := [], run := .yes, mir := true }, own := ownCancel, act := noAct }

/-- CANCEL (R188, 15 R407). -/
def execCancel (h : CmdHdr) (s : State) : Out := kSubmit cmdCancel (mkReq 0x0302 h [] []) s

/-! ### SWITCH (R198 to R201) -/

/-- Crossings from W to the completion of its switch (R199). -/
def Hdr.switchSpan (h : Hdr) : Nat := h.rofs + h.a + 2

/-- c lies from a to a + k. -/
def cnWithin (a c : CN) (k : Nat) : Bool := decide ((c - a).toNat ≤ k)

/-- The checks of SWITCH (R198). In the drain of a pause it is refused as in the pause itself (DESIGN CHOICE, log entry 87). -/
def ownSwitch (s : State) (w : Waiting) : KAns :=
  let meets := (s.run.pauseAt.map fun p => cnWithin w.at_ p s.hdr.switchSpan).getD false
  if s.run.phase = .draining then .refuse { code := 0xA001 }
  else if s.planes.swW ≠ none ∨ meets ∨ s.transferring then .refuse { code := 0xA008 }
  else if s.planes.sh ≠ .ready then .refuse { code := 0xA009 }
  else
    let e : EpochRec := { c := w.at_, epoch := s.planes.actEp + 1, slot := s.planes.shSlot }
    .now { s with planes := { s.planes with sh := .switching, swW := some w.at_, swCn := w.at_, wpSent := false
                                            epochs := s.planes.epochs ++ [e] } } 0 []

/-- Every cell at the completion of a switch to epoch e: the shadow epoch follows the active one; a cell off the tree takes
e (R199). -/
def Cell.complete (c : Cell) (e : BitVec 2) : Cell :=
  if c.onTree then { c with epSh := c.epAct + 1 } else { c with epAct := e, epSh := e + 1 }

/-- The completion of the switch of input crossing w. -/
def State.endSwitch (s : State) (w : CN) : State :=
  let e := s.planes.actEp + 1
  let old := s.planes.actSlot
  { s with
    arr := { s.arr with cells := s.arr.cells.map fun p => (p.1, p.2.complete e), baseEp := e }
    planes := { s.planes with sh := .ready, shSlot := old, actSlot := s.planes.shSlot, actEp := e, swW := none, wpSent := false
                              epochs := [{ c := w, epoch := e, slot := s.planes.shSlot }] }
    run := { s.run with slot := s.planes.shSlot } }

def actSwitch (s : State) (w : Waiting) : State := s.endSwitch w.at_

def cmdSwitch : KCmd :=
  { spec := { op := 0x0303, maxs := [], run := .yes, cross := fun _ => true, mir := true }, own := ownSwitch, act := actSwitch }

/-- SWITCH (R198, 15 R407). -/
def execSwitch (h : CmdHdr) (s : State) : Out := kSubmit cmdSwitch (mkReq 0x0303 h [] []) s

/-- The token of a switch. -/
def wpToken (e : BitVec 2) : Token := { tag := 3, epoch := e, data := 0 }

/-- Waypoints driven into every root at its stream time, in the first crossing of the array window (R192, R195). -/
def State.injectWps (s : State) : State :=
  s.img.roots.foldl (fun u r => u.driveEdge r.1 (s.hdr.n - s.tick + (r.2 - s.hdr.winLo)) (wpToken (s.planes.actEp + 1))) s

/-- The channel stage of input crossing W (R192). -/
def State.wpDue (s : State) : Bool :=
  decide (s.run.phase = .running) && !s.planes.wpSent && decide (s.planes.swW = some (cnSub s.cn s.hdr.rofs))

/-- WAYPOINT_INJECTION (R192). -/
def execWaypointInjection (s : State) : Out :=
  if s.wpDue then
    let u := s.injectWps
    .next { u with planes := { u.planes with wpSent := true } }
  else .next s

/-- SWITCH_COMPLETE (R199): at tick 0 of crossing W + R_OFS + A + 2, though Klowyn may have lost the command in a reboot (15 R412). -/
def execSwitchComplete (s : State) : Out :=
  match s.planes.swW with
  | some w => if s.live && s.planes.wpSent && decide (s.cn = cnAdd w s.hdr.switchSpan) then
      .next (if s.dueNow 0x0303 w = [] then s.endSwitch w else s.applyDue cmdSwitch w s.cn)
    else .next s
  | none => .next s

end Sys2Proof.Machine
end

