-- ==== Sys2Proof/Machine/Pause.lean ====
section
/-! DEFINITION. Stop, pause and resume (00 R13, 12 R353, 14 R386 to R388): STOP, RUN_STOP_EFFECT, PAUSE, PAUSE_START, PAUSED,
RESUME and AUTO_RESTART. -/

namespace Sys2Proof.Machine

/-! ### STOP -/

def ownStop (s : State) (w : Waiting) : KAns :=
  let at_ := match s.run.stopAt with
    | some c => if cnLt w.at_ c then w.at_ else c
    | none => w.at_
  .now { s with run := { s.run with stopAt := some at_ } } 0 []

def cmdStop : KCmd :=
  { spec := { op := 0x0202, maxs := [], run := .yes, cross := fun _ => true, mir := true }, own := ownStop, act := noAct }

/-- STOP (R13, 15 R407): it names the last device crossing. -/
def execStop (h : CmdHdr) (s : State) : Out := kSubmit cmdStop (mkReq 0x0202 h [] []) s

/-- RUN_STOP_EFFECT (R13, R353): the end of the last device crossing, by a fault or by command. A fault stop drives ALERT_N
(19 R515). -/
def execRunStopEffect (s : State) : Out :=
  if s.armed && decide (s.run.faultAt = some s.cn) then
    let u := (s.applyDue cmdStop s.cn s.cn).stopRun .fault
    .next { u with pkg := { u.pkg with alert := true } }
  else if s.armed && decide (s.run.stopAt = some s.cn) then .next ((s.applyDue cmdStop s.cn s.cn).stopRun .command)
  else .next s

/-! ### PAUSE (R386, R387) -/

/-- A pause crossing P meets another pause, or lies in the span of a switch or swap, from W or a to its end (R386, 06 R201,
07 R239; DEDUCED, log entry 27). -/
def State.pauseMeets (s : State) (p : CN) : Bool :=
  let inFlight (w : CN) (k : Nat) : Bool := cnWithin w p k
  s.run.pauseAt.isSome || decide (s.run.phase = .draining ∨ s.run.phase = .paused) ||
  (match s.planes.swW with
   | some w => inFlight w s.hdr.switchSpan
   | none => false) ||
  s.alm.swaps.any fun t => inFlight t.a (s.hdr.rofs + s.hdr.a + 16)

def ownPause (s : State) (w : Waiting) : KAns :=
  if s.pauseMeets w.at_ then .refuse { code := 0xA008 }
  else .now { s with run := { s.run with pauseAt := some w.at_ } } 0 []

def cmdPause : KCmd :=
  { spec := { op := 0x0203, maxs := [], run := .yes, cross := fun _ => true, mir := true }, own := ownPause, act := noAct }

/-- PAUSE (R386, 15 R407). -/
def execPause (h : CmdHdr) (s : State) : Out := kSubmit cmdPause (mkReq 0x0203 h [] []) s

/-- The shadow planes from input crossing P on: of a switch that P meets, the planes that it takes over or leaves behind (R201). -/
def State.shadowAt (s : State) (p : CN) : ShadowLatch :=
  let old := match s.planes.swW with
    | some w => !cnLt p w
    | none => false
  { st := if s.planes.sh = .switching then .ready else s.planes.sh, slot := if old then s.planes.actSlot else s.planes.shSlot
    pos := s.planes.fillPos, by_ := s.planes.fillBy }

/-- A latch at input crossing P, before the channel stage of P: the context carry state, the image and epoch that compute P; its tensors
follow in crossing P + R_OFS + 1 (R387). whole: the run goes on, so that its tail will count the reports of inputs from P on too. -/
def State.mkLatch (s : State) (p : CN) (whole : Bool) : Latch :=
  let e := s.epochOf p
  let k := s.libSlot e.slot
  { p := p, delta := s.run.delta, slot := e.slot, ep := e.epoch, meas := k.meas, frame := k.frame
    tensors := [], ctxs := s.chan.ctx, shadow := s.shadowAt p, valid := false, whole := whole, tailed := false }

/-- The channel stage would release P. -/
def State.pauseDue (s : State) : Bool :=
  decide (s.run.phase = .running) && (s.run.pauseAt.map fun p => decide (s.cn = cnAdd p s.hdr.rofs)).getD false

/-- PAUSE_START (R386): from device crossing P + R_OFS on, the channel stage releases nothing. -/
def execPauseStart (s : State) : Out :=
  match s.run.pauseAt with
  | some p =>
    if s.pauseDue then
      .next (({ s with run := { s.run with phase := .draining, pcn := p, lastP := p }
                       kly := { s.kly with pause := some (s.mkLatch p false) } }).logEvent (.pause p))
    else .next s
  | none => .next s

/-- The first crossing of the pause (R386). -/
def State.pausedFrom (s : State) : CN := cnAdd s.run.pcn (s.hdr.rofs + s.hdr.a + 1)

/-- PAUSED (R386, R387): the drain has ended. A tensor part not yet latched is taken here. -/
def execPaused (s : State) : Out :=
  if decide (s.run.phase = .draining) && cnLe s.pausedFrom s.cn then
    let full (l : Latch) : Latch := if l.tailed then l else Latch.tail s (if l.valid then l else l.take s)
    let u := { s with run := { s.run with phase := .paused, pauseAt := none, pausedAt := s.cn }
                      kly := { s.kly with pause := s.kly.pause.map full } }
    .next (u.applyDue cmdPause u.run.pcn u.cn)
  else .next s

/-! ### RESUME (R388) -/

/-- The image at the pause has another measurement or frame digest than the record's. -/
def State.resumeDiffers (s : State) : Bool :=
  match s.kly.pause with
  | some l => let k := s.libSlot s.planes.actSlot
              decide (k.meas ≠ l.meas ∨ k.frame ≠ l.frame)
  | none => true

def ownResume (s : State) (w : Waiting) : KAns :=
  let q := w.at_
  if s.run.phase ≠ .paused ∨ s.run.resumeQ ≠ none then .refuse { code := 0xA008 }
  else if (q - s.run.pcn).toNat % 32 ≠ 0 then .refuse { code := 0xB003 }
  else if (q - s.run.pausedAt).toNat < 15 ∨ (q - s.run.pausedAt).toNat ≥ 2 ^ 47 then .refuse { code := 0xB005 }
  else if s.resumeDiffers then .refuse { code := 0xB007 }
  else .now { s with run := { s.run with resumeQ := some q }, alm := { s.alm with trained := false } } 0 []

/-- A context with the carry state of a latch (04 R140, 08 R258). -/
def Ctx.restore (c l : Ctx) : Ctx :=
  { c with acc := l.acc, ages := l.ages, wgm := cwWith c.wgm (cwSeen l.wgm) (cwLf l.wgm) }

/-- The contexts of a latch restored. -/
def State.restoreCtxs (s : State) (l : Latch) : State :=
  l.ctxs.foldl (fun u p => u.setCtx p.1 ((u.ctxOf p.1).restore p.2)) s

/-- The carry state of a latch in force: tensors, contexts, the scales in the parameter sets, and the reports that the
restored maxima outlast (R388). Under a latch of a run that went on, the saturation counts of the drain tail stand as they are, for they count what the
replay reports again (R379, R387; DEDUCED, log entry 81). -/
def State.restoreLatch (s : State) (l : Latch) : State :=
  let s1 := (l.tensors.foldl State.restoreTensor s).restoreCtxs l
  ({ s1 with wgm := { s1.wgm with hold := some (l.h s1), derived := none
                                  tailTo := if l.whole then some (cnAdd (l.h s1) s1.hdr.a) else none } }).pushAllScales

/-- The effect of a resume at Q. -/
def actResume (s : State) (w : Waiting) : State :=
  match s.kly.pause with
  | none => s
  | some l =>
    let q := w.at_
    let e : EpochRec := { c := q, epoch := l.ep, slot := s.planes.actSlot }
    let s1 := { s with
      run := { s.run with phase := .running, delta := s.run.delta + (q - s.run.pcn), first := q, filling := true
                          resumed := true, resumeQ := none, fillEnd := cnAdd q (s.hdr.rofs + s.hdr.a + 1) }
      planes := { Planes.reset with actSlot := s.planes.actSlot, actEp := l.ep, swCn := s.planes.swCn, epochs := [e] }
      alm := { s.alm with pools := [] }
      kly := { s.kly with pause := none } }
    ((s1.loadArray l.ep).restoreLatch l).logEvent (.resume l.p q)

def cmdResume : KCmd :=
  { spec := { op := 0x0204, maxs := [], run := .paused, cross := fun _ => true, mir := true }, own := ownResume
    act := actResume }

/-- RESUME (R388, 15 R407). -/
def execResume (h : CmdHdr) (s : State) : Out := kSubmit cmdResume (mkReq 0x0204 h [] []) s

/-- A resume that was not ready in time: every waiting RESUME of Q becomes void, the run stays PAUSED (R388). -/
def State.voidResume (s : State) (q : CN) : State :=
  let s1 := (s.dueNow 0x0204 q).foldl (fun u w => (u.dropWaiting w.jseq).voidNotice w .void 0xB00D) s
  { s1 with run := { s1.run with resumeQ := none } }

/-! ### AUTO_RESTART (R353) -/

/-- The device acts as a solo device for faults: in solo mode, in LOST, or as a Helm without a partner (R351 to R353). -/
def State.actsSolo (s : State) : Bool := !s.pairMode || decide (s.pair.pst = 0 ∧ (s.pair.st = .lost ∨ s.pair.st = .joined))

/-- The device re-arms after a fault stop: as a solo device, AUTORST, Klowyn up, the sources recovered. -/
def State.restartDue (s : State) : Bool :=
  !s.armed && s.actsSolo && s.pair.cfg.getLsbD 24 && s.kly.up && decide (s.run.reason = .fault) && decide (s.clk.wait = []) &&
  !s.pkg.emerg && !s.pkg.trip

/-- The arming that Klowyn issues itself: the same image, level, seed and mode, at its minimum lead. -/
def State.restartReq (s : State) : KReq :=
  mkReq 0x0201 { mbx := 253, tag := 0, len := 40, acn := BitVec.ofNat 48 (s.lead 0x0201 40), at_ := true, rel := true, rsvd := false }
    [BitVec.ofNat 64 s.run.slot, BitVec.ofNat 64 s.run.pl, s.run.seed, 1, if s.run.debug then 1 else 0] []

/-- AUTO_RESTART (R353): journaled under MBX 0xFD (15 R413). -/
def execAutoRestart (s : State) : Out :=
  if s.restartDue then .next (kRun cmdArm 253 s.restartReq s) else .next s

end Sys2Proof.Machine
end

