-- ==== Sys2Proof/Machine/Almanac.lean ====
section
/-! DEFINITION. The Almanac's lookups (07_almanac_tables.md R205 to R231): keys at their declared ticks, reads of both tiers,
pooling, results, and what its decoder reports. -/

namespace Sys2Proof.Machine

/-! ### Rows (R213, R214) -/

/-- The row of masked key k in a hashed table (R213). -/
def hrow (k salt : Word) (rows : Nat) : Nat :=
  let z0 := k ^^^ salt
  let z1 := (z0 ^^^ (z0 >>> 15)) * 0x8B5A4D37#32
  let z2 := (z1 ^^^ (z1 >>> 13)) * 0xD16E2A95#32
  (z2 ^^^ (z2 >>> 16)).toNat * rows / 2 ^ 32

/-- The masked key of a token's DATA (R213). -/
def TblDesc.mask (t : TblDesc) (d : Word) : Word := BitVec.ofNat 32 (d.toNat % 2 ^ t.kw)

/-- The row a masked key reads; none beyond a direct table's rows. -/
def TblDesc.rowOf (t : TblDesc) (k : Word) : Option Nat :=
  if t.hashed then some (hrow k t.salt t.rows) else if k.toNat < t.rows then some k.toNat else none

/-- The payload of a line for key k: none where a hashed row does not hold it (R214). -/
def TblDesc.payload (t : TblDesc) (k : Word) (w : List Word) : Option (List Word) :=
  if t.hashed then
    let c := w.headD 0
    if c.getLsbD 31 && c.extractLsb' 0 31 == k.extractLsb' 0 31 && !k.getLsbD 31 then some ((w.drop 1).take t.words) else none
  else some (w.take t.words)

/-- Line of row j in a face (R210). -/
def TblDesc.faceLine (t : TblDesc) (face : Bool) (j : Nat) : Nat := (if face then t.rows + 1 else 0) + j

/-- The face that requests of input crossing c read (R236, R237): false is A. -/
def State.faceFor (s : State) (tid : Nat) (c : CN) : Bool :=
  let t := s.tab tid
  match s.alm.swaps.find? fun w => w.tid == tid with
  | some w => if cnLe w.a c = w.done then t.active else !t.active
  | none => t.active

/-! ### Reports of the decoder (R230, R231, R241) -/

/-- The first uncorrectable line of a Quay, or the lowest of those found in the same crossing. -/
def State.recordUe (s : State) (f : Found) : State :=
  let keep := match tfind s.alm.ueAt f.q with
    | none => true
    | some p => decide (p.1 = s.cn) && decide (f.ord < p.2)
  if keep then
    { s with alm := { s.alm with ueAt := tset s.alm.ueAt f.q (s.cn, f.ord), ueRec := tset s.alm.ueRec f.q f.recW
                                 ueCn := tset s.alm.ueCn f.q f.cnRd } }
  else s

/-- Marks ALMUE in the record of input crossing c (10 R318). -/
def State.flagRec (s : State) (c : CN) (b : BitVec 13) : State :=
  let upd (r : OutRec) : OutRec := if r.c = c then { r with flags := r.flags ||| b } else r
  { s with out := { s.out with recs := s.out.recs.map upd } }

/-- What one read reports, counted in the Quay that R241 names; an uncorrectable line is a fault (R231). -/
def State.report (s : State) (f : Found) : State :=
  let s1 := if f.miss then s.count (.almMiss f.q) 1 else s
  let s2 := if f.ce then (s1.count (.almCe f.q) 1).raiseBit (.alm f.q) 0 else s1
  if f.ue then
    (((((s2.recordUe f).count (.almUe f.q) 1).raiseBit (.alm f.q) 1).flagRec f.c 0x400)).fault 2 f.q
  else s2

/-- The reports of the LPDDR6 reads of the crossing before, in crossing s + 1 (R228, R231). -/
def State.reportFound (s : State) : State :=
  s.alm.found.foldl State.report { s with alm := { s.alm with found := [] } }

/-! ### Requests in flight -/

def State.pool (s : State) (r : Nat) (c : CN) : Option Pool := s.alm.pools.find? fun p => p.req == r && decide (p.c = c)

/-- The pool with one key changed, made where it does not stand. -/
def State.setKey (s : State) (r : Nat) (c : CN) (k : Nat) (x : KeySt) : State :=
  let p := (s.pool r c).getD { sent := false, req := r, c := c, keys := [] }
  let rest := s.alm.pools.filter fun q => !(q.req == r && decide (q.c = c))
  { s with alm := { s.alm with pools := rest ++ [{ p with keys := tset p.keys k x }] } }

/-- The input crossing of a request event at stream time tau that falls in crossing cn; none at other ticks or parities. -/
def ReqRec.inputOf (r : ReqRec) (n tau : Nat) (cn : CN) (tick : Nat) : Option CN :=
  let c := cnSub cn (tau / n)
  if tau % n = tick ∧ r.par.admits c then some c else none

/-! ### Keys reach the Almanac (R205, R206) -/

/-- A key's state as its token is taken: none is a missing key. -/
def keyState (t : TblDesc) (tok : Option Token) : KeySt :=
  match tok with
  | some k =>
    if k.tag = 1 then { kind := .key, key := t.mask k.data, epoch := k.epoch, read := false, row := none }
    else if k.tag = 2 then { kind := .null, key := 0, epoch := k.epoch, read := false, row := none }
    else { kind := .missing, key := 0, epoch := 0, read := false, row := none }
  | none => { kind := .missing, key := 0, epoch := 0, read := false, row := none }

/-- A missing key of a run's own input crossing is counted (R156, R206); with the Quays whose event it is. -/
def State.missKey (s : State) (e : Nat) (c : CN) : State × List Nat :=
  if cnLe s.run.first c then
    let q := edgeQuay s.placeLine (e / 1024)
    (s.count (.almNokey q) 1, [q])
  else (s, [])

/-- The array side of the Quay of an edge port is clocked (17 R462). -/
def State.portRuns (s : State) (e : Nat) : Bool := s.quayRuns (edgeQuay s.placeLine (e / 1024))

/-- The declared key k of request number i, where it is due at tick `tick` of crossing cn. Of two requests that declare a key at one port and
tick in a parity that both have, the first of the list has the token and the other a missing key (DESIGN CHOICE, log entry 99). -/
def State.takeKey (s : State) (cn : CN) (tick i k : Nat) (r : ReqRec) : State × List Nat :=
  match (if s.portRuns r.edge then r.inputOf s.hdr.n (r.tau0 + k + 3) cn tick else none), s.img.table r.tid with
  | some c, some t =>
    let isIt (e : EdgeTok) : Bool := e.port == r.edge && decide (e.cn = cn) && e.tick == tick
    let x := keyState t ((s.arr.edge.find? isIt).map EdgeTok.tok)
    let s1 := { s with arr := { s.arr with edge := s.arr.edge.filter fun e => !isIt e } }
    let s2 := s1.setKey i c k x
    if x.kind = .missing then s2.missKey r.edge c else (s2, [])
  | _, _ => (s, [])

/-- Every key that is declared for a tick; the missing ones of a Quay are one event (16 R439). -/
def State.takeKeys (s : State) (cn : CN) (tick : Nat) : State :=
  let a := s.img.almt.reqs.zipIdx.foldl (fun u r => (List.range r.1.keys.length).foldl (fun (v : State × List Nat) k =>
    let t := v.1.takeKey cn tick r.2 k r.1
    (t.1, v.2 ++ t.2)) u) (s, [])
  a.2.eraseDups.foldl (fun u q => u.raiseBit (.alm q) 2) a.1

/-- The Almanac's part of one cycle of ACLK: the tick that begins. -/
def State.almTick (s : State) : State :=
  if s.live then s.takeKeys (if s.tick = 0 then s.cn + 1 else s.cn) s.tick else s

/-! ### Reads (R216, R228) -/

/-- ALM_UEREC of a read (R241). -/
def ueWord (tid key : Nat) : LineRef → Word
  | .sram _ b _ => BitVec.ofNat 12 tid ++ BitVec.ofNat 4 key ++ (0 : BitVec 1) ++ BitVec.ofNat 5 b ++ (0 : BitVec 10)
  | .dram u r b _ => BitVec.ofNat 12 tid ++ BitVec.ofNat 4 key ++ (1 : BitVec 1) ++ BitVec.ofNat 5 b ++ BitVec.ofNat 3 (u % 8) ++
      BitVec.ofNat 1 r ++ (0 : BitVec 6)

/-- What the read of a key gives: its row, and its report. -/
def State.readKey (s : State) (t : TblDesc) (cp : CopyRec) (i k : Nat) (c : CN) (x : KeySt) (noise : BitVec 288) :
    Option (List Word) × Found :=
  let base := cp.lineRef t.lpddr 0
  let f : Found := { q := base.quay, miss := false, ce := false, ue := false, ord := t.tid * 2 ^ 17 + i * 16 + k
                     recW := ueWord t.tid k base, cnRd := s.cn, c := c }
  match t.rowOf x.key with
  | none => (none, { f with miss := true })
  | some j =>
    let r := s.readLine (cp.lineRef t.lpddr (t.faceLine (s.faceFor t.tid c) j)) noise
    match r.data with
    | none => (none, { f with ue := true })
    | some d =>
      let p := t.payload x.key (lineWords d)
      (p, { f with miss := p.isNone, ce := r.fixed })

/-- The line that a key's read corrected: its copy, face and row. -/
def State.fixOf (s : State) (t : TblDesc) (cp : CopyRec) (c : CN) (x : KeySt) : WBurst :=
  { jseq := 0, tid := t.tid, copy := (s.img.copiesOf t).findIdx fun e => e.1 == cp, face := s.faceFor t.tid c
    row := (t.rowOf x.key).getD 0, data := [] }

/-- Klowyn's log of corrected lines, by which it rewrites them (R230); the health log has no entry for them (15 R417). -/
def State.noteFix (s : State) (f : WBurst) : State :=
  if s.alm.fixes.contains f then s else { s with alm := { s.alm with fixes := s.alm.fixes ++ [f] } }

/-- The read of key k of request i for input crossing c: the key is served once (R221; a direct key at or beyond ROWS, for which no row is
read, counts as read too: DESIGN CHOICE, log entry 79), null and missing keys read nothing. -/
def State.serve (s : State) (i k : Nat) (c : CN) (t : TblDesc) (cp : CopyRec) (noise : BitVec 288) : State :=
  match (s.pool i c).bind fun p => tfind p.keys k with
  | none => s
  | some x =>
    if x.read || decide (x.kind ≠ .key) then s
    else
      let o := s.readKey t cp i k c x noise
      let s1 := s.setKey i c k { x with read := true, row := o.1 }
      let s2 := s1.count (if t.lpddr then .almDlk o.2.q else .almSlk o.2.q) 1
      let s3 := if o.2.ce then s2.noteFix (s.fixOf t cp c x) else s2
      if t.lpddr then { s3 with alm := { s3.alm with found := s3.alm.found ++ [o.2] } } else s3.report o.2

/-- The tide phase (R219). -/
def State.phase (s : State) : Nat := s.cn.toNat % 32

/-- The input crossing whose key a lookup entry serves in this crossing (R221). -/
def State.lookupInput (s : State) (r : ReqRec) (w : Word) : CN :=
  cnSub s.cn (tideDelta w + (r.tau0 + tideKey w + 3) / s.hdr.n)

/-- The activations that R222 still looks at: those of this crossing and the two before. -/
def State.addAct (s : State) (a : Act) : State :=
  { s with alm := { s.alm with acts := (s.alm.acts.filter fun b => cnWithin b.cn s.cn 2) ++ [a] } }

/-- The slots of a subchannel in this cycle: the tide runs, and the engine and the LPDDR6 interface of its Quay are clocked (R219, 17 R462). -/
def State.slotsRun (s : State) (sub : Nat) : Bool := s.live && s.alm.tideOn && s.quayRuns (sub / 8) && s.qmemRuns (sub / 8)

/-- ALMANAC_LOOKUP_SLOT (R228): the lookup slot of a subchannel at a position of this crossing. -/
def execAlmanacLookupSlot (sub pos : Nat) (noise : BitVec 288) (s : State) : Out :=
  if sub ≥ 32 ∨ pos ≥ 8 then .fault .noSuchUnit
  else
    let w := s.img.tideAt sub s.phase pos
    if !s.slotsRun sub || tideClass w != 0 then .next s
    else match s.img.almt.reqs[tideReq w]? with
      | none => .next s
      | some r =>
        let rank := pos % 2
        let cp? := (s.img.table r.tid).bind fun t =>
          ((s.img.copiesOf t).find? fun c => c.1.bank == tideBank w && (c.1.place.extractLsb' 0 5).toNat == sub &&
            c.1.place.getLsbD 5 == decide (rank = 1)).map fun c => (t, c.1)
        match cp? with
        | none => .next s
        | some p => .next (s.serve (tideReq w) (tideKey w) (s.lookupInput r w) p.1 p.2 noise)

/-- SRAM_READ (R216): the read of key `key` of request `req` at its tick. -/
def execSramRead (req key : Nat) (noise : BitVec 288) (s : State) : Out :=
  if req ≥ 8192 ∨ key ≥ 16 then .fault .noSuchUnit
  else if !s.live then .next s
  else match s.img.almt.reqs[req]? with
    | none => .next s
    | some r =>
      match s.img.table r.tid, r.keys[key]? with
      | some t, some sp =>
        match s.img.almt.copies[(sp.extractLsb' 0 16).toNat]?, r.inputOf s.hdr.n (r.tau0 + key + keyRead sp) s.cn s.tick with
        | some cp, some c => if t.lpddr || !s.quayRuns (cp.lineRef false 0).quay then .next s else .next (s.serve req key c t cp noise)
        | _, _ => .next s
      | _, _ => .next s

/-! ### Results (R207, R215) -/

/-- Bits of a lane of ELEM, and of an output lane. -/
def TblDesc.elemBits (t : TblDesc) : Nat := match t.elem with | 0 => 8 | 1 => 16 | _ => 32
def TblDesc.outBits (t : TblDesc) : Nat := if t.widen then 2 * t.elemBits else t.elemBits

/-- The lanes of a payload (R215). -/
def TblDesc.lanes (t : TblDesc) (row : List Word) : List Int :=
  row.flatMap fun w => (List.range (32 / t.elemBits)).map (lane w t.elemBits)

/-- Output lanes packed at the output width, each saturated once. -/
def TblDesc.pack (t : TblDesc) (l : List Int) : List Word :=
  (List.range t.rw).map fun i => packLanes t.outBits (((l.drop (i * (32 / t.outBits))).take (32 / t.outBits)).map (satTo t.outBits))

/-- The sum or maximum of two rows' lanes. -/
def TblDesc.join (t : TblDesc) (x y : List Int) : List Int :=
  (x.zip y).map fun p => if t.pool = 2 then max p.1 p.2 else p.1 + p.2

/-- The pooled lanes of the rows that contribute; none where none does. -/
def TblDesc.poolRows (t : TblDesc) : List (List Word) → Option (List Int)
  | [] => none
  | r :: rs => some (rs.foldl (fun a x => t.join a (t.lanes x)) (t.lanes r))

/-- The default row of the face that input crossing c reads (R215). -/
def State.defaultRow (s : State) (t : TblDesc) (c : CN) : List Word :=
  match s.img.copiesOf t with
  | [] => List.replicate t.words 0
  | cp :: _ =>
    let w := lineWords (s.lineData (cp.1.lineRef t.lpddr (t.faceLine (s.faceFor t.tid c) t.rows)))
    if t.hashed then (w.drop 1).take t.words else w.take t.words

/-- Words, tag and epoch of a result (R207, R215). -/
def State.result (s : State) (t : TblDesc) (nkey : Nat) (p : Pool) : List Token :=
  let rows := (List.range nkey).filterMap fun k => (tfind p.keys k).bind KeySt.row
  let words := t.pack ((t.poolRows rows).getD (t.lanes (s.defaultRow t p.c)))
  let ep := match tfind p.keys 0 with
    | some x => if x.kind = .missing then (s.epochOf p.c).epoch else x.epoch
    | none => (s.epochOf p.c).epoch
  words.map fun w => { tag := if rows = [] then 2 else 1, epoch := ep, data := w }

/-- The result words driven inward, word i after i ticks. -/
def State.sendResult (s : State) (e : Nat) (l : List Token) : State :=
  l.zipIdx.foldl (fun u t => u.driveEdge e t.2 t.1) s

/-- ALMANAC_RESULT (R207, R228): the result of a request at its drive tick, three ticks before it heads the queue. -/
def execAlmanacResult (req : Nat) (s : State) : Out :=
  if req ≥ 8192 then .fault .noSuchUnit
  else if !s.live then .next s
  else match s.img.almt.reqs[req]? with
    | none => .next s
    | some r =>
      match s.img.table r.tid with
      | none => .next s
      | some t =>
        match (if s.portRuns r.edge then r.inputOf s.hdr.n (r.tau0 + t.d * s.hdr.n - 3) s.cn s.tick else none) with
        | none => .next s
        | some c =>
          let p := (s.pool req c).getD { sent := false, req := req, c := c, keys := [] }
          if p.sent then .next s
          else
            let rest := s.alm.pools.filter fun q => !(q.req == req && decide (q.c = c))
            let s1 := { s with alm := { s.alm with pools := rest ++ [{ p with sent := true }] } }
            .next (s1.sendResult r.edge (s.result t r.keys.length p))

/-- Pools whose results have left are dropped as a crossing begins. -/
def State.prunePools (s : State) : State :=
  { s with alm := { s.alm with pools := s.alm.pools.filter fun p => !p.sent } }

end Sys2Proof.Machine
end

