-- ==== Sys2Proof/Machine/Tables.lean ====
section
/-! DEFINITION. Table contents (07_almanac_tables.md R224 to R239): TLOAD and TABLE_LOAD_COMPLETE, TWRITE and
TABLE_WRITE_COMPLETE, TSWAP, SWAP_EFFECT and CATCH_UP; the write-class, refresh and retraining slots of the tide table. -/

namespace Sys2Proof.Machine

/-! ### TLOAD (R235) -/

/-- The descriptor and copies of a table of the latest admitted image (DESIGN CHOICE, log entry 28). -/
def State.loadDesc (s : State) (tid : Nat) : Option (TblDesc × List CopyRec) :=
  let i := s.imgAt s.alm.tabSlot
  (i.table tid).map fun t => (t, (i.copiesOf t).map Prod.fst)

/-- The faces an operand names: false is A. -/
def facesOf (f : Nat) : List Bool := (if f.testBit 0 then [false] else []) ++ (if f.testBit 1 then [true] else [])

/-- Bytes staged for a load: the lines of each named face in order, face A first (DESIGN CHOICE, log entry 28). -/
def loadLen (t : TblDesc) (f : Nat) : Nat := (facesOf f).length * (t.rows + 1) * 32

def ownTload (s : State) (w : Waiting) : KAns :=
  let f := (w.req.opd 1).toNat
  let off := w.staged (w.req.opd 2).toNat
  let len := (w.req.opd 3).toNat
  match s.loadDesc (w.req.opd 0).toNat with
  | none => .refuse { code := 0xB003, item := 0, found := (w.req.opd 0).toNat }
  | some d =>
    if f.testBit 1 ∧ d.1.faces = 1 then .refuse { code := 0xB003, item := 1, found := f }
    else if off + len > 2 ^ 38 then .refuse { code := 0xB003, item := 2 }
    else if len ≠ loadLen d.1 f then .refuse { code := 0xB003, item := 3, expect := loadLen d.1 f, found := len }
    else .long s

def cmdTload : KCmd :=
  { spec := { op := 0x0401, maxs := [4095, 3, 2 ^ 38 - 1, 2 ^ 38 - 1], mins := [0, 1], zero := [3], run := .no, mir := true }
    own := ownTload, act := noAct }

/-- TLOAD (R235, 15 R407). -/
def execTload (h : CmdHdr) (tid faces offset length : Dword) (s : State) : Out :=
  kSubmit cmdTload (mkReq 0x0401 h [tid, faces, offset, length] []) s

/-- One face written into every copy from staged bytes. -/
def State.loadFace (s : State) (d : TblDesc × List CopyRec) (face : Bool) (src : Nat) : State :=
  (List.range (d.1.rows + 1)).foldl (fun u j =>
    let line := tgets 0 s.mem (src + 32 * j) 32
    d.2.foldl (fun v c => v.writeLine (c.lineRef d.1.lpddr (d.1.faceLine face j)) line) u) s

/-- Two copies lie over each other. -/
def copiesMeet (a b : TblDesc × List CopyRec) : Bool :=
  a.2.any fun c => b.2.any fun e => c.bankKey a.1.lpddr == e.bankKey b.1.lpddr &&
    decide (c.base < e.base + b.1.lines ∧ e.base < c.base + a.1.lines)

/-- A table whose lines another load has overwritten is no longer loaded. -/
def AlmTab.unload (t : AlmTab) (d : TblDesc × List CopyRec) : AlmTab :=
  match t.desc with
  | some e => if copiesMeet d e then { t with loaded := 0 } else t
  | none => t

/-- The end of a load. -/
def State.loadTable (s : State) (tid f off : Nat) (d : TblDesc × List CopyRec) : State :=
  let s1 := (facesOf f).zipIdx.foldl (fun u b => u.loadFace d b.1 (off + b.2 * (d.1.rows + 1) * 32)) s
  let s2 := { s1 with alm := { s1.alm with tabs := s1.alm.tabs.map fun (p : Nat × AlmTab) => (p.1, if p.1 = tid then p.2 else p.2.unload d) } }
  let t := s2.tab tid
  let had : BitVec 2 := if t.desc = some d then t.loaded else 0
  s2.setTab tid { t with desc := some d, loaded := had ||| BitVec.ofNat 2 f, upd := [] }

/-- The oldest long command with an opcode whose first operand is k. -/
def State.longFor (s : State) (op k : Nat) : Option Waiting :=
  s.kly.longs.find? fun w => w.req.op.toNat == op && (w.req.opd 0).toNat == k

/-- The LPDDR6 interfaces of every copy of a table are clocked (17 R462). -/
def State.copiesRun (s : State) (d : TblDesc × List CopyRec) : Bool :=
  !d.1.lpddr || d.2.all fun c => s.qmemRuns (c.lineRef true 0).quay

/-- TABLE_LOAD_COMPLETE (R235). A load waits for the interfaces that it writes through. -/
def execTableLoadComplete (tid : Nat) (s : State) : Out :=
  if tid ≥ 4096 then .fault .noSuchUnit
  else match s.longFor 0x0401 tid with
    | none => .next s
    | some w =>
      match s.loadDesc tid with
      | none => .next ((s.dropLong w).abortLong w { code := 0xB00D })
      | some d =>
        if !s.copiesRun d then .next s
        else .next (((s.loadTable tid (w.req.opd 1).toNat (w.staged (w.req.opd 2).toNat) d).dropLong w).endLong w 0 [])

/-! ### TWRITE (R225, R236) -/

/-- A staged row from LPDDR6 address a: index, face select, line (15 R407). -/
def stagedRow (s : State) (a i : Nat) : Nat × Nat × List Byte :=
  let b := tgets 0 s.mem (a + 48 * i) 48
  (leAt b 0 8, leAt b 8 1, b.drop 16)

/-- The face that writes name: the inactive one, after a swap in flight (DEDUCED, log entry 29). -/
def State.idleFace (s : State) (tid : Nat) : Bool :=
  let t := s.tab tid
  match s.alm.swaps.find? fun w => w.tid == tid with
  | some w => if w.done then !t.active else t.active
  | none => !t.active

/-- A swap of the table is in flight. -/
def State.swapping (s : State) (tid : Nat) : Bool := s.alm.swaps.any fun w => w.tid == tid

def ownTwrite (s : State) (w : Waiting) : KAns :=
  let tid := (w.req.opd 0).toNat
  let off := w.staged (w.req.opd 1).toNat
  let n := (w.req.opd 2).toNat
  match s.img.table tid with
  | none => .refuse { code := 0xB003, item := 0, found := tid }
  | some t =>
    if t.faces = 1 then .refuse { code := 0xB007, item := tid }
    else if off + 48 * n > 2 ^ 38 then .refuse { code := 0xB003, item := 1 }
    else
      let rows := (List.range n).map (stagedRow s off)
      let face := s.idleFace tid
      match rows.findIdx? fun r => decide (r.1 > t.rows ∨ r.2.1 ≠ if face then 1 else 0) with
      | some k =>
        let r := rows.getD k (0, 0, [])
        .refuse { code := 0xB003, item := k, found := if r.1 > t.rows then r.1 else r.2.1 }
      | none =>
        let upd := rows.map fun r => (r.1, r.2.2)
        let tb := s.tab tid
        let s1 := { s with alm := { s.alm with writes := s.alm.writes ++ tb.bursts w.jseq tid face upd } }
        .long (if s.swapping tid then s1 else s1.setTab tid { tb with upd := tb.upd ++ upd })

def cmdTwrite : KCmd :=
  { spec := { op := 0x0402, maxs := [4095, 2 ^ 38 - 1, 2 ^ 38 - 1], zero := [2], run := .yes, mir := true }
    own := ownTwrite, act := noAct }

/-- TWRITE (R236, 15 R407). -/
def execTwrite (h : CmdHdr) (tid offset nrows : Dword) (s : State) : Out :=
  kSubmit cmdTwrite (mkReq 0x0402 h [tid, offset, nrows] []) s

/-- A table's writes wait: for a fill (R186) or behind a swap and its catch-up (R238). -/
def State.writeWaits (s : State) (tid : Nat) : Bool :=
  (s.live && decide (s.planes.sh = .filling)) || s.swapping tid || s.alm.catchUp.any fun b => b.tid == tid

/-- TABLE_WRITE_COMPLETE (R225): the oldest TWRITE of a table whose last burst is written. Rows of the SRAM tier go through
its write ports here; outside a run every burst is written at full memory rate (R239). -/
def execTableWriteComplete (tid : Nat) (s : State) : Out :=
  if tid ≥ 4096 then .fault .noSuchUnit
  else match s.longFor 0x0402 tid with
    | none => .next s
    | some w =>
      let mine := s.alm.writes.filter fun b => b.jseq == w.jseq
      if s.live && (s.writeWaits tid || ((s.tab tid).lpddr && mine != [])) then .next s
      else
        let s1 := mine.foldl State.writeBurst { s with alm := { s.alm with writes := s.alm.writes.filter fun b => b.jseq != w.jseq } }
        .next ((s1.dropLong w).endLong w 0 [])

/-! ### TSWAP (R237 to R239) -/

/-- The checks of TSWAP. A table with one face has nothing to swap to, refused as its writes are (R236); a swap whose span meets an accepted pause
is refused as one in flight is (R239) (DESIGN CHOICE, log entry 100). -/
def ownTswap (s : State) (w : Waiting) : KAns :=
  let tid := (w.req.opd 0).toNat
  let paused := (s.run.pauseAt.map fun p => cnWithin w.at_ p (s.hdr.rofs + s.hdr.a + 16)).getD false
  match s.img.table tid with
  | none => .refuse { code := 0xB003, item := 0, found := tid }
  | some t =>
    if t.faces = 1 then .refuse { code := 0xB007, item := tid }
    else if s.transferring then .refuse { code := 0xA008, item := tid }
    else if s.swapping tid || (s.alm.writes ++ s.alm.catchUp).any (fun b => b.tid == tid) || paused then
      .refuse { code := 0xB00B, item := tid }
    else .now { s with alm := { s.alm with swaps := s.alm.swaps ++ [{ tid := tid, a := w.at_, jseq := w.jseq, done := false }] } } 0 []

/-- The swap in force: the face changes, every Quay records it and sets SWAP (R237). -/
def actTswap (s : State) (w : Waiting) : State :=
  let tid := (w.req.opd 0).toNat
  let t := s.tab tid
  let mark (x : Swap) : Swap := if x.tid = tid then { x with done := true } else x
  let s1 := s.setTab tid { t with active := !t.active }
  let s2 := { s1 with alm := { s1.alm with swaps := s1.alm.swaps.map mark
                                           swapReg := (0 : BitVec 4) ++ BitVec.ofNat 12 tid ++ w.at_ } }
  (List.range 4).foldl (fun u q => u.raiseBit (.alm q) 5) s2

def cmdTswap : KCmd :=
  { spec := { op := 0x0403, maxs := [4095], run := .yes, cross := fun _ => true, mir := true }, own := ownTswap, act := actTswap }

/-- TSWAP (R237, 15 R407). -/
def execTswap (h : CmdHdr) (tid : Dword) (s : State) : Out := kSubmit cmdTswap (mkReq 0x0403 h [tid] []) s

/-- The accepted swap of a table whose crossing a + R_OFS + 1 this is. -/
def State.swapDue (s : State) (tid : Nat) : Option Waiting :=
  (s.alm.swaps.find? fun x => x.tid == tid && !x.done && decide (s.cn = cnAdd x.a (s.hdr.rofs + 1))).bind fun x =>
    s.kly.waiting.find? fun w => w.jseq == x.jseq

/-- SWAP_EFFECT (R237): its notice carries a (15 R410). -/
def execSwapEffect (tid : Nat) (s : State) : Out :=
  if tid ≥ 4096 then .fault .noSuchUnit
  else if !s.live then .next s
  else match s.swapDue tid with
    | some w => .next ((actTswap (s.dropWaiting w.jseq) w).effectNotice w w.at_)
    | none => .next s

/-- CATCH_UP (R238): the swap's flight has ended. -/
def execCatchUp (tid : Nat) (s : State) : Out :=
  if tid ≥ 4096 then .fault .noSuchUnit
  else
    let due := s.alm.swaps.any fun x => x.tid == tid && x.done && cnLt (cnAdd x.a (s.hdr.rofs + s.hdr.a + 16)) s.cn
    if s.live && due then .next (s.queueCatchUp tid) else .next s

/-! ### Write-class slots (R222 to R225) -/

/-- Slots between two positions of nearby crossings, b after a; none where b lies before a. -/
def slotGap (ca : CN) (pa : Nat) (cb : CN) (pb : Nat) : Option Nat :=
  let d := (cb - ca).toNat
  if d ≤ 4 ∧ pa ≤ 11 * d + pb then some (11 * d + pb - pa) else none

/-- The lookups of one rank in a crossing as (bank, position). -/
def Image.rankLookups (i : Image) (sub rank : Nat) (cn : CN) : List (Nat × Nat) :=
  (List.range 8).filterMap fun p =>
    let w := i.tideAt sub (cn.toNat % 32) p
    if p % 2 = rank ∧ tideClass w = 0 then some (tideBank w, p) else Option.none

/-- A bank (rank × 16 + bank) keeps the limits of R222 in this slot against every lookup and every earlier burst, and leaves
its rank with at most 6 activations in the crossing (R224). -/
def State.bankFree (s : State) (sub rb pos : Nat) : Bool :=
  let rank := rb / 16
  let bank := rb % 16
  let near := [cnSub s.cn 2, cnSub s.cn 1, s.cn, s.cn + 1, cnAdd s.cn 2]
  let clash := near.any fun c => (s.img.rankLookups sub rank c).any fun l => l.1 == bank &&
    (match slotGap c l.2 s.cn pos, slotGap s.cn pos c l.2 with
     | some g, _ => decide (g < 22)
     | none, some g => decide (g < 22)
     | none, none => false)
  let mine := s.alm.acts.filter fun a => a.sub == sub
  let recent := mine.any fun a => a.bank == rb && ((slotGap a.cn a.pos s.cn pos).map fun g => decide (g < 22)).getD false
  let rf := 2 * bank + rank
  let refresh := decide (s.phase = rf ∨ s.phase = (rf + 1) % 32)
  let used := (s.img.rankLookups sub rank s.cn).length + (mine.filter fun a => decide (a.cn = s.cn) && a.bank / 16 == rank).length
  !clash && !recent && !refresh && decide (used + 1 ≤ 6)

/-- The bank of a burst on a subchannel, where the burst lies there. -/
def State.burstBank (s : State) (sub : Nat) (b : WBurst) : Option Nat :=
  match s.burstRef b with
  | some (.dram u r k _) => if u = sub then some (r * 16 + k) else none
  | _ => none

/-- The oldest burst of a list that this slot can carry. -/
def State.pickBurst (s : State) (sub pos : Nat) (l : List WBurst) : Option (WBurst × Nat) :=
  l.findSome? fun b => (s.burstBank sub b).bind fun rb => if s.bankFree sub rb pos then some (b, rb) else none

/-- The slot carries a table-write burst, or else a catch-up burst (R224). -/
def State.slotBurst (s : State) (sub pos : Nat) : State :=
  let act (rb : Nat) : Act := { sub := sub, bank := rb, cn := s.cn, pos := pos }
  match s.pickBurst sub pos (s.alm.writes.filter fun b => !s.writeWaits b.tid) with
  | some (b, rb) => ({ s.writeBurst b with alm := { s.alm with writes := s.alm.writes.erase b } }).addAct (act rb)
  | none =>
    match s.pickBurst sub pos s.alm.catchUp with
    | some (b, rb) => ({ s.writeBurst b with alm := { s.alm with catchUp := s.alm.catchUp.erase b } }).addAct (act rb)
    | none => s

/-- A fill burst of 32 bytes (R186), from the lowest usable bank, image data lying in every bank (R224); with none usable the slot carries
nothing (DESIGN CHOICE, log entry 78). -/
def State.fillBurst (s : State) (sub pos : Nat) : State :=
  match (List.range 32).find? fun rb => s.bankFree sub rb pos with
  | some rb => ({ s with planes := { s.planes with fillPos := min (s.planes.fillPos + 32) s.fillBytes } }).addAct
      { sub := sub, bank := rb, cn := s.cn, pos := pos }
  | none => s

/-- WRITE_CLASS_SLOT (R224): position 8 or 9 of a subchannel. An unmarked slot carries, in this order, a fill burst of 32
bytes (R186), the oldest table write it can, the oldest catch-up. -/
def execWriteClassSlot (sub pos : Nat) (s : State) : Out :=
  if sub ≥ 32 ∨ (pos ≠ 8 ∧ pos ≠ 9) then .fault .noSuchUnit
  else if !s.slotsRun sub || tideClass (s.img.tideAt sub s.phase pos) != 2 then .next s
  else if s.planes.sh = .filling then .next (s.fillBurst sub pos)
  else .next (s.slotBurst sub pos)

/-- The line of address a belongs to the active face of a copy of the armed image's tables (16 R432). -/
def State.activeFace (s : State) (a : Nat) : Bool :=
  s.armed && s.img.almt.tables.any fun t =>
    t.lpddr && (s.img.copiesOf t).any fun c =>
      (List.range (t.rows + 1)).any fun j => decide (c.1.lineRef true (t.faceLine (s.tab t.tid).active j) = lineOf a)

/-- The line keeps host writes out (16 R432). -/
def State.wprot (s : State) (a : Nat) : Bool := s.inLibrary a || s.activeFace a

/-- The bank (rank × 16 + bank) of a host burst on a subchannel, where its line lies there (16 R429). -/
def HostBurst.bank (b : HostBurst) (sub : Nat) : Option Nat :=
  if b.addr / 32 % 32 = sub then some (b.addr / 1024 % 2 * 16 + b.addr / 2048 % 16) else none

/-- The refresh slot's data beats: the oldest host burst of the subchannel whose bank keeps the limits (R224). -/
def State.hostSlot (s : State) (sub : Nat) : State :=
  match s.alm.hostQ.findSome? fun b => (b.bank sub).bind fun rb => if s.bankFree sub rb 10 then some (b, rb) else none with
  | some (b, rb) => (s.carryBurst b (s.wprot b.addr)).addAct { sub := sub, bank := rb, cn := s.cn, pos := 10 }
  | none => s

/-! ### The staged frames of a stream replay (14 R391, R394) -/

/-- Bytes of one lane's staged packet. -/
def stagedLen (i : Image) (l : Nat) : Nat := 8 * (1 + (i.laneAt l).blk)

/-- Bytes of the staged packets of lanes. -/
def stagedLens (i : Image) (ls : List Nat) : Nat := (ls.map (stagedLen i)).sum

/-- The LPDDR6 address of the staged packets of lane crossing x: the recorded lanes of each crossing in turn, crossing by crossing from P0 - 15
(DESIGN CHOICE, log entry 43). -/
def State.stagedAt (s : State) (i : Image) (ofs : Nat) (x : CN) : Nat :=
  ofs + (x - cnSub s.log.p0 15).toNat * stagedLens i (recLanes s.log.lanes)

/-- The frame of a staged packet at address a, where its first block is that of lane l and crossing x (14 R391). -/
def State.stagedFrame (s : State) (i : Image) (a l : Nat) (x : CN) : Option (BitVec 1472) :=
  let b := tgets 0 s.mem a (stagedLen i l)
  let head : Dword := BitVec.ofNat 64 (leAt b 0 8)
  if head.extractLsb' 0 48 = x ∧ head.extractLsb' 51 7 = BitVec.ofNat 6 l ++ (1 : BitVec 1) then
    some (BitVec.ofNat 1472 (leNat (b.drop 8)))
  else none

/-- The staged frame of lane l and crossing x of the recording whose packets stand from address ofs on. -/
def State.stagedOf (s : State) (i : Image) (ofs l : Nat) (x : CN) : Option (BitVec 1472) :=
  s.stagedFrame i (s.stagedAt i ofs x + stagedLens i ((recLanes s.log.lanes).filter fun k => decide (k < l))) l x

/-- The refresh slot's data beats carry a read of the replay, ahead of BAR4 traffic (14 R394): a line of the packets that the elastic release takes
in the next crossing lies in the subchannel (DESIGN CHOICE, log entry 43). -/
def State.replaySlot (s : State) (sub : Nat) : Bool :=
  let a := s.stagedAt s.img s.log.stage (s.cn + 1 - BitVec.ofNat 48 s.hdr.rofs - s.run.rshift)
  let last := a + stagedLens s.img (recLanes s.log.lanes) - 1
  s.run.replay && s.log.mode == 2 && decide ((sub + 32 - a / 32 % 32) % 32 ≤ last / 32 - a / 32)

/-- REFRESH_SLOT (R223, R224): the bank that the phase names is refreshed, and the data beats carry a read of a stream replay or a host
burst. -/
def execRefreshSlot (sub : Nat) (s : State) : Out :=
  if sub ≥ 32 then .fault .noSuchUnit
  else if !s.slotsRun sub then .next s
  else
    let s1 := { s with alm := { s.alm with refresh := tset s.alm.refresh sub (s.phase % 2 * 16 + s.phase / 2) } }
    .next (if s1.replaySlot sub then s1 else s1.hostSlot sub)

/-! ### Retraining (R233, R234) -/

/-- A margin register after a measurement: width, height, and the smallest of each since arming (R241). -/
def marginNext (old : Option Word) (width height : BitVec 8) : Word :=
  let least (a b : BitVec 8) : BitVec 8 := if b.toNat < a.toNat then b else a
  match old with
  | none => width ++ height ++ width ++ height
  | some w => width ++ height ++ least (w.extractLsb' 8 8) width ++ least (w.extractLsb' 0 8) height

/-- A measurement lies below a limit; a limit of zero is disabled. -/
def belowLimit (v lim : BitVec 8) : Bool := decide (lim ≠ 0) && decide (v.toNat < lim.toNat)

/-- The measurement of a rank (R234): margin, warning, and the fault of a second hard one in a row. -/
def State.measureMargin (s : State) (q i : Nat) (width height : BitVec 8) : State :=
  let key := q * 16 + i
  let lim := tget 0x241A281C s.alm.mlimit q
  let warn := belowLimit width (lim.extractLsb' 24 8) || belowLimit height (lim.extractLsb' 8 8)
  let hard := belowLimit width (lim.extractLsb' 16 8) || belowLimit height (lim.extractLsb' 0 8)
  let m := marginNext (tfind s.alm.margin key) width height
  let streak := if hard then tget 0 s.alm.streak key + 1 else 0
  let regs := leBytes 4 m.toNat
  let s1 := { s with alm := { s.alm with margin := tset s.alm.margin key m, streak := tset s.alm.streak key streak } }
  let ev : Word := (if warn then 8 else 0) ||| (if streak ≥ 2 then 16 else 0)
  let s2 := s1.raise (.alm q) ev
  let s3 := if warn then s2.healthAdd 1 key regs else s2
  if streak ≥ 2 then (s3.healthAdd 1 key regs).fault 2 key else s3

/-- RETRAINING_STEP (R233): a marked slot measures one rank of its subchannel, alternating ranks. The delay step moves no
slot and no tick. -/
def execRetrainingStep (sub pos : Nat) (width height : BitVec 8) (s : State) : Out :=
  if sub ≥ 32 ∨ (pos ≠ 8 ∧ pos ≠ 9) then .fault .noSuchUnit
  else if !s.slotsRun sub || tideClass (s.img.tideAt sub s.phase pos) != 3 then .next s
  else
    let rank := tget 0 s.alm.trainRk sub
    let s1 := s.measureMargin (sub / 8) (sub % 8 * 2 + rank) width height
    .next { s1 with alm := { s1.alm with trainRk := tset s1.alm.trainRk sub (1 - rank) } }

end Sys2Proof.Machine
end

