-- ==== Sys2Proof/Machine/Channels.lean ====
section
/-! DEFINITION. The channel stage (08_input_channels_and_capture.md R243 to R259, R270 to R275): samples, words, tokens, hit
bits, mask tests, averaging, Beacons, the frames of the wake buffer; context commits, envelope loads and their services. -/

namespace Sys2Proof.Machine

/-! ### Samples (R245, R250 to R252) -/

/-- A payload of which nothing was delivered. -/
def Payload.none : Payload := { data := 0, lost := BitVec.allOnes 1472 }

/-- The payload of a lane crossing in the ring; wholly lost where the ring does not hold it (R250). -/
def State.ringAt (s : State) (lane : Nat) (x : CN) : Payload :=
  (((tget [] s.chan.ring lane).find? fun e => decide (e.x = x)).map RingEnt.pay).getD Payload.none

/-- A field of w bits read as a sample. -/
def sampleVal (raw w : Nat) (sgn : Bool) : Int := if sgn ∧ raw ≥ 2 ^ (w - 1) then (raw : Int) - 2 ^ w else raw

/-- The payload bits of a sample as a number (R245). -/
def payBits (p : BitVec 1472) (ofs w : Nat) : Nat := p.toNat / 2 ^ ofs % 2 ^ w

/-- The sample of an entry's lane crossing, and whether it is substituted by FILL (R251, R252). -/
def sampleOf (e : CmapEnt) (c : Ctx) (p : Payload) : Int × Bool :=
  if payBits p.lost e.bofs e.bw ≠ 0 then (sampleVal (c.fill.toNat % 2 ^ e.bw) e.bw e.sgn, true)
  else (sampleVal (payBits p.data e.bofs e.bw) e.bw e.sgn, false)

/-- PED as it enters d (R248). -/
def Ctx.ped (c : Ctx) (sgn : Bool) : Int := sampleVal (c.cal.extractLsb' 0 16).toNat 16 sgn

/-- v of R251. -/
def Ctx.gain (c : Ctx) (d : Int) : Int := rqRound (if c.grnd then 1 else 0) (d * c.gm) c.gs 0

/-- The level in force (R248, 04 R139). -/
def Ctx.level (c : Ctx) : Nat := if c.fixed then cwLdef c.wgm else cwLf c.wgm

/-- The word of a context at its level in force, and its saturation flag (R251, 04 R135, R138). A level outside 1 to 32, which
no enabled context has (R256), is taken as 32. -/
def Ctx.requant (c : Ctx) (width : BitVec 2) (v : Int) : Int × Bool :=
  let w := widthBits width
  let p := scaleOf (levelRange (if c.level = 0 then 32 else c.level)) (max 1 (targetOf w (cwHead c.wgm)))
  requantise (if cwRnd c.wgm then 1 else 0) w v p.1.toInt p.2.toNat 0

/-! ### Averaging (R275) -/

/-- AVGACC with one more sample. -/
def avgAdd (acc : Dword) (s : Int) (sub : Bool) : Dword :=
  let nsub := (acc.extractLsb' 57 7).toNat
  BitVec.ofNat 7 (min (if sub then nsub + 1 else nsub) 127) ++ (acc.extractLsb' 40 17 + 1) ++
    (acc.extractLsb' 0 40 + BitVec.ofInt 40 s)

/-- The block of a context is full. -/
def Ctx.avgFull (c : Ctx) : Bool := decide ((c.acc.extractLsb' 40 17).toNat = 2 ^ c.avgk)

/-- The end of a block: AVGDONE takes SUM and NSUB and counts the block, AVGACC clears. -/
def Ctx.avgEnd (c : Ctx) : Ctx :=
  { c with done := c.acc.extractLsb' 57 7 ++ (c.done.extractLsb' 40 17 + 1) ++ c.acc.extractLsb' 0 40, acc := 0 }

/-- AVERAGING_BLOCK_COMPLETE (R275). -/
def execAveragingBlockComplete (ctx : Nat) (s : State) : Out :=
  if ctx ≥ 65536 then .fault .noSuchUnit
  else if s.chan.avgDue.contains ctx then
    let s1 := s.setCtx ctx (s.ctxOf ctx).avgEnd
    .next ({ s1 with chan := { s1.chan with avgDue := s1.chan.avgDue.filter (· ≠ ctx) } }.count .capAvg 1)
  else .next s

/-! ### One context in the channel stage (R251 to R253, R270, R273) -/

/-- What the stage gathers over the contexts of one input crossing. -/
structure StageAcc where
  s     : State
  words : List (CmapEnt × Int)
  hits  : List Nat
  viol  : List (Nat × Bool)
  sats  : List Nat
  subst : Bool

/-- Mask tests run (CAP_CFG.MTEN). -/
def State.mten (s : State) : Bool := s.cap.cfg.getLsbD 28

/-- The violation of an enabled context's v against its envelope: false below MIN, true above MAX (R273). -/
def State.maskSide (s : State) (x : Nat) (c : Ctx) (v : Int) (sub : Bool) : Option Bool :=
  let e := s.envOf x c
  if !(s.mten && c.mask && !sub) then none
  else if v < e.1.toInt then some false
  else if v > e.2.toInt then some true
  else none

/-- One enabled context: its word, hit, mask test, averaging and level. -/
def stageEnabled (cc : CN) (a : StageAcc) (e : CmapEnt) (c : Ctx) : StageAcc :=
  let x := sampleOf e c (a.s.ringAt e.laneIx (cnSub cc c.cross))
  let d := x.1 - c.ped e.sgn
  let v := c.gain d
  let w := c.requant e.width v
  let c1 := if c.avg then { c with acc := avgAdd c.acc x.1 x.2 } else c
  let s1 := if c.avg then a.s.setCtx e.ctx c1 else a.s
  let due := if c.avg && c1.avgFull then s1.chan.avgDue ++ [e.ctx] else s1.chan.avgDue
  let s2 := { s1 with chan := { s1.chan with avgDue := due, levels := s1.chan.levels ++ [(e.ctx, bitlen v.natAbs, w.2)] } }
  let s3 := if x.2 then s2.count .capFill 1 else s2
  { s := s3.histoTake (2 ^ 16 + e.ctx) v.natAbs
    words := a.words ++ [(e, w.1)]
    hits := if c.hthr ≠ 0 ∧ d.natAbs ≥ c.hthr then a.hits ++ [e.ctx] else a.hits
    viol := a.viol ++ ((a.s.maskSide e.ctx c v x.2).map fun b => (e.ctx, b)).toList
    sats := if w.2 then a.sats ++ [e.ctx] else a.sats
    subst := a.subst || x.2 }

/-- One mapped context: a disabled one gives word 0 and level 0 (R253). -/
def stageCtx (cc : CN) (a : StageAcc) (e : CmapEnt) : StageAcc :=
  let c := a.s.ctxOf e.ctx
  if c.en then stageEnabled cc a e c
  else { a with s := { a.s with chan := { a.s.chan with levels := a.s.chan.levels ++ [(e.ctx, 0, false)] } }
                words := a.words ++ [(e, 0)] }

/-! ### Tokens and digest part (R246, 14 R383) -/

/-- The DATA of the token that a group of entries forms. -/
def tokenData (l : List (CmapEnt × Int)) : Word :=
  l.foldl (fun w p => w ||| BitVec.ofNat 32 ((BitVec.ofInt (widthBits p.1.width) p.2).toNat <<< (p.1.slot * widthBits p.1.width))) 0

/-- The tokens of a crossing driven into their edge ports at tick TICK of the next crossing. -/
def State.driveChannels (s : State) (ep : BitVec 2) (ws : List (CmapEnt × Int)) : State :=
  let groups := (ws.map fun p => (p.1.edge, p.1.tick)).eraseDups
  groups.foldl (fun u g =>
    let d := tokenData (ws.filter fun p => p.1.edge == g.1 && p.1.tick == g.2)
    u.driveEdge g.1 (s.hdr.n - s.tick + g.2) { tag := 1, epoch := ep, data := d }) s

/-- The channel part of the input digest's bytes (14 R383). -/
def digestWords (ws : List (CmapEnt × Int)) : List Byte :=
  ws.flatMap fun p => leBytes 2 p.1.ctx ++ leBytes 2 (BitVec.ofInt 16 p.2).toNat

/-! ### Saturations (04 R137, R145) -/

/-- The saturations of a crossing in Quay q: counted, the highest context recorded, one event. They set no FLAGS.WGMSAT, which is the tensors'
(10 R318; DESIGN CHOICE, log entry 97). -/
def State.chanSats (s : State) (l : List Nat) (q : Nat) : State :=
  let m := l.filter fun x => x / 16384 == q
  if m = [] then s
  else
    let s1 := (s.count (.wgmCsat q) m.length).raiseBit (.wgmC q) 0
    { s1 with wgm := { s1.wgm with clast := tset s1.wgm.clast q (BitVec.ofNat 32 (m.foldl max 0))
                                   clastCn := tset s1.wgm.clastCn q s.cn } }

/-! ### Beacons (R270 to R272) -/

def Beacon.enabled (b : Beacon) : Bool := b.cfg.getLsbD 31
def Beacon.trig (b : Beacon) : Bool := b.cfg.getLsbD 30
def Beacon.len (b : Beacon) : Nat := (b.cfg.extractLsb' 16 13).toNat
def Beacon.base (b : Beacon) : Nat := (b.cfg.extractLsb' 0 16).toNat

/-- Offsets below LEN at which a mask has a set bit. -/
def setBits (m : BitVec 4096) (len : Nat) : Nat := (List.range len).countP fun j => m.getLsbD j

/-- The Beacon matches the hit bits of a crossing (R271). -/
def Beacon.hit (b : Beacon) (hits : List Nat) : Bool :=
  let h : BitVec 4096 := hits.foldl (fun w x => if b.base ≤ x ∧ x < b.base + 4096 then w ||| (1 : BitVec 4096) <<< (x - b.base) else w) 0
  b.enabled && decide (setBits (b.care &&& ~~~(h ^^^ b.pat)) b.len ≥ b.min.toNat)

/-- A trigger decided in the present crossing (R265). -/
def State.trigger (s : State) (t : CN) (src : BitVec 4) : State :=
  { s with cap := { s.cap with cands := s.cap.cands ++ [{ t := t, src := src }] } }

/-- Beacon b at input crossing cc. -/
def State.stageBeacon (cc : CN) (hits : List Nat) (s : State) (b : Nat) : State :=
  let k := s.beacon b
  if k.hit hits then
    let s1 := (s.setBeacon b { k with lastCn := cc }).count (.bcnHit b) 1
    if k.trig then s1.trigger cc 2 else s1
  else s

/-! ### Mask tests (R273, R274) -/

/-- The buffer writes frames. -/
def CapStateK.writes : CapStateK → Bool
  | .prefill | .armed | .post => true
  | _ => false

/-- The violations of an input crossing. -/
def State.maskViol (s : State) (cc : CN) (l : List (Nat × Bool)) : State :=
  match l with
  | [] => s
  | v :: _ =>
    let first := s.ctr .capMtv = 0
    let s1 := (s.count .capMtv l.length).raiseBit .cap 2
    let s2 := if first then
        { s1 with cap := { s1.cap with mtRec := BitVec.ofBool v.2 ++ (0 : BitVec 15) ++ BitVec.ofNat 16 v.1, mtCn := cc } }
      else s1
    if !s2.cap.st.writes then s2
    else if s2.cap.cfg.getLsbD 30 then l.foldl (fun u _ => u.trigger cc 1) s2
    else { s2 with cap := { s2.cap with stopFr := earlierFreeze s2.cap.stopFr s2.cn } }

/-! ### Frames of the wake buffer (R260 to R263) -/

/-- The input-role lanes among the lanes selected (R260). -/
def State.inputLanes (s : State) (sel : Dword) : Dword :=
  (List.range 64).foldl (fun m l => if sel.getLsbD l && (s.lane l).role == 1 then m ||| (1 : Dword) <<< l else m) 0

/-- Lanes of a selection in Quay q. -/
def lanesIn (lanes : Dword) (q : Nat) : List Nat := (List.range 16).filter fun n => lanes.getLsbD (16 * q + n)

/-- Depth of a selection (R260). -/
def capDepth (lanes : Dword) : Nat :=
  if ((List.range 4).map fun q => (lanesIn lanes q).length).foldl max 0 ≤ 11 then 8192 else 5461

def State.capPre (s : State) : Nat := (s.cap.win.extractLsb' 0 13).toNat
def State.capPost (s : State) : Nat := (s.cap.win.extractLsb' 16 14).toNat

/-- A set of lane numbers as bits. -/
def laneMask (l : List Nat) : BitVec 16 := l.foldl (fun m n => m ||| (1 : BitVec 16) <<< n) 0

/-- The frame of Quay q for lane crossing x (R261). The payload of a wholly lost lane crossing is 184 zero bytes (DESIGN CHOICE, log
entry 75). -/
def State.frameOf (s : State) (x : CN) (bcn : BitVec 16) (mtv : Bool) (q : Nat) : Frame :=
  let ls := lanesIn (s.inputLanes s.cap.lanes) q
  let pay (n : Nat) : Payload := s.ringAt (16 * q + n) x
  { cn := x, lanes := laneMask ls, fault := laneMask (ls.filter fun n => decide ((pay n).lost ≠ 0)), beacon := bcn
    trig := s.cap.stopFr.isSome && decide (s.cap.st = .post ∧ s.cap.trigCn = x), mtv := mtv
    pays := ls.map fun n => if (pay n).lost = BitVec.allOnes 1472 then 0 else (pay n).data }

/-- Keeps the n latest of a list that is oldest first. -/
def keepLast {α : Type} (n : Nat) (l : List α) : List α := l.drop (l.length - n)

/-- A frame is written in this crossing: none after the one whose end freezes the buffer (R262, R267, R269). -/
def State.frameDue (s : State) (x : CN) : Bool :=
  s.cap.st.writes && (s.cap.a0Pend || cnLe s.cap.a0 x) && !(s.cap.stopFr.any fun c => cnLt c s.cn)

/-- Frame X of the present crossing written in every Quay that captures a lane (R262). -/
def State.writeFrame (s : State) (bcn : BitVec 16) (mtv : Bool) : State :=
  let x := cnSub s.cn s.hdr.rofs
  if !s.frameDue x then s
  else
    let a0 := if s.cap.a0Pend then x else s.cap.a0
    let ls := s.inputLanes s.cap.lanes
    let d := capDepth ls
    let put (t : Tbl (List Frame)) (q : Nat) : Tbl (List Frame) :=
      if lanesIn ls q = [] then t else tset t q (keepLast d (tget [] t q ++ [s.frameOf x bcn mtv q]))
    let st := if s.cap.st = .prefill ∧ cnLe (cnSub (cnAdd a0 s.capPre) 1) x then .armed else s.cap.st
    { s with cap := { s.cap with frames := (List.range 4).foldl put s.cap.frames, filled := min (s.cap.filled + 1) d
                                 lastFr := x, a0 := a0, a0Pend := false, st := st } }

/-! ### CHANNEL_STAGE (R251) -/

/-- A payload of input crossing cc was late on an input lane (01 R32). -/
def State.lateAt (s : State) (cc : CN) : Bool :=
  (List.range 64).any fun l => decide ((s.lane l).role = 1) && (s.lane l).late.contains cc

/-- The FLAGS of a record as its channel stage knows them (10 R318). -/
def State.stageFlags (s : State) (cc : CN) (subst : Bool) : BitVec 13 :=
  (if subst then 0x800 else 0) ||| (if s.planes.swW = some cc then 0x080 else 0) |||
  (if s.alm.swaps.any fun w => decide (w.a = cc) then 0x040 else 0) |||
  (if s.cap.trigSrc ≠ 0 ∧ s.cap.trigCn = cc then 0x020 else 0) ||| (if s.run.debug then 0x004 else 0) |||
  (if s.lateAt cc then 0x1000 else 0)

/-- The channel stage of input crossing cc: tokens, instruments, and the record that begins here. Answers the Beacons that
matched and whether a mask test failed. A Quay whose array side has no clock forms no words (17 R462; DEDUCED, log entry 96). -/
def State.stageInput (s : State) (cc : CN) : State × BitVec 16 × Bool :=
  let e := s.epochOf cc
  let a := ((s.imgAt e.slot).cmap.filter fun k => s.quayRuns (k.ctx / 16384)).foldl (stageCtx cc) { s := s, words := [], hits := [], viol := [], sats := [], subst := false }
  let r : OutRec := { c := cc, slot := e.slot, epoch := e.epoch, flags := s.stageFlags cc a.subst, inA := digestWords a.words
                      idig := 0, odig := 0, fdec := 0, pay := [], chain := [], asm := false, sent := false, auth := false, ictr := 0 }
  let s1 := a.s.driveChannels e.epoch a.words
  let s2 := { s1 with out := { s1.out with recs := s1.out.recs ++ [r] } }
  let s3 := (List.range 4).foldl (fun u q => u.chanSats a.sats q) s2
  let m : List Nat := (List.range 16).filter fun b => (s3.beacon b).hit a.hits
  let s4 := (List.range 16).foldl (State.stageBeacon cc a.hits) s3
  (s4.maskViol cc a.viol, laneMask m, decide (a.viol ≠ []))

/-- Input crossing cn - R_OFS is one of the run's: the first or later, and before the pause (R386). -/
def State.stageRuns (s : State) : Bool :=
  decide (s.run.phase = .running) && cnLe s.run.first (cnSub s.cn s.hdr.rofs)

/-- CHANNEL_STAGE (R251, R262): once a crossing. Outside a run, in a pause and before the first input crossing only the frame
of the wake buffer is written. -/
def execChannelStage (s : State) : Out :=
  if s.chan.stageAt = some s.cn then .next s
  else
    let s0 := { s with chan := { s.chan with stageAt := some s.cn } }
    let r := if s.stageRuns then s0.stageInput (cnSub s.cn s.hdr.rofs) else (s0, 0, false)
    .next (r.1.writeFrame r.2.1 r.2.2)

/-! ### CTXCOMMIT (R256, R257) -/

/-- A list entry of CTXCOMMIT (15 R407). -/
structure CtxEnt where
  ctx  : Nat
  zero : Bool
  c    : Ctx

def ctxEnts (l : List Byte) (n : Nat) : List CtxEnt :=
  (List.range n).map fun i =>
    let b := l.drop (32 * i)
    let w (k : Nat) : Word := BitVec.ofNat 32 (leAt b k 4)
    { ctx := leAt b 0 2, zero := leAt b 2 2 == 0 && leAt b 24 8 == 0
      c := { Ctx.reset with ctl := w 4, dsk := w 8, cal := w 12, env := w 16, wgm := w 20 } }

/-- Reserved bits of a context read 0 (R248, 04 R139). -/
def Ctx.clean (c : Ctx) : Ctx :=
  { c with ctl := c.ctl &&& 0xFF9FFFE0, dsk := c.dsk &&& 0xFF80FFFF, env := c.env &&& 0xF8000FFF, wgm := c.wgm &&& 0xFFFFFFF8 }

/-- The release tick of a context. -/
def Ctx.tick (c : Ctx) : Nat := (c.dsk.extractLsb' 23 5).toNat

/-- A commit's entry breaks a condition of R256. LF of the entry is checked though the context is FIXED or leaves FIXED and LDEF is used in its
place (DESIGN CHOICE, log entry 101). -/
def State.commitCtxBad (s : State) (e : CtxEnt) : Bool :=
  let old := s.ctxOf e.ctx
  e.c.tick != old.tick || cwWidth e.c.wgm != cwWidth old.wgm || (e.c.en && decide (cwLf e.c.wgm = 0 ∨ cwLf e.c.wgm > 32)) ||
  s.ctxBad e.ctx e.c (cwWidth e.c.wgm)

/-- The control word after a commit: of a FIXED context LF is LDEF; one that clears FIXED goes on from LF = LDEF with SEEN as it
stands (R248). -/
def Ctx.commitWgm (old n : Ctx) : Word :=
  if n.fixed then cwWith n.wgm (cwSeen n.wgm) (cwLdef n.wgm)
  else if old.fixed then cwWith n.wgm (cwSeen old.wgm) (cwLdef n.wgm)
  else n.wgm

/-- The context after a commit: every field at once; a change of AVG or AVGK restarts the block (R257). The ladder stays, since a
CTXCOMMIT has no operand that clears it (DESIGN CHOICE, log entry 74). -/
def Ctx.commit (old new : Ctx) : Ctx :=
  let n := new.clean
  { n with wgm := old.commitWgm n, acc := if n.avg = old.avg ∧ n.avgk = old.avgk then old.acc else 0, done := old.done, ages := old.ages }

def ownCtxcommit (s : State) (w : Waiting) : KAns :=
  let es := ctxEnts (w.req.list 1) (w.req.opd 0).toNat
  match es.findIdx? fun e => !e.zero with
  | some i => .refuse { code := 0xB003, item := i }
  | none =>
    match es.find? s.commitCtxBad with
    | some e => .refuse { code := 0x0702, item := e.ctx }
    | none => .now s 0 []

/-- TICK and WIDTH stay as they are when the commit takes effect (DEDUCED, log entry 90). -/
def actCtxcommit (s : State) (w : Waiting) : State :=
  (ctxEnts (w.req.list 1) (w.req.opd 0).toNat).foldl (fun u e =>
    let old := u.ctxOf e.ctx
    let c := old.commit e.c
    u.setCtx e.ctx { c with dsk := c.dsk.extractLsb' 28 4 ++ old.dsk.extractLsb' 23 5 ++ c.dsk.extractLsb' 0 23
                            wgm := c.wgm.extractLsb' 24 8 ++ cwWidth old.wgm ++ c.wgm.extractLsb' 0 22 }) s

def cmdCtxcommit : KCmd :=
  { spec := { op := 0x0502, maxs := [2 ^ 64 - 1], zero := [0], run := .any, mir := true, cross := fun _ => true
              list := fun o n => decide (n = 32 * (o.getD 0 0).toNat) }
    own := ownCtxcommit, act := actCtxcommit }

/-- CTXCOMMIT (R256, 15 R407). -/
def execCtxcommit (h : CmdHdr) (count : Dword) (lst : List Byte) (s : State) : Out :=
  kSubmit cmdCtxcommit (mkReq 0x0502 h [count] lst) s

/-! ### Commits and a resume at one crossing (R257, 04 R142, 14 R388, 15 R409) -/

/-- A resume waits to take effect in the present crossing, and commits of that crossing wait for it. -/
def State.resumeHere (s : State) : Bool := decide (s.run.resumeQ = some s.cn)

/-- WGM_COMMIT_APPLY (04 R142): before the derivation of crossing a. -/
def execWgmCommitApply (s : State) : Out := .next (if s.resumeHere then s else s.applyDue cmdWgmcommit s.cn s.cn)

/-- CONTEXT_COMMIT_APPLY (R257): before the channel stage of crossing a. -/
def execContextCommitApply (s : State) : Out := .next (if s.resumeHere then s else s.applyDue cmdCtxcommit s.cn s.cn)

/-- The commands whose effects write the carry state that a resume restores. -/
def resumeCmds : List KCmd := [cmdResume, cmdWgmcommit, cmdCtxcommit]

/-- RESUME_EFFECT (14 R388): at tick 0 of device crossing Q (03 R99), with the commits of Q of an earlier journal sequence before it (15 R409). Where
the writes are not ready, or the loaded training has not run, the resume is void. -/
def execResumeEffect (ready : Bool) (s : State) : Out :=
  if !s.resumeHere then .next s
  else if !(ready && s.alm.trained) then .next (s.voidResume s.cn)
  else if s.atBoundary then .next (s.applyGroup resumeCmds 0x0204 s.cn s.cn)
  else .next s

/-! ### ENVLOAD (R273) -/

def ownEnvload (s : State) (w : Waiting) : KAns :=
  if (w.req.opd 1).toNat + (w.req.opd 2).toNat > 4096 then .refuse { code := 0xB003, item := 2 } else .now s 0 []

def actEnvload (s : State) (w : Waiting) : State :=
  let l := w.req.list 3
  let base := (w.req.opd 0).toNat * 4096 + (w.req.opd 1).toNat
  let es := (List.range (w.req.opd 2).toNat).map fun i =>
    (BitVec.ofNat 32 (leAt l (8 * i) 4), BitVec.ofNat 32 (leAt l (8 * i + 4) 4))
  { s with chan := { s.chan with env := tputs (0, 0) s.chan.env base es } }

def cmdEnvload : KCmd :=
  { spec := { op := 0x0606, maxs := [3, 4095, 4096], zero := [2], run := .any, mir := true, cross := fun _ => true
              list := fun o n => decide (n = 8 * (o.getD 2 0).toNat) }
    own := ownEnvload, act := actEnvload }

/-- ENVLOAD (R273, 15 R407). -/
def execEnvload (h : CmdHdr) (quay first count : Dword) (lst : List Byte) (s : State) : Out :=
  kSubmit cmdEnvload (mkReq 0x0606 h [quay, first, count] lst) s

/-- ENVELOPE_LOAD_APPLY (R273): before the channel stage of the announced input crossing. -/
def execEnvelopeLoadApply (s : State) : Out := .next (s.applyDue cmdEnvload (cnSub s.cn s.hdr.rofs) s.cn)

/-! ### PEDESTAL (R275, 15 R407), and Klowyn's own context commits -/

def ownPedestal (s : State) (w : Waiting) : KAns :=
  let first := (w.req.opd 0).toNat
  let n := (w.req.opd 1).toNat
  if first + n > 65536 then .refuse { code := 0xB003, item := 1 }
  else .now s 0 ((List.range n).flatMap fun i => leBytes 8 (s.ctxOf (first + i)).done.toNat)

def cmdPedestal : KCmd :=
  { spec := { op := 0x0A02, maxs := [65535, 500], zero := [1], run := .any, jrn := false }, own := ownPedestal, act := noAct }

/-- PEDESTAL (R275, 15 R407). -/
def execPedestal (h : CmdHdr) (first count : Dword) (s : State) : Out :=
  kSubmit cmdPedestal (mkReq 0x0A02 h [first, count] []) s

/-- A commit entry of a context with another CROSS. -/
def ctxEntry (x : Nat) (c : Ctx) (cross : Nat) : List Byte :=
  let dsk : Word := BitVec.ofNat 4 cross ++ c.dsk.extractLsb' 0 28
  leBytes 4 x ++ leBytes 4 c.ctl.toNat ++ leBytes 4 dsk.toNat ++ leBytes 4 c.cal.toNat ++ leBytes 4 c.env.toNat ++
    leBytes 4 c.wgm.toNat ++ List.replicate 8 0

/-- Klowyn's own context commit, at its minimum lead in a run and at once outside one (15 R407, R413). -/
def State.ownCommit (s : State) (es : List (List Byte)) : State :=
  let len := 8 + 32 * es.length
  let acn := if s.armed then BitVec.ofNat 48 (s.lead 0x0502 len) else 0
  kRun cmdCtxcommit 253
    (mkReq 0x0502 { mbx := 253, tag := 0, len := len, acn := acn, at_ := true, rel := true, rsvd := false }
      [BitVec.ofNat 64 es.length] es.flatten) s

/-- A list in parts of at most k. -/
def chunks {α : Type} (k : Nat) : Nat → List α → List (List α)
  | 0, _ => []
  | f + 1, l => if l = [] then [] else l.take k :: chunks k f (l.drop k)

/-! ### HISTO (15 R407) -/

/-- The target names a tensor of a virtual Field, or a context. -/
def histoTargetOk (t : Dword) : Bool :=
  if t.getLsbD 16 then decide (t.toNat < 2 ^ 17) else decide (t.toNat < 2 ^ 14 ∧ t.toNat % 256 < 16)

def ownHisto (s : State) (w : Waiting) : KAns :=
  .long { s with kly := { s.kly with histo := s.kly.histo ++ [{ target := w.req.opd 0, left := (w.req.opd 1).toNat, bins := [], w := w }] } }

def cmdHisto : KCmd :=
  { spec := { op := 0x0A03, maxs := [2 ^ 64 - 1, 2 ^ 64 - 1], ok := fun k v => k != 0 || histoTargetOk v, zero := [1], run := .yes, jrn := false }
    own := ownHisto, act := noAct }

/-- HISTO (15 R407). -/
def execHisto (h : CmdHdr) (target samples : Dword) (s : State) : Out :=
  kSubmit cmdHisto (mkReq 0x0A03 h [target, samples] []) s

end Sys2Proof.Machine
end

