-- ==== Sys2Proof/Machine/Capture.lean ====
section
/-! DEFINITION. The wake buffer and the Beacons' loads (08_input_channels_and_capture.md R260 to R277): CAPARM and its
effect, CAPTRIG and KLOWYN_TRIGGER, EXTERNAL_ACCEPT, WAKE_BUFFER_FREEZE, CAPDRAIN and DRAIN_COMPLETE, CAPRELEASE, BCNLOAD and
its effect. -/

namespace Sys2Proof.Machine

/-! ### CAPARM (R264) -/

/-- A full-rate logbook holds, or is to hold, the wake buffer, or a replay reads it (R269, 14 R394, R396). -/
def State.logHolds (s : State) : Bool :=
  (s.run.replay && s.log.mode == 1) || (s.log.active && s.log.mode == 1) || (s.log.atArm && s.log.mode == 1) ||
  s.kly.waiting.any fun w => w.req.op.toNat == 0x0701 && w.req.opd 0 == 1

/-- A capture is armed, or is to be (R269, 14 R396). -/
def State.captureHolds (s : State) : Bool :=
  decide (s.cap.st ≠ .idle) || s.kly.waiting.any fun w => w.req.op.toNat == 0x0601

def ownCaparm (s : State) (w : Waiting) : KAns :=
  let pre := (w.req.opd 0).toNat
  let post := (w.req.opd 1).toNat
  let d := capDepth (s.inputLanes (w.req.opd 2))
  let lat := (w.req.opd 4).toNat
  if pre > d - 1 then .refuse { code := 0xB003, item := 0, expect := d - 1, found := pre }
  else if pre + post > d then .refuse { code := 0xB003, item := 1, expect := d - pre, found := post }
  else if (w.req.opd 5).getLsbD 0 ∧ pre + lat + 1 > d then .refuse { code := 0xB003, item := 4, expect := d - pre - 1, found := lat }
  else if decide (s.cap.st ≠ .idle) || s.logHolds then .refuse { code := 0xB007 }
  else .now s 0 []

/-- TRIG of Beacon b (R277). -/
def Beacon.withTrig (b : Beacon) (t : Bool) : Beacon := { b with cfg := b.cfg.extractLsb' 31 1 ++ BitVec.ofBool t ++ b.cfg.extractLsb' 0 30 }

/-- The Beacons after an arming commit: TRIG from BCNEN, last-match records cleared (R277). -/
def State.armBeacons (s : State) (en : BitVec 16) : State :=
  (List.range 16).foldl (fun u b => (u.setBeacon b { (u.beacon b).withTrig (en.getLsbD b) with lastCn := 0 }).clearCtr (.bcnHit b)) s

/-- The counters of the capture block, cleared by an arming commit (R276). -/
def State.clearCap (s : State) : State :=
  [.capIgnPre, .capIgnBusy, .capIgnDrain, .capMtv, .capFill, .capAvg].foldl State.clearCtr s

/-- CAP_CFG from BCNEN, ACCLAT and CTL (R276, 15 R407). -/
def capCfg (en acclat ctl : Dword) : Word :=
  BitVec.ofBool (ctl.getLsbD 3) ++ BitVec.ofBool (ctl.getLsbD 2) ++ BitVec.ofBool (ctl.getLsbD 0) ++ BitVec.ofBool (ctl.getLsbD 1) ++
  acclat.extractLsb' 0 12 ++ en.extractLsb' 0 16

/-- The arming in force. A second arming that finds the buffer in use changes nothing. -/
def actCaparm (s : State) (w : Waiting) : State :=
  if s.cap.st ≠ .idle then s
  else
    let s1 := (s.clearCap).armBeacons ((w.req.opd 3).extractLsb' 0 16)
    let pre := (w.req.opd 0).toNat
    let s2 := { s1 with cap := { CapState.reset with
        st := if pre = 0 then .armed else .prefill
        cfg := capCfg (w.req.opd 3) (w.req.opd 4) (w.req.opd 5)
        win := (0 : BitVec 2) ++ (w.req.opd 1).extractLsb' 0 14 ++ (0 : BitVec 3) ++ (w.req.opd 0).extractLsb' 0 13
        lanes := w.req.opd 2, a0 := w.at_, cands := s1.cap.cands } }
    s2.covered s true

def cmdCaparm : KCmd :=
  { spec := { op := 0x0601, maxs := [8191, 8192, 2 ^ 64 - 1, 65535, 4095, 15], zero := [1, 2], run := .any, mir := true
              cross := fun _ => true }
    own := ownCaparm, act := actCaparm }

/-- CAPARM (R264, 15 R407). -/
def execCaparm (h : CmdHdr) (pre post lanes bcnen acclat ctl : Dword) (s : State) : Out :=
  kSubmit cmdCaparm (mkReq 0x0601 h [pre, post, lanes, bcnen, acclat, ctl] []) s

/-! ### Triggers (R265, R266) -/

/-- A Klowyn trigger is decided. -/
def actCaptrig (s : State) (w : Waiting) : State := s.trigger w.at_ 8

def cmdCaptrig : KCmd :=
  { spec := { op := 0x0602, maxs := [], run := .any, mir := true, cross := fun _ => true }
    own := fun s _ => .now s 0 [], act := actCaptrig }

/-- CAPTRIG (R265, 15 R407). -/
def execCaptrig (h : CmdHdr) (s : State) : Out := kSubmit cmdCaptrig (mkReq 0x0602 h [] []) s

/-- KLOWYN_TRIGGER (R266): decided in device crossing T + R_OFS. -/
def execKlowynTrigger (s : State) : Out := .next (s.applyDue cmdCaptrig (cnSub s.cn s.hdr.rofs) s.cn)

/-- A valid CCMD word other than idle (19 R513), entered in a recording's event list (14 R392). -/
def State.ccmdWord (s : State) (w : Byte) : State :=
  ({ s with pkg := { s.pkg with lastCmd := w } }).logEvent (.ccmd s.cn w)

/-- An external accept: a trigger with T = c - ACCLAT where EXTEN is set (R265). -/
def State.externalAccept (s : State) : State :=
  if s.cap.cfg.getLsbD 29 then s.trigger (cnSub s.cn (s.cap.cfg.extractLsb' 16 12).toNat) 4 else s

/-- EXTERNAL_ACCEPT (R265, 19 R512). A replay ignores the CCMD input (14 R393). -/
def execExternalAccept (s : State) : Out :=
  if s.run.replay then .next s else .next ((s.ccmdWord 0x5A).externalAccept)

/-- The trigger can be accepted: T lies at or after A0 + PRE, a mask test without that condition (R266, R274). -/
def State.trigReady (s : State) (g : Trig) : Bool :=
  g.src == 1 || (!s.cap.a0Pend && cnLe (cnAdd s.cap.a0 s.capPre) g.t)

/-- What becomes of a trigger that is not accepted: the counter that R266 names, or none for a mask test that stops
nothing (R274). -/
def State.ignoreAs (s : State) (g : Trig) : Option CtrId :=
  if g.src = 1 then (if s.cap.st = .post then some .capIgnBusy else none)
  else if s.cap.st = .idle ∨ !s.trigReady g then some .capIgnPre
  else match s.cap.st with
    | .post => some .capIgnBusy
    | _ => some .capIgnDrain

def State.ignoreTrig (s : State) (c : Option CtrId) : State :=
  match c with
  | some c => (s.count c 1).raiseBit .cap 1
  | none => s

/-- The lowest T of a list of triggers. -/
def lowestT (d : CN) : List Trig → CN
  | [] => d
  | g :: r => lowestT (if cnLt g.t d then g.t else d) r

/-- Frames of crossing t marked as the trigger's (R261). -/
def markFrames (t : CN) (f : Tbl (List Frame)) : Tbl (List Frame) :=
  f.map fun p => (p.1, p.2.map fun x => if x.cn = t then { x with trig := true } else x)

/-- A trigger at T is accepted: POST, and the crossing of the freeze (R267), unless a mask test or a hazard freezes it earlier (R269, R274). -/
def State.acceptTrig (s : State) (t : CN) (src : BitVec 4) : State :=
  let stop := cnSub (cnAdd t (s.capPost + s.hdr.rofs)) 1
  let s1 := { s with cap := { s.cap with st := .post, trigCn := t, trigSrc := src, frames := markFrames t s.cap.frames
                                         stopFr := earlierFreeze s.cap.stopFr (if cnLt stop s.cn then s.cn else stop) } }
  (s1.raiseBit .cap 0).flagRec t 0x020

/-- The triggers decided in the present crossing: the lowest T is accepted with every source that names it (R266). -/
def State.settleTriggers (s : State) : State :=
  let s0 := { s with cap := { s.cap with cands := [] } }
  let open_ := decide (s.cap.st = .prefill ∨ s.cap.st = .armed)
  let good := s.cap.cands.filter fun g => open_ && s.trigReady g
  let bad := s.cap.cands.filter fun g => !(open_ && s.trigReady g)
  let s1 := bad.foldl (fun u g => u.ignoreTrig (s.ignoreAs g)) s0
  match good with
  | [] => s1
  | g :: r =>
    let t := lowestT g.t r
    let win := good.filter fun x => decide (x.t = t)
    let s2 := s1.acceptTrig t (win.foldl (fun m x => m ||| x.src) 0)
    (good.filter fun x => decide (x.t ≠ t)).foldl (fun u _ => u.ignoreTrig (some .capIgnBusy)) s2

/-! ### Freeze, drain, release (R267, R268) -/

/-- The buffer is due to freeze at the end of this crossing. -/
def State.freezeDue (s : State) : Bool := s.cap.st.writes && (s.cap.stopFr.map fun c => cnLe c s.cn).getD false

/-! ### DESKEW (R255, 15 R407) -/

/-- The mapped lane's payload in a frame. -/
def Frame.payOf (f : Frame) (n : Nat) : BitVec 1472 :=
  let ls := (List.range 16).filter fun k => f.lanes.getLsbD k
  f.pays.getD (ls.idxOf n) 0

/-- REF of a deskew calibration, as a crossing. -/
def Waiting.ref (w : Waiting) : CN := (w.req.opd 2).setWidth 48

/-- The mapped enabled contexts that a calibration covers: those of the armed image's map, none where no run is armed (DESIGN CHOICE, log entry
77). -/
def State.deskewCtxs (s : State) (w : Waiting) : List CmapEnt :=
  let first := (w.req.opd 0).toNat
  s.img.cmap.filter fun e => s.armed && decide (first ≤ e.ctx ∧ e.ctx < first + (w.req.opd 1).toNat) && (s.ctxOf e.ctx).en

/-- The lane crossing in which the reference shows for a mapped context among the frames captured (DESIGN CHOICE, log entry 16). -/
def State.deskewSeen (s : State) (w : Waiting) (e : CmapEnt) : Option CN :=
  let fs := tget [] s.cap.frames (e.laneIx / 16)
  let samples := fs.map fun f => payBits (f.payOf (e.laneIx % 16)) e.bofs e.bw
  (Config.deskewSeen samples (w.req.opd 2) (w.req.opd 3)).bind fun k => (fs[k % fs.length]?).map Frame.cn

/-- The later of two crossings. -/
def laterCn (a b : CN) : CN := if cnLt a b then b else a

/-- The end of a calibration, its capture frozen: CROSS of every channel by Klowyn's own commits, or the channel whose result is none or
above 15 named; the buffer is released. A member that has become the Watch commits nothing (R259). -/
def State.deskewEnd (s : State) (w : Waiting) : State :=
  let seen := (s.deskewCtxs w).map fun e => (e, s.deskewSeen w e)
  let latest := (seen.filterMap Prod.snd).foldl laterCn (cnSub w.ref (w.req.opd 3).toNat)
  let s1 := { s.dropLong w with cap := { s.cap with st := .idle, frames := [], stopFr := none } }
  if s.pairMode && decide (s.pair.role = 2) then s1.abortLong w { code := 0xB00D }
  else match seen.find? fun p => (p.2.map fun k => decide ((latest - k).toNat > 15)).getD true with
  | some p => s1.abortLong w { code := 0x0702, item := p.1.ctx }
  | none =>
    let lst := seen.map fun p => ctxEntry p.1.ctx (s.ctxOf p.1.ctx) (latest - p.2.getD 0).toNat
    ((chunks 125 lst.length lst).foldl State.ownCommit s1).endLong w (BitVec.ofNat 64 lst.length) []

/-- Lanes of a list of map entries. -/
def cmapLanes (es : List CmapEnt) : Dword := es.foldl (fun m e => m ||| (1 : Dword) <<< e.laneIx) 0

/-- A command of Klowyn's own at a crossing (15 R413). -/
def ownReq (op : Nat) (at_ : CN) (o : List Dword) : KReq :=
  mkReq op { mbx := 253, tag := 0, len := 8 * o.length, acn := at_, at_ := true, rel := false, rsvd := false } o []

/-- Klowyn arms the capture around the reference crossing and triggers it there, by commands of its own that are mirrored as a host's are
(R259; DESIGN CHOICE, log entry 77). -/
def ownDeskew (s : State) (w : Waiting) : KAns :=
  let win := (w.req.opd 3).toNat
  let ls := s.inputLanes (cmapLanes (s.deskewCtxs w))
  let pre := win / 2
  let a0 := cnSub w.ref pre
  if (w.req.opd 0).toNat + (w.req.opd 1).toNat > 65536 then .refuse { code := 0xB003, item := 1 }
  else if win > capDepth ls then .refuse { code := 0xB003, item := 3, expect := capDepth ls, found := win }
  else if decide (s.cap.st ≠ .idle) || s.logHolds then .refuse { code := 0xB007 }
  else if s.deskewCtxs w = [] then .now s 0 []
  else
    let r := ownReq 0x0601 a0 [BitVec.ofNat 64 pre, BitVec.ofNat 64 (win - pre), ls, 0, 0, 0]
    let t := ownReq 0x0602 w.ref []
    match firstOf [kCheck cmdCaparm.spec 253 r s, kCheck cmdCaptrig.spec 253 t s] with
    | some f => .refuse f
    | none => .long (kRun cmdCaptrig 253 t (kRun cmdCaparm 253 r s))

def cmdDeskew : KCmd :=
  { spec := { op := 0x0A01, maxs := [65535, 65536, 2 ^ 48 - 1, 2 ^ 64 - 1], zero := [1, 3], run := .any }, own := ownDeskew
    act := noAct }

/-- DESKEW (R255, 15 R407). -/
def execDeskew (h : CmdHdr) (first count ref window : Dword) (s : State) : Out :=
  kSubmit cmdDeskew (mkReq 0x0A01 h [first, count, ref, window] []) s

/-- WAKE_BUFFER_FREEZE (R266, R267): the end of a crossing. Its triggers are decided, and the buffer freezes where it is due; a deskew
calibration's capture is then complete. -/
def execWakeBufferFreeze (s : State) : Out :=
  let s1 := s.settleTriggers
  if s1.freezeDue then
    let s2 := ({ s1 with cap := { s1.cap with st := .frozen, stopFr := none } }).raiseBit .cap 3
    match s2.longOf 0x0A01 with
    | some w => .next (s2.deskewEnd w)
    | none => .next s2
  else .next s1

/-- Bytes of a frame (R261). -/
def Frame.bytes (f : Frame) : List Byte :=
  leBytes 6 f.cn.toNat ++ leBytes 2 f.lanes.toNat ++ leBytes 2 f.fault.toNat ++ leBytes 2 f.beacon.toNat ++
  [(if f.trig then 1 else 0) ||| (if f.mtv then 2 else 0)] ++ List.replicate 11 0 ++ f.pays.flatMap fun p => leBytes 184 p.toNat

/-- The 64-bit blocks of a byte list, zero-padded. -/
def blocksOf (l : List Byte) : List Dword := (List.range ((l.length + 7) / 8)).map fun i => BitVec.ofNat 64 (leAt l (8 * i) 8)

/-- A readout packet (10 R324): first block, then the frame. -/
def readoutPacket (q : Nat) (last : Bool) (f : Frame) : List Dword :=
  ((0 : BitVec 13) ++ BitVec.ofBool last ++ BitVec.ofNat 2 q ++ f.cn) :: blocksOf f.bytes

/-- Lanes in the readout role, of Quay q where it has one, else of the device (10 R324). -/
def State.readoutLanes (s : State) (q : Nat) : List Nat :=
  let all := (List.range 64).filter fun l => (s.lane l).role == 5
  let own := all.filter fun l => l / 16 == q
  if own = [] then all else own

/-- The packets of Quay q, to its readout lanes in turn. Bit [50] marks the last frame of each Quay's part of the drain (DESIGN CHOICE, log entry
31). -/
def State.quayPackets (s : State) (q : Nat) : List (Nat × List Dword) :=
  let fs := tget [] s.cap.frames q
  let ls := s.readoutLanes q
  if ls = [] then [] else fs.zipIdx.map fun f => (ls.getD (f.2 % ls.length) 0, readoutPacket q (f.2 + 1 == fs.length) f.1)

/-- The end of a drain: DRAINED, and IDLE, or PREFILL for the next frame where AUTO is 1 (R263, R264). -/
def CapState.reopen (c : CapState) : CapState :=
  if c.cfg.getLsbD 31 then { c with st := .prefill, a0Pend := true, frames := [], filled := 0, stopFr := none }
  else { c with st := .idle, frames := [], stopFr := none }

def State.drained (s : State) : State :=
  let s1 := ({ s with cap := s.cap.reopen }).raiseBit .cap 4
  match s1.longOf 0x0603 with
  | some w => (s1.dropLong w).endLong w 0 []
  | none => s1

def ownCapdrain (s : State) (w : Waiting) : KAns :=
  if s.cap.st ≠ .frozen then .refuse { code := 0xB007 }
  else if w.req.opd 0 = 0 ∧ s.log.active ∧ s.log.mode = 2 then .refuse { code := 0xB007 }
  else .long { s with cap := { s.cap with st := .draining } }

def cmdCapdrain : KCmd :=
  { spec := { op := 0x0603, maxs := [1, 2 ^ 64 - 1], run := .any }, own := ownCapdrain, act := noAct }

/-- CAPDRAIN (R268, 15 R407). -/
def execCapdrain (h : CmdHdr) (dest haddr : Dword) (s : State) : Out := kSubmit cmdCapdrain (mkReq 0x0603 h [dest, haddr] []) s

/-- Bytes that the device writes to host memory. -/
def State.hostWrite (s : State) (a : Nat) (l : List Byte) : State :=
  { s with host := { s.host with dma := tputs 0 s.host.dma a l } }

/-- A readout packet into the transmit buffer of its lane, with an idle block after it (R278, 10 R324). -/
def State.sendPacket (s : State) (p : Nat × List Dword) : State :=
  let u := s.sendFrame p.1 ((p.2.headD 0).extractLsb' 0 48) p.2
  let x := u.lane p.1
  u.setLane p.1 { x with txq := if x.eitx then x.txq else x.txq ++ [idleBlk] }

/-- DRAIN_COMPLETE (R268): every held frame has been read, as readout packets or to the host's address in order of Quay
(DESIGN CHOICE, log entry 31). -/
def execDrainComplete (s : State) : Out :=
  if s.cap.st ≠ .draining then .next s
  else
    let pk := (List.range 4).flatMap s.quayPackets
    let s1 := match s.longOf 0x0603 with
      | some w =>
        if w.req.opd 0 = 1 then
          s.hostWrite (w.req.opd 1).toNat ((List.range 4).flatMap fun q => (tget [] s.cap.frames q).flatMap Frame.bytes)
        else pk.foldl State.sendPacket { s with cap := { s.cap with sent := pk } }
      | none => s
    .next s1.drained

/-- A deskew calibration whose capture is released ends. -/
def State.deskewAbort (s : State) : State :=
  match s.longOf 0x0A01 with
  | some w => (s.dropLong w).abortLong w { code := 0xB00D }
  | none => s

def ownCaprelease (s : State) (_ : Waiting) : KAns :=
  match s.cap.st with
  | .idle | .post => .refuse { code := 0xB007 }
  | .prefill | .armed => .now { s with cap := { s.cap with st := .idle, stopFr := none } }.deskewAbort 0 []
  | .frozen => .now { s with cap := s.cap.reopen } 0 []
  | .draining => .now s.drained 0 []

def cmdCaprelease : KCmd := { spec := { op := 0x0604, maxs := [], run := .any }, own := ownCaprelease, act := noAct }

/-- CAPRELEASE (R268, 15 R407). -/
def execCaprelease (h : CmdHdr) (s : State) : Out := kSubmit cmdCaprelease (mkReq 0x0604 h [] []) s

/-! ### BCNLOAD (R271, R277) -/

/-- A mask of 512 bytes. -/
def maskOf (l : List Byte) : BitVec 4096 := BitVec.ofNat 4096 (leNat (l.take 512))

def ownBcnload (s : State) (w : Waiting) : KAns :=
  let base := (w.req.opd 1).toNat
  let len := (w.req.opd 2).toNat
  let cares := setBits (maskOf ((w.req.list 5).drop 512)) len
  if base / 16384 ≠ (base + len - 1) / 16384 then .refuse { code := 0xB003, item := 1, found := base }
  else if (w.req.opd 3).toNat > cares then .refuse { code := 0xB003, item := 3, expect := cares, found := (w.req.opd 3).toNat }
  else .now s 0 []

/-- The Beacon's load in force; TRIG and its bit of BCNEN are one bit. -/
def actBcnload (s : State) (w : Waiting) : State :=
  let b := (w.req.opd 0).toNat
  let ctl := w.req.opd 4
  let l := w.req.list 5
  let cfg : Word := BitVec.ofBool (ctl.getLsbD 0) ++ BitVec.ofBool (ctl.getLsbD 1) ++ (0 : BitVec 1) ++ (w.req.opd 2).extractLsb' 0 13 ++
    (w.req.opd 1).extractLsb' 0 16
  let s1 := s.setBeacon b { s.beacon b with cfg := cfg, min := (w.req.opd 3).extractLsb' 0 32, pat := maskOf l, care := maskOf (l.drop 512) }
  let bit : Word := (1 : Word) <<< b
  let s2 := { s1 with cap := { s1.cap with cfg := if ctl.getLsbD 1 then s1.cap.cfg ||| bit else s1.cap.cfg &&& ~~~bit } }
  s2.covered s true

def cmdBcnload : KCmd :=
  { spec := { op := 0x0605, maxs := [15, 65535, 4096, 4096, 3], zero := [2, 3], run := .any, mir := true, cross := fun _ => true
              list := fun _ n => n == 1024 }
    own := ownBcnload, act := actBcnload }

/-- BCNLOAD (R271, 15 R407). -/
def execBcnload (h : CmdHdr) (beacon base len min ctl : Dword) (lst : List Byte) (s : State) : Out :=
  kSubmit cmdBcnload (mkReq 0x0605 h [beacon, base, len, min, ctl] lst) s

/-! ### Effects that share TRIG of a Beacon (R277, 15 R409) -/

/-- The commands that write TRIG. -/
def trigCmds : List KCmd := [cmdCaparm, cmdBcnload]

/-- CAPTURE_ARM_APPLY (R264): before frame A0 is written. -/
def execCaptureArmApply (s : State) : Out := .next (s.applyGroup trigCmds 0x0601 (cnSub s.cn s.hdr.rofs) s.cn)

/-- BEACON_LOAD_APPLY (R277): before the channel stage of the announced input crossing. -/
def execBeaconLoadApply (s : State) : Out := .next (s.applyGroup trigCmds 0x0605 (cnSub s.cn s.hdr.rofs) s.cn)

end Sys2Proof.Machine
end

