-- ==== Sys2Proof/Machine/LaneRx.lean ====
section
/-! DEFINITION. Lane reception (09_serial_lanes.md R281 to R290): codewords, alignment markers and lock, training bursts, and
crossing frames as they enter the elastic buffer. -/

namespace Sys2Proof.Machine

/-! ### Event bits of LNK_EVT and counters (R305) -/

/-- Counts k in a lane counter: SYMCNT 0, UECNT 1, SUBCNT 2, LATECNT 3, EARLYCNT 4, EXCCNT 5, FRMCNT 6, SLIPCNT 7. -/
def State.lnkCount (s : State) (l k n : Nat) : State := s.count (.lnk l k) n

/-- Sets a bit of LNK_EVT: UE 0, LATE 1, EARLY 2, FRAME 3, LOCKLOSS 4, FAULT 5, SLIP 6, WIRE 7. -/
def State.lnkEvt (s : State) (l b : Nat) : State := s.raiseBit (.lnk l) b

/-! ### Codewords (R282 to R284) -/

/-- A block as transmitted: header and raw payload, bit 0 first. -/
structure RawBlk where
  hdr : Nat
  raw : Nat

/-- The number whose bit 0 comes first. -/
def bitsNat (l : List Bool) : Nat := l.foldr (fun b n => 2 * n + b.toNat) 0

/-- The 25 blocks of 165 symbols, the first transmitted bit of a symbol being its bit 0 (DESIGN CHOICE, log entry 32). -/
def rawBlocks (syms : List Nat) : List RawBlk :=
  let bits := syms.flatMap fun x => (List.range 10).map x.testBit
  (List.range 25).map fun k =>
    let b := bits.drop (66 * k)
    { hdr := bitsNat (b.take 2), raw := bitsNat ((b.drop 2).take 64) }

/-- One payload descrambled under x^58 + x^39 + 1, with the scrambler state after it: state bit i is the bit received i + 1
bits ago (R283). -/
def descramble (st : BitVec 58) (raw : Nat) : BitVec 58 × BitVec 64 :=
  (List.range 64).foldl (fun a i =>
    let x := raw.testBit i
    let y := (x ^^ a.1.getLsbD 38) ^^ a.1.getLsbD 57
    ((a.1 <<< 1) ||| (BitVec.ofBool x).setWidth 58, a.2 ||| ((BitVec.ofBool y).setWidth 64) <<< i)) (st, 0)

/-- The fixed bits of an alignment marker: header 0b10, TYPE and COMMA (R285). -/
def RawBlk.isMarker (b : RawBlk) : Bool := b.hdr == 2 && b.raw % 2 ^ 24 == 0xF628B4

/-- What the blocks of a codeword leave: scrambler state, place since the last predicted marker, markers missed in a row, and
the blocks passed on. -/
structure RxAcc where
  scr    : BitVec 58
  pos    : Nat
  missed : Nat
  out    : List Blk

/-- One block: at the predicted place stands a marker, which is not passed on and leaves the scrambler alone (R283, R286). -/
def rxBlock (lost : Bool) (a : RxAcc) (b : RawBlk) : RxAcc :=
  if a.pos ≥ 16383 then { a with pos := 0, missed := if !lost && b.isMarker then 0 else a.missed + 1 }
  else
    let d := descramble a.scr b.raw
    { a with scr := d.1, pos := a.pos + 1, out := a.out ++ [if lost then .lost else .ok (BitVec.ofNat 2 b.hdr) d.2] }

/-- Symbols in which two words differ. -/
def symDiff (x y : List Nat) : Nat := ((x.zip y).filter fun p => p.1 ≠ p.2).length

/-- The lane with the blocks of a codeword decoded in the present crossing and tick; those before the marker that gave lock are not passed
on. -/
def Lane.take (x : Lane) (cn : CN) (tick : Nat) (lost : Bool) (syms : List Nat) : Lane :=
  let a0 : RxAcc := { scr := x.scr, pos := x.rxPos, missed := x.missed, out := [] }
  let b := ((rawBlocks syms).take x.skip).foldl (rxBlock lost) a0
  let a := ((rawBlocks syms).drop x.skip).foldl (rxBlock lost) { b with out := [] }
  { x with skip := 0, scr := a.scr, rxPos := a.pos, missed := a.missed, ueRun := if lost then x.ueRun + 1 else 0
           blocks := x.blocks ++ a.out.map fun b => (cn, tick, b) }

/-- A codeword of a locked lane: corrected in at most 4 symbols and counted, or all its blocks lost (R284). -/
def State.rxCodeword (s : State) (l : Nat) (syms : List Nat) : State :=
  let r := syms.map (· % 1024)
  match gfLane.decode 8 r with
  | some w => (s.setLane l ((s.lane l).take s.cn s.tick false (w.take 165))).lnkCount l 0 (symDiff r w)
  | none => ((s.setLane l ((s.lane l).take s.cn s.tick true (r.take 165))).lnkCount l 1 1).lnkEvt l 0

/-- CODEWORD_RECEIVE (R284). A lane without lock has no codeword boundary. -/
def execCodewordReceive (lane : Nat) (syms : List Nat) (s : State) : Out :=
  if lane ≥ 64 ∨ syms.length ≠ 173 then .fault .noSuchUnit
  else if (s.lane lane).lock then .next (s.rxCodeword lane syms) else .next s

/-! ### Alignment markers and lock (R285, R286, R288) -/

def mkM (p : Dword) : Nat := (p.extractLsb' 24 5).toNat
def mkLid (p : Dword) : BitVec 8 := p.extractLsb' 32 8
def mkCnx (p : Dword) : BitVec 24 := p.extractLsb' 40 24

/-- The 26 fixed bits hold in a marker's payload. -/
def markerOk (p : Dword) : Bool := p.extractLsb' 0 24 == 0xF628B4#24

/-- The number that agrees with v modulo 2^24 and lies within -2^23 to 2^23 - 1 of CN (R288). -/
def nearCn (cn : CN) (v : BitVec 24) : CN := cn + (v - cn.extractLsb' 0 24).signExtend 48

/-- A marker gives lock: the predicted one after a candidate, or one within 2,048 UI of a training burst (R286). -/
def Lane.acquires (x : Lane) (p : Dword) (gap : Nat) : Bool :=
  (x.burst && decide (66 * gap ≤ 2048 * x.ui)) ||
  (match x.cand with
   | some m => gap == 16384 && mkM p == (m + 1) % 25
   | none => false)

/-- The lane as its marker leaves it without regard to numbering: lock, LID, the predictions. A marker that gives lock stands (9 × M) mod 25
blocks into the next codeword received (R285; log entry 33). -/
def Lane.marked (x : Lane) (p : Dword) : Lane :=
  let y := { x with lock := true, lid := mkLid p, nextM := (mkM p + 1) % 25, cand := none, burst := false, missed := 0 }
  if x.lock then y else { y with ueRun := 0, rxPos := 16383 - 9 * mkM p % 25, skip := 9 * mkM p % 25, blocks := [] }

/-- A committed CNOFS: it applies from the first alignment marker after device crossing a (R304). -/
def Lane.newOfs (x : Lane) (cn : CN) : Lane :=
  match x.cnofsAt with
  | some (a, v) => if cnLt a cn then { x with cnofs := v, cnofsAt := none } else x
  | none => x

/-- A lost block stands among the blocks since the last decoded crossing marker, so that the count of the next one follows R289. -/
def Lane.damaged (x : Lane) : Bool := x.dmg || x.blocks.any fun b => decide (b.2.2 = .lost)

/-- SLIP, counted (R288). -/
def State.slip (s : State) (l : Nat) : State := (s.lnkCount l 7 1).lnkEvt l 6

/-- The numbering that a marker gives to the next crossing marker (R288): SLIP where it disagrees with the count. After damage the count is known
with the next crossing marker only. -/
def State.anchor (s : State) (l : Nat) (p : Dword) : State :=
  let x := (s.lane l).newOfs s.cn
  let n := nearCn s.cn (mkCnx p + x.cnofs)
  let y := if x.anchor then x else { x with dmg := false, known := false }
  let s1 := s.setLane l { y with anchor := true, fresh := true, nextX := n }
  let s2 := if x.cnofs = (s.lane l).cnofs then s1 else s1.coverChange true
  if x.anchor ∧ !x.damaged ∧ n ≠ x.nextX then s2.slip l else s2

/-- A marker of a lane that takes lock or holds it; with a wrong LID the receiver treats the lane as not locked (R286). -/
def State.takeMarker (s : State) (l : Nat) (p : Dword) : State :=
  let x := (s.lane l).marked p
  if x.explid ≠ 0 ∧ mkLid p ≠ x.explid then (s.setLane l x.unlocked).lnkEvt l 7
  else (s.setLane l x).anchor l p

/-- ALIGNMENT_MARKER (R286, R288): on a locked lane given after the codeword that holds it and after the frames before it, on an unlocked one, where
it is found in the raw bit stream, before that codeword (DESIGN CHOICE, log entry 33). A match away from the predicted place is no marker of a locked lane. -/
def execAlignmentMarker (lane : Nat) (payload : Dword) (gap : Nat) (s : State) : Out :=
  if lane ≥ 64 then .fault .noSuchUnit
  else
    let x := s.lane lane
    if !markerOk payload then .next s
    else if x.lock then (if gap % 16384 = 0 then .next (s.takeMarker lane payload) else .next s)
    else if x.acquires payload gap then .next (s.takeMarker lane payload)
    else .next (s.setLane lane { x with cand := some (mkM payload), burst := false })

/-- Long commands that a lane's loss of lock aborts (15 R405): its eye scan, and a lane alignment where it is an input lane. -/
def State.abortOnLane (s : State) (l : Nat) : State :=
  let hit (w : Waiting) : Bool :=
    (w.req.op.toNat == 0x0A04 && w.req.opd 0 == BitVec.ofNat 64 l) || (w.req.op.toNat == 0x0A06 && (s.lane l).role == 1)
  let ab := s.kly.longs.filter hit
  let s1 := ab.foldl (fun t w => t.abortLong w { code := 0xB00D }) s
  let s2 := { s1 with kly := { s1.kly with longs := s1.kly.longs.filter fun w => !hit w
                                           align := s1.kly.align.filter fun a => !hit a.w } }
  if ab.any fun w => w.req.op.toNat == 0x0A04 then s2.setSext l { s2.sextOf l with busy := false } else s2

/-- LOCK_LOSS (R286): after three missed markers or 8 uncorrectable codewords in a row. -/
def execLockLoss (lane : Nat) (s : State) : Out :=
  if lane ≥ 64 then .fault .noSuchUnit
  else
    let x := s.lane lane
    if x.lock ∧ (3 ≤ x.missed ∨ 8 ≤ x.ueRun) then .next (((s.setLane lane x.unlocked).lnkEvt lane 4).abortOnLane lane) else .next s

/-- TRAINING_BURST (R303): the receiver leaves electrical idle and locks its clock recovery. An Off lane, and one that a command has put
into electrical idle, stays there, and so does every lane in the clock safe state (17 R465). -/
def execTrainingBurst (lane : Nat) (s : State) : Out :=
  if lane ≥ 64 then .fault .noSuchUnit
  else if (s.lane lane).wake && !s.clk.safe then .next (s.setLane lane { (s.lane lane).unlocked with eirx := false, burst := true })
  else .next s

/-! ### Crossing frames (R287 to R291) -/

/-- A received block with the crossing and tick at which it left the decoder. -/
abbrev RxBlk := CN × Nat × Blk

/-- What a received block is (R282). -/
inductive BlkKind where
  | data | marker | idle | invalid | lost
deriving DecidableEq, Repr

/-- The kind by header and, in a control block, TYPE: idle with bits [63:8] zero; other types away from a marker's place and header 0b00 are
invalid. -/
def Blk.kind : Blk → BlkKind
  | .lost => .lost
  | .ok h p => if h = 1 then .data else if h = 3 then .marker else if h = 2 ∧ p = 0x1E then .idle else .invalid

def RxBlk.isMark (b : RxBlk) : Bool := b.2.2.kind == .marker
def RxBlk.isData (b : RxBlk) : Bool := b.2.2.kind == .data
def RxBlk.isLost (b : RxBlk) : Bool := b.2.2.kind == .lost
def RxBlk.pay (b : RxBlk) : BitVec 64 := match b.2.2 with | .ok _ p => p | .lost => 0

/-- The lane carries crossing frames: input, chain or mirror role (R278). -/
def Lane.framed (x : Lane) : Bool := x.role == 1 || x.role == 2 || x.role == 3

/-- Frame spacing Q; 23, that of 40.079 MHz, where none has been computed. -/
def Lane.q (x : Lane) : Nat := if x.role = 3 ∧ x.mq ≠ 0 then x.mq else if x.qblk = 0 then 23 else x.qblk

/-- Frame length B as received; on a mirror lane Q - 1 (12 R335). -/
def Lane.blen (x : Lane) : Nat := if x.role = 3 then x.q - 1 else max 1 x.blk

/-- Release offset; MR on a mirror lane (12 R335). -/
def State.relOfs (s : State) (x : Lane) : Nat := if x.role = 3 then (s.pair.cfg.extractLsb' 25 4).toNat else x.rofs

/-- A frame of blocks from block `at_` on: payload, and the mask of blocks lost. Blocks below `at_` are lost. -/
def packFrame (at_ : Nat) (bs : List RxBlk) : BitVec 1984 × BitVec 31 :=
  bs.zipIdx.foldl (fun (a : BitVec 1984 × BitVec 31) (p : RxBlk × Nat) =>
    (a.1 ||| (p.1.pay.setWidth 1984) <<< (64 * (at_ + p.2)), if p.1.isLost then a.2 ||| (1 : BitVec 31) <<< (at_ + p.2) else a.2))
    (0, BitVec.ofNat 31 (2 ^ at_ - 1))

/-- A frame wholly marked lost. -/
def RxFrame.spoil (f : RxFrame) : RxFrame := { f with mask := BitVec.allOnes 31 }

/-- The frame of number x, where it is held, wholly marked lost. -/
def Lane.spoil (x : Lane) (n : CN) : Lane := { x with buf := x.buf.map fun f => if f.x = n then f.spoil else f }

/-- The lane has released crossing n already. -/
def State.released (s : State) (l : Nat) (x : Lane) (n : CN) : Bool :=
  if x.role = 3 then cnLt (cnAdd n (s.relOfs x)) s.cn
  else ((tget [] s.chan.ring l).head?.map fun e => cnLe n e.x).getD false

/-- Input crossing n is one that the run computes (14 R386). -/
def State.inRun (s : State) (n : CN) : Bool :=
  s.live && cnLe s.run.first n &&
  (match s.run.phase with
   | .draining | .paused => cnLt n s.run.pcn
   | _ => (s.run.pauseAt.map fun p => cnLt n p).getD true)

/-- A late payload of an input lane: LANE_LATE, and where its crossing is one of the run's a deviation, counted and recorded (01 R32,
R34; log 71), whose record takes TDEV now or at its channel stage. -/
def State.lateInput (s : State) (n : CN) : State :=
  let s1 := s.raiseBit .runLat 0
  if s1.inRun n then { (s1.count .deviation 1).flagRec n 0x1000 with out := { (s1.flagRec n 0x1000).out with latCn := n } } else s1

/-- A late frame counted (R291) and noted; on an input lane it sets LANE_LATE (01 R32). -/
def State.countLate (s : State) (l : Nat) (n : CN) : State :=
  let s1 := ((s.setLane l { s.lane l with late := n :: (s.lane l).late }).lnkCount l 3 1).lnkEvt l 1
  if (s.lane l).role = 1 then s1.lateInput n else s1

/-- The late frames that still matter once frame n has arrived: frames arrive in order, so an earlier one does not come any more, and its record has
its flags when its channel stage has run. -/
def Lane.pruneLate (x : Lane) (n cn : CN) (rofs : Nat) : Lane :=
  { x with late := x.late.filter fun m => !(cnLt m n && cnLt (cnAdd m rofs) cn) }

/-- A frame that arrives (R288, R291): early, late, a number already held (DEDUCED, log entry 34), or held for its release. `first` is
the crossing in which its first block left the decoder. -/
def State.holdFrame (s : State) (l : Nat) (first : CN) (f : RxFrame) : State :=
  let x := (s.lane l).pruneLate f.x s.cn s.hdr.rofs
  let s1 := s.setLane l x
  if s1.released l x f.x then
    if x.late.contains f.x then s1 else s1.countLate l f.x
  else if cnLt first (cnSub (cnAdd f.x (s.relOfs x)) 8) || x.buf.any (fun g => decide (g.x = f.x)) then (s1.lnkCount l 4 1).lnkEvt l 2
  else s1.setLane l { x with buf := x.buf ++ [f] }

/-- A long or short frame counted, once (R290). -/
def State.countOdd (s : State) (l : Nat) : State :=
  if (s.lane l).odd then s else ((s.setLane l { s.lane l with odd := true }).lnkCount l 6 1).lnkEvt l 3

/-- k blocks beyond B: dropped and counted; the frame of the last decoded crossing marker is long and wholly lost (R290). On an unanchored lane
that frame is lost already. -/
def State.dropExcess (s : State) (l : Nat) (k : Nat) : State :=
  if k = 0 then s
  else
    let x := s.lane l
    ((s.lnkCount l 5 k).setLane l (if x.known then x.spoil x.prevX else x)).countOdd l

/-- The one k of R289 for D blocks at spacing q. -/
def frameStep (d q : Nat) : Option Nat :=
  match (List.range (d / q + 1)).filter fun k => decide (k * q ≤ d ∧ d ≤ k * (q + 1) ∧ 1 ≤ k) with
  | [k] => some k
  | _ => none

/-- Frame n - 1, whose marker was lost, from the data blocks between the last lost block and the marker of frame n (R289). -/
def State.tailFrame (s : State) (l : Nat) (n : CN) (pre : List RxBlk) : State :=
  let tail := ((pre.reverse.takeWhile fun b => !b.isLost).reverse).filter RxBlk.isData
  let b := (s.lane l).blen
  let t := tail.drop (tail.length - b)
  match t.head?, t.getLast? with
  | some h, some e =>
    let p := packFrame (b - t.length) t
    s.holdFrame l h.1 { x := n - 1, pay := p.1, mask := p.2, cn := e.1, tick := e.2.1 }
  | _, _ => s

/-- A crossing marker's number: number, frames since the last, whether an alignment marker's number disagreed with the count. -/
structure Numbered where
  n    : CN
  k    : Nat
  slip : Bool

/-- The marker's number: that of an alignment marker since the last one (R288), else the count, or k after the last under R289; none where the
lane is or becomes unanchored. -/
def Lane.number (x : Lane) (pre : List RxBlk) : Option Numbered :=
  let hurt := x.dmg || pre.any RxBlk.isLost
  let d := frameStep (x.dist + pre.length) x.q
  if !x.anchor then none
  else if x.fresh then
    let k := if hurt && x.known then (x.nextX - x.prevX).toNat else 1
    some { n := x.nextX, k := k, slip := hurt && x.known && decide (x.dist ≠ 0) && d.any (fun j => j != k) }
  else if hurt then d.map fun k => { n := cnAdd x.prevX k, k := k, slip := false }
  else some { n := x.nextX, k := 1, slip := false }

/-- A marker whose frame is complete: body the B - 1 blocks after it, or fewer where the frame is short. -/
def State.frameAt (s : State) (l : Nat) (pre : List RxBlk) (m : RxBlk) (body rest : List RxBlk) : State :=
  let x0 := s.lane l
  let short := decide (body.length + 1 < x0.blen)
  let xs := rest.takeWhile RxBlk.isData
  let tail := if short then [] else xs
  let lane1 (y : Lane) : Lane :=
    { y with blocks := rest.drop tail.length, dist := 1 + body.length + tail.length, dmg := body.any RxBlk.isLost, fresh := false
             odd := false }
  let odd (u : State) : State := (if short then u.countOdd l else u).dropExcess l tail.length
  match x0.number pre with
  | none => odd (s.setLane l (lane1 { x0 with anchor := false, known := false }))
  | some v =>
    let s0 := if v.slip then s.slip l else s
    let s1 := if v.k ≥ 2 then s0.tailFrame l v.n pre else s0
    let p := packFrame 0 (m :: body)
    let e := (m :: body).getLastD m
    let f : RxFrame := { x := v.n, pay := p.1, mask := p.2, cn := e.1, tick := e.2.1 }
    let s2 := s1.holdFrame l m.1 (if short then f.spoil else f)
    odd (s2.setLane l (lane1 { s2.lane l with nextX := v.n + 1, prevX := v.n, known := true }))

/-- The next frame among the received blocks, where it is complete (R287). Data blocks at the head are excess of the frame
before; idle and invalid blocks end a frame (DESIGN CHOICE for invalid ones, log entry 34). -/
def State.rxFrame (s : State) (l : Nat) : State :=
  let x0 := s.lane l
  let xs := x0.blocks.takeWhile RxBlk.isData
  let s0 := if x0.dist ≠ 0 then s.dropExcess l xs.length else s
  let x := { s0.lane l with blocks := x0.blocks.drop xs.length, dist := x0.dist + xs.length }
  let s1 := s0.setLane l x
  let pre := x.blocks.takeWhile fun b => !RxBlk.isMark b
  match x.blocks.drop pre.length with
  | [] => s1
  | m :: r =>
    let body := (r.take (x.blen - 1)).takeWhile fun b => RxBlk.isData b || RxBlk.isLost b
    if body.length < x.blen - 1 ∧ body.length = r.length then s1
    else s1.frameAt l pre m body (r.drop body.length)

/-- CROSSING_FRAME_RECEIVE (R287 to R291): the lane's next frame enters the elastic buffer. -/
def execCrossingFrameReceive (lane : Nat) (s : State) : Out :=
  if lane ≥ 64 then .fault .noSuchUnit
  else
    let x := s.lane lane
    if x.lock && x.framed then .next (s.rxFrame lane) else .next s

end Sys2Proof.Machine
end

