-- ==== Sys2Proof/Machine/Lanes.lean ====
section
/-! DEFINITION. The elastic release of input and chain lanes (09_serial_lanes.md R291 to R295, 10_chains_and_hub.md R312,
R313, 14_digests_and_replay.md R390 to R394): payload rings, slack, substitution, the fault history, the logbook's frames, and
the words of the chain stage. -/

namespace Sys2Proof.Machine

/-! ### What is released (R291, R294) -/

/-- The bits that a lost mask covers. -/
def lostBits (m : BitVec 23) : BitVec 1472 :=
  (List.range 23).foldl (fun w j =>
    if m.getLsbD j then w ||| ((BitVec.allOnes 64).setWidth 1472) <<< (64 * j) else w) 0

/-- A released frame: payload and mask, all lost where it was not delivered. -/
structure Released where
  data : BitVec 1984
  mask : BitVec 31

/-- Nothing delivered. -/
def Released.nothing : Released := { data := 0, mask := BitVec.allOnes 31 }

/-- The 23-bit mask of a crossing frame of an input or chain lane (R294). -/
def Released.mask23 (r : Released) : BitVec 23 := r.mask.setWidth 23

def Released.payload (r : Released) : Payload := { data := r.data.setWidth 1472, lost := lostBits r.mask23 }

/-- A frame of an input or chain lane as recorded. -/
def Released.of (p : BitVec 1472) (m : BitVec 23) : Released := { data := p.setWidth 1984, mask := m.setWidth 31 }

/-- Ticks from a decoding to tick 0 of the present crossing (R291). -/
def State.slackOf (s : State) (f : RxFrame) : Nat := min ((s.cn - f.cn).toNat * s.hdr.n - f.tick) 65535

/-- The smallest slack of the lane alignments in progress takes k in (R306). -/
def State.alignSlack (s : State) (k : Nat) : State :=
  { s with kly := { s.kly with align := s.kly.align.map fun a => { a with minSl := min a.minSl k } } }

/-- The slack of a released frame recorded, for LNK_SLACK and for a lane alignment in progress (R291, R306). -/
def State.noteSlack (s : State) (l : Nat) (k : Nat) : State :=
  let x := s.lane l
  let s1 := s.setLane l { x with slackLast := BitVec.ofNat 16 k, slackMin := BitVec.ofNat 16 (min k x.slackMin.toNat) }
  if x.role = 1 then s1.alignSlack k else s1

/-- The release of frame n from the elastic buffer: late where a locked, anchored lane has not received it (R291); a
late frame of an input lane sets LANE_LATE (01 R32), and in a lane alignment it counts as a slack of 0 (DESIGN CHOICE, log entry 94). -/
def State.takeHeld (s : State) (l : Nat) (n : CN) : State × Released :=
  let x := s.lane l
  let s1 := s.setLane l { x with buf := x.buf.filter fun f => !cnLe f.x n }
  match x.buf.find? fun f => decide (f.x = n) with
  | some f => (s1.noteSlack l (s.slackOf f), { data := f.pay, mask := f.mask })
  | none =>
    if x.lock && x.anchor && cnLe x.nextX n then
      ((if x.role = 1 then s1.alignSlack 0 else s1).countLate l n, Released.nothing)
    else (s1, Released.nothing)

/-! ### Replay (14 R393) -/

/-- The lane is one of the recording's. -/
def LogState.has (g : LogState) (l : Nat) : Bool := g.lanes.getLsbD l

/-- The mask of a recorded crossing, from the loss list. -/
def LogState.maskOf (g : LogState) (x : CN) (l : Nat) : BitVec 23 :=
  match g.events.findSome? fun e => match e with
    | .loss y k m => if y = x ∧ k = l then some m else none
    | _ => none with
  | some m => m
  | none => 0

/-- Crossings recorded, from P0 - 15 on. -/
def LogState.span (g : LogState) : Nat := (g.lastX + 1 - cnSub g.p0 15).toNat

/-- The recorded payload of a lane crossing: in a full-rate recording from the wake buffer in place, else from LPDDR6 as staged (R394). -/
def State.recorded (s : State) (l : Nat) (x : CN) : Option (BitVec 1472) :=
  if s.log.mode = 1 then ((tget [] s.cap.frames (l / 16)).find? fun f => decide (f.cn = x)).map fun f => f.payOf (l % 16)
  else if (x - cnSub s.log.p0 15).toNat < s.log.span then s.stagedOf s.img s.log.stage l x
  else none

/-- The replay's frame in place of the lane's receiver: of a recorded lane, and in a replay armed with PARTIAL of every lane (R393, R395). -/
def State.replays (s : State) (l : Nat) : Bool := s.run.replay && (s.log.has l || s.run.partialR)

/-- The frame that a replay releases in place of a receiver; an unrecorded lane delivers nothing (R395). -/
def State.replayed (s : State) (l : Nat) (n : CN) : Released :=
  let x := n - s.run.rshift
  if !s.log.has l then Released.nothing
  else match s.recorded l x with
  | some p => Released.of p (s.log.maskOf x l)
  | none => Released.nothing

/-! ### The logbook (14 R390 to R392) -/

/-- The lane crossing is one that the recording holds. -/
def State.records (s : State) (l : Nat) (n : CN) : Bool :=
  s.log.active && !s.run.replay && s.log.has l && cnLe (cnSub s.log.p0 15) n

/-- Frames that a full-rate recording holds of one lane (R391, 08 R260). -/
def LogState.depth (g : LogState) : Nat := capDepth g.lanes

/-- The packet of one lane crossing in stream mode: first block, then the payload (R391). -/
def streamPacket (l : Nat) (n : CN) (d : BitVec 1984) (b : Nat) : List Dword :=
  ((0 : BitVec 6) ++ BitVec.ofNat 6 l ++ (1 : BitVec 1) ++ (0 : BitVec 1) ++ BitVec.ofNat 2 (l / 16) ++ n) ::
    (List.range b).map fun j => d.extractLsb' (64 * j) 64

/-- The readout lane to which the recording assigns a lane: one byte per recorded lane, in lane order. -/
def LogState.outLane (g : LogState) (l : Nat) : Nat :=
  (g.assign.getD ((List.range l).filter g.has).length 0).toNat

/-- A recorded lane crossing in its Quay's frame in the wake buffer, while that has room (R391, 08 R261). -/
def State.putFrame (s : State) (l : Nat) (n : CN) (r : Released) : State :=
  let q := l / 16
  let ls := lanesIn s.log.lanes q
  let fs := tget [] s.cap.frames q
  let old := if (fs.getLast?.map Frame.cn) = some n then fs.dropLast else fs
  let f := match fs.getLast? with
    | some f => if f.cn = n then f else { f with cn := n, fault := 0, pays := ls.map fun _ => 0 }
    | none => { cn := n, lanes := laneMask ls, fault := 0, beacon := 0, trig := false, mtv := false, pays := ls.map fun _ => 0 }
  let g := { f with pays := f.pays.set (ls.idxOf (l % 16)) (r.data.setWidth 1472)
                    fault := if r.mask23 = 0 then f.fault else f.fault ||| (1 : BitVec 16) <<< (l % 16) }
  if s.log.depth ≤ old.length then s else { s with cap := { s.cap with frames := tset s.cap.frames q (old ++ [g]) } }

/-- A released lane crossing entered in the recording: its loss entry, and its frame in the buffer or on a readout lane. -/
def State.recordFrame (s : State) (l : Nat) (n : CN) (r : Released) : State :=
  if !s.records l n then s
  else
    let s0 := { s with log := { s.log with lastX := n } }
    let s1 := if r.mask23 ≠ 0 then s0.logLoss (.loss n l r.mask23) else s0
    if s1.log.mode = 1 then s1.putFrame l n r else s1.sendFrame (s1.log.outLane l) n (streamPacket l n r.data (s1.lane l).blk)

/-! ### Substitution and faults (R294, R295) -/

/-- The fault history of the lane counts the release of crossing n: on a chain lane from the run's first frame with no lost block on (10
R312). -/
def State.histBegins (s : State) (l : Nat) (n : CN) (r : Released) : Bool :=
  (s.lane l).role == 1 || (s.hubOf l).histOn || (decide (r.mask23 = 0) && s.inRun n)

/-- A lane fault (R295, R301). -/
def State.laneFault (s : State) (l : Nat) : State := (s.lnkEvt l 5).fault 2 l

/-- A release counted in the history; a substituted frame that brings the history to FLIM is a lane fault. -/
def State.noteSubst (s : State) (l : Nat) (n : CN) (r : Released) : State :=
  let sub := decide (r.mask23 ≠ 0)
  let s0 := if sub then s.lnkCount l 2 1 else s
  if !s0.histBegins l n r then s0
  else
    let x := s0.lane l
    let h := (sub :: x.hist).take 1024
    let s1 := s0.setLane l { x with hist := h }
    let s2 := if x.role = 2 ∧ !(s1.hubOf l).histOn then s1.setHub l { s1.hubOf l with histOn := true } else s1
    if sub ∧ x.flim ≠ 0 ∧ x.flim ≤ h.countP (· = true) then s2.laneFault l else s2

/-! ### The chain stage (10 R310 to R313) -/

/-- Word w of flit f (10 R310). -/
def chainWord (d : BitVec 1984) (f w : Nat) : Word := d.extractLsb' (64 + 512 * f + 32 * w) 32

/-- A block of flit f is lost. -/
def flitLost (m : BitVec 31) (f : Nat) : Bool := m.extractLsb' (1 + 8 * f) 8 ≠ 0

/-- NF of a received header, where block 0 was received. -/
def headerNf (r : Released) : Option Nat := if r.mask.getLsbD 0 then none else some (r.data.extractLsb' 0 2).toNat

/-- One chain map entry of input crossing n driven (R312). -/
def State.driveChain (n : CN) (r : Released) (fill : Word) (bad : Bool) (s : State) (e : ChainMap × Nat) : State :=
  let lost := bad || flitLost r.mask e.1.flit
  let d := if lost then fill else chainWord r.data e.1.flit e.1.word
  let t : Token := { tag := 1, epoch := (s.epochOf n).epoch, data := d }
  let s1 := s.driveEdge e.1.edge (e.1.tau - ((s.cn - n).toNat * s.hdr.n + s.tick)) t
  { s1 with out := { s1.out with chainIn := s1.out.chainIn ++ [{ c := n, ix := e.2, data := d, lost := lost }] } }

/-- A frame released on a chain receive lane in the run: its words driven, lost flits counted, the flits held (R312). -/
def State.chainRelease (s : State) (l : Nat) (lp : Loop) (n : CN) (r : Released) : State :=
  let maps := (s.imgAt (s.epochOf n).slot).cred.maps
  let nf := lp.nf ((n.toNat + lp.upl) % 2)
  let bad := (headerNf r).any (· ≠ nf)
  let lost := (List.range nf).filter fun f => bad || flitLost r.mask f
  let s1 := s.count (.hub l 1) lost.length
  let s2 := if bad then s1.raiseBit (.chn l) 1 else s1
  let es := maps.zipIdx.filter fun e => e.1.lane == l && e.1.par.admits n
  let s3 := es.foldl (State.driveChain n r lp.fill bad) s2
  let h := s3.hubOf l
  s3.setHub l { h with held := (h.held ++ [{ x := n, flits := (List.range nf).map fun f => r.data.extractLsb' (64 + 512 * f) 512
                                             lostF := (List.range nf).map fun f => lost.contains f }]), lastX := some n }

/-- A reverse frame released on the lane of a send loop: its credit mark (R313). -/
def State.takeCredit (s : State) (l : Nat) (r : Released) : State :=
  if r.mask.getLsbD 0 then s else s.setHub l { s.hubOf l with cx := some (r.data.extractLsb' 40 24) }

/-- What a release means to the chain. -/
def State.chainSide (s : State) (l : Nat) (n : CN) (r : Released) : State :=
  if (s.lane l).role ≠ 2 ∨ !s.armed then s
  else
    let s1 := match s.img.recvLoop l with
      | some lp => if s.inRun n then s.chainRelease l lp n r else s
      | none => s
    match s1.img.sendLoop l with
    | some _ => s1.takeCredit l r
    | none => s1

/-! ### FRAME_RELEASE (R291) -/

/-- The ring with one more lane crossing (08 R250). -/
def State.ringPush (s : State) (l : Nat) (n : CN) (p : Payload) : State :=
  { s with chan := { s.chan with ring := tset s.chan.ring l (({ x := n, pay := p } :: tget [] s.chan.ring l).take 16) } }

/-- The release of lane crossing n: in a replay the recording's where it has the lane (14 R393). -/
def State.release (s : State) (l : Nat) (n : CN) : State :=
  let r := if s.replays l then (s, s.replayed l n) else s.takeHeld l n
  (((r.1.ringPush l n r.2.payload).recordFrame l n r.2).noteSubst l n r.2).chainSide l n r.2

/-- The lane releases in this crossing and has not yet: tick 0, an input or chain role. -/
def State.releaseDue (s : State) (l : Nat) : Bool :=
  let x := s.lane l
  let n := cnSub s.cn x.rofs
  decide (s.tick = 0) && (x.role == 1 || x.role == 2) && ((tget [] s.chan.ring l).head?.map fun e => decide (e.x ≠ n)).getD true

/-- FRAME_RELEASE (R291): frame CN - ROFS of an input or chain lane. -/
def execFrameRelease (lane : Nat) (s : State) : Out :=
  if lane ≥ 64 then .fault .noSuchUnit
  else if s.releaseDue lane then .next (s.release lane (cnSub s.cn (s.lane lane).rofs)) else .next s

/-! ### LANECOMMIT and CNOFS_APPLY (R304) -/

/-- The lane's offset waits for the first marker after the crossing; its limit is in force. -/
def actLanecommit (s : State) (w : Waiting) : State :=
  let l := (w.req.opd 0).toNat
  (s.setLane l { s.lane l with cnofsAt := some (w.at_, (w.req.opd 1).extractLsb' 0 24), flim := (w.req.opd 2).toNat }).coverChange true

def cmdLanecommit : KCmd :=
  { spec := { op := 0x0503, maxs := [63, 2 ^ 24 - 1, 1024], run := .any, mir := true, cross := fun _ => true }
    own := fun s _ => .now s 0 [], act := actLanecommit }

/-- LANECOMMIT (R304, 15 R407). -/
def execLanecommit (h : CmdHdr) (lane cnofs flim : Dword) (s : State) : Out :=
  kSubmit cmdLanecommit (mkReq 0x0503 h [lane, cnofs, flim] []) s

/-- CNOFS_APPLY (R304): the commits of this lane that name the present crossing. -/
def execCnofsApply (lane : Nat) (s : State) : Out :=
  if lane ≥ 64 then .fault .noSuchUnit
  else
    .next (((s.dueNow 0x0503 s.cn).filter fun w => w.req.opd 0 == BitVec.ofNat 64 lane).foldl
      (fun u w => (actLanecommit (u.dropWaiting w.jseq) w).effectNotice w s.cn) s)

/-! ### LANEIDLE (R303), LANETUNE (R298), LANEALIGN (R306) -/

/-- A lane into or out of electrical idle: its domain is reset (17 R468, R469), it holds no lock, and on leaving its transmitter
begins with a training burst and a new superframe. The transmitter of an input lane stays idle. -/
def Lane.idle (x : Lane) (enter : Bool) : Lane :=
  let y := { x.unlocked with eirx := x.eirx || enter, wake := !enter, burst := false }
  if enter || x.role == 1 then y.quietTx else if x.eitx then y.light else y

/-- LANEIDLE on a lane: a mirror lane of a solo device stays in electrical idle (12 R335); in the clock safe state a lane waits for the
clocks to return (17 R465, R466). -/
def State.idleLane (s : State) (x : Lane) (enter : Bool) : Lane :=
  if x.role = 3 ∧ !s.pairMode then x.idle true
  else if s.clk.safe then { x.idle true with wake := !enter }
  else x.idle enter

def ownLaneidle (s : State) (w : Waiting) : KAns :=
  let l := (w.req.opd 0).toNat
  let x := s.lane l
  if s.armed ∧ x.role ≠ 0 then .refuse { code := 0xB007 }
  else .now ((s.setLane l (s.idleLane x (w.req.opd 1 == 1))).flushCrossing 2 1 x.buf.length) 0 []

def cmdLaneidle : KCmd := { spec := { op := 0x0A07, maxs := [63, 1], run := .any }, own := ownLaneidle, act := noAct }

/-- LANEIDLE (R303, 15 R407). -/
def execLaneidle (h : CmdHdr) (lane enter : Dword) (s : State) : Out := kSubmit cmdLaneidle (mkReq 0x0A07 h [lane, enter] []) s

/-- The settings that the adaptation found are free values in the fields of LNK_TXEQ, LNK_RXEQ and LNK_DFE (DESIGN CHOICE, log entry 16). -/
def ownLanetune (s : State) (w : Waiting) : KAns :=
  let k := s.freeCtr
  let tx := Config.freeWord k &&& 0x3FFFFFFF
  let rx := Config.freeWord (k + 1) &&& 0xFFFF0000
  let df := Config.freeWord (k + 2) &&& 0x3FFFFFFF
  if (s.lane (w.req.opd 0).toNat).role = 0 then .refuse { code := 0xB007 }
  else .now { s with freeCtr := k + 3 } 0 (leBytes 4 tx.toNat ++ leBytes 4 rx.toNat ++ leBytes 4 df.toNat)

def cmdLanetune : KCmd := { spec := { op := 0x0A05, maxs := [63], run := .no }, own := ownLanetune, act := noAct }

/-- LANETUNE (R298, 15 R407): the adaptation ends with its command (DESIGN CHOICE, log entry 16). -/
def execLanetune (h : CmdHdr) (lane : Dword) (s : State) : Out := kSubmit cmdLanetune (mkReq 0x0A05 h [lane] []) s

def ownLanealign (s : State) (w : Waiting) : KAns :=
  .long { s with kly := { s.kly with align := s.kly.align ++ [{ w := w, left := 65536, minSl := 65535 }] } }

def cmdLanealign : KCmd := { spec := { op := 0x0A06, maxs := [], run := .yes }, own := ownLanealign, act := noAct }

/-- LANEALIGN (R306, 15 R407). -/
def execLanealign (h : CmdHdr) (s : State) : Out := kSubmit cmdLanealign (mkReq 0x0A06 h [] []) s

/-- The smallest R_OFS from 2 on that leaves 8 ticks of slack (R306, 01 R28). -/
def smallestRofs (rofs n minSl : Nat) : Nat :=
  ((List.range 65536).find? fun r => decide (2 ≤ r ∧ rofs * n + 8 ≤ minSl + r * n)).getD 2

/-- One crossing of the lane alignments in progress; each ends with its 65,536th. -/
def State.alignCrossing (s : State) : State :=
  let ended (a : Align) : Bool := decide (a.left ≤ 1)
  let s1 := { s with kly := { s.kly with
    align := (s.kly.align.filter fun a => !ended a).map fun a => { a with left := a.left - 1 } } }
  (s.kly.align.filter ended).foldl
    (fun u a => (u.dropLong a.w).endLong a.w (BitVec.ofNat 64 (smallestRofs s.hdr.rofs s.hdr.n a.minSl)) []) s1

/-! ### The Sextant (R300 to R302, R306) -/

def Sext.wwarn (x : Sext) : Nat := (x.limit.extractLsb' 24 8).toNat
def Sext.whard (x : Sext) : Nat := (x.limit.extractLsb' 16 8).toNat
def Sext.hwarn (x : Sext) : Nat := (x.limit.extractLsb' 8 8).toNat
def Sext.hhard (x : Sext) : Nat := (x.limit.extractLsb' 0 8).toNat

/-- SXT_MARGIN after a measurement (R306). -/
def Sext.measured (x : Sext) (w h : BitVec 8) : Sext :=
  let lo (a b : BitVec 8) : BitVec 8 := if x.seen && decide (a.toNat ≤ b.toNat) then a else b
  { x with margin := w ++ h ++ lo (x.margin.extractLsb' 8 8) w ++ lo (x.margin.extractLsb' 0 8) h, seen := true }

/-- A measurement of lane l checked against its limits (R301): the warning, the second in a row below a hard limit, with a health entry for each
(15 R417). -/
def State.measure (s : State) (l : Nat) (w h : BitVec 8) : State :=
  let x := (s.sextOf l).measured w h
  let hard := decide (w.toNat < x.whard ∨ h.toNat < x.hhard)
  let warn := decide (w.toNat < x.wwarn ∨ h.toNat < x.hwarn)
  let k := if hard then x.streak + 1 else 0
  let s1 := s.setSext l { x with streak := k }
  let regs := leBytes 4 x.margin.toNat ++ leBytes 4 x.limit.toNat
  let m : Word := (if warn then 1 else 0) ||| (if 2 ≤ k then 2 else 0)
  let s2 := if warn then (s1.raise (.sxt l) m).healthAdd 1 l regs else s1.raise (.sxt l) m
  let s3 := if 2 ≤ k then s2.healthAdd 1 l regs else s2
  if 2 ≤ k then s3.laneFault l else s3

/-- The watch runs: a run, or after a hazard freeze, on a receiving lane with a role (R301, R304). -/
def State.watching (s : State) (l : Nat) : Bool :=
  (s.armed || decide (s.run.reason = .hazard)) && (s.lane l).role != 0

/-- The code of the last eye of a lane: upper in PAM4, the only one in NRZ (R306). -/
def Lane.lastEye (x : Lane) : BitVec 2 := if x.ui = 2 then 2 else 1

/-- A scan in progress after 64 more points (R302). -/
def Sext.advance (x : Sext) (last : BitVec 2) : Sext :=
  if !x.busy then x
  else if x.done.toNat + 64 < 4096 then { x with done := x.done + 64 }
  else if x.eye = last then { x with done := 4096 }
  else { x with eye := x.eye + 1, done := 0 }

/-- SEXTANT_MEASUREMENT (R301): a measurement of the watch. During an eye scan it follows 64 scan points (R302). -/
def execSextantMeasurement (lane : Nat) (width height : BitVec 8) (s : State) : Out :=
  if lane ≥ 64 then .fault .noSuchUnit
  else
    let s1 := s.setSext lane ((s.sextOf lane).advance (s.lane lane).lastEye)
    if s1.watching lane then .next (s1.measure lane width height) else .next s1

def ownEyescan (s : State) (w : Waiting) : KAns :=
  let l := (w.req.opd 0).toNat
  let x := s.sextOf l
  if x.busy ∨ (s.lane l).role = 0 ∨ !(s.lane l).lock then .refuse { code := 0xB007 }
  else
    let cfg : Word := (w.req.opd 1).extractLsb' 0 5 ++ (w.req.opd 2).extractLsb' 0 7 ++ (0 : BitVec 20)
    .long ((s.setSext l { x with cfg := cfg, busy := true, eye := if (s.lane l).ui = 2 then 0 else 1, done := 0 }).covered s true)

def cmdEyescan : KCmd :=
  { spec := { op := 0x0A04, maxs := [63, 31, 127, 2 ^ 64 - 1], mins := [0, 16], zero := [3], run := .any }, own := ownEyescan
    act := noAct }

/-- EYESCAN (R302, 15 R407). -/
def execEyescan (h : CmdHdr) (lane dwell ethr haddr : Dword) (s : State) : Out :=
  kSubmit cmdEyescan (mkReq 0x0A04 h [lane, dwell, ethr, haddr] []) s

/-- The points of a scan: 4,096 for each eye. -/
def Lane.points (x : Lane) : Nat := if x.ui = 2 then 12288 else 4096

/-- A point is open: its errors do not exceed ETHR (R300). -/
def pointOpen (ethr : Nat) (c : BitVec 32) : Bool := decide (c.toNat ≤ ethr)

/-- The open points from the centre outwards on one line of an eye, up and down, until a closed one on each side (R301). -/
def openRun (at_ : Nat → Bool) : Nat :=
  ((List.range 32).takeWhile fun i => at_ (32 + i)).length + ((List.range 32).takeWhile fun i => at_ (31 - i)).length

/-- Width and height of an eye from its 4,096 counts, 64 levels for each phase in turn (DESIGN CHOICE, log entry 82). -/
def eyeOf (ethr : Nat) (counts : List (BitVec 32)) : BitVec 8 × BitVec 8 :=
  let o (phase level : Nat) : Bool := pointOpen ethr (counts.getD (64 * phase + level) (BitVec.allOnes 32))
  (BitVec.ofNat 8 (openRun fun p => o p 32), BitVec.ofNat 8 (openRun fun v => o 32 v))

/-- The watch measurement after the last 64 points of a scan: the middle eye, or the only one (R301, R302). -/
def State.measureScan (s : State) (l : Nat) (counts : List (BitVec 32)) : State :=
  let e := eyeOf ((s.sextOf l).cfg.extractLsb' 20 7).toNat (if (s.lane l).ui = 2 then counts.drop 4096 else counts)
  if s.watching l then s.measure l e.1 e.2 else s

/-- EYESCAN_COMPLETE (R302): the counts in host memory, 4 bytes each (DESIGN CHOICE, log entry 82), eye by eye, and the scan's last
measurement. -/
def execEyescanComplete (lane : Nat) (counts : List (BitVec 32)) (s : State) : Out :=
  if lane ≥ 64 then .fault .noSuchUnit
  else
    match s.kly.longs.find? fun w => w.req.op.toNat == 0x0A04 && w.req.opd 0 == BitVec.ofNat 64 lane with
    | none => .next s
    | some w =>
      let bytes := (counts.take (s.lane lane).points).flatMap fun c => leBytes 4 c.toNat
      let x := s.sextOf lane
      let s1 := (s.setSext lane { x with busy := false, done := 4096, eye := (s.lane lane).lastEye }).measureScan lane counts
      .next (((s1.hostWrite (w.req.opd 3).toNat bytes).raiseBit (.sxt lane) 2).dropLong w |>.endLong w 0 [])

end Sys2Proof.Machine
end

