-- ==== Sys2Proof/Machine/Output.lean ====
section
/-! DEFINITION. Output assembly, the fast decision outputs and the chain's transmit side (01_the_crossing.md R28 to R34,
10_chains_and_hub.md R310 to R319, R323, 14_digests_and_replay.md R383, R384). -/

namespace Sys2Proof.Machine

/-- This member holds authority; a solo device always does (12 R334, R353). -/
def State.hasAuth (s : State) : Bool := !s.pairMode || s.pair.auth

/-! ### Output assembly (01 R33, 10 R319) -/

/-- The crossing in which input crossing c is assembled: C + R_OFS + A + 1 (01 R26). -/
def State.asmAt (s : State) (c : CN) : CN := cnAdd c (s.hdr.rofs + s.hdr.a + 1)

/-- The token stands at the port and stream time of an entry for input crossing c (05 R151). -/
def EdgeTok.isAt (k : EdgeTok) (n : Nat) (c : CN) (e : OschEnt) : Bool :=
  decide (k.port = e.edge ∧ k.tick = e.stau % n ∧ k.cn = cnAdd c (e.stau / n))

/-- Some entry of the image that computes the crossing names the token's port and stream time. -/
def State.named (s : State) (k : EdgeTok) : Bool :=
  (List.range s.hdr.a).any fun d =>
    let c := cnSub k.cn (s.hdr.rofs + 1 + d)
    (s.imgAt (s.epochOf c).slot).osch.ents.any fun e =>
      e.edge == k.port && e.stau == (s.hdr.rofs + 1 + d) * s.hdr.n + k.tick && e.par.admits c

/-- What the entries of a crossing collect. -/
structure Collect where
  fdec  : BitVec 16
  pay   : Tbl Word
  chain : List (Nat × Nat × Nat × Word)
  bytes : List Byte
  devs  : List Nat

/-- One entry: its token's DATA, 0 where none came, and a deviation where none came or its epoch is not the crossing's. -/
def collectOne (toks : List EdgeTok) (n : Nat) (c : CN) (ep : BitVec 2) (a : Collect) (e : OschEnt) : Collect :=
  let t := (toks.find? fun k => k.isAt n c e).map EdgeTok.tok
  let d := (t.map Token.data).getD 0
  let bad := (t.map fun x => decide (x.epoch ≠ ep)).getD true
  let a1 := { a with bytes := a.bytes ++ leBytes 4 d.toNat, devs := if bad then a.devs ++ [e.edge] else a.devs }
  match e.kind with
  | .fdec b => { a1 with fdec := a1.fdec ||| (if d.getLsbD 0 then (1 : BitVec 16) <<< b else 0) }
  | .record w => { a1 with pay := tset a1.pay w d }
  | .chain l f w => { a1 with chain := a1.chain ++ [(l, f, w, d)] }

/-- The chain part of the input digest (14 R383): the DATA of each entry that admits C, in CRED order. -/
def State.chainBytes (s : State) (i : Image) (c : CN) : List Byte :=
  (i.cred.maps.zipIdx.filter fun e => e.1.par.admits c).flatMap fun e =>
    let fill := ((i.recvLoop e.1.lane).map Loop.fill).getD 0
    let d := ((s.out.chainIn.find? fun k => decide (k.c = c ∧ k.ix = e.2)).map ChainIn.data).getD fill
    leBytes 4 d.toNat

/-- The record after assembly. -/
def State.assembled (s : State) (r : OutRec) (i : Image) (a : Collect) (devs : Nat) : OutRec :=
  let sub := s.out.chainIn.any fun k => decide (k.c = r.c) && k.lost
  { r with fdec := a.fdec, pay := tgets 0 a.pay 0 (i.osch.plen / 4), chain := a.chain, odig := crc64 a.bytes
           idig := crc64 (r.inA ++ s.chainBytes i r.c), asm := true
           flags := r.flags ||| (if sub then 0x800 else 0) ||| (if devs = 0 then 0 else 0x1000) }

/-- An OUTPUT violation of the detector at an edge port (05 R173, R175). -/
def State.outViol (s : State) (e : Nat) : Violation :=
  let c := s.edgeCell e
  { y := c.2.1, x := c.1, port := c.2.2, kind := 6, exp := 0, obs := 0 }

/-- Deviations of input crossing c at the ports listed (01 R33, R34): counted, recorded, a fault; in debug mode the detector
sees them. -/
def State.deviate (s : State) (c : CN) (l : List Nat) : State :=
  if l = [] then s
  else
    let s1 := (s.count .deviation l.length).raiseBit .runLat 1
    let s2 := { s1 with out := { s1.out with latCn := c } }
    let s3 := if s2.run.debug && !s2.run.filling then
        { s2 with arr := { s2.arr with viol := s2.arr.viol ++ l.map s2.outViol } } else s2
    s3.fault 2 0

/-- The assembly of a record's crossing, in the Quays whose array side is clocked (17 R462): its tokens, and the tokens of past ticks, waypoints among them, that no entry names; the
deviations of these are charged to this record (R33; DESIGN CHOICE, log entry 35). -/
def State.assemble (s : State) (r : OutRec) : State :=
  let i := s.imgAt r.slot
  let es := i.osch.ents.filter fun e => e.par.admits r.c && s.portRuns e.edge
  let a := es.foldl (collectOne s.arr.edge s.hdr.n r.c r.epoch) { fdec := 0, pay := [], chain := [], bytes := [], devs := [] }
  let rest := s.arr.edge.filter fun k => !(es.any fun e => k.isAt s.hdr.n r.c e)
  let stray := rest.filter fun k => cnLt k.cn s.cn && !s.named k
  let bad := stray.filter fun k => cnLe s.run.fillEnd k.cn
  let devs := a.devs ++ bad.map EdgeTok.port
  let r1 := s.assembled r i a devs.length
  let s1 := { s with
    arr := { s.arr with edge := rest.filter fun k => !stray.contains k }
    out := { s.out with recs := s.out.recs.map fun (x : OutRec) => if x.c = r.c then r1 else x
                        chainIn := s.out.chainIn.filter fun k => !cnLe k.c r.c } }
  s1.deviate r.c devs

/-- OUTPUT_ASSEMBLY (01 R33): the input crossing whose assembly runs in this crossing. -/
def execOutputAssembly (s : State) : Out :=
  match s.out.recs.find? fun r => !r.asm && decide (s.asmAt r.c = s.cn) with
  | some r => .next (s.assemble r)
  | none => .next s

/-! ### FDEC (01 R29, 10 R323) -/

/-- The decision bits due in this crossing; low where no decision is due or this member has no authority. -/
def State.fdecDue (s : State) : BitVec 16 :=
  if !s.hasAuth then 0
  else ((s.out.recs.find? fun r => r.asm && decide (cnAdd r.c s.latL = s.cn)).map OutRec.fdec).getD 0

/-- FDEC_DRIVE (R29): at tick t of the crossing. -/
def execFdecDrive (s : State) : Out :=
  if s.live && decide (s.tick = s.hdr.t) then .next { s with out := { s.out with fdec := s.fdecDue, fdecZ := false } } else .next s

/-! ### Records (10 R317) -/

/-- The flags as the record leaves: TAKE where this member's authority began with it (12 R344). -/
def State.leaveFlags (s : State) (r : OutRec) : BitVec 13 := r.flags ||| (if s.pair.takeC = some r.c then 0x008 else 0)

/-- The record as it leaves for the first time: AUTH of this crossing and the next ICTR. -/
def State.emitRec (s : State) (r : OutRec) : State × OutRec :=
  let r1 := { r with auth := s.hasAuth, flags := s.leaveFlags r, ictr := s.out.ictr, sent := true }
  ({ s with out := { s.out with ictr := s.out.ictr + 1, recs := s.out.recs.map fun (x : OutRec) => if x.c = r.c then r1 else x } }, r1)

/-- The bytes of a record (R317). -/
def State.recBytes (s : State) (r : OutRec) : List Byte :=
  let w : BitVec 16 := BitVec.ofBool r.auth ++ s.pair.role ++ r.flags
  leBytes 6 r.c.toNat ++ leBytes 2 (s.imgIndex r.slot).toNat ++ leBytes 2 w.toNat ++ leBytes 2 (4 * r.pay.length) ++
  leBytes 4 r.ictr.toNat ++ leBytes 8 r.idig.toNat ++ leBytes 8 r.odig.toNat ++ r.pay.flatMap fun x => leBytes 4 x.toNat

/-! ### Chain frames (R310 to R314) -/

/-- The crossing of a held frame's last drive; its release crossing where nothing of it is driven (R312). -/
def State.freedAt (s : State) (l : Nat) (x : CN) : CN :=
  let ms := (s.imgAt (s.epochOf x).slot).cred.maps.filter fun m => m.lane == l && m.par.admits x
  cnAdd x ((ms.map fun m => m.tau / s.hdr.n).foldl max (s.lane l).rofs)

/-- CX for a frame that leaves in this crossing: handed over at the end of crossing y, 4 crossings before, it speaks of the
end of y - 1 (R313; DEDUCED, log entry 36). -/
def State.creditMark (s : State) (l upl : Nat) : BitVec 24 :=
  let e := cnSub s.cn 5
  let held := (s.hubOf l).held.filter fun f => cnLe (cnAdd f.x (s.lane l).rofs) e && cnLt e (s.freedAt l f.x)
  let x := ((held.head?).map ChainFrame.x).getD (cnSub e (s.lane l).rofs + 1)
  (cnSub x upl).extractLsb' 0 24

/-- The flit words of a lane for a record: zeros where no entry names a word. -/
def flitBlocks (r : Option OutRec) (l nf : Nat) : List Dword :=
  let ws := (r.map OutRec.chain).getD []
  let word (f w : Nat) : Word := ((ws.find? fun e => e.1 == l && e.2.1 == f && e.2.2.1 == w).map fun e => e.2.2.2).getD 0
  (List.range nf).flatMap fun f => (List.range 8).map fun b => word f (2 * b + 1) ++ word f (2 * b)

/-- Flits in flight at a send: those of the frames from CX to the one being sent; all of them before any reverse frame. -/
def inFlight (sent : List (CN × Nat)) (cx : Option (BitVec 24)) : Nat :=
  let ok (c : CN) : Bool := match cx with
    | some v => decide (((c.extractLsb' 0 24 : BitVec 24) - v).toNat < 2 ^ 23)
    | none => true
  ((sent.filter fun p => ok p.1).map Prod.snd).sum

/-- The credits of a send loop checked as the frame of input crossing c is handed to the transmit pipeline (R313). -/
def State.checkCredit (s : State) (l : Nat) (lp : Loop) (c : CN) : State :=
  let h := s.hubOf l
  let nf := lp.nf (c.toNat % 2)
  let sent := (if nf = 0 then h.sent else (c, nf) :: h.sent).take 65536
  let k := inFlight sent h.cx
  let s1 := s.setHub l { h with sent := sent, inflt := BitVec.ofNat 16 k, maxfl := BitVec.ofNat 16 (max k h.maxfl.toNat) }
  if k > lp.bound then ((s1.count (.hub l 0) 1).raiseBit (.chn l) 0).fault 2 l else s1

/-- Blocks of a frame sent on a chain lane: 1 + 8 F of the loop that the send direction carries, or 1 (R310). -/
def Image.sendLen (i : Image) (l : Nat) : Nat := 1 + ((i.sendLoop l).map fun p => 8 * max p.nf0 p.nf1).getD 0

/-- The frame of input crossing c on chain lane l, with CNX = c (R311). -/
def State.chainSend (s : State) (l : Nat) (c : CN) : State :=
  let i := s.img
  let rec_ := s.out.recs.find? fun r => decide (r.c = c)
  let nf := ((i.sendLoop l).map fun p => p.nf (c.toNat % 2)).getD 0
  let b := i.sendLen l
  let cx := ((i.recvLoop l).map fun p => s.creditMark l p.upl).getD 0
  let head : Dword := cx ++ (0 : BitVec 38) ++ BitVec.ofNat 2 nf
  let body := flitBlocks rec_ l nf
  let blocks := head :: (body ++ List.replicate (b - 1 - body.length) 0)
  let h := s.hubOf l
  let e := cnSub s.cn 5
  let s1 := s.sendFrame l c blocks
  s1.setHub l { h with cxOut := cx, held := h.held.filter fun f => cnLt e (s.freedAt l f.x) }

/-- The end of device crossing y hands over the frame of input crossing y - L + 1, which leaves 4 crossings later (R311, R313); each send
loop counts its flits in flight then, as R314 and R325 reckon them (DEDUCED, log entry 36). -/
def State.handOver (s : State) : State :=
  if s.live then
    (List.range 64).foldl (fun u l => match u.img.sendLoop l with
      | some lp => u.checkCredit l lp (cnSub (s.cn + 1) s.latL)
      | none => u) s
  else s

/-- CHAIN_FRAME_TRANSMIT (R311): at tick 0 of crossing C + L + 3 of a run, on a chain lane. -/
def execChainFrameTransmit (lane : Nat) (s : State) : Out :=
  if lane ≥ 64 then .fault .noSuchUnit
  else if s.live && decide (s.tick = 0) && (s.lane lane).role == 2 && !s.sentNow lane then
    .next (s.chainSend lane (cnSub s.cn (s.latL + 3)))
  else .next s

end Sys2Proof.Machine
end

