-- ==== Sys2Proof/Machine/Chrono.lean ====
section
/-! DEFINITION. The Chronometer (13_chronometer.md R355 to R377): the time base, its corrections, time-stamps, pulses, PPS, and
the events that act at an instant of its time. Times are integers of 2^-16 ns (units u). -/

namespace Sys2Proof.Machine

/-! ### The time (R357 to R360) -/

/-- Calendar mode is in force (R356). -/
def Chrono.cal (k : Chrono) : Bool := k.cfg.getLsbD 31

/-- STHR in ns. -/
def Chrono.sthr (k : Chrono) : Nat := (k.cfg.extractLsb' 0 20).toNat

/-- The rate correction of counter mode since the anchor (R357). -/
def Chrono.drift (k : Chrono) : Int := ((k.c.toNat : Int) - k.a.toNat) * ((k.inc.toNat : Int) - 2 ^ 40) / 2 ^ 40

/-- The time in units u (R357, R358). -/
def Chrono.now (k : Chrono) : Int :=
  if k.cal then (k.sec.toNat * 10 ^ 9 + k.ns : Int) * 65536 + (k.sub.toNat / 2 ^ 24 : Nat)
  else k.c.toNat + k.ofs + k.drift

/-- The step-free scale (R365), up to a constant: only its differences are used. -/
def Chrono.free (k : Chrono) : Int := k.now - k.steps

/-- The layout of R360 for a time of t units. -/
def Chrono.layout (k : Chrono) (t : Nat) : BitVec 128 :=
  if k.cal then BitVec.ofNat 64 (t / 65536 / 10 ^ 9) ++ BitVec.ofNat 32 (t / 65536 % 10 ^ 9) ++ BitVec.ofNat 32 (t % 65536)
  else BitVec.ofNat 128 (t % 2 ^ 96)

/-- The units that a value in the layout of R360 spells. -/
def Chrono.units (k : Chrono) (v : BitVec 128) : Nat :=
  if k.cal then ((v.extractLsb' 64 64).toNat * 10 ^ 9 + (v.extractLsb' 32 30).toNat) * 65536 + (v.extractLsb' 0 16).toNat
  else (v.extractLsb' 0 96).toNat

/-- CHR_TIME (R376). -/
def Chrono.time (k : Chrono) : BitVec 128 := k.layout k.now.toNat

/-- A time-stamp of an edge d units from now, at a resolution of 2^-4 ns (R364). -/
def Chrono.stampIn (k : Chrono) (d : Nat) : Nat := (k.now.toNat + d) / 4096 * 4096

/-- A time-stamp of an edge `phase` sixteenths of a nanosecond into the present cycle. -/
def Chrono.stamp (k : Chrono) (phase : BitVec 4) : Nat := k.stampIn (phase.toNat * 4096)

/-- A stamp on the step-free scale. -/
def Chrono.stampFree (k : Chrono) (d : Nat) : Int := (k.stampIn d : Int) - k.steps

/-! ### One cycle of the time clock (R355, R358) -/

/-- Calendar mode, once per cycle. -/
def Chrono.calCycle (k : Chrono) : Chrono :=
  let acc := k.sub.toNat + k.inc.toNat
  let ns := k.ns + acc / 2 ^ 40
  { k with sub := BitVec.ofNat 40 acc, ns := if ns ≥ 10 ^ 9 then ns - 10 ^ 9 else ns, sec := if ns ≥ 10 ^ 9 then k.sec + 1 else k.sec }

/-- One cycle of the 1 GHz time clock. -/
def Chrono.cycle (k : Chrono) : Chrono := if k.cal then k.calCycle else { k with c := k.c + 65536 }

/-- The time clock runs: from LREFCLK, or from the crystal where that has failed (R355). -/
def State.timeRuns (s : State) : Bool := !s.chr.stopped && (if s.chr.srcX then s.clk.xtalOk else s.clk.lrefOk)

/-- The Chronometer's part of one cycle of every running clock. -/
def State.chrTick (s : State) : State := if s.timeRuns then { s with chr := s.chr.cycle } else s

/-! ### Pulses (R372, R373) -/

def State.pulse (s : State) (p : Nat) : Pulse := tget Pulse.reset s.chr.pulses p
def State.setPulse (s : State) (p : Nat) (x : Pulse) : State := { s with chr := { s.chr with pulses := tset s.chr.pulses p x } }

/-- The first edge time, in whole ns, rounded up. -/
def Chrono.startNs (k : Chrono) (x : Pulse) : Nat := (k.units x.start + 65535) / 65536

/-- The time of the generator's next edge, in units u. -/
def Chrono.edgeAt (k : Chrono) (x : Pulse) : Int := ((k.startNs x + x.nextK * x.per.toNat : Nat) : Int) * 65536

/-- The generator has edges left. -/
def Pulse.live (x : Pulse) : Bool := x.en && !(x.done && decide (x.per = 0))

/-- Edges that lie before time t: skipped (R373). -/
def Chrono.edgesBefore (k : Chrono) (x : Pulse) (t : Int) : Nat :=
  let d := t - k.edgeAt x
  if d ≤ 0 then 0 else if x.per = 0 then 1 else ((d + ((x.per.toNat * 65536 : Nat) : Int) - 1) / ((x.per.toNat * 65536 : Nat) : Int)).toNat

/-- The generator past n edges; counted says that they were skipped. -/
def Pulse.pass (x : Pulse) (n : Nat) (counted : Bool) : Pulse :=
  if n = 0 then x
  else { x with nextK := x.nextK + n, done := x.done || decide (x.per = 0), skip := if counted then satAdd x.skip n else x.skip }

/-- Skipped edges of generator p counted, and the event of CHR_EVT that this is (R373, R376). -/
def State.skipEdges (s : State) (p n : Nat) : State × Word :=
  if n = 0 then (s, 0) else (s.setPulse p ((s.pulse p).pass n true), 0x20)

/-- What an operation of one cycle has done, with its events of CHR_EVT raised together (16 R439). -/
def chrEvents (r : State × Word) : State := r.1.raise .chr r.2

/-- The generator after a backward step (R373): the next edge is the one after the last edge fired. Edges that still lie in the past have been
counted as skipped already (DEDUCED, log entry 84). -/
def Chrono.rewind (k : Chrono) (x : Pulse) : Pulse :=
  let y := { x with nextK := x.firedK, done := x.done && decide (x.firedK ≠ 0) }
  if y.live then y.pass (k.edgesBefore y k.now) false else y

/-- A step of d units at the generators (R373): a forward step skips the edges that it passes in every running one. -/
def State.stepPulses (s : State) (d : Int) : State × Word :=
  (List.range 8).foldl (fun a p =>
    let u := a.1
    let x := u.pulse p
    if d < 0 then (u.setPulse p (u.chr.rewind x), a.2)
    else if x.live then let r := u.skipEdges p (u.chr.edgesBefore x u.chr.now); (r.1, a.2 ||| r.2) else a) (s, 0)

/-- The outputs are held low while LREFCLK has failed (R375) and in the clock safe state (17 R465). -/
def State.pulsesHeld (s : State) : Bool := s.clk.safe || !s.clk.lrefOk

/-- PULSE_EDGE (R372): the edge that the time has reached. Width 0 drives no pulse; while the outputs are held low the edge is
skipped and counted (R375). -/
def execPulseEdge (p : Nat) (s : State) : Out :=
  if p ≥ 8 then .fault .noSuchUnit
  else
    let x := s.pulse p
    if x.live && !x.high && decide (s.chr.edgeAt x ≤ s.chr.now) then
      if s.pulsesHeld then .next (chrEvents (s.skipEdges p 1))
      else
        .next (s.setPulse p { x.pass 1 false with high := decide (x.wid ≠ 0), firedK := x.nextK + 1
                                                  endAt := (s.chr.free + ((x.wid.toNat * 65536 : Nat) : Int)).toNat })
    else .next s

/-- A generator that begins a schedule: at the first of its edges that is not in the past (R372); a one-shot pulse in the past is skipped for good (R373). The
edges before stand as fired, so that no backward step brings them. -/
def Chrono.begin (k : Chrono) (x : Pulse) : Pulse × Nat :=
  let n := if x.done && decide (x.per = 0) then 0 else k.edgesBefore x k.now
  let y := x.pass n (decide (x.per = 0))
  ({ y with firedK := y.nextK }, if x.per = 0 then n else 0)

/-- PSTART, PPER and PWID. -/
abbrev Schedule := BitVec 128 × Word × Word

def Pulse.staged (x : Pulse) : Schedule := (x.stStart, x.stPer, x.stWid)

/-- A schedule in force: a one-shot pulse that is already past is counted as skipped (R373). -/
def State.applyPulse (s : State) (p : Nat) (c : Schedule) : State × Word :=
  let r := s.chr.begin { s.pulse p with start := c.1, per := c.2.1, wid := c.2.2, done := false, nextK := 0, firedK := 0, defer := none }
  (s.setPulse p r.1, if r.2 = 0 then 0 else 0x20)

/-- A schedule that takes force changes words that a region of the integrity engine covers (16 R454). -/
def State.coverPulse (s : State) (p : Nat) (old : Pulse) : State :=
  let x := s.pulse p
  let o := 0x41000 + 0x40 * p
  if (decide (x.start ≠ old.start) && s.regionMeets o (o + 0x10)) || (decide (x.per ≠ old.per) && s.regionMeets (o + 0x10) (o + 0x14)) ||
     (decide (x.wid ≠ old.wid) && s.regionMeets (o + 0x14) (o + 0x18)) then s.coverChange false else s

/-- The end of the pulse of generator p: a schedule that waited takes force (R372). -/
def State.pulseLow (s : State) (p : Nat) : State :=
  let x := s.pulse p
  let s1 := s.setPulse p { x with high := false }
  match x.defer with
  | some c => (chrEvents (s1.applyPulse p c)).coverPulse p x
  | none => s1

/-- Every pulse that is high ends (R375). -/
def State.pulsesLow (s : State) : State := (List.range 8).foldl (fun u p => if (u.pulse p).high then u.pulseLow p else u) s

/-- PULSE_WIDTH_END (R372): the width has run on the step-free scale; a commit that waited takes effect. -/
def execPulseWidthEnd (p : Nat) (s : State) : Out :=
  if p ≥ 8 then .fault .noSuchUnit
  else
    let x := s.pulse p
    if x.high && decide ((x.endAt : Int) ≤ s.chr.free) then .next (s.pulseLow p) else .next s

/-- A write or commit by a requester that does not own the group: ignored, OWNER set (16 R448). -/
def State.notOwner (s : State) : State := s.raiseBit .hst 3

/-- PWID ≥ PPER with PPER not zero (R372). -/
def Pulse.stBad (x : Pulse) : Bool := decide (x.stPer ≠ 0 ∧ x.stPer.toNat ≤ x.stWid.toNat)

/-- A commit of generator p (R372): refused, deferred as it stands to the end of a pulse that is high, or applied. -/
def State.commitPulse (s : State) (p : Nat) : State × Word :=
  let x := s.pulse p
  if x.stBad then (s, 0x40)
  else if x.high then (s.setPulse p { x with defer := some x.staged }, 0)
  else s.applyPulse p x.staged

/-- A write of EN (R377): a generator that begins to run passes the edges that are in the past without counting them; a
one-shot pulse in the past is counted as skipped. -/
def State.writePulseEn (s : State) (p : Nat) (en : Bool) : State × Word :=
  let x := s.pulse p
  if en && !x.en then
    let r := s.chr.begin x
    (s.setPulse p { r.1 with en := true }, if r.2 = 0 then 0 else 0x20)
  else (s.setPulse p { x with en := en }, 0)

/-- CHR_PCTL (R377): COMMIT, by the group's owner, then EN. -/
def State.writePctl (s : State) (host : Bool) (p : Nat) (v : Word) : State :=
  let r : State × Word := if v.getLsbD 0 then (if host then s.commitPulse p else (s.notOwner, 0)) else (s, 0)
  let e := r.1.writePulseEn p (v.getLsbD 31)
  chrEvents (e.1, r.2 ||| e.2)

/-! ### PPS (R374) -/

/-- Whole seconds that the time has reached. -/
def Chrono.wholeSec (k : Chrono) : Nat := (k.now / (65536 * 10 ^ 9)).toNat

/-- PPS_OUT's high time in ms. -/
def Chrono.ppsWidth (k : Chrono) : Nat := min (k.pps.extractLsb' 20 10).toNat 999

/-- PPS_OUT has risen at second n already. -/
def Chrono.drove (k : Chrono) (n : Nat) : Bool := k.ppsRuns.any fun r => decide (r.1 ≤ n ∧ n ≤ r.2)

/-- Second n joins the seconds driven. -/
def addRun (n : Nat) : List (Nat × Nat) → List (Nat × Nat)
  | (a, b) :: r => if n = b + 1 then (a, n) :: r else (n, n) :: (a, b) :: r
  | [] => [(n, n)]

/-- PPS_OUT_EDGE (R374): a whole second that the time has reached. No step brings an edge that has been driven again. -/
def execPpsOutEdge (s : State) : Out :=
  let k := s.chr
  if k.pps.getLsbD 31 && decide (k.ppsLast < k.wholeSec) then
    let high := decide (k.ppsWidth ≠ 0) && !s.pulsesHeld && !k.drove k.wholeSec
    .next { s with chr := { k with ppsLast := k.wholeSec, ppsHigh := high || k.ppsHigh
                                   ppsRuns := if high then addRun k.wholeSec k.ppsRuns else k.ppsRuns
                                   ppsEnd := if high then (k.free + ((k.ppsWidth * 10 ^ 6 * 65536 : Nat) : Int)).toNat else k.ppsEnd } }
  else .next s

/-- PPS_OUT_WIDTH_END (R374). -/
def execPpsOutWidthEnd (s : State) : Out :=
  if s.chr.ppsHigh && decide ((s.chr.ppsEnd : Int) ≤ s.chr.free) then .next { s with chr := { s.chr with ppsHigh := false } } else .next s

/-- PPS_IN (R374). -/
def execPpsIn (phase : BitVec 4) (s : State) : Out :=
  if s.chr.pps.getLsbD 30 then
    .next (({ s with chr := { s.chr with ppsIn := s.chr.layout (s.chr.stamp phase) } }).raiseBit .chr 3)
  else .next s

/-- A write of CHR_PPS: seconds already reached when OUTEN is set give no edge. -/
def State.writePps (s : State) (v : Word) : State :=
  let k := s.chr
  let last := if v.getLsbD 31 && !k.pps.getLsbD 31 then k.wholeSec else k.ppsLast
  { s with chr := { k with pps := v &&& 0xFFF00000, ppsLast := last } }

/-! ### Corrections (R356, R357, R359, R361 to R363) -/

/-- The time base armed (R361, R363). -/
def State.chrArm (s : State) : State :=
  let k := s.chr
  { s with chr := { k with st := .armed, refCnt := 0, lastRef := 0, lateCnt := 0
                           pulses := k.pulses.map fun p => (p.1, { p.2 with skip := 0 }) } }

/-- Whole ns of a step, rounded toward zero, as CHR_LASTREF holds it (R362, R376). -/
def refNs (d : Int) : Dword := BitVec.ofInt 64 (max (-2 ^ 63) (min (2 ^ 63 - 1) (d.tdiv 65536)))

/-- The step may not be applied: in LOCKED beyond STHR, or to a negative time (R359, R361). -/
def Chrono.stepBad (k : Chrono) (d : Int) : Bool :=
  (decide (k.st = .locked) && decide (k.sthr = 0 ∨ d.natAbs > k.sthr * 65536)) || decide (k.now + d < 0)

/-- The time moved by d units (R357, R358). -/
def Chrono.stepped (k : Chrono) (d : Int) : Chrono :=
  if k.cal then
    let t := (((k.sec.toNat * 10 ^ 9 + k.ns) * 2 ^ 40 + k.sub.toNat : Nat) + d * 2 ^ 24 : Int).toNat
    { k with sec := BitVec.ofNat 64 (t / 2 ^ 40 / 10 ^ 9), ns := t / 2 ^ 40 % 10 ^ 9, sub := BitVec.ofNat 40 t }
  else { k with ofs := k.ofs + d }

/-- The commit of the staged step (R361, R362): the staging copy clears (16 R446; DEDUCED, log entry 37). With its events. -/
def State.commitStep (s : State) : State × Word :=
  let d := s.chr.stStep.toInt
  let s0 := { s with chr := { s.chr with stStep := 0 } }
  let k := s0.chr
  if k.stepBad d then
    (({ s0 with chr := { k with refCnt := satAdd k.refCnt 1, lastRef := refNs d } }).healthAdd 4 0 (leBytes 8 (refNs d).toNat), 2)
  else
    let k1 := k.stepped d
    let k2 := { k1 with steps := k.steps + d, st := if k.st = .armed then .locked else k.st
                        ppsLast := k1.wholeSec, captures := [] }
    let r := ({ s0 with chr := k2 }).stepPulses d
    (r.1, 1 ||| r.2)

/-- The commit of the staged rate (R357, R359): the time stays continuous. With its events. -/
def State.commitRate (s : State) : State × Word :=
  let k := s.chr
  let i := k.stInc
  if i.toNat < 2 ^ 40 - 2 ^ 31 ∨ 2 ^ 40 + 2 ^ 31 < i.toNat then
    ({ s with chr := { k with refCnt := satAdd k.refCnt 1 } }, 2)
  else if k.cal then ({ s with chr := { k with inc := i } }, 0)
  else ({ s with chr := { k with ofs := k.ofs + k.drift, a := k.c, inc := i } }, 0)

/-- A write of CHR_CMD (R363), one cycle of the time clock: ARM, then the rate commit, then the step. A commit by a requester that does not own
the group is ignored and sets OWNER (16 R448). -/
def State.writeChrCmd (s : State) (owner : Bool) (v : Word) : State :=
  let s1 := if v.getLsbD 2 then s.chrArm else s
  if v.extractLsb' 0 2 = 0 then s1
  else if !owner then s1.notOwner
  else
    let r : State × Word := if v.getLsbD 1 then s1.commitRate else (s1, 0)
    let t : State × Word := if v.getLsbD 0 then r.1.commitStep else (r.1, 0)
    chrEvents (t.1, r.2 ||| t.2)

/-- Every launch that waits for its time discarded: its command ends ABORTED (R356; DESIGN CHOICE, log entry 38). -/
def State.dropLaunches (s : State) : State :=
  let ws := s.kly.longs.filter fun w => w.req.op.toNat == 0x0902 && s.chr.launches.any fun q => q.jseq == w.jseq
  let s1 := ws.foldl (fun u w => (u.dropLong w).abortLong w { code := 0xB00D }) s
  { s1 with chr := { s1.chr with launches := [] } }

/-- A write of CHR_CFG that changes MODE (R356). The step-free scale goes on. -/
def State.changeMode (s : State) (v : Word) : State :=
  let s1 := s.dropLaunches
  let k := s1.chr
  { s1 with chr := { k with
      cfg := v &&& 0x800FFFFF, c := 0, ofs := 0, a := 0, sec := 0, ns := 0, sub := 0, inc := BitVec.ofNat 42 (2 ^ 40), st := .unset
      steps := -k.free, ppsLast := 0, ppsRuns := [], captures := [], pulses := k.pulses.map fun p => (p.1, { p.2 with en := false }) } }

/-- A write of CHR_CFG. -/
def State.writeChrCfg (s : State) (v : Word) : State :=
  if v.getLsbD 31 ≠ s.chr.cal then s.changeMode v else { s with chr := { s.chr with cfg := v &&& 0x800FFFFF } }

/-! ### CCMD (R366, 19 R512, R513, 00 R11) -/

/-- An orbit marker: CHR_ORBCN and CHR_ORBTIME, and the capture that the time service keeps (R366). -/
def State.orbit (s : State) (phase : BitVec 4) : State :=
  let t := s.chr.layout (s.chr.stamp phase)
  { s with chr := { s.chr with orbCn := s.cn, orbTime := t, captures := ((s.cn, t) :: s.chr.captures).take 16 } }

/-- ORBIT_MARKER (R366). A replay ignores the CCMD input (14 R393). -/
def execOrbitMarker (phase : BitVec 4) (s : State) : Out :=
  if s.run.replay then .next s else .next ((s.ccmdWord 0x3C).orbit phase)

/-- An orbit-zero (00 R10, R11): outside a run CN becomes 0; in a run it is counted and flagged. It is an orbit marker as well. -/
def State.orbitZero (s : State) (phase : BitVec 4) : State :=
  if s.armed then
    (({ s with pkg := { s.pkg with ozRun := true } }).count .ccOz 1).orbit phase
  else ({ s with cn := 0 }).orbit phase

/-- ORBIT_ZERO (00 R11, 19 R512). -/
def execOrbitZero (phase : BitVec 4) (s : State) : Out :=
  if s.run.replay then .next s else .next ((s.ccmdWord 0xC3).orbitZero phase)

/-- CCMD_IDLE (19 R512). -/
def execCcmdIdle (s : State) : Out := .next s

/-- A word that R512 defines. -/
def ccmdDefined (w : Byte) : Bool := w == 0x00 || w == 0x3C || w == 0xC3 || w == 0x5A

/-- CCMD_INVALID (19 R512): an undefined word is ignored and counted. -/
def execCcmdInvalid (word : Byte) (s : State) : Out :=
  if ccmdDefined word || s.run.replay then .next s else .next (s.count .ccInv 1)

end Sys2Proof.Machine
end

