-- ==== Sys2Proof/Machine/Hub.lean ====
section
/-! DEFINITION. Hub lanes (10_chains_and_hub.md R320 to R322, 13_chronometer.md R366 to R371, 15_binnacle_mailboxes.md R418):
hub frames with record fragments and the side stream, the transparent clock, received packets, time-launched frames, and the
commands TIMESVC, TLAUNCH, TMAP and MGMTSEND. -/

namespace Sys2Proof.Machine

/-! ### Packets (R321) and their egress (13 R369, R370) -/

/-- The 8-byte header of a packet. -/
def Pkt.bytes (p : Pkt) : List Byte := leBytes 8 (p.len + 65536 * (p.typ % 16)) ++ p.body

/-- The bytes of a list from place i on replaced. -/
def patch (l : List Byte) (i : Nat) (v : List Byte) : List Byte := l.take i ++ v ++ l.drop (i + v.length)

/-- messageType and versionPTP of a timing frame's message. -/
def Pkt.msgType (p : Pkt) : Nat := (p.body.getD 8 0).toNat % 16
def Pkt.version (p : Pkt) : Nat := (p.body.getD 9 0).toNat % 16

/-- correctionField with d more, at most 0x7FFF_FFFF_FFFF_FFFF (R369). -/
def addCorrection (body : List Byte) (d : Int) : List Byte :=
  let c : Dword := BitVec.ofNat 64 (beNat ((body.drop 16).take 8))
  let t := c.toInt + d
  patch body 16 (beBytes 8 (if t > 2 ^ 63 - 1 then 0x7FFFFFFFFFFFFFFF else (BitVec.ofInt 64 t).toNat))

/-- A forwarded Sync or Delay_Req of version 2 takes its residence time (R369). -/
def Pkt.forwarded (k : Chrono) (d : Nat) (p : Pkt) (i : Int) : Pkt :=
  if (p.msgType = 0 ∨ p.msgType = 1) ∧ p.version = 2 then { p with body := addCorrection p.body (k.stampFree d - i) } else p

/-- A Sync of Klowyn's with ONESTEP in calendar mode takes its originTimestamp (R370). -/
def Pkt.oneStep (k : Chrono) (d : Nat) (p : Pkt) : Pkt :=
  if k.cal && (p.body.getD 1 0).getLsbD 2 && p.msgType == 0 then
    let t := k.stampIn d
    let b := patch p.body 42 (beBytes 6 (t / 65536 / 10 ^ 9) ++ beBytes 4 (t / 65536 % 10 ^ 9))
    { p with body := addCorrection b ((t % 65536 : Nat) : Int) }
  else p

/-- A packet whose reference edge passes the pins d units from now (R364). -/
def Pkt.egress (k : Chrono) (d : Nat) (p : Pkt) : Pkt :=
  if p.typ ≠ 1 then p else match p.ingress with
  | some i => p.forwarded k d i
  | none => p.oneStep k d

/-- The packet's stamp goes to Klowyn: a timing frame of Klowyn's with TSREQ (R370). -/
def Pkt.asks (p : Pkt) : Bool := p.typ == 1 && p.ingress.isNone && (p.body.getD 1 0).getLsbD 1

/-- What fills the side blocks of one frame: bytes, offset of the first packet that begins, tags whose stamps are asked for, commands whose
launched frames begin, and what stays queued. -/
structure SideOut where
  bytes : List Byte
  first : Option Nat
  tags  : List (BitVec 16)
  went  : List Nat
  rest  : List Pkt
  pos   : Nat

/-- The side stream's next bytes (R320, R321). -/
def fillSide (k : Chrono) (d : Nat) : List Pkt → Nat → Nat → Nat → SideOut
  | [], _, _, _ => { bytes := [], first := none, tags := [], went := [], rest := [], pos := 0 }
  | p :: ps, pos, room, ofs =>
    if room = 0 then { bytes := [], first := none, tags := [], went := [], rest := p :: ps, pos := pos }
    else
      let q := if pos = 0 then p.egress k d else p
      let b := q.bytes.drop pos
      let f := if pos = 0 then some ofs else none
      let tg := if pos = 0 ∧ p.asks then [BitVec.ofNat 16 (leAt p.body 2 2)] else []
      let wt := if pos = 0 then p.launch.toList else []
      if b.length ≤ room then
        let r := fillSide k d ps 0 (room - b.length) (ofs + b.length)
        { r with bytes := b ++ r.bytes, first := f.orElse fun _ => r.first, tags := tg ++ r.tags, went := wt ++ r.went }
      else { bytes := b.take room, first := f, tags := tg, went := wt, rest := q :: ps, pos := pos + room }

/-! ### HUB_FRAME_TRANSMIT (R320) -/

/-- Block 0 (R320). -/
def hubHead (slen : Nat) (first : Option Nat) (cn : CN) : Dword := BitVec.ofNat 8 slen ++ BitVec.ofNat 8 (first.getD 0xFF) ++ cn

/-- The fragment of hub lane j of h: record blocks j, j + h, … -/
def fragment (blocks : List Dword) (h j : Nat) : List Dword := (blocks.zipIdx.filter fun b => b.2 % h == j).map Prod.fst

/-- The record of the crossing whose hub frame this is, emitted if it has not been. -/
def State.hubRecord (s : State) (c : CN) : State × Option OutRec :=
  match s.out.recs.find? fun r => r.asm && decide (r.c = c) with
  | none => (s, none)
  | some r => if r.sent then (s, some r) else let e := s.emitRec r; (e.1, some e.2)

/-- Stamps passed to Klowyn. -/
def State.stampTags (s : State) (d : Nat) (l : List (BitVec 16)) : State :=
  if l = [] then s
  else { s with chr := { s.chr with stamps := ((l.map fun t => (t, s.chr.layout (s.chr.stampIn d))) ++ s.chr.stamps).take 64 } }

/-- A launched frame's first block has left: its egress stamp completes the command (13 R371). -/
def State.launched (s : State) (d j : Nat) : State :=
  let t := s.chr.layout (s.chr.stampIn d)
  match s.kly.longs.find? fun w => w.jseq == j with
  | some w => (s.dropLong w).endLong w (t.extractLsb' 0 64) (leBytes 16 t.toNat)
  | none => s

/-- From a frame's hand-over to its first bit at the pins, in units u: the blocks that wait before it, the rest of the block time in progress (09
R296), and the 8.0 ns that the transmit latency has beyond a codeword period (09 R284; DEDUCED, log entry 83). -/
def State.egressDelay (s : State) (x : Lane) : Nat :=
  let block := 1730 * 10 ^ 8 * 65536 / (25 * lineRate x.rate)
  let p := s.tickParts x
  x.txq.length * block + (if p.2 = 0 then 0 else (p.2 - x.txFrac % p.2) % p.2 * block / p.2) + 8 * 65536

/-- The hub frame of crossing c on lane l. -/
def State.hubSend (s : State) (l : Nat) (c : CN) (phase : BitVec 4) : State :=
  let hs := s.hubLanes
  let j := hs.findIdx (· = l)
  let e := s.hubRecord c
  let s1 := e.1
  let frag := match e.2 with
    | some r => fragment (blocksOf (s1.recBytes r)) hs.length j
    | none => []
  let n := (s1.lane l).qblk - 2 - frag.length
  let h := s1.hubOf l
  let d := phase.toNat * 4096 + s1.egressDelay (s1.lane l)
  let f := fillSide s1.chr d h.side h.sidePos (8 * n) 0
  let side := blocksOf f.bytes
  let blocks := hubHead f.bytes.length f.first (if frag = [] then BitVec.allOnes 48 else c) :: (frag ++ side ++ List.replicate (n - side.length) 0)
  let s2 := s1.setHub l { h with side := f.rest, sidePos := f.pos, last := blocks }
  let s3 := s2.sendFrame l s2.cn blocks
  let s4 := (if frag = [] then s3 else s3.count (.hub l 2) 1).stampTags d f.tags
  f.went.foldl (fun u j => u.launched d j) s4

/-- HT of the image that computes input crossing c (R319). -/
def State.hubTick (s : State) (c : CN) : Nat := (s.imgAt (s.epochOf c).slot).osch.ht

/-- HUB_FRAME_TRANSMIT (R320): at tick HT of crossing C + L + 3; outside a run the frame carries no fragment. -/
def execHubFrameTransmit (lane : Nat) (phase : BitVec 4) (s : State) : Out :=
  if lane ≥ 64 then .fault .noSuchUnit
  else
    let c := cnSub s.cn (s.latL + 3)
    if (s.lane lane).role == 4 && !s.sentNow lane && (!s.armed || decide (s.tick = s.hubTick c)) then .next (s.hubSend lane c phase)
    else .next s

/-! ### HUB_PACKET_RECEIVE (R322, 13 R368, 15 R418) -/

/-- A packet discarded on receipt (R322, R328). -/
def State.rxDrop (s : State) (l : Nat) : State := (s.count (.hub l 3) 1).raiseBit (.chn l) 2

/-- The copies that FWD names, on the hub lanes other than the receiving one (13 R368). -/
def State.forward (s : State) (l : Nat) (p : Pkt) : State :=
  let fwd := p.body.getD 0 0
  (s.hubLanes.zipIdx.filter fun e => fwd.getLsbD e.2 && e.1 != l).foldl (fun u e => u.sideQueue e.1 p) s

/-- The fixed receive latency of a lane in units u: two codeword periods and 12.0 ns (09 R284), and that of the device's own receive path, which the
spec does not give (R364; DESIGN CHOICE, log entry 83). -/
def Lane.rxLatency (x : Lane) : Int :=
  ((2 * 1730 * 10 ^ 8 * 65536 / lineRate x.rate + 12 * 65536 + Config.rxPath : Nat) : Int)

/-- The ingress stamp of a packet received on lane l, in units u: at the pins, at the resolution of R364. -/
def State.ingress (s : State) (l : Nat) (phase : BitVec 4) : Nat :=
  ((s.chr.now + (phase.toNat * 4096 : Nat) - (s.lane l).rxLatency) / 4096 * 4096).toNat

/-- A packet for Klowyn that finds it down waits in the receiver's 64 KiB, with its stamp (R322). -/
def State.rxHold (s : State) (l : Nat) (p : Pkt) (t : BitVec 128) : State :=
  let h := s.hubOf l
  if ((h.rx.map fun x => x.1.len).sum + p.len ≤ 65536) then s.setHub l { h with rx := h.rx ++ [(p, t)] } else s.rxDrop l

/-- A timing frame delivered to Klowyn with its ingress stamp (13 R368). -/
def State.deliverPkt (s : State) (p : Pkt) (t : BitVec 128) : State :=
  { s with chr := { s.chr with stamps := ((BitVec.ofNat 16 (leAt p.body 2 2), t) :: s.chr.stamps).take 64
                               inbox := ((p.body, t) :: s.chr.inbox).take 64 } }

/-- A received timing frame (13 R367 to R369): delivered to Klowyn with its ingress stamp, forwarded, or both. -/
def State.rxTiming (s : State) (l : Nat) (p : Pkt) (phase : BitVec 4) : State :=
  if p.body.length < 42 then s.rxDrop l
  else
    let pdelay := p.msgType = 2 ∨ p.msgType = 3
    let toKl := (p.body.getD 1 0).getLsbD 0 ∨ pdelay
    let t := s.ingress l phase
    let s1 := if toKl then (if s.kly.up then s.deliverPkt p (s.chr.layout t) else s.rxHold l p (s.chr.layout t)) else s
    if pdelay then s1 else s1.forward l { p with ingress := some ((t : Int) - s.chr.steps) }

/-- A received management packet: CLASS 0x10 goes to the host driver's queue of 64 KiB, the rest are discarded (15 R418). -/
def State.rxMgmt (s : State) (l : Nat) (p : Pkt) : State :=
  let b := p.body.drop 8
  if !s.kly.up then s.rxHold l p 0
  else if p.body.headD 0 = 0x10 ∧ (s.kly.hostMgmt.map List.length).sum + b.length ≤ 65536 then
    { s with kly := { s.kly with hostMgmt := s.kly.hostMgmt ++ [b] } }
  else s.rxDrop l

/-- What a lane's receiver holds, delivered to Klowyn once it is up. -/
def State.deliverLane (s : State) (l : Nat) : State :=
  let h := s.hubOf l
  h.rx.foldl (fun u e => if e.1.typ = 1 then u.deliverPkt e.1 e.2 else u.rxMgmt l e.1) (s.setHub l { h with rx := [] })

/-- Every receiver's packets delivered. -/
def State.deliverHeld (s : State) : State := (tkeys s.hub).foldl State.deliverLane s

/-- HUB_PACKET_RECEIVE (R322): it stands where the packet's first block leaves the receive path (DESIGN CHOICE, log entry 83). -/
def execHubPacketReceive (lane : Nat) (bytes : List Byte) (lost : Bool) (phase : BitVec 4) (s : State) : Out :=
  if lane ≥ 64 then .fault .noSuchUnit
  else if (s.lane lane).role ≠ 4 then .next s
  else
    let p : Pkt := { typ := leAt bytes 2 1 % 16, body := bytes.drop 8, ingress := none, launch := none }
    if lost ∨ leAt bytes 0 2 ≠ bytes.length ∨ bytes.length < 8 ∨ 2048 < bytes.length then .next (s.rxDrop lane)
    else if p.typ = 1 then .next (s.rxTiming lane p phase)
    else if p.typ = 3 then .next (s.rxMgmt lane p)
    else .next (s.rxDrop lane)

/-! ### TLAUNCH and TIME_LAUNCH (13 R371) -/

/-- The packet of a launch is one that R371 describes: TYPE 0x2, its LEN, at least the launch time. -/
def launchPktOk (l : List Byte) : Bool :=
  decide (24 ≤ l.length ∧ l.length ≤ 2048 ∧ leAt l 0 2 = l.length) && leAt l 2 1 == 2 && leAt l 3 5 == 0

/-- The launch time that the operands give. -/
def launchTime (w : Waiting) : BitVec 128 := w.req.opd 2 ++ w.req.opd 1

def ownTlaunch (s : State) (w : Waiting) : KAns :=
  let l := (w.req.opd 0).toNat
  let t := s.chr.units (launchTime w)
  if !launchPktOk (w.req.list 3) then .refuse { code := 0xB003, item := 3 }
  else if (s.lane l).role ≠ 4 then .refuse { code := 0xB007 }
  else if s.chr.now > (t : Int) + 65536000 then
    .long (({ s with chr := { s.chr with lateCnt := satAdd s.chr.lateCnt 1 } }).raiseBit .chr 4)
  else if s.chr.launches.length ≥ 64 then .refuse { code := 0xB00C }
  else
    let body := patch ((w.req.list 3).drop 8) 0 (leBytes 16 (launchTime w).toNat)
    let q : Launch := { lane := l, time := launchTime w, body := body, mbx := w.mbx, jseq := w.jseq, tag := w.req.hdr.tag }
    .long { s with chr := { s.chr with launches := s.chr.launches ++ [q] } }

def cmdTlaunch : KCmd :=
  { spec := { op := 0x0902, maxs := [63, 2 ^ 64 - 1, 2 ^ 64 - 1], run := .any, list := fun _ n => decide (n ≤ 2048) }, own := ownTlaunch
    act := noAct }

/-- The command's frame waits for its time, or in a lane's side stream. -/
def State.launchWaits (s : State) (j : Nat) : Bool :=
  (s.chr.launches.any fun q => q.jseq == j) || s.hub.any fun h => h.2.side.any fun p => p.launch == some j

/-- Launches that wait nowhere: discarded, their commands end ABORTED (R371; DESIGN CHOICE, log entry 38). -/
def State.dropLate (s : State) : State :=
  let late := s.kly.longs.filter fun w => w.req.op.toNat == 0x0902 && !s.launchWaits w.jseq
  late.foldl (fun u w => (u.dropLong w).abortLong w { code := 0xB00D }) s

/-- TLAUNCH (R371, 15 R407). -/
def execTlaunch (h : CmdHdr) (lane timeLo timeHi : Dword) (lst : List Byte) (s : State) : Out :=
  match kSubmit cmdTlaunch (mkReq 0x0902 h [lane, timeLo, timeHi] lst) s with
  | .next t => .next t.dropLate
  | o => o

/-- The launch of the lane that is due: the earliest time reached, in the order of queueing. -/
def State.launchDue (s : State) (l : Nat) : Option Launch :=
  let due := s.chr.launches.filter fun q => decide (q.lane = l ∧ (s.chr.units q.time : Int) ≤ s.chr.now)
  due.find? fun q => due.all fun r => decide (s.chr.units q.time ≤ s.chr.units r.time)

/-- Two launched frames with one launch time. -/
def Pkt.sameLaunch (p q : Pkt) : Bool := q.launch.isSome && q.body.take 16 == p.body.take 16

/-- The place of a launched frame: ahead of every packet not yet begun, but behind frames of the same launch time, which were queued before it
(R371). -/
def insertLaunch (pos : Nat) (p : Pkt) : List Pkt → List Pkt
  | [] => [p]
  | q :: r => if pos ≠ 0 ∨ (q :: r).any p.sameLaunch then q :: insertLaunch 0 p r else p :: q :: r

/-- TIME_LAUNCH (R371): the frame enters its lane's side stream; the command completes when its first block leaves (DESIGN CHOICE, log entry
38). -/
def execTimeLaunch (lane : Nat) (_phase : BitVec 4) (s : State) : Out :=
  if lane ≥ 64 then .fault .noSuchUnit
  else if !s.clk.lrefOk then .next s
  else match s.launchDue lane with
  | none => .next s
  | some q =>
    let h := s.hubOf lane
    let p : Pkt := { typ := 2, body := q.body, ingress := none, launch := some q.jseq }
    let s1 := { s with chr := { s.chr with launches := s.chr.launches.filter fun r => r.jseq != q.jseq } }
    if h.room p then .next (s1.setHub lane { h with side := insertLaunch h.sidePos p h.side })
    else .next (((s1.count (.hub lane 4) 1).raiseBit (.chn lane) 2).dropLate)

/-! ### TIMESVC, TMAP, MGMTSEND -/

def ownTimesvc (s : State) (w : Waiting) : KAns :=
  .now { s with kly := { s.kly with timeEn := w.req.opd 0 == 1, timeDom := (w.req.opd 1).extractLsb' 0 8
                                    timeHub := (w.req.opd 2).extractLsb' 0 8 } } 0 []

def cmdTimesvc : KCmd := { spec := { op := 0x0901, maxs := [1, 255, 255], run := .any }, own := ownTimesvc, act := noAct }

/-- TIMESVC (16 R448, 15 R407): while it is enabled Klowyn owns the step and rate group. -/
def execTimesvc (h : CmdHdr) (enable domain hubmask : Dword) (s : State) : Out :=
  kSubmit cmdTimesvc (mkReq 0x0901 h [enable, domain, hubmask] []) s

/-- The time of input crossing n from the two latest captures (R366), rounded down to a unit (DESIGN CHOICE, log entry 39). -/
def Chrono.mapCn (k : Chrono) (n : CN) : Option (BitVec 128) :=
  match k.captures with
  | (n2, t2) :: (n1, t1) :: _ =>
    let d := (n2 - n1).toNat
    if d = 0 then none
    else
      let a : Int := k.units t1
      let b : Int := k.units t2
      some (k.layout ((b * d + cnDist n n2 * (b - a)) / d).toNat)
  | _ => none

def ownTmap (s : State) (w : Waiting) : KAns :=
  match s.chr.mapCn ((w.req.opd 0).extractLsb' 0 48) with
  | some t => .now s 0 (leBytes 16 t.toNat)
  | none => .refuse { code := 0xB007 }

def cmdTmap : KCmd := { spec := { op := 0x0903, maxs := [2 ^ 48 - 1], run := .any, jrn := false }, own := ownTmap, act := noAct }

/-- TMAP (R366, 15 R407). -/
def execTmap (h : CmdHdr) (cn : Dword) (s : State) : Out := kSubmit cmdTmap (mkReq 0x0903 h [cn] []) s

def ownMgmtsend (s : State) (w : Waiting) : KAns :=
  let l := (w.req.opd 0).toNat
  if (s.lane l).role ≠ 4 then .refuse { code := 0xB007 }
  else .now (s.sideQueue l (mgmtPkt 0x10 (w.req.list 1))) 0 []

def cmdMgmtsend : KCmd :=
  { spec := { op := 0x0D01, maxs := [63], run := .any, list := fun _ n => decide (n ≤ 2032) }, own := ownMgmtsend, act := noAct }

/-- MGMTSEND (15 R407, R418). -/
def execMgmtsend (h : CmdHdr) (lane : Dword) (lst : List Byte) (s : State) : Out :=
  kSubmit cmdMgmtsend (mkReq 0x0D01 h [lane] lst) s

end Sys2Proof.Machine
end

