-- ==== Sys2Proof/Machine/Pair.lean ====
section
/-! DEFINITION. The pair (12_helm_and_watch.md R332 to R353): PAIRCFG and YIELD, the frames a member sends, the comparison of
statuses and the choice of who yields, takeover with re-emission, joining, and the loss of a mirror lane. -/

namespace Sys2Proof.Machine

/-! ### PAIRCFG and YIELD -/

/-- Lanes in the mirror role, in order of lane index: mirror lane i is entry i (R332). -/
def State.mirrorLanes (s : State) : List Nat := ((List.range 64).filter fun l => (s.lane l).role == 3).take 4

/-- Lanes that the board table wires for the mirror role (09 R298). -/
def State.mirrorWired (s : State) : List Nat := ((List.range 64).filter fun l => (leAt s.boot.board (16 * l) 1).testBit 2).take 4

/-- A mirror lane that is to transmit: lit where it stands in electrical idle, in the clock safe state with the clocks' return (17 R465,
R466). -/
def State.openLane (s : State) (x : Lane) : Lane :=
  let y := { x with wake := true }
  if s.clk.safe || !x.eitx then y else y.light

/-- Pair mode opens the mirror lanes. Before any image has given the lanes their roles, the pair forms on the lanes that the board wires for it,
at 64.0 Gb/s (PRESUMED, log entry 40). -/
def State.openMirror (s : State) : State :=
  if s.mirrorLanes ≠ [] then s.mirrorLanes.foldl (fun u l => u.setLane l (u.openLane (u.lane l))) s
  else s.mirrorWired.foldl
    (fun u l => u.setLane l (u.openLane { u.lane l with cfg := 0x60000000, mq := qOf 0 s.clk.mclk, eitx := true })) s

/-- In solo mode the mirror lanes are in electrical idle (R335). -/
def State.closeMirror (s : State) : State := s.mirrorLanes.foldl (fun u l => u.setLane l ((u.lane l).idle true)) s

/-- A member's preferred role: PREF 0 Helm, 1 Watch (R333). -/
def State.preferred (s : State) : BitVec 2 := if s.pair.cfg.getLsbD 29 then 2 else 1

/-- A member that waits for its partner (R333). -/
def State.formAgain (s : State) : State :=
  { s with pair := { s.pair with
      st := .forming, role := 0, auth := false, pst := 0, mlanes := 0, pend := none, yieldCause := none, probation := 0, cack := 0, taken := [], pjoin := false, stepEnd := false
      tx := [], rxBuf := [], serving := false, xferOut := [], xferGot := [], ready := false, defer := [], latchJ0 := none
      rebaseJ := none, latch := none, rejoin := none, takeC := none, rxMiss := 0, laneMiss := [], sent := [], rx := [] } }

def ownPaircfg (s : State) (w : Waiting) : KAns :=
  let o (k : Nat) : Dword := w.req.opd k
  let cfg : Word := BitVec.ofNat 2 (o 0).toNat ++ (o 2).extractLsb' 0 1 ++ (o 3).extractLsb' 0 4 ++ (o 4).extractLsb' 0 1 ++ (0 : BitVec 8) ++
    (o 1).extractLsb' 0 16
  if o 0 = 1 ∧ o 1 = 0 then .refuse { code := 0xB003, item := 1, found := 0 }
  else
    let s1 := { s with pair := { s.pair with cfg := cfg } }
    let s2 := s1.formAgain
    if o 0 = 1 then .now (s2.openMirror.covered s true) 0 []
    else .now (({ s2 with pair := { s2.pair with st := .off, auth := true } } : State).closeMirror.covered s true) 0 []

def cmdPaircfg : KCmd :=
  { spec := { op := 0x0801, maxs := [1, 65535, 1, 10, 1], mins := [0, 0, 0, 4], run := .no }, own := ownPaircfg, act := noAct }

/-- PAIRCFG (R333, R354, 15 R407). -/
def execPaircfg (h : CmdHdr) (mode pairid pref mr autorst : Dword) (s : State) : Out :=
  kSubmit cmdPaircfg (mkReq 0x0801 h [mode, pairid, pref, mr, autorst] []) s

/-- MR (R335). -/
def State.mr (s : State) : Nat := (s.pair.cfg.extractLsb' 25 4).toNat

/-- A host yield: YIELD with CAUSE 0x05 in the frame of the next crossing (R341); a member without a partner to tell computes K from that same
frame (R343, R352). -/
def ownYield (s : State) (_ : Waiting) : KAns :=
  if !s.pairMode then .refuse { code := 0xB007 }
  else if s.paired then
    .now { s with pair := { s.pair with yieldCause := s.pair.yieldCause.orElse fun _ => some 5 } } 0 []
  else
    let p : PendK := { k := cnAdd s.cn (s.mr + 3), cause := 5, mine := true, both := false, lossOfPeer := false }
    .now { s with pair := { s.pair with pend := s.pair.pend.orElse fun _ => some p } } 0 []

def cmdYield : KCmd := { spec := { op := 0x0802, maxs := [], run := .yes }, own := ownYield, act := noAct }

/-- YIELD (R341, 15 R407). -/
def execYield (h : CmdHdr) (s : State) : Out := kSubmit cmdYield (mkReq 0x0802 h [] []) s

/-! ### Mirror frames (R336, R337) -/

/-- The four status blocks (R336). -/
def MStatus.blocks (m : MStatus) : List Dword :=
  [(0 : BitVec 9) ++ BitVec.ofBool m.joined ++ m.role ++ BitVec.ofBool m.auth ++ BitVec.ofBool m.subst ++ BitVec.ofBool m.flt ++
     BitVec.ofBool m.yield ++ m.dcn,
   m.odig, m.idig, (0 : BitVec 8) ++ m.cause ++ m.cack ++ m.pairid]

/-- The status that a frame's first four blocks hold. -/
def statusOf (d : BitVec 1984) : MStatus :=
  let b0 : Dword := d.extractLsb' 0 64
  let b3 : Dword := d.extractLsb' 192 64
  { dcn := b0.extractLsb' 0 48, yield := b0.getLsbD 48, flt := b0.getLsbD 49, subst := b0.getLsbD 50, auth := b0.getLsbD 51
    role := b0.extractLsb' 52 2, joined := b0.getLsbD 54, odig := d.extractLsb' 64 64, idig := d.extractLsb' 128 64
    pairid := b3.extractLsb' 0 16, cack := b3.extractLsb' 16 32, cause := b3.extractLsb' 48 8
    empty := b0.extractLsb' 0 48 == BitVec.allOnes 48 }

/-- The role that a member sends: while it forms, the one it prefers (DEDUCED, log entry 42). -/
def State.sentRole (s : State) : BitVec 2 :=
  if s.pair.rejoin.isSome then 2 else if s.pair.role = 0 then s.preferred else s.pair.role

/-- This member's status for the frame of the present crossing: that of input crossing C = y - L (R336). -/
def State.ownStatus (s : State) : MStatus :=
  let c := cnSub s.cn s.latL
  let r := if s.live && decide (s.run.phase ≠ .paused) then s.out.recs.find? fun r => r.asm && decide (r.c = c) else none
  let one : Bool := r.isNone
  { dcn := if one then BitVec.allOnes 48 else c
    yield := s.pair.yieldCause.isSome
    flt := (r.map fun x => x.flags.getLsbD 1).getD true, subst := (r.map fun x => x.flags.getLsbD 11).getD true
    auth := s.pair.auth, role := s.sentRole, joined := decide (s.pair.st = .joined)
    odig := (r.map OutRec.odig).getD (BitVec.allOnes 64), idig := (r.map OutRec.idig).getD (BitVec.allOnes 64)
    pairid := s.pair.cfg.extractLsb' 0 16, cack := s.pair.cack, cause := s.pair.yieldCause.getD 0, empty := one }

/-- The next packet of a stream: commands go before transfers (R337). -/
def MTx.next (t : MTx) : MTx :=
  if t.cur ≠ [] then t
  else match t.cmds, t.xfers with
  | c :: r, x => { cur := c, cmds := r, xfers := x }
  | [], x :: r => { cur := x, cmds := [], xfers := r }
  | [], [] => t

/-- The bytes of n stream blocks; idle blocks are zero (DESIGN CHOICE, log entry 41). -/
def MTx.pull (t : MTx) : Nat → MTx × List Byte
  | 0 => (t, [])
  | n + 1 =>
    let u := t.next
    let r := MTx.pull { u with cur := u.cur.drop 8 } n
    (r.1, bytesAt u.cur 0 8 ++ r.2)

/-- One mirror lane's frame: four status blocks and B - 4 stream blocks. -/
def State.sendMirror (m : MStatus) (s : State) (e : Nat × Nat) : State :=
  let r := (s.mtx e.2).pull ((s.lane e.1).blen - 4)
  let s1 := s.setMtx e.2 r.1
  s1.sendFrame e.1 s1.cn (m.blocks ++ blocksOf r.2)

/-- A Helm whose run has stopped by a fault while it served a rejoin has told its partner (R351). -/
def PairState.told (p : PairState) : PairState := { p with yieldCause := none, serving := false }

/-- The status kept for the comparison (R340), and the frame of every mirror lane. -/
def State.sendStatus (s : State) : State :=
  let m := s.ownStatus
  let d : DigEnt := { c := m.dcn, odig := m.odig, idig := m.idig, flt := m.flt, subst := m.subst, joined := m.joined }
  let p := { s.pair with sent := ((s.cn, m) :: s.pair.sent).take 16
                         digs := if m.empty then s.pair.digs else (d :: s.pair.digs).take 64 }
  let p1 := if m.yield && !s.paired && !s.armed then p.told else p
  (s.mirrorLanes.zipIdx).foldl (State.sendMirror m) { s with pair := p1 }

/-! ### Choosing (R340 to R343) -/

/-- What one send crossing's two statuses decide: which members yield, and the cause. -/
structure Choice where
  mine  : Bool
  peers : Bool
  cause : BitVec 8

/-- Rule 2 of R342: true where this member yields. -/
def mismatchMine (a b : MStatus) : Bool :=
  if a.flt ≠ b.flt then a.flt
  else if a.idig ≠ b.idig ∧ a.subst ≠ b.subst then a.subst
  else if a.joined ≠ b.joined then !a.joined
  else a.role == 1

/-- The statuses differ in ODIG for the same crossing. -/
def differ (a b : MStatus) : Bool := !a.empty && !b.empty && decide (a.dcn = b.dcn ∧ a.odig ≠ b.odig)

/-- The choice of R342 from this member's status and the peer's; a mismatch during probation has CAUSE 0x07 (R349). -/
def choose (a b : MStatus) : Option Choice :=
  if a.yield || b.yield then some { mine := a.yield, peers := b.yield, cause := if a.yield then a.cause else b.cause }
  else if differ a b then
    let m := mismatchMine a b
    some { mine := m, peers := !m, cause := if a.joined && b.joined then 1 else 7 }
  else none

/-- The Helm yields while the Watch is not JOINED (R351). -/
def helmAlone (a b : MStatus) (c : Choice) : Bool :=
  (c.mine && a.role == 1 && !b.joined) || (c.peers && b.role == 1 && !a.joined)

/-- A change of authority at K, unless one is pending for the same crossing or an earlier one (R343). -/
def State.pendAt (s : State) (p : PendK) : State :=
  match s.pair.pend with
  | some q => if cnLe q.k p.k then s else { s with pair := { s.pair with pend := some p } }
  | none => { s with pair := { s.pair with pend := some p } }

/-- A mismatch counted, recorded and logged (R340, 15 R417). -/
def State.mismatch (s : State) (c : CN) : State :=
  let s1 := ((s.count (.pair 1) 1).raiseBit .pair 2).healthAdd 2 0 [1]
  let s2 := s1.flagWindow 0x002
  { s2 with pair := { s2.pair with vValid := false, mmSeen := true, mmcn := if s2.pair.mmSeen then s2.pair.mmcn else c, probation := 0 } }

/-- A verified crossing (R340); in probation it goes on from the one before, or begins to count anew (R349). -/
def State.match_ (s : State) (c : CN) : State :=
  let s1 := s.count (.pair 0) 1
  let p := s1.pair
  { s1 with pair := { p with vcn := if p.vValid then c else p.vcn
                             probation := if p.st ≠ .probation then p.probation else if c = p.vcn + 1 then p.probation + 1 else 1 } }

/-- The two statuses of send crossing y compared (R340 to R343): digests of the crossings since arming or joining. -/
def State.compare (s : State) (y : CN) (a0 b : MStatus) : State :=
  let a := if cnLt s.pair.vcn a0.dcn then a0 else { a0 with empty := true }
  let s1 := if differ a b then s.mismatch a.dcn
    else if !a.empty && !b.empty && decide (a.dcn = b.dcn) then s.match_ a.dcn else s
  match choose a b with
  | none => s1
  | some c => s1.pendAt { k := cnAdd y (s1.mr + 2), cause := c.cause, mine := c.mine, both := (c.mine && c.peers) || helmAlone a b c
                          lossOfPeer := false }

/-! ### CACK (R338) -/

/-- Completions that the Watch's CACK releases. A long command that still works completes when it ends. -/
def State.release1 (s : State) (c : MirCmd) : State :=
  let s1 := { s with pair := { s.pair with waitCack := s.pair.waitCack.filter fun d => decide (d.seq ≠ c.seq) } }
  if s1.kly.longs.any fun w => w.jseq == c.w.jseq then s1
  else
    let waits := s1.kly.waiting.any fun w => w.jseq == c.w.jseq
    let s2 := if waits then s1 else s1.jEnd c.w.jseq .done 0 c.result
    s2.complete c.w.mbx c.w.req c.w.jseq c.w.cnAcc c.result c.buf

/-- CACK q reaches the commands up to SEQ q. A value beyond the latest packet sent is of an earlier journal epoch and reaches none (DEDUCED, log entry
41). -/
def State.takeCack (s : State) (q : Word) : State :=
  if q.toNat ≤ s.pair.mseq.toNat then (s.pair.waitCack.filter fun c => decide (c.seq.toNat ≤ q.toNat)).foldl State.release1 s else s

/-! ### Peer status (R333, R349, R351) -/

/-- The pair forms: own PAIRID, the other role (R333). A partner that runs is rejoined, not formed with (DEDUCED, log entry 42). -/
def State.form (s : State) (b : MStatus) (lanes : BitVec 4) : State :=
  if b.empty ∧ b.pairid = s.pair.cfg.extractLsb' 0 16 ∧ b.role ≠ s.preferred ∧ b.role ≠ 0 then
    let p := { s.pair with st := .joined, role := s.preferred, auth := decide (s.preferred = 1), pst := 3, pjoin := b.joined, mlanes := lanes
                           cack := 0, taken := [], rxMiss := 0 }
    ({ s with pair := p }).raiseBit .pair 5
  else s

/-- JOINED of the latest status of a partner in the pair (R354): a partner in probation has joined. -/
def State.notePeer (s : State) (b : MStatus) : State :=
  let s1 := { s with pair := { s.pair with pjoin := b.joined } }
  if s.pair.pst = 2 ∧ b.joined then ({ s1 with pair := { s1.pair with pst := 3 } }).raiseBit .pair 5 else s1

/-- PSTATE (R354): the peer's state from its latest status. -/
def PairState.pstate (p : PairState) : BitVec 3 := if p.pst = 3 ∧ !p.pjoin then 0 else p.pst

/-- The mirror lanes of a rejoin, on both members: those on which the first status arrives intact (R354; DEDUCED, log entry 42). -/
def State.noteLanes (s : State) (lanes : BitVec 4) : State :=
  if (s.pair.rejoin.isSome || s.pair.serving) && decide (s.pair.mlanes = 0) then { s with pair := { s.pair with mlanes := lanes } } else s

/-- The end of a REJOIN without success: the member waits for its partner again. -/
def State.rejoinFails (s : State) : State :=
  let s1 := s.formAgain
  match s1.longOf 0x0803 with
  | some w => (s1.dropLong w).abortLong w { code := 0xB00D }
  | none => s1

/-- A rejoining member whose Helm faults or falls silent, or whose latch is late, stops, and the pair re-forms (R351; DESIGN CHOICE for the latch, log
entry 41). -/
def State.rejoinStop (s : State) : State := (if s.armed then s.stopRun .command else s).rejoinFails

/-- The status that this member sent in crossing y. -/
def State.sentAt (s : State) (y : CN) : Option MStatus := (s.pair.sent.find? fun e => decide (e.1 = y)).map Prod.snd

/-- The peer's status of send crossing y (R340). -/
def State.peerStatus (s : State) (y : CN) (b : MStatus) (lanes : BitVec 4) : State :=
  let s1 := ({ s with pair := { s.pair with rxMiss := 0, rx := ((y, b) :: s.pair.rx).take 16 } } : State).noteLanes lanes
  match s1.pair.st with
  | .forming =>
    if s1.pair.rejoin.isSome then (if b.yield then s1.rejoinStop else s1)
    else if !s1.armed then s1.form b lanes else s1
  | .joined | .probation =>
    if s1.pair.pst = 0 then (if s1.armed then s1 else s1.form b lanes)
    else
      let s2 := (s1.notePeer b).takeCack b.cack
      match s2.sentAt y with
      | some a => s2.compare y a b
      | none => s2
  | _ => s1

/-- This member's own YIELD in the frame of y: K follows from it although the peer's frame of y is missing (R343). -/
def State.ownEvidence (s : State) (y : CN) : State :=
  match s.sentAt y with
  | some a =>
    if a.yield then s.pendAt { k := cnAdd y (s.mr + 2), cause := a.cause, mine := true, both := a.role == 1 && !s.pair.pjoin, lossOfPeer := false }
    else s
  | none => s

/-- A release without an intact status: the second in a row is the loss of the peer, with K three crossings after its release
offset from the first missing send crossing (R343). A member that rejoins gives up. -/
def State.peerMissing (s : State) (y : CN) : State :=
  let n := s.pair.rxMiss + 1
  let s1 := { s with pair := { s.pair with rxMiss := n } }
  if s1.paired then
    let s2 := s1.ownEvidence y
    if n ≠ 2 then s2 else (s2.raiseBit .pair 3).pendAt { k := cnAdd (y - 1) (s1.mr + 3), cause := 4, mine := false, both := false, lossOfPeer := true }
  else if n = 2 ∧ s1.pairMode ∧ s1.pair.rejoin.isSome then s1.rejoinStop
  else s1

/-! ### TAKEOVER (R343 to R346, R351, R352) -/

/-- The records that the new Helm re-emits: V + 1 to K - L - 4 (R345). -/
def State.reemits (s : State) (k : CN) : List OutRec :=
  let last := cnSub k (s.latL + 4)
  ((s.out.kept.reverse ++ s.out.recs).filter fun r => r.asm && cnLt s.pair.vcn r.c && cnLe r.c last && cnLe s.run.first r.c)

/-- One re-emitted record in the side stream of a hub lane (R345, 15 R418). -/
def State.reemit (hs : List Nat) (s : State) (e : OutRec × Nat) : State :=
  let r := { e.1 with auth := true, flags := e.1.flags ||| 0x010, ictr := s.out.ictr, sent := true }
  let s1 := { s with out := { s.out with ictr := s.out.ictr + 1 } }
  (s1.sideQueue (hs.getD (e.2 % hs.length) 0) (mgmtPkt 1 (s1.recBytes r))).count (.pair 2) 1

/-- This member takes authority at K (R344, R345). -/
def State.take (s : State) (k : CN) : State :=
  let s1 := { s with pair := { s.pair with role := 1, auth := true, takeC := some (cnSub k (s.latL + 3)) } }
  let s2 := s1.raiseBit .pair 0
  let hs := s2.hubLanes
  if hs = [] then s2 else (s2.reemits k).zipIdx.foldl (State.reemit hs) s2

/-- This member yields: its run stops (R346), with ALERT_N and its log entry. -/
def State.yieldRun (s : State) (cause : BitVec 8) : State :=
  let s1 := ((s.healthAdd 3 0 [cause]).raiseBit .pair 1)
  let s2 := if s1.armed then s1.stopRun .yield else s1
  { s2 with pair := { s2.pair with st := .yielding, auth := false, cause := cause, side := false, pend := none, serving := false, rejoin := none } }

/-- The partner yields: a Watch becomes Helm; a Helm keeps authority and its commands wait for no acknowledgement. -/
def State.peerYields (s : State) (k : CN) (cause : BitVec 8) : State :=
  let s1 := (s.healthAdd 3 1 [cause]).raiseBit .pair 1
  let s2 := { s1 with pair := { s1.pair with cause := cause, side := true, pst := 0, pend := none } }
  if s2.pair.auth then s2.pair.waitCack.foldl State.release1 s2 else s2.take k

/-- The loss of the peer (R352). A member in probation takes no authority (R349), and a member that has raised a fault of its own is no better than
the peer (R351): it stops. -/
def State.peerLost (s : State) (k : CN) : State :=
  if s.pair.yieldCause.isSome then s.yieldRun (s.pair.yieldCause.getD 0) else if s.pair.st = .probation then s.yieldRun 4 else
  let s1 := { s with pair := { s.pair with st := .lost, cause := 4, pst := 0, pend := none } }
  if s1.pair.auth then s1.pair.waitCack.foldl State.release1 s1 else s1.take k

/-- The change of authority at K. A member that is to hold authority from K and has faulted itself stops too: a double fault (R351; DEDUCED for a Helm
that was to keep it, log entry 41). -/
def State.takeover (s : State) (p : PendK) : State :=
  let s1 := { s with pair := { s.pair with kcn := p.k } }
  if p.lossOfPeer then s1.peerLost p.k
  else if p.both || p.mine then s1.yieldRun p.cause
  else if s1.pair.yieldCause.isSome then s1.yieldRun (s1.pair.yieldCause.getD 0)
  else s1.peerYields p.k p.cause

/-- TAKEOVER (R343): at tick 0 of K. -/
def execTakeover (s : State) : Out :=
  match s.pair.pend with
  | some p => if s.cn = p.k then .next (s.takeover p) else .next s
  | none => .next s

/-! ### MIRROR_LANE_DROP, JOINED (R349, R351) -/

/-- MIRROR_LANE_DROP (R351). -/
def execMirrorLaneDrop (i : Nat) (s : State) : Out :=
  if i ≥ 4 then .fault .noSuchUnit
  else if s.pair.mlanes.getLsbD i && decide (1024 ≤ tget 0 s.pair.laneMiss i) then
    .next (({ s with pair := { s.pair with mlanes := s.pair.mlanes &&& ~~~((1 : BitVec 4) <<< i) } }).raiseBit .pair 4)
  else .next s

/-- JOINED (R349): the REJOIN that waits for it completes. -/
def execJoined (s : State) : Out :=
  if s.pair.st = .probation ∧ 64 ≤ s.pair.probation then
    let s1 := ({ s with pair := { s.pair with st := .joined, rejoin := none } }).raiseBit .pair 5
    match s1.longOf 0x0803 with
    | some w => .next ((s1.dropLong w).endLong w 0 [])
    | none => .next s1
  else .next s

end Sys2Proof.Machine
end

