-- ==== Sys2Proof/Machine/Logbook.lean ====
section
/-! DEFINITION. The logbook and replay (14_digests_and_replay.md R390 to R395): LOGSTART, LOGBOOK_START, LOGSTOP, REPLAY, and the
start of a run, which a replay shares with an arming (05 R156, 06 R185). -/

namespace Sys2Proof.Machine

/-! ### LOGSTART (R390, R391) -/

/-- An assignment of stream mode is refused (R391). -/
def State.assignBad (s : State) (lanes : Dword) (lst : List Byte) : Bool :=
  streamBad (fun l => (s.lane l).role) (fun l => (s.lane l).rate) (fun l => (s.lane l).blk) s.clk.mclk lanes lst

/-- Commands of the crossing path that wait already belong to the recording's events (R392; DESIGN CHOICE, log entry 43). -/
def State.logWaiting (s : State) : State := s.kly.waiting.foldl (fun u w => u.logEvent (.cmd w)) s

def ownLogstart (s : State) (w : Waiting) : KAns :=
  let mode := (w.req.opd 0).toNat
  let lanes := w.req.opd 1
  let atArm := w.req.opd 2 == 1
  let lst := w.req.list 3
  if s.log.active || s.log.atArm || s.run.replay || (decide (mode = 1) && (s.captureHolds || s.logHolds)) then .refuse { code := 0xB007 }
  else if mode = 2 ∧ !atArm ∧ s.assignBad lanes lst then .refuse { code := 0xB003, item := 3 }
  else
    let g := { LogState.reset with mode := mode, lanes := lanes, assign := if mode = 2 then lst else [], p0 := w.at_, lastX := cnSub w.at_ 16, active := !atArm
                                   atArm := atArm }
    let cap := if mode = 1 then { s.cap with frames := [], filled := 0 } else s.cap
    .now ({ s with log := g, cap := cap }.logWaiting) 0 []

/-- The images of the library: index, measurement and frame digest, the one that computes input crossing p first (R390, 06 R190). -/
def State.logSlots (s : State) (p : CN) : List (Nat × List Byte × List Byte) :=
  let ent (k : Nat) : Nat × List Byte × List Byte := ((s.imgIndex k).toNat, (s.libSlot k).meas, (s.libSlot k).frame)
  let first := (s.epochOf p).slot
  ent first :: ((tkeys s.kly.lib).filter fun k => (s.libSlot k).used && k != first).map ent

/-- The start record; with a latch unless the recording starts at arming (R390). One latch serves a rebase in the same crossing too (R396). -/
def State.logBegin (s : State) (p : CN) : State :=
  { s with log := { s.log with p0 := p, atArm := false, seed := s.run.seed, delta := s.run.delta, slots := s.logSlots p
                               start := if s.log.atArm then none else some (s.mkLatch p true) }
           run := { s.run with lastP := if s.log.atArm then s.run.lastP else p } }

def actLogstart (s : State) (w : Waiting) : State :=
  if s.log.active && decide (w.req.opd 2 = 0) then s.logBegin w.at_ else s

/-- Number of recorded lanes. -/
def laneCount (m : Dword) : Nat := (recLanes m).length

def cmdLogstart : KCmd :=
  { spec := { op := 0x0701, maxs := [2, 2 ^ 64 - 1, 1], zero := [0, 1], run := .any, mir := true, cross := fun o => o.getD 2 0 == 0
              list := fun o n => n == laneCount (o.getD 1 0) || (o.getD 0 0 == 1 && n == 0) }
    own := ownLogstart, act := actLogstart }

/-- LOGSTART (R390, 15 R407). -/
def execLogstart (h : CmdHdr) (mode lanes atArm : Dword) (lst : List Byte) (s : State) : Out :=
  kSubmit cmdLogstart (mkReq 0x0701 h [mode, lanes, atArm] lst) s

/-- A recording that starts at arming is at its first crossing. -/
def State.armLogDue (s : State) : Bool := s.log.active && s.log.atArm && s.live && decide (s.cn = s.run.first)

/-- LOGBOOK_START (R390): the start record at P0, before the channel stage of input crossing P0, or at the first crossing of the
run. -/
def execLogbookStart (s : State) : Out :=
  if s.armLogDue then .next (s.logBegin s.run.first)
  else .next (s.applyDue cmdLogstart (cnSub s.cn s.hdr.rofs) s.cn)

def ownLogstop (s : State) (_ : Waiting) : KAns :=
  if s.log.active || s.log.atArm then .now (let u := s.drainLosses; { u with log := { u.log with active := false, atArm := false } }) 0 []
  else .refuse { code := 0xB007 }

def cmdLogstop : KCmd := { spec := { op := 0x0702, maxs := [], run := .yes, mir := true }, own := ownLogstop, act := noAct }

/-- LOGSTOP (R391, 15 R407): the losses that are queued are entered first. -/
def execLogstop (h : CmdHdr) (s : State) : Out := kSubmit cmdLogstop (mkReq 0x0702 h [] []) s

/-- A full-rate recording of as many crossings as the buffer holds ends (R391). -/
def State.endFullLog (s : State) : State :=
  if s.log.active && s.log.mode == 1 && decide (s.log.depth ≤ s.log.span) then
    let u := s.drainLosses
    { u with log := { u.log with active := false } }
  else s

/-! ### REPLAY (R393 to R395) -/

/-- Lanes that an image's channel and chain maps read. -/
def Image.readLanes (i : Image) : List Nat := (i.cmap.map CmapEnt.laneIx ++ i.cred.maps.map ChainMap.lane).eraseDups

/-- The slot that an image index names (06 R183). -/
def indexSlot (r : Nat × List Byte × List Byte) : Nat := r.1 % 64

/-- The recorded image of a slot is the library's (R393). -/
def State.sameImage (s : State) (k : Nat) (r : Nat × List Byte × List Byte) : Bool :=
  (s.libSlot k).used && (s.libSlot k).meas == r.2.1 && (s.libSlot k).frame == r.2.2

/-- Slots that recorded FILL commands name. -/
def LogState.fills (g : LogState) : List Nat :=
  g.events.filterMap fun e => match e with
    | .cmd w => if w.req.op.toNat = 0x0301 then some (w.req.opd 0).toNat else none
    | _ => none

/-- Slots whose images a replay fills: those of recorded FILL commands, and that of the shadow planes at P0. -/
def LogState.fillSlots (g : LogState) : List Nat :=
  g.fills ++ match g.start with
    | some l => if l.shadow.st = .empty then [] else [l.shadow.slot]
    | none => []

/-- Every image of the recording stands in the library: the one armed, and those filled under their slots. -/
def State.imagesMatch (s : State) (slot : Nat) : Bool :=
  ((s.log.slots.head?).map (s.sameImage slot)).getD false &&
  s.log.fillSlots.all fun k => ((s.log.slots.find? fun r => indexSlot r == k).map (s.sameImage k)).getD false

/-- Bursts per crossing of a stream replay (R394). -/
def State.replayBursts (s : State) (i : Image) : Nat := ((recLanes s.log.lanes).map fun l => (8 * (i.laneAt l).blk + 31) / 32).sum

/-- Every frame that a stream replay reads is staged from address ofs on; a full-rate replay reads the wake buffer in place (R394). -/
def State.allStaged (s : State) (i : Image) (ofs : Nat) : Bool :=
  s.log.mode == 1 || (List.range s.log.span).all fun k =>
    (recLanes s.log.lanes).all fun l => (s.stagedOf i ofs l (cnAdd (cnSub s.log.p0 15) k)).isSome

/-- The wake buffer no longer holds every frame of a full-rate recording: a later capture has taken it. -/
def State.framesLost (s : State) : Bool :=
  s.log.mode == 1 && ((recLanes s.log.lanes).map (· / 16)).any fun q => decide ((tget [] s.cap.frames q).length < min s.log.span s.log.depth)

/-- The first crossing of the run: S, or up to 31 later, so that the shift is a multiple of 32 (R393). -/
def replayFirst (s p0 : CN) : CN := cnAdd s ((p0 - s).toNat % 32)

def ownReplay (s : State) (w : Waiting) : KAns :=
  let slot := (w.req.opd 0).toNat
  let part := w.req.opd 2 == 1
  let debug := w.req.opd 3 == 1
  let i := s.imgAt slot
  let pl := min s.pwr.pl 2
  if s.pairMode ∨ s.log.active ∨ s.log.slots = [] ∨ !s.imagesMatch slot then .refuse { code := 0xB007 }
  else match s.armBad slot pl debug with
    | some f => .refuse f
    | none =>
      if !part && (s.framesLost || s.log.broken.isSome || i.readLanes.any fun l => !s.log.has l) then .refuse { code := 0xB007 }
      else if s.log.mode = 2 ∧ s.replayBursts i > 32 then .refuse { code := 0xB007, expect := 32, found := s.replayBursts i }
      else if !s.allStaged i (w.staged (w.req.opd 1).toNat) then .refuse { code := 0xB007, item := 1 }
      else
        let first := replayFirst w.at_ s.log.p0
        let u := s.armRun slot pl s.log.seed debug first
        .now { u with run := { u.run with replay := true, partialR := part, rshift := first - s.log.p0
                                          delta := first - s.log.p0 + s.log.delta }
                      log := { u.log with stage := w.staged (w.req.opd 1).toNat } } 0 []

def cmdReplay : KCmd :=
  { spec := { op := 0x0703, maxs := [63, 2 ^ 38 - 1, 1, 1], run := .no, cross := fun _ => true }, own := ownReplay, act := noAct }

/-- REPLAY (R393, 15 R407): at the performance level in force. -/
def execReplay (h : CmdHdr) (slot offset partialR debug : Dword) (s : State) : Out :=
  kSubmit cmdReplay (mkReq 0x0703 h [slot, offset, partialR, debug] []) s

/-! ### RUN_START (04 R131, 06 R185, R189) -/

/-- The shadow planes as at P0: written where they were READY; a fill in progress goes on from the bytes that it had written (R393; DEDUCED, log
entry 43). -/
def State.restoreShadow (s : State) (x : ShadowLatch) : State :=
  let u := if x.st = .ready then s.fillShadow (s.imgAt x.slot) else s
  { u with planes := { u.planes with sh := x.st, shSlot := x.slot, fillPos := x.pos, fillBy := x.by_ + s.run.rshift } }

/-- The carry state of a start latch in force, with the epoch and the shadow planes that it holds (R393). -/
def State.startFrom (s : State) (l : Latch) : State :=
  let e : EpochRec := { c := s.cn, epoch := l.ep, slot := s.run.slot }
  let s1 := { s with planes := { s.planes with actEp := l.ep, epochs := [e] } }
  ((s1.loadArray l.ep).restoreLatch l).restoreShadow l.shadow

/-- The first crossing of a replay. -/
def State.startReplay (s : State) (w : Waiting) : State :=
  let u := actArm (s.dropWaiting w.jseq) w
  let v := match s.log.start with
    | some l => u.startFrom l
    | none => u
  v.effectNotice w s.cn

end Sys2Proof.Machine
end

