-- ==== Sys2Proof/Machine/Power.lean ====
section
/-! DEFINITION. Clocks, monitors, rails, levels, sleep states and thermal limits (17_clocks_resets_power.md R462 to R479,
19_package_and_electrical.md R517 to R523). -/

namespace Sys2Proof.Machine

/-! ### Rails (17 R473, R475, 19 R503, R504) -/

/-- The quadrants' rails off; READ keeps the latest telemetry reading (R481). -/
def State.fieldRailsOff (s : State) : State :=
  { s with pwr := { s.pwr with railok := s.pwr.railok &&& 0xF0, target := [] } }

/-- Every controlled rail on, in the order of R471, the quadrants at PL0. -/
def State.railsOn (s : State) : State :=
  let s1 := (s.fieldRails 0).levelBias 0
  { s1 with pwr := { s1.pwr with pl := 0, railok := 0xFF, retain := false, selfRef := false } }

/-- A lane without its clock or rail: electrical idle in both directions (17 R465). -/
def Lane.dark (x : Lane) : Lane := { x.unlocked.quietTx with eirx := true, burst := false }

def State.darkLanes (s : State) : State := { s with lanes := s.lanes.map fun p => (p.1, p.2.dark) }

/-- What the loss of the Quay and LPDDR6 rails takes away: everything in Quay SRAM and LPDDR6, the library and the tables (17
R476). -/
def State.loseQuay (s : State) : State :=
  let slot (k : Slot) : Slot := { Slot.reset with gen := k.gen }
  { s with
    mem := [], sram := []
    chan := { s.chan with ctx := [], ring := [], env := [], avgDue := [], levels := []
                          bcn := s.chan.bcn.map fun p => (p.1, { p.2 with pat := 0, care := 0 }) }
    cap := CapState.reset, log := { s.log with active := false }
    alm := { s.alm with tabs := [], writes := [], catchUp := [], fixes := [], hostQ := [], tabSlot := 0 }
    hub := s.hub.map fun p => (p.1, { p.2 with side := [], sidePos := 0, rx := [] })
    arr := { s.arr with cells := [] }
    kly := { s.kly with lib := s.kly.lib.map fun p => (p.1, slot p.2) } }

/-- Every controlled rail off; the outputs of the Quays float (19 R521, R522). -/
def State.railsOff (s : State) : State :=
  let s1 := s.fieldRailsOff.darkLanes.loseQuay.dropLate
  { s1 with pwr := { s1.pwr with railok := 0x80, bias := 0, assist := 0, retain := false, selfRef := false }, pkg := { s1.pkg with quayOut := false }
            out := { s1.out with fdec := 0, fdecZ := true } }

/-- Field f is clocked in the armed run: enabled, and in the image's extent. -/
def State.fieldUsed (s : State) (f : Nat) : Bool :=
  let off := match s.dev.dis with
    | some (true, c) => decide (f % 4 = c)
    | some (false, r) => decide (f / 4 = r)
    | none => false
  !off && !(s.gatedF12 && decide (12 ≤ f))

/-- The CLK_GATE bits of enabled nodes after boot: all but those of disabled Fields (R462). -/
def State.bootGate (s : State) : BitVec 30 :=
  (List.range 16).foldl (fun w f => if s.fieldUsed f then w else w &&& ~~~((1 : BitVec 30) <<< (1 + f))) (BitVec.allOnes 30)

/-- A lane leaves electrical idle (09 R303) when its clocks or rails are back: its transmitter, unless LANEIDLE or the role keeps it idle, as on the
mirror lanes of a solo device (12 R335). -/
def Lane.relight (x : Lane) (pair : Bool) : Lane :=
  if !x.wake ∨ x.role = 0 ∨ x.role = 1 ∨ (x.role = 3 ∧ !pair) then x else x.light

/-- The lanes start again, but not in the clock safe state (R465). -/
def State.startLanes (s : State) : State :=
  if s.clk.safe then s else { s with lanes := s.lanes.map fun p => (p.1, p.2.relight s.pairMode) }

/-- Step 6 of R471: Klowyn enables the outputs of the Quays, FDEC low (19 R514), sets CLK_GATE and starts the lanes. The idle training of LPDDR6 leaves
nothing that a command reads (07 R232). -/
def State.stepSix (s : State) : State :=
  let s1 := { s with
    pkg := { s.pkg with quayOut := true }, out := { s.out with fdec := 0, fdecZ := false }, clk := { s.clk with gate := s.bootGate } }
  s1.startLanes

/-! ### Telemetry (R475, 19 R503) -/

/-- The physical rails beside the quadrants (19 R503): target in mV and RAILOK bit. In order: VQ, VQIO, VLA, VLH, VDD1, VDD2, VDDQ, VBN,
VBIO. -/
def railTable : List (Nat × Nat) := [(750, 4), (1800, 4), (900, 6), (1200, 6), (1800, 5), (1000, 5), (500, 5), (750, 7), (1800, 7)]

/-- The RAILOK bit of a physical rail. -/
def railBit (rail : Nat) : Nat := if rail < 4 then rail else (railTable.getD (rail - 4) (0, 7)).2

/-- The target of a physical rail. -/
def State.railTarget (s : State) (rail : Nat) : Nat :=
  if rail < 4 then tget 0 s.pwr.target rail else (railTable.getD (rail - 4) (0, 7)).1

/-- Outside 3% of a target. -/
def offTarget (mv t : Nat) : Bool := decide (3 * t < ((mv : Int) - t).natAbs * 100)

/-- RAIL_TELEMETRY (R475): a physical rail, 0 to 3 the quadrants' and then as railTable lists them, its reading, and whether it reports a fault. A rail
that is off is not read; a gated controller reads 0 (R463). -/
def execRailTelemetry (rail mv : Nat) (fault : Bool) (s : State) : Out :=
  if rail ≥ 13 then .fault .noSuchUnit
  else if !s.pwr.railok.getLsbD (railBit rail) then .next s
  else
    let v := if s.periph 2 then mv % 65536 else 0
    let s1 := { s with pwr := { s.pwr with read := tset s.pwr.read rail v } }
    if (fault && s.periph 2) || offTarget v (s.railTarget rail) then .next ((s1.raiseBit .pwr 0).fault 2 (railBit rail)) else .next s1

/-! ### Performance level (R474) -/

/-- A level change or sleep transition may end: no source is failed (R479). -/
def State.clocksGood (s : State) : Bool := decide (s.clk.wait = [])

def ownPerflevel (s : State) (w : Waiting) : KAns :=
  let pl := (w.req.opd 0).toNat
  if s.pwr.busy ≠ .none then .refuse { code := 0xB007 }
  else if pl = s.pwr.pl then .now s 0 []
  else .long (s.startLevel pl (some w))

def cmdPerflevel : KCmd := { spec := { op := 0x0B02, maxs := [2], run := .no }, own := ownPerflevel, act := noAct }

/-- PERFLEVEL (R474, 15 R407). -/
def execPerflevel (h : CmdHdr) (pl : Dword) (s : State) : Out := kSubmit cmdPerflevel (mkReq 0x0B02 h [pl] []) s

/-- The end of a long command that a transition belongs to. -/
def State.endOf (s : State) (w : Option Waiting) : State :=
  match w with
  | none => s
  | some x => (s.dropLong x).endLong x 0 []

/-- A monitor failure that met a transition is reported once the transition has ended, in the health log (R479; DESIGN CHOICE, log entry 106). -/
def State.reportFailure (s : State) : State :=
  if s.pwr.failed then ({ s with pwr := { s.pwr with failed := false } }).healthAdd 2 0 [6] else s

/-- LEVEL_CHANGE_COMPLETE (R474). -/
def execLevelChangeComplete (s : State) : Out :=
  match s.pwr.busy with
  | .level pl w =>
    if s.clocksGood then
      .next (((s.endLevel pl).endOf w).reportFailure)
    else .next s
  | _ => .next s

/-! ### Sleep states (R476, R477) -/

def ownSleep (s : State) (w : Waiting) : KAns :=
  if s.pwr.busy ≠ .none then .refuse { code := 0xB007 }
  else .long { s with pwr := { s.pwr with busy := .sleep (w.req.opd 0).toNat (some w) } }

def cmdSleep : KCmd := { spec := { op := 0x0B01, maxs := [3], mins := [1], run := .no }, own := ownSleep, act := noAct }

/-- SLEEP (R477, 15 R407). -/
def execSleep (h : CmdHdr) (st : Dword) (s : State) : Out := kSubmit cmdSleep (mkReq 0x0B01 h [st] []) s

/-- The return to S0 from a sleep state (R476): bias and SRAM settings of the level, the quadrants' rails; from S3 steps 3, 4 and 6 of
R471. -/
def State.toS0 (s : State) : State :=
  let s1 := { s with pwr := { s.pwr with sst := 0, retain := false, selfRef := false } }
  match s.pwr.sst.toNat with
  | 0 => s1
  | 1 => s1.levelBias s.pwr.pl
  | 2 => (s1.fieldRails s.pwr.pl).levelBias s.pwr.pl
  | _ => s1.railsOn.stepSix

/-- A sleep state entered from S0 (R476). S1 gates the array path while SSTATE names it. -/
def State.toSleep (s : State) (st : Nat) : State :=
  let s1 := match st with
    | 1 => { s with pwr := { s.pwr with bias := -200 } }
    | 2 => let u := s.fieldRailsOff
           { u with arr := { u.arr with cells := [] }, pwr := { u.pwr with bias := -300, retain := true, selfRef := true } }
    | 3 => s.railsOff
    | _ => s
  { s1 with pwr := { s1.pwr with sst := BitVec.ofNat 2 st } }

/-- SLEEP_REACHED (R476): a SLEEP between two sleep states has passed through S0. A WAKE that waits begins now (R479). -/
def execSleepReached (s : State) : Out :=
  match s.pwr.busy with
  | .sleep st w =>
    if s.clocksGood then
      let s1 := (s.toS0.toSleep st).raiseBit .pwr 2
      .next ({ s1 with pwr := { s1.pwr with busy := if s1.pwr.wakeReq then .wake else .none, wakeReq := false } }.endOf w).reportFailure
    else .next s
  | _ => .next s

/-- A write of WAKE (R477, R479, R481). -/
def State.wake (s : State) : State :=
  match s.pwr.busy with
  | .sleep _ _ => { s with pwr := { s.pwr with wakeReq := true } }
  | .none => if s.pwr.sst = 0 then s else { s with pwr := { s.pwr with busy := .wake } }
  | _ => s

/-- WOKE (R477). -/
def execWoke (s : State) : Out :=
  match s.pwr.busy with
  | .wake =>
    if s.clocksGood then
      let s1 := s.toS0
      .next ({ s1 with pwr := { s1.pwr with busy := .none } }.raiseBit .pwr 3).reportFailure
    else .next s
  | _ => .next s

/-- WAKE_N is asserted (R477, R481): in S2 and S3, while an event that PWR_WMASK enables is set. -/
def State.wakeN (s : State) : Bool :=
  let m := s.pwr.wmask
  decide (s.pwr.sst.toNat ≥ 2) &&
  ((m.getLsbD 0 && decide ((s.evt .clk).bits &&& 7 ≠ 0)) || (m.getLsbD 1 && (s.evt .pwr).bits.getLsbD 0) ||
   (m.getLsbD 2 && decide (s.pwr.sst = 2 ∧ s.kly.hostMgmt ≠ [])))

/-! ### Klowyn down (15 R412, 17 R469, 18 R489) -/

/-- Klowyn stops: every command in progress is lost, with no notice; commands that it has not taken stay held, with BUSY (15 R412, R455; DEDUCED,
log entry 45). A switch whose waypoints have been sent, and a swap that has taken effect, go on without it. -/
def State.loseCommands (s : State) : State :=
  let gone (m : Nat) (b : Mbx) : Mbx :=
    let kept := b.cmd.isSome && !s.inWork m
    { b with busy := b.busy && kept, cmd := if kept then b.cmd else none, held := [] }
  let busy : PwrBusy := match s.pwr.busy with
    | .level pl _ => .level pl none
    | .sleep st _ => .sleep st none
    | b => b
  let lostSw := s.planes.swW.isSome && !s.planes.wpSent
  let begun (e : EpochRec) : Bool := decide (some e.c ≠ s.planes.swW)
  { s with
    mbx := s.mbx.map fun p => (p.1, gone p.1 p.2)
    kly := { s.kly with up := false, waiting := [], longs := [], admits := [], histo := [], align := [], manPos := none
                        timeEn := false, hostMgmt := [] }
    run := { s.run with stopAt := none, pauseAt := none, resumeQ := none }
    planes := if lostSw then { s.planes with sh := .ready, swW := none, epochs := s.planes.epochs.filter begun } else s.planes
    alm := { s.alm with writes := [], swaps := s.alm.swaps.filter Swap.done }
    sext := s.sext.map fun p => (p.1, { p.2 with busy := false })
    chr := { s.chr with launches := [] }
    pair := { s.pair with waitCack := [] }
    log := if s.kly.waiting.any fun w => w.req.op.toNat == 0x0701 then { s.log with active := false } else s.log
    pwr := { s.pwr with busy := busy } }

/-- Klowyn down, and with it a run whose ARM or REPLAY is lost before its first crossing: by the fault, where one has been raised. -/
def State.klowynDown (s : State) : State :=
  let s1 := s.loseCommands
  if s.run.phase ≠ .armed then s1
  else if s.run.faultAt.isSome then
    let u := s1.stopRun .fault
    { u with pkg := { u.pkg with alert := true } }
  else s1.stopRun .none

/-! ### Monitors (R464 to R467, R479) -/

/-- The fault of a monitor failure (01 R37, 12 R341), and the end of the run. A member of a pair yields as its lanes fall idle, and reports it as any
yield (12 R351, R354, 15 R417; DEDUCED, log entry 85). -/
def State.clockStop (s : State) : State :=
  let s1 := if s.pwr.busy = .none then s.fault 6 0 else { s with pwr := { s.pwr with failed := true } }
  if !s.armed then s1
  else if s.paired then
    let s2 := ((s1.healthAdd 3 0 [6]).raiseBit .pair 1).stopRun .clock
    { s2 with pair := { s2.pair with st := .yielding, auth := false, cause := 6, side := false, pend := none, yieldCause := none, serving := false } }
  else s1.stopRun .clock

/-- The clock safe state (R465, R466): the run stops, FDEC and the pulses are low, the lanes fall idle, ALERT_N is asserted. -/
def State.clockSafe (s : State) (src : ClkSrc) : State :=
  let s2 := s.clockStop.darkLanes.pulsesLow
  { s2 with
    clk := { s2.clk with safe := true, wait := if s2.clk.wait.contains src then s2.clk.wait else s2.clk.wait ++ [src], alock := false }
    out := { s2.out with fdec := 0 }
    chr := { s2.chr with ppsHigh := false }
    pkg := { s2.pkg with alert := true } }

/-- MCLK_MONITOR_FAIL (R466). -/
def execMclkMonitorFail (s : State) : Out :=
  if s.clk.mclkOk then
    .next (({ s with clk := { s.clk with mclkOk := false, freq := 0, mclk := 0 } }.clockSafe .mclk).raiseBit .clk 0)
  else .next s

/-- The time clock after a change of its sources (13 R355): from LREFCLK, else from the crystal, else stopped. -/
def State.timeSource (s : State) : State :=
  let k := s.chr
  let x := !s.clk.lrefOk
  let stop := x && !s.clk.xtalOk
  let s1 := { s with chr := { k with srcX := x, stopped := stop, st := if stop then .unset else k.st } }
  if x = k.srcX then s1 else s1.raiseBit .chr 2

/-- LREFCLK_MONITOR_FAIL (R466, 13 R355). Where LREFCLK has not been in window, only the time clock takes its source. -/
def execLrefclkMonitorFail (s : State) : Out :=
  if s.clk.lrefOk then
    .next ((({ s with clk := { s.clk with lrefOk := false } }.clockSafe .lrefclk).raiseBit .clk 1).timeSource)
  else .next s.timeSource

/-- CRYSTAL_MONITOR_FAIL (R466, R467). -/
def execCrystalMonitorFail (s : State) : Out :=
  if s.clk.xtalOk then
    let s1 := ({ s with clk := { s.clk with xtalOk := false } }.clockSafe .crystal).raiseBit .clk 2
    .next (if s1.chr.srcX then s1.timeSource else s1)
  else .next s

/-- A source in window. -/
def State.sourceGood (s : State) (src : ClkSrc) (freq : Nat) : State :=
  match src with
  | .mclk => { s with clk := { s.clk with mclkOk := true, mclk := freq } }
  | .lrefclk => let u := { s with clk := { s.clk with lrefOk := true } }; if u.chr.srcX then u.timeSource else u
  | .crystal => let u := { s with clk := { s.clk with xtalOk := true } }; if u.chr.srcX then u.timeSource else u

/-- The clock safe state ends when every source that the device waits for has recovered. ALERT_N stays while another cause holds
it. -/
def State.clocksReturn (s : State) : State :=
  if s.clk.safe && decide (s.clk.wait = []) then
    let s1 := { s with clk := { s.clk with safe := false } }
    { (if s.pkg.quayOut then s1.startLanes else s1) with
             pkg := { s.pkg with alert := s.boot.stopped || s.pkg.emerg || s.pkg.trip || decide (s.run.reason = .fault) } }
  else s

/-- A frequency of MCLK lies in its monitor's window, in units of 10 Hz (R464). -/
def mclkInWindow (freq : Nat) : Bool := decide (2940000 ≤ freq ∧ freq ≤ 6120000)

/-- MONITOR_RECOVERY (R464, R466): a source has been in window for 1 ms, MCLK at a frequency that its window holds. RETURN where it had failed. -/
def execMonitorRecovery (src : ClkSrc) (freq : Nat) (s : State) : Out :=
  if src = .mclk ∧ !mclkInWindow freq then .next s else
  let s1 := s.sourceGood src freq
  if s.clk.wait.contains src then
    .next (({ s1 with clk := { s1.clk with wait := s1.clk.wait.filter (· ≠ src) } }.clocksReturn).raiseBit .clk 5)
  else .next s1

/-! ### Gating (R462) -/

/-- The node serves the armed run (DEDUCED, log entry 46). -/
def State.nodeServes (s : State) (n : Nat) : Bool :=
  s.armed && (if 1 ≤ n ∧ n ≤ 16 then s.fieldUsed (n - 1) else true)

/-- A child of the node is in use: its own bit is 1 (DEDUCED, log entry 46). -/
def childUsed (gate : BitVec 30) (n : Nat) : Bool := (List.range 30).any fun c => gateParent c == some n && gate.getLsbD c

/-- Nodes that a write may not turn off. -/
def State.gateRefused (s : State) (v : BitVec 30) : List Nat :=
  (List.range 30).filter fun n => s.clk.gate.getLsbD n && !v.getLsbD n && (s.nodeServes n || childUsed s.clk.gate n)

/-- A write of CLK_GATE as R462 lets it act: refused nodes keep running, GREF is set and the highest of them recorded. -/
def State.writeGate (s : State) (val : Word) : State :=
  let v := val.extractLsb' 0 30
  let bad := s.gateRefused v
  let keep : BitVec 30 := bad.foldl (fun w n => w ||| (1 : BitVec 30) <<< n) 0
  let s1 := { s with clk := { s.clk with gate := v ||| keep } }
  match bad.getLast? with
  | none => s1
  | some n =>
    ({ s1 with clk := { s1.clk with gref := BitVec.ofBool (s.nodeServes n) ++ (0 : BitVec 26) ++ BitVec.ofNat 5 n } }).raiseBit .clk 3

/-! ### Temperatures (15 R417, 19 R518 to R523) -/

/-- A temperature of a Field or a Quay above 90 °C is logged with its sensor (15 R417). -/
def State.logTemp (s : State) (e : Int × Nat) : State :=
  if e.2 < 20 ∧ e.1 > 90 then s.healthAdd 5 e.2 (leBytes 2 (BitVec.ofInt 16 e.1).toNat) else s

/-- TEMPERATURE_READ (15 R417): Klowyn reads the 21 sensors. -/
def execTemperatureRead (temps : List Int) (s : State) : Out :=
  if temps.length ≠ 21 then .fault .noSuchUnit
  else if s.kly.up then .next (temps.zipIdx.foldl State.logTemp { s with pkg := { s.pkg with temps := temps } })
  else .next s

/-- Transitions in progress are abandoned; their commands end ABORTED (R523). -/
def State.abandon (s : State) : State :=
  let ws := s.kly.longs.filter fun w => w.req.op.toNat == 0x0B01 || w.req.op.toNat == 0x0B02
  let s1 := ws.foldl (fun u w => (u.dropLong w).abortLong w { code := 0xB00D }) s
  { s1 with pwr := { s1.pwr with busy := .none, wakeReq := false } }.reportFailure

/-- The thermal shutdown, from S0 or a sleep state: rails off, ALERT_N asserted, the sleep state over; the device waits to cool (R521, R523). -/
def State.thermalOff (s : State) : State :=
  let s1 := s.abandon.railsOff
  { s1 with pkg := { s1.pkg with alert := true, cool := true }, pwr := { s1.pwr with sst := 0 } }

/-- A sensor at 105 °C for the first time: a fault, and the transitions abandoned (R521, R523). -/
def State.emergency (s : State) (src : Nat) : State :=
  ({ s with pkg := { s.pkg with emerg := true } }.abandon).fault 3 src

/-- THERMAL_CHECK (R520 to R522): at 115 °C the hardware turns every controlled rail off at once, which ends a run; at 105 °C the
fault stops the run, and Klowyn turns the rails off when no run is armed. -/
def execThermalCheck (temps : List Int) (s : State) : Out :=
  if temps.length ≠ 21 then .fault .noSuchUnit
  else
    let s0 := { s with pkg := { s.pkg with temps := temps } }
    let hot := temps.findIdx? fun t => decide (t ≥ 105)
    let s1 := match hot with
      | some i => if s.pkg.emerg then s0 else s0.emergency i
      | none => s0
    if temps.any fun t => decide (t ≥ 115) then
      let s2 := if s1.armed then s1.stopRun .thermal else s1
      .next { s2.thermalOff with pkg := { s2.thermalOff.pkg with trip := true } }
    else if s1.pkg.emerg && !s1.armed && s1.kly.up && !s1.pkg.cool then .next s1.thermalOff
    else .next s1

/-- The device is shut down for its temperature, and every sensor has cooled. -/
def State.cooled (s : State) : Bool := s.pkg.cool && !s.boot.stopped && s.pkg.temps.all fun t => decide (t < 85)

/-- THERMAL_RECOVERY (R521): every sensor has read below 85 °C for 1 s. Steps 3, 4 and 6 of 17 R471 run again, and Klowyn goes down to reboot. -/
def execThermalRecovery (s : State) : Out :=
  if s.cooled then
    let s1 := s.railsOn.stepSix.klowynDown
    .next { s1 with pkg := { s1.pkg with emerg := false, trip := false, cool := false } }
  else .next s

end Sys2Proof.Machine
end

