-- ==== Sys2Proof/Machine/Boot.lean ====
section
/-! DEFINITION. Reset, power-up, boot, identity and ownership (17_clocks_resets_power.md R461, R470 to R472, 18_boot_and_identity.md
R482 to R498, 19_package_and_electrical.md R514 to R517), and the commands HEALTH, ATTEST and OWNERUPD (15 R407, R417). Payload layouts
that the spec does not give are DESIGN CHOICE, log entry 8. -/

namespace Sys2Proof.Machine

/-! ### Flash (R483, R484) -/

/-- Strictly rising. -/
def risingNat : List Nat → Bool
  | a :: b :: r => decide (a < b) && risingNat (b :: r)
  | _ => true

/-- The directory is well formed and lists the regions that may not be absent (R483, R178). -/
def dirOk (d : List Byte) : Bool :=
  let n := leAt d 6 2
  let ids := dirIds d
  bytesAt d 0 4 == [0x4E, 0x59, 0x52, 0x44] && decide (leAt d 4 2 = 1 ∧ 1 ≤ n ∧ n ≤ 32 ∧ leNat (bytesAt d 8 8) = 0 ∧ 16 + 16 * n ≤ d.length) &&
  risingNat ids && (List.range n).all (fun k => leAt d (18 + 16 * k) 2 == 0) && ids.contains 1 && ids.contains 9 && (ids.contains 2 || ids.contains 3)

/-- A vendor-signed envelope verifies, by the cryptographic engine (17 R463). -/
def State.vendorSigned (s : State) (typ : Nat) (env : List Byte) : Bool := s.periph 4 && vendorOk s.boot.root0 s.boot.root1 typ env

/-- A vendor-signed region verifies. -/
def State.vendorRegion (s : State) (id : Nat) : Bool := s.vendorSigned id (s.region id)

/-- The FACTORY payload: the ID registers, the trims, the defect map and the identity public key. -/
def State.factory (s : State) : List Byte := envPayload (s.region 1)

/-- The entries of a Field in the defect map of FACTORY: its retired columns (R496 gives the layout). -/
def retiredOf (fac : List Byte) (f : Nat) : List Nat :=
  (List.range (min 8 (leAt fac (33 + 18 * f) 1))).map fun i => leAt fac (34 + 18 * f + 2 * i) 2

/-- The trim of quadrant q in mV (17 R473). -/
def trimOf (fac : List Byte) (q : Nat) : Int := (BitVec.ofNat 16 (leAt fac (20 + 2 * q) 2)).toInt

/-- The grade and the disabled line that ID_REV names (16 R456). -/
def devOf (rev : Word) (fac : List Byte) : DevState :=
  let nc12 := rev.extractLsb' 20 4 == 1
  { nc12 := nc12, dis := if nc12 then some (rev.getLsbD 19, (rev.extractLsb' 17 2).toNat) else none
    retired := tofList [] ((List.range 16).map (retiredOf fac)) }

/-- Step 2: the ID registers, the defect map and the trims of FACTORY (16 R456, 02 R73, 17 R473). -/
def State.loadFactory (s : State) : State :=
  let f := s.factory
  let rev : Word := BitVec.ofNat 32 (leAt f 4 4)
  { s with
    host := { s.host with idDev := BitVec.ofNat 32 (leAt f 0 4), idRev := rev, idSerial := BitVec.ofNat 64 (leAt f 8 8)
                          idCap := BitVec.ofNat 32 (leAt f 16 4), idLoaded := true }
    dev := devOf rev f
    pwr := { s.pwr with trim := tofList 0 ((List.range 4).map (trimOf f)) } }

/-! ### A stopped boot (R487) -/

/-- The boot stops at a step with a code. -/
def State.bootStop (s : State) (stage code : Nat) : State :=
  { s with boot := { s.boot with stage := BitVec.ofNat 4 stage, code := BitVec.ofNat 8 code, stopped := true }
           host := { s.host with idFw := 0 }, kly := { s.kly with up := false }, pkg := { s.pkg with alert := true } }

def State.atStage (s : State) (k : Nat) : State := { s with boot := { s.boot with stage := BitVec.ofNat 4 k } }

/-- One step of R485: nothing once the boot has stopped; a flash read error stops it with CODE 0x05. -/
def State.bootStep (k : Nat) (err : Option Nat) (f : State → State) (s : State) : State :=
  if s.boot.stopped then s
  else if err = some k then s.bootStop k 5
  else f (s.atStage k)

/-! ### Steps 5 to 8 (R485, R486, R489, R491) -/

/-- The certificate that a payload holds (R490). -/
def certOf (p : List Byte) : Cert :=
  { serial := BitVec.ofNat 32 (leAt p 0 4), bind := BitVec.ofNat 64 (leAt p 4 8), floor := BitVec.ofNat 32 (leAt p 12 4)
    policy := BitVec.ofNat 16 (leAt p 16 2), key := bytesAt p 64 97 }

/-- A certificate envelope of region type typ, where it is valid for this device (R491). -/
def State.certValid (s : State) (typ : Nat) (env : List Byte) : Option Cert :=
  let c := certOf (envPayload env)
  if s.vendorSigned typ env && decide (c.bind = 0 ∨ c.bind = s.host.idSerial) then some c else none

/-- The certificate in force, and whether it is OWNER_B's (R491). -/
def State.certChoice (s : State) : Option (Cert × Bool) :=
  match s.certValid 4 (s.region 4), s.certValid 5 (s.region 5) with
  | some a, some b => if a.serial.toNat < b.serial.toNat then some (b, true) else some (a, false)
  | some a, none => some (a, false)
  | none, some b => some (b, true)
  | none, none => none

/-- Step 5. -/
def State.stepOwner (s : State) : State :=
  let c := s.certChoice
  { s with boot := { s.boot with cert := c.map Prod.fst, certB := (c.map Prod.snd).getD false, owned := c.isSome } }

/-- FLOOR of the certificate in force, 0 where the device is unowned. -/
def State.floor (s : State) : Nat := ((s.boot.cert.map Cert.floor).getD 0).toNat

/-- A Klowyn copy is valid at a floor (R486). -/
def State.klowynValid (s : State) (floor id : Nat) : Bool := s.vendorRegion id && decide (floor ≤ envVersion (s.region id))

/-- The copy that the boot ROM starts: region 2 or 3. -/
def State.klowynChoice (s : State) : Option Nat :=
  let a := s.klowynValid s.floor 2
  let b := s.klowynValid s.floor 3
  if a && (!b || decide (envVersion (s.region 3) ≤ envVersion (s.region 2))) then some 2 else if b then some 3 else none

/-- Step 6. -/
def State.stepKlowyn (s : State) : State :=
  match s.klowynChoice with
  | some k => { s with boot := { s.boot with ksel := if k = 2 then 1 else 2 } }
  | none => { s.bootStop 6 4 with boot := { (s.bootStop 6 4).boot with ksel := 0 } }

/-- Present and not verified under the owner key. -/
def State.ownerFails (s : State) (key : List Byte) (id : Nat) : Bool := decide (s.region id ≠ []) && !ownerOk key id (s.region id)

/-- The configuration record (15 R419). -/
def kcfgOf (p : List Byte) (manOk : Bool) : KCfg :=
  { libg := max 1 (min 4096 (leAt p 1024 2)), standalone := leAt p 1026 1 == 1, hostcmd := leAt p 1027 1 == 1
    manOff := leAt p 1028 4, manLen := if manOk then leAt p 1032 4 else 0 }

/-- The sum of the five transmit tap magnitudes of LNK_TXEQ (09 R305): MAIN is unsigned, the others two's complement. -/
def tapSum (w : Word) : Nat :=
  let t (k : Nat) : Nat := (w.extractLsb' k 6).toInt.natAbs
  t 24 + t 18 + (w.extractLsb' 12 6).toNat + t 6 + t 0

/-- A lane's transmit taps in a board table sum to more than 63: Klowyn rejects the table (09 R305). -/
def boardTaps (p : List Byte) : Bool := (List.range 64).any fun l => decide (63 < tapSum (BitVec.ofNat 32 (leAt p (16 * l + 2) 4)))

/-- A lane Off. -/
def Lane.off (x : Lane) : Lane := { x.dark with cfg := 0, wake := false }

/-- Step 7: BOARD and MANIFEST of an owned device; a failed region, and a rejected board table, count as absent, and BRDOK is 0. Without BRDOK every lane is
Off (R491). -/
def State.stepBoard (s : State) : State :=
  let key := (s.boot.cert.map Cert.key).getD []
  let use := s.boot.owned && decide (s.region 6 ≠ []) && !s.ownerFails key 6 && !boardTaps (envPayload (s.region 6))
  let p := if use then envPayload (s.region 6) else []
  let cfg := if use then kcfgOf p (decide (s.region 7 ≠ []) && !s.ownerFails key 7) else Klowyn.reset.cfg
  { s with
    lanes := if use && !s.ownerFails key 7 then s.lanes else s.lanes.map fun p => (p.1, p.2.off)
    boot := { s.boot with brdOk := use && !s.ownerFails key 7, board := p.take 1024, regAddr := (p.drop 1036).take 8 }
    host := { s.host with subsys := BitVec.ofNat 32 (leAt p 1044 4) }
    kly := { s.kly with cfg := cfg }, alm := { s.alm with libG := cfg.libg } }

/-- A rejected Klowyn copy is in the health log (R486). -/
def State.logRejected (s : State) (id : Nat) : State :=
  if s.region id ≠ [] ∧ !s.klowynValid s.floor id then s.healthAdd 6 id (leBytes 4 (envVersion (s.region id))) else s

/-- The copy of STATE in force: the one with the higher sequence count (R483), and whether it is the second. -/
def Flash.state (f : Flash) : Option (EpochCopy × Bool) :=
  match f.stA, f.stB with
  | some a, some b => if a.seq < b.seq then some (b, true) else some (a, false)
  | some a, none => some (a, false)
  | none, some b => some (b, true)
  | none, none => none

/-- STATE with the epoch e, in the copy that is not in force. -/
def Flash.putEpoch (f : Flash) (e : BitVec 16) : Flash :=
  match f.state with
  | some (c, false) => { f with stB := some { seq := c.seq + 1, epoch := e } }
  | some (c, true) => { f with stA := some { seq := c.seq + 1, epoch := e } }
  | none => { f with stA := some { seq := 1, epoch := e } }

/-- The epoch after the one in STATE; both copies damaged: 1 (15 R415, R497). -/
def Flash.nextEpoch (f : Flash) : BitVec 16 :=
  match f.state with
  | some (c, _) => if c.epoch = 0xFFFF then 1 else c.epoch + 1
  | none => 1

/-- The journal of a new epoch (15 R415). The STATE region with both copies damaged starts epoch 1 anew (R497). -/
def State.newEpoch (s : State) : State :=
  let e := s.boot.flash.nextEpoch
  let s1 := { s with boot := { s.boot with flash := s.boot.flash.putEpoch e }, jnl := { s.jnl with epoch := e, head := 0, ents := [] } }
  if s.boot.flash.state.isNone then s1.healthAdd 8 9 [] else s1

/-- Step 8: Klowyn is copied into Binnacle SRAM, measured and started; it enables the peripherals that it uses (17 R463; DESIGN CHOICE, log entry 44).
Standalone, its manifest begins (15 R420). -/
def State.stepStart (s : State) : State :=
  let env := s.region (if s.boot.ksel = 1 then 2 else 3)
  let s1 := { s with
    boot := { s.boot with sram := env, kmeas := sha384 env, code := 0 }
    clk := { s.clk with ben := 0b10101 }
    host := { s.host with idFw := BitVec.ofNat 32 (envVersion env) }
    kly := { s.kly with up := true
                        manPos := if s.kly.cfg.standalone ∧ s.kly.cfg.manLen ≠ 0 then some 0 else none } }
  ((s1.newEpoch.logRejected 2).logRejected 3).deliverHeld

/-- Steps 5 to 8, which a Klowyn reboot reruns (R489). -/
def State.bootLate (s : State) (err : Option Nat) : State :=
  State.bootStep 8 err State.stepStart (State.bootStep 7 err State.stepBoard (State.bootStep 6 err State.stepKlowyn
    (State.bootStep 5 err State.stepOwner s)))

/-! ### Power-up (17 R461, R471, R472) -/

/-- The device after RESET_N, or after PWR_GOOD: configuration flash, the mask ROM and the device as built stay (R472). -/
def State.underReset (s : State) (good : Bool) : State :=
  let z := State.reset
  { z with
    pending := s.pending, freeCtr := s.freeCtr, dev := s.dev
    boot := { z.boot with flash := s.boot.flash, root0 := s.boot.root0, root1 := s.boot.root1, resetN := good, pwrGood := good && s.boot.pwrGood } }

/-- RESET_ASSERT (R472). -/
def execResetAssert (s : State) : Out :=
  .next { s.underReset false with boot := { (s.underReset false).boot with pwrGood := s.boot.pwrGood } }

/-- PWR_GOOD_DEASSERT (19 R517): as under RESET_N. -/
def execPwrGoodDeassert (s : State) : Out := .next (s.underReset false)

/-- POWER_UP (R471 step 1): the straps are sampled, the start-up delay begins. -/
def execPowerUp (oscDly : BitVec 2) (s : State) : Out :=
  if s.boot.powered then .next s
  else
    .next { s with boot := { s.boot with powered := true, pwrGood := true, resetN := true }
                   clk := { s.clk with oscDly := oscDly, oscRun := true }, pwr := { s.pwr with railok := 0x80 } }

/-- The boot ROM sets the xSPI and cryptographic bits of CLK_BEN (R482). -/
def State.romClocks (s : State) : State := { s with clk := { s.clk with ben := s.clk.ben ||| 0b10001 } }

/-- OSC_DELAY_EXPIRY (R461, R471 step 2, 19 R514): with the crystal in window the housekeeping domain leaves reset and the boot ROM
starts; else the device waits on. -/
def execOscDelayExpiry (xtalOk : Bool) (s : State) : Out :=
  if s.boot.powered && s.clk.oscRun && xtalOk then
    .next { s with clk := { s.clk with oscRun := false, xtalOk := true, ben := 0b10001 }, pkg := { s.pkg with binOut := true } }
  else .next s

/-- The boot ROM may start. -/
def State.bootReady (s : State) : Bool :=
  s.boot.powered && !s.clk.oscRun && s.clk.xtalOk && !s.boot.stopped && decide (s.boot.stage = 0)

/-- The xSPI controller (R482): the SFDP table read in 1S-1S-1S mode at 25 MHz, then 8D-8D-8D where the table offers it, at 200 MHz (DESIGN CHOICE of
the fastest clock allowed, log entry 8), with 4-byte addresses. -/
def Flash.controller (f : Flash) : Xspi := { sfdp := true, octal := f.octal, mhz := if f.octal then 200 else 25, addr4 := true }

/-- Step 1 (R485). -/
def State.stepDir (s : State) : State :=
  let s1 := { s with boot := { s.boot with xspi := s.boot.flash.controller } }
  if dirOk s.boot.flash.dir then s1 else s1.bootStop 1 1

/-- Step 2. -/
def State.stepFactory (s : State) : State := if s.vendorRegion 1 then s.loadFactory else s.bootStop 2 2

/-- Steps 1 and 2. -/
def State.bootEarly (s : State) (err : Option Nat) : State :=
  State.bootStep 2 err State.stepFactory (State.bootStep 1 err State.stepDir s)

/-- Step 3: link training is enabled. -/
def State.stepLink (s : State) : State := { s with boot := { s.boot with link := true } }

/-- The identity public key and the helper data of FACTORY (DESIGN CHOICE of their places, log entry 8). -/
def State.facKey (s : State) : List Byte := bytesAt s.factory 320 97
def State.facHelper (s : State) : List Byte := s.factory.drop 417

/-- Step 4 (R495): the identity key, from the PUF's power-up content corrected with the helper data. -/
def State.stepIdentity (s : State) : State :=
  let d := pufKey (Config.pufCorrect s.boot.puf s.facHelper)
  { s with boot := { s.boot with idKey := d, pufOk := keyBytes (ecMul 384 d bpG) == s.facKey } }

/-- BOOT_ROM_START (R485, 17 R471): puf is the power-up content of the PUF's 4 KiB. Step 6 of R471 follows where Klowyn has started. -/
def State.coldBoot (s : State) (err : Option Nat) (puf : List Byte) : State :=
  let s1 := ({ s with boot := { s.boot with puf := bytesAt puf 0 4096 } }).bootEarly err
  let s2 := State.bootStep 3 err (fun u => u.railsOn.stepLink) s1
  let s3 := (State.bootStep 4 err State.stepIdentity s2).bootLate err
  if s3.boot.stopped then s3 else s3.stepSix

/-- The order in which rails are enabled (17 R471), as RAILOK numbers them. -/
def railOrder : List Nat := [4, 5, 6, 0, 1, 2, 3]

/-- The rails that stand good when `rail` does not report good. -/
def railsBefore (rail : Nat) : List Nat := railOrder.takeWhile (· ≠ rail)

/-- The rails as far as they came. -/
def State.railsUpTo (s : State) (rail : Nat) : State :=
  let ok : BitVec 8 := (railsBefore rail).foldl (fun w r => w ||| (1 : BitVec 8) <<< r) 0x80
  let sent (q : Nat) : Nat := if (railsBefore rail).contains q || q == rail then s.vfldTarget 0 q else 0
  { s with pwr := { s.pwr with railok := ok, target := tofList 0 ((List.range 4).map sent) } }

/-- RAIL_TIMEOUT (17 R471, R485): rail as RAILOK numbers it. The boot stops with CODE 0x06, before the identity registers are loaded; so does the rerun
after a thermal shutdown (19 R521). A wake from S3, which runs the same steps, stays asleep (DESIGN CHOICE, log entry 44). -/
def execRailTimeout (rail : Nat) (s : State) : Out :=
  if rail ≥ 8 then .fault .noSuchUnit
  else if rail = 7 then .next s
  else if s.bootReady then
    let s1 := s.bootEarly none
    if s1.boot.stopped then .next s1 else .next (({ s1 with host := s.host }.railsUpTo rail).bootStop 2 6)
  else if s.cooled then
    .next ((s.railsUpTo rail).klowynDown.bootStop s.boot.stage.toNat 6)
  else if s.pwr.busy = .wake ∧ s.pwr.sst = 3 then
    let s1 := s.railsUpTo rail
    .next { s1 with boot := { s1.boot with code := 6 }, pwr := { s1.pwr with busy := .none }, pkg := { s1.pkg with alert := true } }
  else .next s

/-- WATCHDOG_EXPIRY (17 R470): a fault during a run; Klowyn goes down to reboot. -/
def execWatchdogExpiry (s : State) : Out :=
  if s.kly.up then .next (if s.armed then s.fault 2 0 else s).klowynDown else .next s

/-! ### KLOWYN_REBOOT (R489) -/

/-- A device that acts as a solo device (R353, R351, R352), with AUTORST, whose run ended by a clock or thermal fault reboots before it
re-arms. -/
def State.restartBoots (s : State) : Bool :=
  s.actsSolo && s.pair.cfg.getLsbD 24 && decide (s.run.reason = .clock ∨ s.run.reason = .thermal) && decide (s.clk.wait = [])

/-- A member that has yielded and stopped restarts the whole job (12 R346, R347). -/
def State.yieldBoots (s : State) : Bool := s.pairMode && decide (s.pair.st = .yielding) && !s.armed

def State.rebootDue (s : State) : Bool :=
  decide (s.boot.stage.toNat ≥ 5) && !s.boot.stopped && (!s.kly.up || s.yieldBoots || s.restartBoots)

/-- The state in which steps 5 to 8 begin: Klowyn down, its clock crossings flushed (17 R469, R479), the pair waiting for its partner again where the member
has yielded. -/
def State.rebootFrom (s : State) : State :=
  let s1 := (s.klowynDown.peerReset 6 5).romClocks
  if s.yieldBoots then { s1.formAgain with run := { s1.formAgain.run with reason := .yield } }
  else if s.restartBoots then { s1 with run := { s1.run with reason := .fault } }
  else s1

def State.reboot (s : State) (err : Option Nat) : State := s.rebootFrom.bootLate err

/-! ### BOOTSTAT and JTAG (R491, R498, 19 R500) -/

/-- The BOOTSTAT data register (R498). -/
def State.bootstat (s : State) : Word :=
  let b := s.boot
  b.stage ++ b.code ++ BitVec.ofBool b.owned ++ BitVec.ofBool b.pufOk ++ BitVec.ofBool b.brdOk ++ b.ksel ++ (0 : BitVec 15)

/-- JTAG offers every instruction: an unowned device, or one whose policy has JTAGPRIV; else boundary scan and BOOTSTAT alone (R491). -/
def State.jtagAll (s : State) : Bool := !s.boot.owned || s.policy.getLsbD 2

/-- The instruction register after a scan (R498). No row of the table is a scan: these two definitions say what the pins would do. -/
def State.jtagScan (s : State) (ir : BitVec 8) : State := { s with boot := { s.boot with jtagIr := ir } }

/-- The data register that the instruction register selects, where it is BOOTSTAT; it can be read after a stopped boot too (19 R500). -/
def State.jtagData (s : State) : Option Word := if s.boot.jtagIr = 0x3C then some s.bootstat else none

/-! ### HEALTH (15 R417) -/

/-- Entries from sequence FIRST on, the oldest first, at most 125; the first entry after reset has sequence 1. -/
def State.healthFrom (s : State) (first : Nat) : List HEnt :=
  let n := s.kly.health.length
  let oldest := s.kly.healthN - n + 1
  (s.kly.health.reverse.drop (first - oldest)).take 125

def ownHealth (s : State) (w : Waiting) : KAns := .now s 0 ((s.healthFrom (w.req.opd 0).toNat).flatMap HEnt.bytes)

def cmdHealth : KCmd :=
  { spec := { op := 0x0A08, maxs := [2 ^ 64 - 1], run := .any, jrn := false }, own := ownHealth, act := noAct }

/-- HEALTH (15 R407, R417). -/
def execHealth (h : CmdHdr) (first : Dword) (s : State) : Out := kSubmit cmdHealth (mkReq 0x0A08 h [first] []) s

/-! ### ATTEST (R496) -/

/-- The physical Field is disabled by the defect map. -/
def State.fieldOff (s : State) (f : Nat) : Bool :=
  match s.dev.dis with
  | some (true, c) => s.dev.nc12 && decide (f % 4 = c)
  | some (false, r) => s.dev.nc12 && decide (f / 4 = r)
  | none => false

/-- The 18 bytes of a Field in DEFECT. -/
def State.defectEnt (s : State) (f : Nat) : List Byte :=
  let on := !s.fieldOff f
  let cols := tget [] s.dev.retired f
  [BitVec.ofNat 8 ((if on then 1 else 0) + if on && s.dev.nc12 && turned s.dev.dis then 2 else 0), BitVec.ofNat 8 cols.length] ++
  bytesAt (cols.flatMap (leBytes 2)) 0 16

/-- One slot of LIBDIG. -/
def State.libEnt (s : State) (k : Nat) : List Byte :=
  let x := s.libSlot k
  if x.used then leBytes 2 (s.imgIndex k).toNat ++ x.meas ++ x.frame else List.replicate 98 0

/-- The index and the digests of an image in the planes, if any. -/
def State.planeDigs (s : State) (k : Option Nat) : List Byte :=
  match k with
  | some k => (s.libSlot k).meas ++ (s.libSlot k).frame
  | none => List.replicate 96 0
def State.planeIdx (s : State) (k : Option Nat) : Nat := (k.map fun k => (s.imgIndex k).toNat).getD 0xFFFF

/-- The active and the shadow image's slots. -/
def State.actImg (s : State) : Option Nat := if s.armed then some s.planes.actSlot else none
def State.shImg (s : State) : Option Nat := if s.armed && decide (s.planes.sh ≠ .empty) then some s.planes.shSlot else none

/-- Bytes 0 to 791 of the report. -/
def State.reportBody (s : State) (lo hi : Dword) : List Byte :=
  let c := s.boot.cert
  let st := (if s.boot.owned then 1 else 0) + (if s.boot.brdOk then 2 else 0) + 4 * s.boot.ksel.toNat
  [0x4E, 0x59, 0x41, 0x54] ++ leBytes 2 1 ++ leBytes 2 888 ++ leBytes 8 lo.toNat ++ leBytes 8 hi.toNat ++
  leBytes 8 s.host.idSerial.toNat ++ leBytes 4 s.host.idRev.toNat ++ leBytes 4 s.host.idFw.toNat ++ leBytes 6 s.cn.toNat ++
  leBytes 2 s.jnl.epoch.toNat ++ leBytes 4 ((c.map Cert.serial).getD 0).toNat ++ leBytes 4 s.floor ++
  leBytes 2 s.policy.toNat ++ leBytes 2 st ++ leBytes 4 0 ++ bytesAt s.boot.kmeas 0 48 ++
  (if c.isSome then sha384 (s.region (if s.boot.certB then 5 else 4)) else List.replicate 48 0) ++ sha384 (s.region 1) ++
  (if s.boot.brdOk then sha384 (s.region 6) else List.replicate 48 0) ++ sha384 ((List.range 64).flatMap s.libEnt) ++
  leBytes 2 (s.planeIdx s.actImg) ++ leBytes 2 (s.planeIdx s.shImg) ++ leBytes 4 0 ++ s.planeDigs s.actImg ++ s.planeDigs s.shImg ++
  (List.range 16).flatMap s.defectEnt

def ownAttest (s : State) (w : Waiting) : KAns :=
  if !s.boot.pufOk then .refuse { code := 0xB007 }
  else
    let b := s.reportBody (w.req.opd 0) (w.req.opd 1)
    .now s.bumpFree 0 (b ++ if s.periph 4 then ecdsaSign s.boot.idKey (sha384 b) s.freeCtr else List.replicate 96 0)

def cmdAttest : KCmd :=
  { spec := { op := 0x0C01, maxs := [2 ^ 64 - 1, 2 ^ 64 - 1], run := .any, jrn := false }, own := ownAttest, act := noAct }

/-- ATTEST (R496, 15 R407). -/
def execAttest (h : CmdHdr) (nonceLo nonceHi : Dword) (s : State) : Out :=
  kSubmit cmdAttest (mkReq 0x0C01 h [nonceLo, nonceHi] []) s

/-! ### OWNERUPD (R492) -/

/-- The slot that a new certificate goes to: whichever does not hold the one in force. -/
def State.newOwnerSlot (s : State) : Nat := if s.boot.cert.isSome && !s.boot.certB then 5 else 4

/-- The staged certificate, where Klowyn accepts it. It needs a region of flash to go to (DESIGN CHOICE, log entry 8). -/
def State.certStaged (s : State) (env : List Byte) : Option Cert :=
  match s.certValid (leAt env 4 1) env with
  | none => none
  | some c =>
    let floorOk := decide (s.floor ≤ c.floor.toNat)
    let serialOk := decide (((s.boot.cert.map Cert.serial).getD 0).toNat < c.serial.toNat)
    let typOk := leAt env 4 1 == s.newOwnerSlot
    let place := (dirIds s.boot.flash.dir).contains s.newOwnerSlot && s.periph 0
    if place && typOk && floorOk && serialOk && (s.klowynValid c.floor.toNat 2 || s.klowynValid c.floor.toNat 3) then some c else none

def ownOwnerupd (s : State) (w : Waiting) : KAns :=
  let off := w.staged (w.req.opd 0).toNat
  let len := (w.req.opd 1).toNat
  let env := tgets 0 s.mem off len
  if off + len > 2 ^ 38 then .refuse { code := 0xB003, item := 0 }
  else match s.certStaged env with
    | none => .refuse { code := 0xB00A }
    | some _ =>
      .now { s with boot := { s.boot with flash := { s.boot.flash with regions := tset s.boot.flash.regions s.newOwnerSlot env } } } 0 []

/-- Klowyn goes down to reboot under R489. -/
def actOwnerupd (s : State) (_ : Waiting) : State := s.klowynDown

def cmdOwnerupd : KCmd :=
  { spec := { op := 0x0C02, maxs := [2 ^ 38 - 1, 2 ^ 38 - 1], zero := [1], run := .no }, own := ownOwnerupd, act := actOwnerupd }

/-- OWNERUPD (R492, 15 R407). -/
def execOwnerupd (h : CmdHdr) (offset length : Dword) (s : State) : Out :=
  kSubmit cmdOwnerupd (mkReq 0x0C02 h [offset, length] []) s

end Sys2Proof.Machine
end

