-- ==== Sys2Proof/Machine/ConfigSpace.lean ====
section
/-! DEFINITION. The configuration space of the function (16_registers_and_host.md R424 to R426, R428): the header, the BARs and the
capabilities that R424 names. Their places, and the layouts of the base specification, are PRESUMED, log entry 95. -/

namespace Sys2Proof.Machine

/-- A configuration word: its reset value, the bits that software sets, the bits that the base specification leaves to the implementation. -/
structure CfgReg where
  reg   : Nat
  reset : Word
  rw    : Word := 0
  open_ : Word := 0
deriving DecidableEq, Repr

/-- The header (R424, R425): command and status, revision and class, BAR0 of 16 MiB, BAR2 of 1 MiB and prefetchable BAR4 of 16 GiB, each with its
upper half, the first capability, the interrupt line. -/
def cfgHeader : List CfgReg :=
  [{ reg := 1, reset := 0x00100000, rw := 0x00000546 }, { reg := 2, reset := 0x120000A1 }, { reg := 3, reset := 0, rw := 0xFF },
   { reg := 4, reset := 0x4, rw := 0xFF000000 }, { reg := 5, reset := 0, rw := 0xFFFFFFFF },
   { reg := 6, reset := 0x4, rw := 0xFFF00000 }, { reg := 7, reset := 0, rw := 0xFFFFFFFF },
   { reg := 8, reset := 0xC }, { reg := 9, reset := 0, rw := 0xFFFFFFFC }, { reg := 13, reset := 0x40 }, { reg := 15, reset := 0, rw := 0xFF }]

/-- Power Management at 0x40, D0 and D3hot alone; MSI-X at 0x50, 64 vectors, table and pending bits in BAR0 (R427). -/
def cfgPmMsix : List CfgReg :=
  [{ reg := 16, reset := 0x00035001 }, { reg := 17, reset := 0 }, { reg := 20, reset := 0x003F6011, rw := 0xC0000000 },
   { reg := 21, reset := 0x8000 }, { reg := 22, reset := 0x9000 }]

/-- PCI Express at 0x60: an endpoint with a payload of 512 bytes and Function Level Reset, a link of 128 GT/s and x8 with ASPM L1 (R423). -/
def cfgExpress : List CfgReg :=
  [{ reg := 24, reset := 0x00020010 }, { reg := 25, reset := 0x10008002, open_ := 0x00000E38 }, { reg := 26, reset := 0x00002810, rw := 0x00007FFF },
   { reg := 27, reset := 0x00400887, open_ := 0xFF038000 }, { reg := 28, reset := 0, rw := 0x000003FB, open_ := 0xFFFF0000 },
   { reg := 33, reset := 0, open_ := 0xFFFFFFFF }, { reg := 34, reset := 0, rw := 0x0000FFFF }, { reg := 35, reset := 0x000000FE, open_ := 0xFFFFFF00 },
   { reg := 36, reset := 0x00000007, rw := 0x0000FFFF, open_ := 0xFFFF0000 }]

/-- Extended capabilities: Advanced Error Reporting at 0x100, Device Serial Number at 0x150, L1 PM Substates at 0x160. -/
def cfgExtended : List CfgReg :=
  [{ reg := 64, reset := 0x15020001 }, { reg := 66, reset := 0, rw := 0x07FFF030 }, { reg := 67, reset := 0x00462030, rw := 0x07FFF030 },
   { reg := 69, reset := 0x00006000, rw := 0x0000F1C1 }, { reg := 70, reset := 0, rw := 0x00000150, open_ := 0x000000A0 },
   { reg := 84, reset := 0x16010003 }, { reg := 88, reset := 0x0001001E }, { reg := 89, reset := 0x0000001F, open_ := 0x00FBFF00 },
   { reg := 90, reset := 0, rw := 0xE3FFFF0F }, { reg := 91, reset := 0, rw := 0x000000FB }]

/-- The words of the table; every other word reads zero and ignores writes. -/
def cfgTable : List CfgReg := cfgHeader ++ cfgPmMsix ++ cfgExpress ++ cfgExtended

def cfgFind (reg : Nat) : Option CfgReg := cfgTable.find? fun c => c.reg == reg

/-- Power state in PMCSR: D3hot is 3. -/
def HostState.powerState (h : HostState) : Word := if h.d3 then 3 else 0

/-- What a configuration word reads as (R424). -/
def State.cfgWord (s : State) (reg : Nat) : Word :=
  match reg with
  | 0 => s.host.idDev
  | 11 => s.host.subsys
  | 17 => s.host.powerState
  | 85 => s.host.idSerial.extractLsb' 0 32
  | 86 => s.host.idSerial.extractLsb' 32 32
  | _ => match cfgFind reg with
    | some c => (tget c.reset s.host.cfgw reg &&& ~~~c.open_) ||| (Config.cfgOpen reg &&& c.open_)
    | none => 0

/-- A write to the bits of a configuration word that software sets. -/
def State.cfgStore (s : State) (reg : Nat) (v : Word) : State :=
  match cfgFind reg with
  | some c =>
    let x := (tget c.reset s.host.cfgw reg &&& ~~~c.rw) ||| (v &&& c.rw)
    { s with host := { s.host with cfgw := tset s.host.cfgw reg x } }
  | none => s

end Sys2Proof.Machine
end

