-- ==== Sys2Proof/Machine/Offsets.lean ====
section
/-! DEFINITION. Places of BAR0 and BAR4 that do not depend on the state (16_registers_and_host.md R425, R433, R439, R443, R444):
words, staged words, clear aliases, bit aliases, the window. -/

namespace Sys2Proof.Machine

/-- The offset names an aligned word of BAR0 (R425, R433). -/
def barWord (off : Nat) : Bool := decide (off % 4 = 0 ∧ off < 0x1000000)

/-- A request of n words at an offset of BAR0: 4 to 64 bytes within one page of 4 KiB (R433). -/
def barReq (off n : Nat) : Bool := barWord off && decide (1 ≤ n ∧ n ≤ 16 ∧ off % 4096 + 4 * n ≤ 4096)

/-- Offset and length lie in the BAR4 window (R425). -/
def bar4Ok (off len : Nat) : Bool := decide (off + len ≤ 2 ^ 34)

/-- A word of a staged field: CHR_STEP, CHR_INC, a pulse block's PSTART, PPER and PWID, CIG_REF, CIG_RGNr (R444). -/
def stagedOff (o : Nat) : Bool :=
  barWord o &&
  decide ((0x40020 ≤ o ∧ o < 0x4002C) ∨ (0x40030 ≤ o ∧ o < 0x40038) ∨ (0x41000 ≤ o ∧ o < 0x41200 ∧ o % 0x40 < 0x18) ∨
    o = 0xC0010 ∨ (0xC0100 ≤ o ∧ o < 0xC0200))

/-- Places base + k × stride for k below n. -/
def onGrid (base stride n o : Nat) : Bool := decide (base ≤ o ∧ (o - base) % stride = 0 ∧ (o - base) / stride < n)

/-- The high word of a sequence-clear register (R439, R440). -/
def aliasOff (o : Nat) : Bool :=
  [0x2C, 0x4000C, 0x6001C, 0x6005C, 0x8000C, 0xA0014, 0xA100C, 0xC000C, 0x20001C].contains o ||
  onGrid 0x10000C 0x1000 64 o || onGrid 0x140014 0x100 64 o || onGrid 0x18000C 0x4000 4 o || onGrid 0x281004 0x4000 16 o ||
  onGrid 0x2C0004 0x10000 4 o || onGrid 0x300044 0x10000 16 o || onGrid 0x41000C 0x40 64 o

/-- A bit alias (R443). -/
def bitOff (o : Nat) : Bool := barWord o && decide (0x800000 ≤ o)

end Sys2Proof.Machine
end

