-- ==== Sys2Proof/Machine/Rejoin.lean ====
section
/-! DEFINITION. The rejoin of a pair (12_helm_and_watch.md R347 to R350): the transfer data that the Helm sends, what the rejoining
member makes of it, REJOIN, the announced rebase, REBASE_LATCH and REBASE. The layout of transfer items and requests is DESIGN CHOICE, log entry 41. -/

namespace Sys2Proof.Machine

/-! ### Items -/

/-- A transfer item: region, key, data. -/
def xItem (region key : Nat) (data : List Byte) : List Byte := BitVec.ofNat 8 region :: (leBytes 8 key ++ data)

def xRegion (b : List Byte) : Nat := leAt b 0 1
def xKey (b : List Byte) : Nat := leAt b 1 8
def xData (b : List Byte) : List Byte := b.drop 9

/-- The packet body of an item: the item and its CRC-32C (R337). -/
def xSeal (b : List Byte) : List Byte := b ++ leBytes 4 (crc32c b).toNat

/-- The item of a packet body, where its CRC-32C is right. -/
def xOpen (b : List Byte) : Option (List Byte) :=
  let n := b.length - 4
  if 13 ≤ b.length ∧ leAt b n 4 = (crc32c (b.take n)).toNat then some (b.take n) else none

/-- A byte sequence in pieces of 4,000 bytes, with their places. -/
def xPieces (l : List Byte) : List (Nat × List Byte) :=
  (List.range ((l.length + 3999) / 4000)).map fun i => (4000 * i, (l.drop (4000 * i)).take 4000)

/-- The 64 bytes of a context (08 R248). -/
def Ctx.bytes (c : Ctx) : List Byte :=
  leBytes 4 c.ctl.toNat ++ leBytes 4 c.dsk.toNat ++ leBytes 4 c.cal.toNat ++ leBytes 4 c.env.toNat ++ leBytes 8 c.acc.toNat ++
  leBytes 8 c.done.toNat ++ wgmRecord c.ages c.wgm

def ctxFrom (b : List Byte) : Ctx :=
  let w (k : Nat) : Word := BitVec.ofNat 32 (leAt b k 4)
  { ctl := w 0, dsk := w 4, cal := w 8, env := w 12, acc := BitVec.ofNat 64 (leAt b 16 8), done := BitVec.ofNat 64 (leAt b 24 8)
    wgm := w 60, ages := wgmAges (b.drop 32) }

/-! ### Step 2: what the Helm sends (R347) -/

/-- An image, with its slot and generation numbers. -/
def State.imageItems (s : State) (k : Nat) : List (List Byte) :=
  let x := s.libSlot k
  xItem 2 k (leBytes 2 x.gen.toNat ++ leBytes 8 x.bytes) :: (xPieces x.raw).map fun p => xItem 1 (k * 2 ^ 40 + p.1) p.2

/-- The lines of one face, from its first copy. -/
def State.faceItems (s : State) (t : TblDesc) (cs : List CopyRec) (face : Bool) : List (List Byte) :=
  match cs with
  | [] => []
  | c :: _ =>
    (List.range (t.rows + 1)).map fun j =>
      xItem 6 (t.tid * 2 ^ 40 + (if face then 2 ^ 39 else 0) + j) (s.lineData (c.lineRef t.lpddr (t.faceLine face j)))

/-- A table: every face, which faces are loaded, the active face, the rows written to the inactive one since the latest swap. -/
def State.tableItems (s : State) (i : Image) (t : TblDesc) : List (List Byte) :=
  let cs := (i.copiesOf t).map Prod.fst
  let x := s.tab t.tid
  s.faceItems t cs false ++ (if t.faces = 2 then s.faceItems t cs true else []) ++
  [xItem 7 t.tid [BitVec.ofNat 8 x.loaded.toNat, if x.active then 1 else 0]] ++
  x.upd.map fun u => xItem 12 (t.tid * 2 ^ 40 + u.1) u.2

/-- The shadow image, where it is READY; 255 for none. -/
def State.readyShadow (s : State) : Nat := if s.planes.sh = .ready then s.planes.shSlot else 255

/-! The recording in progress, so that the rejoining member can go on with it after a takeover (14 R396). -/

/-- A table of words by crossing: its length and its entries. -/
def wordItems (t : Tbl Word) : List Byte := leBytes 2 t.length ++ t.flatMap fun p => leBytes 6 p.1 ++ leBytes 4 p.2.toNat

def wordsFrom (b : List Byte) : Tbl Word :=
  (List.range (leAt b 0 2)).foldl (fun t i => tset t (leAt b (2 + 10 * i) 6) (BitVec.ofNat 32 (leAt b (8 + 10 * i) 4))) []

/-- Bytes that wordItems takes. -/
def wordsLen (b : List Byte) : Nat := 2 + 10 * leAt b 0 2

/-- The bytes of a tensor's part of a latch: range, SEEN, the maxima, the drain tail's maxima and counts. -/
def TensorLatch.bytes (t : TensorLatch) : List Byte :=
  leBytes 4 t.rNow.toNat ++ [if t.seen then 1 else 0] ++ wordItems t.m ++ wordItems t.tailM ++
  wordItems (t.tailN.map fun p => (p.1, BitVec.ofNat 32 p.2))

/-- A tensor's part from its item. -/
def tensorFrom (b : List Byte) : TensorLatch :=
  let d := xData b
  let m := d.drop 5
  let a := m.drop (wordsLen m)
  { key := xKey b, rNow := BitVec.ofNat 32 (leAt d 0 4), seen := leAt d 4 1 == 1, m := wordsFrom m, tailM := wordsFrom a
    tailN := (wordsFrom (a.drop (wordsLen a))).map fun p => (p.1, p.2.toNat) }

/-- The codes of the shadow-plane states (06 R188). -/
def shCode : ShState → Nat
  | .empty => 0
  | .filling => 1
  | .ready => 2
  | .switching => 3

def shFrom (n : Nat) : ShState := [ShState.empty, .filling, .ready, .switching].getD n .empty

/-- The head of a latch: crossing, Δ, image, epoch, measurement, frame digest, shadow planes. -/
def Latch.head (l : Latch) : List Byte :=
  leBytes 6 l.p.toNat ++ leBytes 6 l.delta.toNat ++ leBytes 1 l.slot ++ leBytes 1 l.ep.toNat ++ bytesAt l.meas 0 48 ++ bytesAt l.frame 0 48 ++
  leBytes 1 (shCode l.shadow.st) ++ leBytes 1 l.shadow.slot ++ leBytes 8 l.shadow.pos ++ leBytes 6 l.shadow.by_.toNat

/-- A latch from its head, with no tensors or contexts yet. -/
def latchFrom (b : List Byte) : Latch :=
  { p := BitVec.ofNat 48 (leAt b 0 6), delta := BitVec.ofNat 48 (leAt b 6 6), slot := leAt b 12 1, ep := BitVec.ofNat 2 (leAt b 13 1)
    meas := bytesAt b 14 48, frame := bytesAt b 62 48, tensors := [], ctxs := [], valid := true, whole := true, tailed := true
    shadow := { st := shFrom (leAt b 110 1), slot := leAt b 111 1, pos := leAt b 112 8, by_ := BitVec.ofNat 48 (leAt b 120 6) } }

/-- The head of a recording, then its assignment and images: 166 bytes, the number of assignment bytes among them. -/
def LogState.bytes (g : LogState) : List Byte :=
  leBytes 1 g.mode ++ leBytes 8 g.lanes.toNat ++ leBytes 6 g.p0.toNat ++ leBytes 6 g.lastX.toNat ++ leBytes 8 g.seed.toNat ++
  leBytes 6 g.delta.toNat ++ leBytes 1 g.assign.length ++ leBytes 4 (if g.start.isSome then 1 else 0) ++
  ((g.start.map Latch.head).getD (List.replicate 126 0)) ++ g.assign ++
  g.slots.flatMap fun r => leBytes 2 r.1 ++ bytesAt r.2.1 0 48 ++ bytesAt r.2.2 0 48

/-- The images of a recording from their bytes. -/
def slotsFrom (b : List Byte) : List (Nat × List Byte × List Byte) :=
  (List.range (b.length / 98)).map fun i => (leAt b (98 * i) 2, bytesAt b (98 * i + 2) 48, bytesAt b (98 * i + 50) 48)

/-- A recording from its bytes: it goes on with the member's own lanes. -/
def logFrom (b : List Byte) : LogState :=
  let n := leAt b 35 1
  { LogState.reset with
    mode := leAt b 0 1, lanes := BitVec.ofNat 64 (leAt b 1 8), p0 := BitVec.ofNat 48 (leAt b 9 6), lastX := BitVec.ofNat 48 (leAt b 15 6)
    seed := BitVec.ofNat 64 (leAt b 21 8), delta := BitVec.ofNat 48 (leAt b 29 6), active := true
    start := if leAt b 36 4 = 1 then some (latchFrom (b.drop 40)) else none
    assign := (b.drop 166).take n, slots := slotsFrom (b.drop (166 + n)) }

/-- The items of the recording in progress. -/
def State.logItems (s : State) : List (List Byte) :=
  if !s.log.active then []
  else
    ((xPieces s.log.bytes).map fun p => xItem 13 p.1 p.2) ++
    match s.log.start with
    | some l => (l.tensors.map fun t => xItem 14 t.key t.bytes) ++ l.ctxs.map fun c => xItem 15 c.1 c.2.bytes
    | none => []

/-- All of step 2 but its first packet. -/
def State.stepTwoItems (s : State) : List (List Byte) :=
  s.imageItems s.planes.actSlot ++ (if s.readyShadow = 255 then [] else s.imageItems s.readyShadow) ++
  (s.chan.ctx.map fun p => xItem 3 p.1 p.2.bytes) ++
  (s.chan.env.map fun p => xItem 4 p.1 (leBytes 4 p.2.1.toNat ++ leBytes 4 p.2.2.toNat)) ++
  (s.chan.bcn.map fun p => xItem 5 p.1 (leBytes 4 p.2.cfg.toNat ++ leBytes 4 p.2.min.toNat ++ leBytes 512 p.2.pat.toNat ++
    leBytes 512 p.2.care.toNat)) ++
  s.img.almt.tables.flatMap (s.tableItems s.img) ++ s.logItems

/-- The first packet: how many there are, the run that is to be armed, the generations of its images, the active face of every table. -/
def State.planItem (s : State) (total : Nat) : List Byte :=
  xItem 0 0 (leBytes 8 total ++ leBytes 1 s.planes.actSlot ++ leBytes 1 s.readyShadow ++ leBytes 1 s.run.pl ++
    leBytes 1 s.planes.actEp.toNat ++ leBytes 8 s.run.seed.toNat ++ leBytes 6 s.run.delta.toNat ++
    leBytes 2 (s.libSlot s.planes.actSlot).gen.toNat ++ leBytes 2 (s.libSlot s.readyShadow).gen.toNat ++
    s.img.almt.tables.map fun t => if (s.tab t.tid).active then 1 else 0)

/-- Packets of items, numbered from n. -/
def xPackets (n : Nat) (l : List (List Byte)) : List (List Byte) := l.zipIdx.map fun p => streamPkt 2 (n + p.2) (xSeal p.1)

/-- Mirror lanes in use (R337): those of MLANES, all where none is marked. -/
def State.xLanes (s : State) : List Nat :=
  let l := (List.range 4).filter fun i => s.pair.mlanes.getLsbD i
  if l = [] then List.range 4 else l

/-- Packets striped over the lanes in use. -/
def State.sendXfer (s : State) (l : List (List Byte)) : State :=
  let ls := s.xLanes
  l.zipIdx.foldl (fun u p =>
    let i := ls.getD (p.2 % ls.length) 0
    u.setMtx i { u.mtx i with xfers := (u.mtx i).xfers ++ [p.1] }) s

/-- A transfer's packets sent: kept for repeats, counted in PAIR_XFER. -/
def State.sendBatch (s : State) (l : List (List Byte)) (fresh : Bool) : State :=
  let n := (l.map List.length).sum
  let s1 := s.sendXfer l
  { s1 with pair := { s1.pair with xferOut := (if fresh then [] else s1.pair.xferOut) ++ l
                                   xfer := if fresh then BitVec.ofNat 64 n else s1.pair.xfer + BitVec.ofNat 64 n } }

/-- The Helm serves a rejoin: step 2 from the peer (src 0), or its first packet alone (src 1). A member in LOST serves as Helm (R352). It begins once
the start record of a recording in progress is whole. -/
def State.serveTransfer (s : State) (src : Nat) : State :=
  if s.pairMode && s.pair.auth && decide (s.pair.st = .joined ∨ s.pair.st = .lost) && s.live && decide (s.pair.pst = 0) && (s.log.start.map Latch.tailed).getD true then
    let items := if src = 0 then s.stepTwoItems else []
    let clear (t : MTx) : MTx := { t with xfers := [] }
    let s1 := { s with pair := { s.pair with st := .joined, role := 1, serving := true, stepEnd := false, mlanes := 0, latchJ0 := none
                                             rebaseJ := none, latch := none
                                             tx := s.pair.tx.map fun (p : Nat × MTx) => (p.1, clear p.2) } }
    s1.sendBatch (xPackets 0 (s1.planItem (items.length + 1) :: items)) true
  else s

/-! ### Requests (R337): KIND 0x3 -/

/-- A request packet: 0 and 1 start with SRC, 2 the run is filled, 3 a packet again, 4 step 2 has ended. -/
def requestPkt (kind src seq : Nat) : List Byte := streamPkt 3 0 (leBytes 1 kind ++ leBytes 1 src ++ leBytes 4 seq)

/-- Requests go out on every lane in use. -/
def State.sendRequest (s : State) (p : List Byte) : State :=
  s.xLanes.foldl (fun u i => u.setMtx i { u.mtx i with xfers := (u.mtx i).xfers ++ [p] }) s

/-- Step 2 has ended on the rejoining member: the transfer has completed on the Helm too (R347, R354). -/
def State.stepEnds (s : State) : State :=
  if s.pair.serving && !s.pair.stepEnd then ({ s with pair := { s.pair with stepEnd := true } }).raiseBit .pair 6 else s

/-- A request that the Helm receives. -/
def State.takeRequest (s : State) (b : List Byte) : State :=
  let k := leAt b 0 1
  if k ≤ 1 then s.serveTransfer k
  else if k = 4 then s.stepEnds
  else if k = 2 then
    if s.pair.serving && s.pair.latchJ0.isNone && s.pair.rebaseJ.isNone && s.live then
      { s.stepEnds with pair := { s.stepEnds.pair with latchJ0 := some (cnAdd s.cn 64) } }
    else s
  else if !s.pair.serving then s.serveTransfer (leAt b 1 1)
  else match s.pair.xferOut[leAt b 2 4]? with
    | some p => s.sendXfer [p]
    | none => s

/-! ### The rejoining member's packets -/

/-- Packet n, opened. -/
def State.got (s : State) (n : Nat) : List Byte := tget [] s.pair.xferGot n

/-- Packets of step 2, once its first has arrived. -/
def State.stepTwo (s : State) : Option Nat := (tfind s.pair.xferGot 0).map fun b => leAt b 9 8

/-- Packets of the latch, once its first has arrived. -/
def State.latchLen (s : State) : Option Nat := s.stepTwo.bind fun n => (tfind s.pair.xferGot n).map fun b => leAt b 9 8

/-- Packets of n from k that have not arrived. -/
def State.lacks (s : State) (k n : Nat) : List Nat := ((List.range n).map (k + ·)).filter fun i => (tfind s.pair.xferGot i).isNone

/-- Every packet of step 2 has arrived. -/
def State.stepTwoAll (s : State) : Bool := (s.stepTwo.map fun n => s.lacks 0 n == []).getD false

/-- The latch has arrived whole. -/
def State.latchAll (s : State) : Bool :=
  match s.stepTwo, s.latchLen with
  | some n, some m => s.lacks n m == []
  | _, _ => false

/-- What the member asks for again while the stream is idle: packets that are missing. -/
def State.wanted (s : State) : List Nat :=
  match s.stepTwo with
  | none => [0]
  | some n =>
    if s.lacks 0 n ≠ [] then s.lacks 0 n
    else if s.pair.rebaseJ.isNone then []
    else match s.latchLen with
      | none => [n]
      | some m => s.lacks n m

/-- A transfer packet that arrives intact. -/
def State.takeXfer (s : State) (seq : Nat) (b : List Byte) : State :=
  match xOpen b with
  | none => s
  | some item =>
    if s.pair.rejoin.isSome && (tfind s.pair.xferGot seq).isNone then
      { s with pair := { s.pair with xferGot := tset s.pair.xferGot seq item, xfer := s.pair.xfer + BitVec.ofNat 64 (b.length + 8) } }
    else s

/-! ### The end of step 2 -/

/-- The items of packets k to k + n - 1. -/
def State.items (s : State) (k n : Nat) : List (List Byte) := (List.range n).map fun i => s.got (k + i)

/-- An image as received, admitted at its slot with its generation number. -/
def State.gainImage (l : List (List Byte)) (s : State) (h : List Byte) : State :=
  let k := xKey h
  let raw := (l.filter fun b => xRegion b == 1 && xKey b / 2 ^ 40 == k).flatMap xData
  let x : Slot := { used := true, gen := BitVec.ofNat 10 (leAt h 9 2), img := parseImage raw, meas := sha384 (digestInput raw measIds)
                    frame := sha384 (digestInput raw frameIds), bytes := leAt h 11 8, raw := raw }
  { s with kly := { s.kly with lib := tset s.kly.lib k x }, alm := { s.alm with tabSlot := if x.img.almt.tables = [] then s.alm.tabSlot else k } }

/-- A line of a face, written into every copy. -/
def State.gainLine (i : Image) (s : State) (key : Nat) (d : List Byte) : State :=
  match i.table (key / 2 ^ 40) with
  | none => s
  | some t => ((i.copiesOf t).map Prod.fst).foldl (fun u c =>
      u.writeLine (c.lineRef t.lpddr (t.faceLine (key.testBit 39) (key % 2 ^ 39))) d) s

/-- A table marked loaded as on the Helm. -/
def State.gainTable (i : Image) (s : State) (tid : Nat) (d : List Byte) : State :=
  match i.table tid with
  | none => s
  | some t =>
    s.setTab tid { desc := some (t, (i.copiesOf t).map Prod.fst), loaded := BitVec.ofNat 2 (leAt d 0 1), active := leAt d 1 1 == 1, upd := [] }

/-- One item of step 2 in place. -/
def State.gain (i : Image) (s : State) (b : List Byte) : State :=
  let k := xKey b
  let d := xData b
  match xRegion b with
  | 3 => s.setCtx k (ctxFrom d)
  | 4 => { s with chan := { s.chan with env := tput (0, 0) s.chan.env k (BitVec.ofNat 32 (leAt d 0 4), BitVec.ofNat 32 (leAt d 4 4)) } }
  | 5 => s.setBeacon k { s.beacon k with cfg := BitVec.ofNat 32 (leAt d 0 4), min := BitVec.ofNat 32 (leAt d 4 4)
                                         pat := BitVec.ofNat 4096 (leAt d 8 512), care := BitVec.ofNat 4096 (leAt d 520 512) }
  | 6 => s.gainLine i k d
  | 7 => s.gainTable i k d
  | 14 => { s with log := { s.log with start := s.log.start.map fun l => { l with tensors := l.tensors ++ [tensorFrom b] } } }
  | 15 => { s with log := { s.log with start := s.log.start.map fun l => { l with ctxs := l.ctxs ++ [(k, ctxFrom d)] } } }
  | 12 => let t := s.tab (k / 2 ^ 40)
          s.setTab (k / 2 ^ 40) { t with upd := t.upd ++ [(k % 2 ^ 40, d)] }
  | _ => s

/-- The active image's slot that the plan names. -/
def State.planSlot (s : State) : Nat := leAt (s.got 0) 17 1

/-- The Helm's recording taken over, where there is one. -/
def State.gainLog (l : List (List Byte)) (s : State) : State :=
  let b := (l.filter fun b => xRegion b == 13).flatMap xData
  if b = [] then s else { s with log := logFrom b, cap := if leAt b 0 1 = 1 then { s.cap with frames := [], filled := 0 } else s.cap }

/-- Step 2's data in place, images first. -/
def State.gainAll (s : State) : State :=
  let l := s.items 1 ((s.stepTwo.getD 1) - 1)
  let s1 := ((l.filter fun b => xRegion b == 2).foldl (State.gainImage l) s).gainLog l
  (l.foldl (State.gain (s1.imgAt s.planSlot)) s1).covered s true

/-- The request by which Klowyn arms the run of the plan, at its minimum lead (R347 step 4). -/
def State.rejoinArm (s : State) : KReq :=
  let p := s.got 0
  mkReq 0x0201 { mbx := 253, tag := 0, len := 40, acn := BitVec.ofNat 48 (s.lead 0x0201 40), at_ := true, rel := true, rsvd := false }
    [BitVec.ofNat 64 s.planSlot, BitVec.ofNat 64 (leAt p 19 1), BitVec.ofNat 64 (leAt p 21 8), 1, 0] []

/-- A slot under a generation number. -/
def State.setGen (s : State) (k g : Nat) : State :=
  { s with kly := { s.kly with lib := tset s.kly.lib k { s.libSlot k with gen := BitVec.ofNat 10 g } } }

/-- The generation numbers of the plan, so that image indices agree (R347), and its active faces. -/
def State.planGens (s : State) : State :=
  let p := s.got 0
  let s1 := s.setGen s.planSlot (leAt p 35 2)
  let s2 := if leAt p 18 1 = 255 then s1 else s1.setGen (leAt p 18 1) (leAt p 37 2)
  (s2.imgAt s.planSlot).almt.tables.zipIdx.foldl (fun u t => u.setTab t.1.tid { u.tab t.1.tid with active := leAt p (39 + t.2) 1 == 1 }) s2

/-- The run armed as Watch, with the Helm's Δ; a refusal ends the REJOIN. A host-sourced step 2 has ended when the arming's checks pass (DEDUCED, log entry
41). -/
def State.armRejoin (s : State) (src : Nat) : State :=
  let u := kRun cmdArm 253 s.rejoinArm { s.planGens with pair := { s.pair with st := .joined, role := 0 } }
  let v := { u with pair := { u.pair with st := .forming, role := 2, auth := false, rejoin := some (src, true) } }
  if v.armed then (({ v with run := { v.run with delta := BitVec.ofNat 48 (leAt (s.got 0) 29 6) } }).raiseBit .pair 6).sendRequest (requestPkt 4 src 0) else v.rejoinFails

/-- The first crossing of a rejoining member's run: the epoch, the READY shadow and the active faces of the Helm. -/
def State.rejoinStart (s : State) : State :=
  let p := s.got 0
  let ep : BitVec 2 := BitVec.ofNat 2 (leAt p 20 1)
  let e : EpochRec := { c := s.cn, epoch := ep, slot := s.run.slot }
  let s1 := { s with planes := { s.planes with actEp := ep, epochs := [e] } }.loadArray ep
  let s2 := if leAt p 18 1 = 255 then s1
    else { s1.fillShadow (s1.imgAt (leAt p 18 1)) with planes := { s1.planes with sh := .ready, shSlot := leAt p 18 1 } }
  s2.planGens

/-! ### REJOIN (R347) -/

def ownRejoin (s : State) (w : Waiting) : KAns :=
  if !s.pairMode ∨ s.pair.st ≠ .forming ∨ s.pair.rejoin.isSome then .refuse { code := 0xB007 }
  else
    let src := (w.req.opd 0).toNat
    let s1 := { s with pair := { s.pair with rejoin := some (src, false), xferGot := [], xfer := 0, ready := false, defer := [], cack := 0
                                             taken := [], mlanes := 0, rxMiss := 0 } }
    .long (s1.sendRequest (requestPkt src src 0))

def cmdRejoin : KCmd := { spec := { op := 0x0803, maxs := [1], run := .no }, own := ownRejoin, act := noAct }

/-- REJOIN (R347, 15 R407). -/
def execRejoin (h : CmdHdr) (src : Dword) (s : State) : Out := kSubmit cmdRejoin (mkReq 0x0803 h [src] []) s

/-! ### The rebase (R348) -/

/-- A table by crossing moved d later. -/
def moveKeys {α : Type} (d : CN) (t : Tbl α) : Tbl α := t.foldl (fun u p => tset u (BitVec.ofNat 48 p.1 + d).toNat p.2) []

/-- A latch with its report crossings, those of its drain tail among them, moved d later (R348, 14 R387). -/
def TensorLatch.move (d : CN) (l : TensorLatch) : TensorLatch :=
  { l with m := moveKeys d l.m, tailM := moveKeys d l.tailM, tailN := moveKeys d l.tailN }

/-- The items of a latch: its length, the tensors, the contexts. -/
def Latch.items (l : Latch) : List (List Byte) :=
  let body := (l.tensors.map fun t => xItem 8 t.key t.bytes) ++ l.ctxs.map fun c => xItem 11 c.1 c.2.bytes
  xItem 10 0 (leBytes 8 (body.length + 1) ++ leBytes 6 l.p.toNat ++ leBytes 6 l.delta.toNat) :: body

/-- The latch that a rejoining member has received. -/
def State.gotLatch (s : State) : Latch :=
  let n := s.stepTwo.getD 0
  let h := s.got n
  let l := s.items (n + 1) ((s.latchLen.getD 1) - 1)
  { p := BitVec.ofNat 48 (leAt h 17 6), delta := BitVec.ofNat 48 (leAt h 23 6), slot := s.planes.actSlot, ep := s.planes.actEp, meas := []
    frame := [], tensors := (l.filter fun b => xRegion b == 8).map tensorFrom
    ctxs := (l.filter fun b => xRegion b == 11).map fun b => (xKey b, ctxFrom (xData b)), valid := true, whole := true, tailed := true
    shadow := { st := .empty, slot := 0, pos := 0, by_ := 0 } }

/-- The contexts at the boundary of input crossing J, and the states of both members (R348, R349); V restarts before J. -/
def State.rebaseCtxs (s : State) (j : CN) : State :=
  let s1 := if s.pair.rejoin.isSome then { s with pair := { s.pair with latch := some s.gotLatch } } else s
  match s1.pair.latch with
  | none => s1
  | some l =>
    let s2 := s1.restoreCtxs l
    let p := { s2.pair with vValid := true, vcn := j - 1, probation := 0 }
    if s.pair.rejoin.isSome then { s2 with pair := { p with st := .probation, role := 2, pst := 3 } } else { s2 with pair := { p with pst := 2 } }

/-- The tensors, before the derivation of device crossing J + R_OFS + 1: their reports of that crossing on are merged into the latch's drain tail (04
R140). -/
def State.rebaseTensors (s : State) (j : CN) : State :=
  match s.pair.latch with
  | none => s
  | some l =>
    let s1 := ((l.tensors.map (TensorLatch.move (j - l.p))).foldl State.restoreTensor s).pushAllScales
    { s1 with pair := { s1.pair with rebaseJ := none, latchJ0 := none, latch := none, serving := false, xferOut := [], xferGot := [] } }

/-- The announcement in force on both members. -/
def ownRebase (s : State) (w : Waiting) : KAns := .now { s with pair := { s.pair with rebaseJ := some w.at_ } } 0 []

def actRebase (s : State) (w : Waiting) : State := s.rebaseCtxs w.at_

/-- The rebase that the Helm announces as a mirrored command; its opcode is no row of 15 R407 (DESIGN CHOICE, log entry 41). -/
def cmdRebase : KCmd :=
  { spec := { op := 0x0804, maxs := [], run := .yes, cross := fun _ => true, mir := true }, own := ownRebase, act := actRebase }

/-- REBASE_LATCH (R348 step 1): before the channel stage of input crossing J0; the tensors follow as at a pause. -/
def execRebaseLatch (s : State) : Out :=
  match s.pair.latchJ0 with
  | some j =>
    if s.live && s.pair.latch.isNone && decide (s.cn = cnAdd j s.hdr.rofs) then
      .next { s with pair := { s.pair with latch := some (s.mkLatch j true) }, run := { s.run with lastP := j } }
    else .next s
  | none => .next s

/-- The Helm's latch is whole, its drain tail among it: it goes out, and the rebase at J0 + 8,192 is announced (R348 steps 2 and 3). -/
def State.announce (s : State) : State :=
  match s.pair.latchJ0, s.pair.latch with
  | some j, some l =>
    if s.pair.serving && l.valid && l.tailed && s.pair.rebaseJ.isNone then
      let s1 := s.sendBatch (xPackets s.pair.xferOut.length l.items) false
      let h : CmdHdr := { mbx := 253, tag := 0, len := 0, acn := cnAdd j 8192, at_ := true, rel := false, rsvd := false }
      kRun cmdRebase 253 (mkReq 0x0804 h [] []) s1
    else s
  | _, _ => s

/-- REBASE (R348 step 4): the contexts before the channel stage of J, the tensors at the boundary that follows it (03 R99). -/
def execRebase (s : State) : Out :=
  match s.pair.rebaseJ with
  | some j =>
    if !s.live then .next s
    else if s.cn = cnAdd j s.hdr.rofs then
      if s.pair.rejoin.isSome && !s.latchAll then .next s.rejoinStop else .next (s.applyDue cmdRebase j s.cn)
    else if s.cn = cnAdd j (s.hdr.rofs + 1) ∧ s.atBoundary then .next (s.rebaseTensors j)
    else .next s
  | none => .next s

/-! ### RUN_START -/

/-- RUN_START (R131, R185): at tick 0 of the run's first crossing. -/
def execRunStart (s : State) : Out :=
  if !s.startDue then .next s
  else if s.run.replay then
    match s.kly.waiting.find? fun w => w.req.op.toNat == 0x0703 with
    | some w => .next (s.startReplay w)
    | none => .next s
  else
    let u := s.applyDue cmdArm s.cn s.cn
    .next (if u.pair.rejoin.isSome && u.live then u.rejoinStart else u)

end Sys2Proof.Machine
end

