-- ==== Sys2Proof/Machine/KTable.lean ====
section
/-! DEFINITION. The command set by opcode (15_binnacle_mailboxes.md R407), commands that Klowyn takes later than they were submitted
(R400, R401, 16 R455), opcodes outside the set (R405), the manifest (R420) and the boots that make Klowyn ready. -/

namespace Sys2Proof.Machine

/-- The commands of R407. -/
def kTable : List KCmd :=
  [cmdAdmit, cmdEvict, cmdLibquery, cmdArm, cmdStop, cmdPause, cmdResume, cmdFill, cmdCancel, cmdSwitch, cmdTload, cmdTwrite, cmdTswap] ++
  [cmdWgmcommit, cmdCtxcommit, cmdLanecommit, cmdCaparm, cmdCaptrig, cmdCapdrain, cmdCaprelease, cmdBcnload, cmdEnvload, cmdLogstart] ++
  [cmdLogstop, cmdReplay, cmdPaircfg, cmdYield, cmdRejoin, cmdTimesvc, cmdTlaunch, cmdTmap, cmdDeskew, cmdPedestal, cmdHisto, cmdEyescan] ++
  [cmdLanetune, cmdLanealign, cmdLaneidle, cmdHealth, cmdSleep, cmdPerflevel, cmdAttest, cmdOwnerupd, cmdMgmtsend]

/-- The command with an opcode. -/
def kFind (op : BitVec 16) : Option KCmd := kTable.find? fun c => c.spec.op == op.toNat

/-- Klowyn takes the command r of mailbox m: one with an opcode outside R407 is refused with OPCODE (R405). -/
def kTake (m : Nat) (r : KReq) (s : State) : State :=
  match kFind r.op with
  | some c => (kRun c m r s).dropLate
  | none => s.refuse m r { code := 0xB001, found := r.op.toNat }

/-- UNLISTED_OPCODE_COMMAND (R405). -/
def execUnlistedOpcodeCommand (h : CmdHdr) (opcode : BitVec 16) (lst : List Byte) (s : State) : Out :=
  let r : KReq := { op := opcode, hdr := h, body := lst }
  let m := h.mbx
  if 16 ≤ m then .fault .noSuchUnit
  else if (s.mbxOf m).busy then .next (s.setMbx m { s.mbxOf m with dbl := true })
  else
    let s1 := s.setMbx m ((s.mbxOf m).submit r)
    if s1.canTake m then .next { kTake m r s1 with kly := { (kTake m r s1).kly with lastMbx := m } } else .next s1

/-! ### Commands that were held -/

/-- The command that mailbox m holds and Klowyn has not taken. -/
def State.heldCmd (s : State) (m : Nat) : Option KReq := if s.inWork m then none else (s.mbxOf m).cmd

/-- Mailbox m is served, where it holds a command that Klowyn can take. -/
def State.serveMbx (s : State) (m : Nat) : State :=
  match s.heldCmd m with
  | some r => if s.canTake m then { kTake m r s with kly := { (kTake m r s).kly with lastMbx := m } } else s
  | none => s

/-- Klowyn serves the mailboxes in turn, beginning after the one it served last (R400). -/
def State.serveAll (s : State) : State :=
  let k := s.kly.lastMbx
  (List.range 16).foldl (fun u i => u.serveMbx ((k + 1 + i) % 16)) s

/-! ### Boots -/

/-- BOOT_ROM_START (18 R485, 17 R471), with the power-up content of the PUF SRAM (18 R495): Klowyn, once it runs, takes the doorbells that were held (16 R455). -/
def execBootRomStart (flashErr : Option Nat) (puf : List Byte) (s : State) : Out :=
  if s.bootReady then .next (s.coldBoot flashErr puf).serveAll else .next s

/-- KLOWYN_REBOOT (18 R489). -/
def execKlowynReboot (flashErr : Option Nat) (s : State) : Out :=
  if s.rebootDue then .next (s.reboot flashErr).serveAll else .next s

/-! ### MANIFEST_RUN (R420) -/

/-- The manifest: the bytes of the MANIFEST payload that the configuration record names (DESIGN CHOICE, log entry 8). -/
def State.manifest (s : State) : List Byte := bytesAt (envPayload (s.region 7)) s.kly.cfg.manOff s.kly.cfg.manLen

/-- The record at place p: header and body, laid out as a command buffer. -/
def manifestReq (b : List Byte) (p : Nat) : KReq := bufReq 254 (b.drop p)

/-- Bytes of a record, padded to 64. -/
def recordLen (r : KReq) : Nat := (64 + r.hdr.len + 63) / 64 * 64

/-- The refusal of a manifest's record, if any: an opcode, a crossing without REL, the checks of R405, the owning chapter's. -/
def State.manifestBad (s : State) (r : KReq) : Option Nat :=
  match kFind r.op with
  | none => some 0xB001
  | some c =>
    if r.hdr.at_ && !r.hdr.rel then some 0xB003
    else match kCheck c.spec 254 r s with
      | some f => some f.code
      | none =>
        let sj := if c.spec.jrn then s.jAdd (s.jEntry c.spec 254 r 0) else s
        match c.own sj (s.mkWaiting c.spec 254 r) with
        | .refuse f => some f.code
        | _ => none

/-- The manifest stops at record n with a status (R420). -/
def State.manifestStop (s : State) (n status : Nat) : State :=
  let s1 := s.healthAdd 7 n (leBytes 4 n ++ leBytes 2 status)
  { s1 with kly := { s1.kly with manPos := none }, pkg := { s1.pkg with alert := true } }

/-- Records in order, until one is refused, the manifest ends, or a record's command is not completed, its CACK in a pair included; n is
the record's index. -/
def State.runManifest (b : List Byte) : Nat → Nat → State → State
  | 0, _, s => s
  | k + 1, n, s =>
    match s.kly.manPos with
    | none => s
    | some p =>
      if p ≥ b.length then { s with kly := { s.kly with manPos := none } }
      else if s.inWork 254 then s
      else
        let r := manifestReq b p
        match s.manifestBad r with
        | some st => s.manifestStop n st
        | none => State.runManifest b k (n + 1) { kTake 254 r s with kly := { (kTake 254 r s).kly with manPos := some (p + recordLen r) } }

/-- The index of the record at place p. -/
def recordIndex (b : List Byte) (p : Nat) : Nat → Nat → Nat
  | 0, _ => 0
  | k + 1, q => if q ≥ p then 0 else 1 + recordIndex b p k (q + recordLen (manifestReq b q))

/-- The manifest goes on from place p. -/
def State.manifestFrom (s : State) (p : Nat) : State :=
  let b := s.manifest
  State.runManifest b (b.length / 64 + 1) (recordIndex b p (b.length / 64 + 1) 0) s

/-- MANIFEST_RUN (R420): Klowyn takes the manifest's records from where it stands. -/
def execManifestRun (s : State) : Out :=
  match s.kly.manPos with
  | some p => if s.kly.up then .next (s.manifestFrom p) else .next s
  | none => .next s

end Sys2Proof.Machine
end

