-- ==== Sys2Proof/Machine/Mirror.lean ====
section
/-! DEFINITION. Mirror frames (12_helm_and_watch.md R335 to R340): MIRROR_FRAME_SEND and MIRROR_FRAME_RELEASE, the stream of packets, and
what each kind of packet does on the member that receives it. -/

namespace Sys2Proof.Machine

/-! ### Sending (R336) -/

/-- A frame of this crossing has not been sent. -/
def State.mirrorDue (s : State) : Bool :=
  s.pairMode && decide (s.tick = 0) && decide (s.mirrorLanes ≠ []) && decide ((s.pair.sent.head?).map Prod.fst ≠ some s.cn)

/-- A rejoining member whose run has ended its fill says so once (DESIGN CHOICE, log entry 41). -/
def State.sayReady (s : State) : State :=
  match s.pair.rejoin with
  | some (src, true) =>
    if s.live && !s.run.filling && !s.pair.ready then
      { s.sendRequest (requestPkt 2 src 0) with pair := { (s.sendRequest (requestPkt 2 src 0)).pair with ready := true } }
    else s
  | _ => s

/-- MIRROR_FRAME_SEND (R336). -/
def execMirrorFrameSend (s : State) : Out :=
  if s.mirrorDue then .next s.sayReady.announce.sendStatus else .next s

/-! ### The stream received (R337) -/

/-- A packet in part, or none where the lane waits for an idle block. -/
abbrev RxPart := Option (List Byte)

/-- One stream block: the part after it and a packet that it completes. -/
def streamStep (part : RxPart) (lost : Bool) (b : Dword) : RxPart × Option (List Byte) :=
  if lost then (none, none)
  else match part with
    | none => (if b = 0 then some [] else none, none)
    | some l =>
      if l = [] ∧ b = 0 then (some [], none)
      else
        let l1 := l ++ leBytes 8 b.toNat
        let len := leAt l1 0 2
        if len < 8 ∨ 4096 < len then (none, none)
        else if l1.length < len then (some l1, none)
        else (some [], some (l1.take len))

/-- The blocks of one frame. -/
def streamSteps : List (Bool × Dword) → RxPart → RxPart × List (List Byte)
  | [], p => (p, [])
  | b :: r, p =>
    let a := streamStep p b.1 b.2
    let t := streamSteps r a.1
    (t.1, match a.2 with
      | some k => k :: t.2
      | none => t.2)

/-- Stream blocks 4 to n - 1 of a released frame. -/
def streamBlocks (r : Released) (n : Nat) : List (Bool × Dword) :=
  ((List.range n).drop 4).map fun j => (r.mask.getLsbD j, r.data.extractLsb' (64 * j) 64)

/-- What one mirror lane delivers: whether its status is intact, the status, its packets, whether its stream is idle. -/
structure MirRel where
  intact : Bool
  status : MStatus
  pkts   : List (List Byte)
  idle   : Bool

/-- The release of mirror lane i (lane l): counted where substituted; R295 does not apply (R335). -/
def State.releaseMirror (s : State) (y : CN) (l i : Nat) : State × MirRel :=
  let u := s.takeHeld l y
  let r := u.2
  let s1 := if r.mask = 0 then u.1 else u.1.lnkCount l 2 1
  let intact := decide (r.mask.extractLsb' 0 4 = 0)
  let blocks := streamBlocks r (s1.lane l).blen
  let t := streamSteps blocks (tget (some []) s1.pair.rxBuf i)
  let miss := if intact then 0 else tget 0 s1.pair.laneMiss i + 1
  ({ s1 with pair := { s1.pair with rxBuf := tset s1.pair.rxBuf i t.1, laneMiss := tput 0 s1.pair.laneMiss i miss } },
   { intact := intact, status := statusOf r.data, pkts := t.2, idle := decide (t.1 = some []) && blocks.all fun b => !b.1 && b.2 == 0 })

/-- Every mirror lane's release. -/
def State.releaseAll (s : State) (y : CN) : State × List MirRel :=
  (s.mirrorLanes.zipIdx).foldl (fun (a : State × List MirRel) e =>
    let r := a.1.releaseMirror y e.1 e.2
    (r.1, a.2 ++ [r.2])) (s, [])

/-! ### Mirrored commands on the Watch (R338) -/

/-- The command that a packet carries. -/
def mirroredReq (b : List Byte) : KReq :=
  let h : CmdHdr := { mbx := 255, tag := BitVec.ofNat 32 (leAt b 0 4), len := leAt b 6 2, acn := BitVec.ofNat 48 (leAt b 8 6)
                      at_ := (leAt b 14 1).testBit 0, rel := false, rsvd := false }
  { op := BitVec.ofNat 16 (leAt b 4 2), hdr := h, body := (b.drop 24).take h.len }

/-- The commands that a Watch applies: those of R407, and the announced rebase. -/
def mirFind (op : BitVec 16) : Option KCmd := if op = 0x0804 then some cmdRebase else kFind op

/-- A mirrored command applied; the journal's RESULT holds the Helm's SEQ (15 R413). -/
def State.applyMirrored (s : State) (b : List Byte) : State :=
  let r := mirroredReq b
  match mirFind r.op with
  | none => s
  | some c =>
    let u := kRun c 255 r s
    let note (e : JEnt) : JEnt := if e.seq = u.jnl.head then { e with result := BitVec.ofNat 64 (leAt b 16 4) } else e
    if u.jnl.head = s.jnl.head then u else { u with jnl := { u.jnl with ents := u.jnl.ents.map note } }

/-- The mirrored command needs a run (15 R407). -/
def needsArmed (b : List Byte) : Bool :=
  match mirFind (mirroredReq b).op with
  | some c => decide (c.spec.run = .yes ∨ c.spec.run = .paused)
  | none => false

/-- What names a command packet: the journal epoch in its body and its SEQ, a journal SEQ of that epoch. -/
def packetKey (seq : Nat) (b : List Byte) : Nat := leAt b 20 2 * 2 ^ 32 + seq

/-- A later packet of the same epoch has been taken. -/
def PairState.passed (p : PairState) (k : Nat) : Bool := p.taken.any fun t => decide (t / 2 ^ 32 = k / 2 ^ 32 ∧ k < t)

/-- A command packet: taken once, whichever lane delivers it, and acknowledged through CACK. Before step 2 of a rejoin has ended it waits (R347; DESIGN
CHOICE, log entry 41). -/
def State.takeCommand (s : State) (seq : Nat) (b : List Byte) : State :=
  let k := packetKey seq b
  if s.pair.auth || s.pair.taken.contains k then s
  else
    let s1 := { s with pair := { s.pair with cack := if s.pair.passed k then s.pair.cack else BitVec.ofNat 32 seq, taken := (k :: s.pair.taken).take 256 } }
    match s1.pair.rejoin with
    | some (_, false) => { s1 with pair := { s1.pair with defer := s1.pair.defer ++ [(seq, b)] } }
    | some (_, true) => s1.applyMirrored b
    | none => if s1.pair.st = .joined ∨ s1.pair.st = .probation then s1.applyMirrored b else s1

/-- The end of step 2: the data in place, the commands that waited applied, the run armed between those that need no run and those that
do. -/
def State.endStepTwo (s : State) (src : Nat) : State :=
  let s1 := if src = 0 then s.gainAll else s
  let d := s1.pair.defer
  let s2 := { s1 with pair := { s1.pair with defer := [] } }
  let s3 := (d.filter fun p => !needsArmed p.2).foldl (fun u p => u.applyMirrored p.2) s2
  let s4 := s3.armRejoin src
  (d.filter fun p => needsArmed p.2).foldl (fun u p => u.applyMirrored p.2) s4

/-- A host-sourced step 2 is complete: the run of the plan could be armed. -/
def State.hostLoaded (s : State) : Bool :=
  (({ s with pair := { s.pair with st := .joined } } : State).armBad s.planSlot (leAt (s.got 0) 19 1) false).isNone

/-- Step 2 ends when every packet of it has arrived, and the host has loaded what it sources. -/
def State.checkStepTwo (s : State) : State :=
  match s.pair.rejoin with
  | some (src, false) => if s.stepTwoAll && (src == 0 || s.hostLoaded) then s.endStepTwo src else s
  | _ => s

/-- One packet (R337). -/
def State.takePacket (s : State) (p : List Byte) : State :=
  let seq := leAt p 4 4
  let body := p.drop 8
  match leAt p 2 1 % 16 with
  | 1 => s.takeCommand seq body
  | 2 => s.takeXfer seq body
  | 3 => s.takeRequest body
  | _ => s

/-- While the stream is idle the rejoining member asks again for what is missing (R337), at most 16 packets a crossing. -/
def State.askAgain (s : State) : State :=
  match s.pair.rejoin with
  | none => s
  | some (src, done) =>
    let s1 := (s.wanted.take 16).foldl (fun u n => u.sendRequest (requestPkt 3 src n)) s
    if done && s.pair.ready && s.pair.rebaseJ.isNone then s1.sendRequest (requestPkt 2 src 0) else s1

/-- The send crossing released in this crossing. -/
def State.mirrorY (s : State) : CN := cnSub s.cn s.mr

/-- This crossing's frames have not been released. -/
def State.mirrorRelDue (s : State) : Bool :=
  s.pairMode && decide (s.tick = 0) && decide (s.mirrorLanes ≠ []) && decide (s.pair.relAt ≠ some s.mirrorY)

/-- The lanes whose status is intact. -/
def intactMask (l : List MirRel) : BitVec 4 :=
  l.zipIdx.foldl (fun w p => if p.1.intact then w ||| (1 : BitVec 4) <<< p.2 else w) 0

/-- A packet in its place among packets by SEQ. -/
def insertPkt (p : List Byte) : List (List Byte) → List (List Byte)
  | [] => [p]
  | q :: r => if leAt p 4 4 ≤ leAt q 4 4 then p :: q :: r else q :: insertPkt p r

/-- Packets of a release in the order in which they are taken: commands by SEQ, then the rest as they came (R337). -/
def packetOrder (l : List (List Byte)) : List (List Byte) :=
  let cmd (p : List Byte) : Bool := leAt p 2 1 % 16 == 1
  (l.filter cmd).foldr insertPkt [] ++ l.filter fun p => !cmd p

/-- The frames of send crossing y released: packets, then the status of the first lane that delivers it intact (R340). -/
def State.mirrorRelease (s : State) (y : CN) : State :=
  let a := ({ s with pair := { s.pair with relAt := some y } }).releaseAll y
  let s1 := ((packetOrder (a.2.flatMap MirRel.pkts)).foldl State.takePacket a.1).checkStepTwo
  let s2 := if a.2.all MirRel.idle then s1.askAgain else s1
  match a.2.find? MirRel.intact with
  | some m => s2.peerStatus y m.status (intactMask a.2)
  | none => s2.peerMissing y

/-- MIRROR_FRAME_RELEASE (R340). -/
def execMirrorFrameRelease (s : State) : Out :=
  if s.mirrorRelDue then .next (s.mirrorRelease s.mirrorY) else .next s

end Sys2Proof.Machine
end

