-- ==== Sys2Proof/Machine/Registers.lean ====
section
/-! DEFINITION. The BAR0 registers as data (16_registers_and_host.md R433 to R450 and the register tables of every chapter): what
each word reads as, which registers are latched, sequence-clear or staged. A register's width is in 32-bit words; its offset is
the byte offset of its low word. Blocks and their extents are DESIGN CHOICE, log entry 47. -/

namespace Sys2Proof.Machine

/-- How a register of more than one word, or a staged one, is accessed (R437, R439, R445). -/
inductive RegKind where
  | plain
  | latched
  | seqClear (i : EvtId)
  | staged
deriving DecidableEq, Repr

/-- A register of a block: offset in the block, words, kind, the value that a read returns, and the value in force where it differs
(a staged field). -/
structure Reg where
  off   : Nat
  words : Nat
  kind  : RegKind
  val   : Nat
  force : Nat := val

def Reg.plain (off val : Nat) : Reg := { off := off, words := 1, kind := .plain, val := val }
def Reg.latch (off words val : Nat) : Reg := { off := off, words := words, kind := .latched, val := val }
def Reg.events (s : State) (off : Nat) (i : EvtId) : Reg := { off := off, words := 2, kind := .seqClear i, val := (s.evt i).value.toNat }
def Reg.counter (s : State) (off : Nat) (i : CtrId) : Reg := Reg.latch off 2 (s.ctr i).toNat
def Reg.staged (off words val force : Nat) : Reg := { off := off, words := words, kind := .staged, val := val, force := force }

/-- Word k of a number. -/
def wordK (v k : Nat) : Word := BitVec.ofNat 32 (v >>> (32 * k))

/-- Bits as one number: each (place, value) adds its value at its place. -/
def packed (l : List (Nat × Nat)) : Nat := l.foldl (fun w p => w ||| p.2 <<< p.1) 0

/-- A flag as a bit. -/
def bit01 (b : Bool) : Nat := if b then 1 else 0

/-! ### Identity and host (R456) -/

def State.regsId (s : State) : List Reg :=
  let h := s.host
  [.plain 0x00 h.idDev.toNat, .plain 0x04 h.idRev.toNat, .latch 0x08 2 h.idSerial.toNat, .plain 0x10 h.idFw.toNat,
   .plain 0x14 h.idCap.toNat, .plain 0x18 h.scratch.toNat, .plain 0x20 h.wbase.toNat, .events s 0x28 .hst,
   .counter s 0x30 .hstWdrop, .counter s 0x38 .hstPoison]

/-! ### Mailboxes and journal (15 R413, R421, R422) -/

def State.regsMbx (s : State) (m : Nat) : List Reg :=
  let b := s.mbxOf m
  [.plain 0x04 (packed [(31, bit01 b.busy), (30, bit01 (b.notices ≠ 0)), (29, bit01 b.novf), (28, bit01 b.dbl), (0, b.notices)]),
   .plain 0x08 (packed [(6, bit01 b.phase), (0, b.prod.toNat)]), .plain 0x0C b.cons.toNat]

def State.regsJnl (s : State) : List Reg :=
  [.plain 0 s.jnl.epoch.toNat, .plain 4 (s.jnl.head % 2 ^ 32), .plain 8 s.jnl.page.toNat]

/-- STATE of R413. -/
def JSt.code : JSt → Nat
  | .accepted => 1
  | .done => 2
  | .void => 3
  | .failed => 4

/-- The 64 bytes of an entry (R413). -/
def JEnt.bytes (e : JEnt) (epoch : BitVec 16) : List Byte :=
  leBytes 4 e.seq ++ leBytes 2 epoch.toNat ++ leBytes 1 e.mbx ++ leBytes 1 e.st.code ++ leBytes 2 e.op.toNat ++ leBytes 2 e.status.toNat ++
  leBytes 4 e.tag.toNat ++ leBytes 6 e.cnAcc.toNat ++ leBytes 2 e.len ++ leBytes 6 e.acn.toNat ++ [e.flags, 0] ++ leBytes 8 e.digest.toNat ++
  leBytes 8 e.result.toNat ++ leBytes 6 e.cnDone.toNat ++ List.replicate 10 0

/-- A word of the entry window (R422). -/
def State.jnlWindow (s : State) (o : Nat) : Word :=
  let i := 1024 * s.jnl.page.toNat + o / 64
  match s.jnl.ents.find? fun e => (e.seq - 1) % 4096 == i with
  | some e => BitVec.ofNat 32 (leAt (e.bytes s.jnl.epoch) (o % 64) 4)
  | none => 0

/-! ### Chronometer (13 R376, R377) -/

def ChrSt.code : ChrSt → Nat
  | .unset => 0
  | .armed => 1
  | .locked => 2

def State.regsChr (s : State) : List Reg :=
  let k := s.chr
  [.plain 0x00 k.cfg.toNat, .plain 0x04 (packed [(30, k.st.code), (29, bit01 k.srcX), (0, k.launches.length)]), .events s 0x08 .chr,
   .latch 0x10 4 k.time.toNat, .staged 0x20 3 k.stStep.toNat 0, .staged 0x30 2 k.stInc.toNat k.inc.toNat,
   .latch 0x40 2 k.refCnt.toNat, .latch 0x48 2 k.lastRef.toNat, .latch 0x50 2 k.lateCnt.toNat, .latch 0x60 2 k.orbCn.toNat,
   .latch 0x70 4 k.orbTime.toNat, .plain 0x80 k.pps.toNat, .latch 0x90 4 k.ppsIn.toNat]

def State.regsPulse (s : State) (p : Nat) : List Reg :=
  let x := s.pulse p
  [.staged 0x00 4 x.stStart.toNat x.start.toNat, .staged 0x10 1 x.stPer.toNat x.per.toNat, .staged 0x14 1 x.stWid.toNat x.wid.toNat,
   .plain 0x18 (packed [(31, bit01 x.en), (30, bit01 x.done)]), .latch 0x20 2 x.skip.toNat]

/-! ### The run (01 R35, 05 R150, R176, 06 R203, 10 R327, 14 R397, 19 R513) -/

/-- RUN_LATCFG; the reset value where no run is armed (DESIGN CHOICE, log entry 47). -/
def State.latCfg (s : State) : Nat :=
  if s.armed then packed [(24, s.hdr.rofs), (16, s.hdr.t), (8, s.hdr.a), (0, s.latL)] else 0x03000000

def ShState.code : ShState → Nat
  | .empty => 0
  | .filling => 1
  | .ready => 2
  | .switching => 3

/-- FILL_PROG. -/
def State.fillProg (s : State) : Nat :=
  match s.planes.sh with
  | .empty => 0
  | .filling => min 0xFFFF (s.planes.fillPos * 65536 / max 1 s.fillBytes)
  | _ => 0xFFFF

/-- What computes the crossing now in the channel stage. -/
def State.stageEpoch (s : State) : EpochRec := s.epochOf (cnSub s.cn s.hdr.rofs)

def State.runPlane (s : State) : Nat :=
  if s.armed then
    packed [(30, s.planes.sh.code), (28, s.stageEpoch.epoch.toNat), (22, s.stageEpoch.slot),
      (16, if s.planes.sh = .empty then 0 else s.planes.shSlot), (0, s.fillProg)]
  else 0

/-- STATE of RUN_PAUSE. -/
def State.pauseCode (s : State) : Nat :=
  match s.run.phase with
  | .draining => 1
  | .paused => 2
  | .running => if s.run.filling && s.run.resumed then 3 else 0
  | _ => 0

/-- Lanes recorded (RUN_LOG). -/
def nBits (v : Dword) : Nat := (List.range 64).countP fun l => v.getLsbD l

/-- The run registers. The deviation counter of the CNT block (01 R34) has no offset in the map and no register here (DESIGN CHOICE, log
entry 75). -/
def State.regsRun (s : State) : List Reg :=
  let a := s.armed
  [.plain 0x10 s.latCfg, .events s 0x18 .runLat, .latch 0x20 2 s.out.latCn.toNat,
   .plain 0x30 (packed [(16, if a then s.hdr.tmid else 0), (0, 1)]), .plain 0x40 s.arr.hzRec.toNat, .latch 0x48 2 s.arr.hzCn.toNat,
   .plain 0x50 s.arr.hzDet.toNat, .events s 0x58 .runHz, .plain 0x60 s.runPlane, .latch 0x68 2 (if a then s.planes.swCn.toNat else 0),
   .plain 0x70 (if a then packed [(11, s.img.cred.stage), (0, s.img.cred.origin)] else 0),
   .latch 0x80 12 (if a then leNat (s.libSlot s.stageEpoch.slot).meas else 0),
   .plain 0xB0 (packed [(30, s.pauseCode), (29, bit01 s.run.replay), (28, bit01 s.run.partialR)]), .latch 0xB8 2 s.run.delta.toNat,
   .latch 0xC0 2 s.run.lastP.toNat,
   .plain 0xC8 (packed [(30, if s.log.active then s.log.mode else 0), (29, bit01 s.log.lossOvf), (28, bit01 s.log.evtOvf),
     (0, if s.log.active then nBits s.log.lanes else 0)]),
   .plain 0x100 (packed [(31, bit01 s.pkg.ozRun), (0, s.pkg.lastCmd.toNat)]), .counter s 0x108 .ccInv, .counter s 0x110 .ccOz]

/-! ### The pair (12 R354) -/

def PairSt.code : PairSt → Nat
  | .off => 0
  | .forming => 1
  | .probation => 2
  | .joined => 3
  | .yielding => 4
  | .lost => 5

/-- AUTH of PAIR_STAT; its reset value until Klowyn has booted. -/
def State.authShown (s : State) : Bool := s.hasAuth && decide (s.jnl.epoch ≠ 0)

def State.regsPair (s : State) : List Reg :=
  let p := s.pair
  [.plain 0x00 p.cfg.toNat,
   .plain 0x04 (packed [(30, p.role.toNat), (29, bit01 s.authShown), (26, p.st.code), (23, p.pstate.toNat), (19, p.mlanes.toNat),
     (8, p.cause.toNat), (7, bit01 p.side)]),
   .events s 0x08 .pair, .latch 0x10 2 p.kcn.toNat, .latch 0x18 2 p.vcn.toNat, .latch 0x20 2 p.mmcn.toNat, .latch 0x28 2 p.xfer.toNat,
   .counter s 0x30 (.pair 0), .counter s 0x38 (.pair 1), .counter s 0x40 (.pair 2)]

/-! ### Clocks and power (17 R480, R481) -/

def State.regsClk (s : State) : List Reg :=
  let c := s.clk
  [.plain 0x00 (packed [(31, bit01 c.mclkOk), (30, bit01 c.lrefOk), (29, bit01 c.xtalOk), (28, bit01 c.alock), (26, c.oscDly.toNat),
     (21, if s.armed then s.hdr.n else 0)]),
   .plain 0x04 (if c.mclkOk then c.freq.toNat else 0), .plain 0x08 c.gate.toNat, .plain 0x0C c.ben.toNat, .events s 0x10 .clk,
   .plain 0x18 c.gref.toNat, .plain 0x1C c.cdc.toNat, .counter s 0x20 .clkFlush]

def State.regsPwr (s : State) : List Reg :=
  let p := s.pwr
  [.plain 0x00 (packed [(30, p.sst.toNat), (28, p.pl), (27, bit01 (p.busy ≠ .none)), (0, p.railok.toNat)]), .events s 0x08 .pwr] ++
  ((List.range 4).map fun q => .plain (0x10 + 4 * q) (packed [(16, tget 0 p.target q), (0, tget 0 p.read q)])) ++
  [.plain 0x20 p.wmask.toNat]

/-! ### Integrity (16 R457) -/

/-- Words of a pass: the fixed set and the regions in force (DESIGN CHOICE, log entry 47). -/
def State.passWords (s : State) : Nat := 2752 + (s.cig.rgn.map fun p => (p.2.extractLsb' 23 9).toNat).sum

def State.regsCig (s : State) : List Reg :=
  let c := s.cig
  [.plain 0x00 (packed [(31, bit01 c.en), (30, bit01 c.take)]),
   .plain 0x04 (packed [(31, bit01 c.stale), (30, bit01 c.learn), (0, if s.ctr .cigPass = 0 then 0 else s.passWords)]),
   .events s 0x08 .cig, .staged 0x10 1 c.stRef.toNat c.ref.toNat, .plain 0x14 c.last.toNat, .counter s 0x18 .cigPass] ++
  (List.range 64).map fun r => .staged (0x100 + 4 * r) 1 (tget 0 c.stRgn r).toNat (tget 0 c.rgn r).toNat

/-! ### Lanes, Sextants, role counters (09 R305, R306, 10 R328) -/

def State.regsLnk (s : State) (l : Nat) : List Reg :=
  let x := s.lane l
  [.plain 0x000 x.cfg.toNat,
   .plain 0x004 (packed [(31, bit01 x.lock), (30, bit01 x.anchor), (29, bit01 x.eirx), (28, bit01 x.eitx), (0, x.lid.toNat)]),
   .events s 0x008 (.lnk l), .plain 0x010 x.cnofs.toNat, .plain 0x014 x.flim,
   .plain 0x018 (packed [(16, x.slackLast.toNat), (0, x.slackMin.toNat)])] ++
  ((List.range 8).map fun k => .counter s (0x020 + 8 * k) (.lnk l k)) ++
  [.plain 0x080 x.txeq.toNat, .plain 0x084 x.rxeq.toNat, .plain 0x088 x.dfe.toNat]

def State.regsSxt (s : State) (l : Nat) : List Reg :=
  let x := s.sextOf l
  [.plain 0x00 x.cfg.toNat, .plain 0x04 x.limit.toNat, .plain 0x08 x.margin.toNat,
   .plain 0x0C (packed [(31, bit01 x.busy), (29, x.eye.toNat), (0, x.done.toNat)]), .events s 0x10 (.sxt l)]

def State.regsChn (s : State) (l : Nat) : List Reg :=
  let h := s.hubOf l
  [.plain 0x00 (packed [(16, h.inflt.toNat), (0, h.maxfl.toNat)]), .events s 0x08 (.chn l)] ++
  (List.range 5).map fun k => .counter s (0x10 + 8 * k) (.hub l k)

/-! ### The Almanac (07 R241) -/

def State.regsAlm (s : State) (q : Nat) : List Reg :=
  let a := s.alm
  [.plain 0x00 (packed [(31, bit01 a.locked), (30, bit01 a.tideOn), (29, bit01 a.trained), (24, s.phase),
     (0, if s.armed then s.img.almt.tables.length else 0)]),
   .events s 0x08 (.alm q), .counter s 0x10 (.almSlk q), .counter s 0x18 (.almDlk q), .counter s 0x20 (.almMiss q),
   .counter s 0x28 (.almNokey q), .counter s 0x30 (.almCe q), .counter s 0x38 (.almUe q), .plain 0x40 (tget 0 a.ueRec q).toNat,
   .latch 0x48 2 (tget 0 a.ueCn q).toNat, .plain 0x50 (tget 0x241A281C a.mlimit q).toNat] ++
  ((List.range 16).map fun i => .plain (0x100 + 4 * i) (tget 0 a.margin (16 * q + i)).toNat) ++
  [.latch 0x200 2 a.swapReg.toNat]

/-! ### Wake buffer and Beacons (08 R276, R277) -/

def CapStateK.code : CapStateK → Nat
  | .idle => 0
  | .prefill => 1
  | .armed => 2
  | .post => 3
  | .frozen => 4
  | .draining => 5

def State.regsCap (s : State) : List Reg :=
  let c := s.cap
  let d := capDepth (s.inputLanes c.lanes)
  let idle := decide (c.st = .idle)
  [.plain 0x00 c.cfg.toNat, .plain 0x04 c.win.toNat, .latch 0x08 2 c.lanes.toNat,
   .plain 0x10 (packed [(29, c.st.code), (28, bit01 (decide (d = 5461))), (14, if idle then 0 else d), (0, min d c.filled)]),
   .events s 0x18 .cap, .latch 0x20 2 (packed [(48, c.trigSrc.toNat), (0, c.trigCn.toNat)]), .latch 0x28 2 c.a0.toNat,
   .latch 0x30 2 c.lastFr.toNat, .counter s 0x38 .capIgnPre, .counter s 0x40 .capIgnBusy, .counter s 0x48 .capIgnDrain,
   .counter s 0x50 .capMtv, .counter s 0x58 .capFill, .counter s 0x60 .capAvg, .plain 0x68 c.mtRec.toNat, .latch 0x70 2 c.mtCn.toNat]

def State.regsBcn (s : State) (b : Nat) : List Reg :=
  let x := s.beacon b
  [.plain 0x00 x.cfg.toNat, .plain 0x04 x.min.toNat, .counter s 0x08 (.bcnHit b), .latch 0x10 2 x.lastCn.toNat]

/-! ### Weighmaster (04 R144, R145) -/

def State.regsTensor (s : State) (v t : Nat) : List Reg :=
  let x := s.tensor (64 * v + t)
  [.plain 0x00 x.cfg.toNat, .plain 0x04 x.rdef.toNat,
   .latch 0x08 2 (packed [(48, x.mNow.toNat), (47, bit01 x.seen), (32, x.sNow.toNat), (0, x.rForce.toNat)]), .plain 0x10 x.last.toNat,
   .plain 0x14 x.twin.toNat, .counter s 0x18 (.wgmTsat v t), .plain 0x20 x.fa.toNat]

def State.regsWgmC (s : State) (q : Nat) : List Reg :=
  [.events s 0x00 (.wgmC q), .counter s 0x08 (.wgmCsat q), .counter s 0x10 (.wgmCfa q), .plain 0x18 (tget 0 s.wgm.clast q).toNat,
   .latch 0x20 2 (tget 0 s.wgm.clastCn q).toNat]

/-! ### Fields (02 R81) -/

/-- The virtual Field that physical Field f carries, as (VFX, VFY). -/
def State.vfOf (s : State) (f : Nat) : Option (Nat × Nat) :=
  let pl := if s.dev.nc12 then s.dev.dis else none
  ((List.range 16).map fun i => (i % 4, i / 4)).find? fun p => decide (p.2 < (goodLines pl).length) && physField pl p.1 p.2 == f

/-- FLD_MAP: set at boot from the defect map; F12 to F15 carry nothing while gated (R79). -/
def State.fldMap (s : State) (f : Nat) : Nat :=
  if s.jnl.epoch = 0 || (s.gatedF12 && decide (12 ≤ f)) then 0
  else match s.vfOf f with
    | some p => packed [(31, 1), (30, bit01 (s.dev.nc12 && turned s.dev.dis)), (2, p.2), (0, p.1)]
    | none => 0

/-- FLD_SPAREn. -/
def State.fldSpare (s : State) (f n : Nat) : Nat :=
  match (tget [] s.dev.retired f)[n]? with
  | some c => packed [(15, 1), (0, c % 512)]
  | none => 0

def State.regsFld (s : State) (f : Nat) : List Reg :=
  if s.fieldOff f then []
  else
    [.plain 0x00 (s.fldMap f)] ++ ((List.range 8).map fun n => .plain (0x10 + 4 * n) (s.fldSpare f n)) ++
    (if s.gatedF12 && decide (12 ≤ f) then []
     else [.events s 0x40 (.fld f), .counter s 0x50 (.fldOvf f), .counter s 0x58 (.fldUnf f), .counter s 0x60 (.fldEpd f),
           .plain 0x70 (tget 0 s.arr.ovfPos f).toNat, .latch 0x78 2 (tget 0 s.arr.ovfCn f).toNat])

/-! ### The map -/

/-- The register block of a BAR0 byte offset: its base and registers; none outside every block (R435). Flag space, aliases, journal
window and MSI-X structures are not lists of registers and stand apart. -/
def State.block (s : State) (o : Nat) : Option (Nat × List Reg) :=
  if o < 0x10000 then some (0, s.regsId)
  else if o < 0x20000 then
    let m := (o - 0x10000) / 0x20
    some (0x10000 + 0x20 * m, if m < 16 then s.regsMbx m else [])
  else if o < 0x40000 then some (0x20000, s.regsJnl)
  else if o < 0x60000 then
    if 0x41000 ≤ o ∧ o < 0x41200 then
      let p := (o - 0x41000) / 0x40
      some (0x41000 + 0x40 * p, s.regsPulse p)
    else some (0x40000, s.regsChr)
  else if o < 0x80000 then some (0x60000, s.regsRun)
  else if o < 0xA0000 then some (0x80000, s.regsPair)
  else if o < 0xC0000 then if 0xA1000 ≤ o then some (0xA1000, s.regsPwr) else some (0xA0000, s.regsClk)
  else if o < 0x100000 then some (0xC0000, s.regsCig)
  else if o < 0x140000 then
    let l := (o - 0x100000) / 0x1000
    some (0x100000 + 0x1000 * l, s.regsLnk l)
  else if o < 0x144000 then
    let l := (o - 0x140000) / 0x100
    some (0x140000 + 0x100 * l, s.regsSxt l)
  else if 0x180000 ≤ o ∧ o < 0x190000 then
    let q := (o - 0x180000) / 0x4000
    some (0x180000 + 0x4000 * q, s.regsAlm q)
  else if 0x200000 ≤ o ∧ o < 0x210000 then some (0x200000, s.regsCap)
  else if 0x210000 ≤ o ∧ o < 0x210200 then
    let b := (o - 0x210000) / 0x20
    some (0x210000 + 0x20 * b, s.regsBcn b)
  else if 0x210200 ≤ o ∧ o < 0x280000 then some (0x210200, [])
  else if 0x280000 ≤ o ∧ o < 0x2C0000 then
    let v := (o - 0x280000) / 0x4000
    let r := (o - 0x280000) % 0x4000
    if s.dev.nc12 && decide (12 ≤ v) then some (o, [])
    else if r < 0x1000 then some (o / 0x40 * 0x40, s.regsTensor v (r / 0x40))
    else some (0x281000 + 0x4000 * v, [.events s 0 (.wgmF v)])
  else if 0x2C0000 ≤ o ∧ o < 0x300000 then
    let q := (o - 0x2C0000) / 0x10000
    some (0x2C0000 + 0x10000 * q, s.regsWgmC q)
  else if 0x300000 ≤ o ∧ o < 0x400000 then
    let f := (o - 0x300000) / 0x10000
    some (0x300000 + 0x10000 * f, s.regsFld f)
  else if 0x410000 ≤ o ∧ o < 0x411000 then
    let l := (o - 0x410000) / 0x40
    some (0x410000 + 0x40 * l, s.regsChn l)
  else if 0x600000 ≤ o then some (0x600000, [])
  else none

/-- The register that holds the word at an offset, and the word's index in it. -/
def State.regAt (s : State) (o : Nat) : Option (Reg × Nat) :=
  (s.block o).bind fun b =>
    (b.2.find? fun r => decide (b.1 + r.off ≤ o ∧ o < b.1 + r.off + 4 * r.words)).map fun r => (r, (o - b.1 - r.off) / 4)

/-! ### Flag space (R442, R443) -/

/-- An event register has an event bit set. -/
def State.evtOn (s : State) (i : EvtId) : Bool := decide ((s.evt i).bits ≠ 0)

/-- Bits 0 to n - 1 of a summary word. -/
def summary (n : Nat) (f : Nat → Bool) : Word := BitVec.ofNat 32 (packed ((List.range n).map fun b => (b, bit01 (f b))))

/-- The physical Field's events as its block shows them. -/
def State.fldOn (s : State) (f : Nat) : Bool := !s.fieldOff f && !(s.gatedF12 && decide (12 ≤ f)) && s.evtOn (.fld f)

/-- A vector is active (R442). -/
def State.vectorOn (s : State) (v : Nat) : Bool :=
  if v < 16 then decide ((s.mbxOf v).used ≠ 0)
  else match v with
    | 16 => s.evtOn .runLat || s.evtOn .runHz
    | 17 => (List.range 16).any s.fldOn
    | 18 => ((List.range 16).any fun k => s.evtOn (.wgmF k)) || (List.range 4).any fun q => s.evtOn (.wgmC q)
    | 19 => (List.range 4).any fun q => s.evtOn (.alm q)
    | 20 => s.evtOn .cap
    | 21 => (List.range 64).any fun l => s.evtOn (.lnk l) || s.evtOn (.sxt l) || s.evtOn (.chn l)
    | 22 => s.evtOn .pair
    | 23 => s.evtOn .chr
    | 24 => s.evtOn .cig
    | 25 => s.evtOn .hst
    | 26 => s.evtOn .clk || s.evtOn .pwr
    | _ => false

/-- A summary word (R442, 17 R480). -/
def State.summaryWord (s : State) (w : Nat) : Word :=
  match w with
  | 0 => summary 32 s.vectorOn
  | 1 => summary 32 fun b => s.vectorOn (32 + b)
  | 2 => summary 7 fun b => s.evtOn ([EvtId.runLat, .runHz, .cap, .pair, .chr, .cig, .hst].getD b .hst)
  | 3 => summary 16 s.fldOn
  | 4 => summary 20 fun b => if b < 16 then s.evtOn (.wgmF b) else s.evtOn (.wgmC (b - 16))
  | 5 => summary 4 fun b => s.evtOn (.alm b)
  | 6 => summary 32 fun b => s.evtOn (.lnk b)
  | 7 => summary 32 fun b => s.evtOn (.lnk (32 + b))
  | 8 => summary 32 fun b => s.evtOn (.sxt b)
  | 9 => summary 32 fun b => s.evtOn (.sxt (32 + b))
  | 10 => summary 32 fun b => s.evtOn (.chn b)
  | 11 => summary 32 fun b => s.evtOn (.chn (32 + b))
  | 12 => summary 2 fun b => if b = 0 then s.evtOn .clk else s.evtOn .pwr
  | _ => 0

/-- Flag word w, 0 to 65,535. -/
def State.flagWord (s : State) (w : Nat) : Word := if w < 1024 then s.summaryWord w else tget 0 s.flags w

/-- Sets bit b of software flag word w. -/
def State.putFlagBit (s : State) (w b : Nat) (v : Bool) : State :=
  let x := tget 0 s.flags w
  let m : Word := (1 : Word) <<< b
  { s with flags := tput 0 s.flags w (if v then x ||| m else x &&& ~~~m) }

/-! ### Words -/

/-- The word at a BAR0 offset; force: the value in force in place of a staging copy. -/
def State.wordAt (s : State) (force : Bool) (o : Nat) : Word :=
  if 0x800000 ≤ o then
    let i := (o - 0x800000) / 4
    if (s.flagWord (i / 32)).getLsbD (i % 32) then 1 else 0
  else if 0x600000 ≤ o then if o < 0x640000 then s.flagWord ((o - 0x600000) / 4) else 0
  else if 0x8000 ≤ o ∧ o < 0x8400 then
    let k := (o - 0x8000) / 4
    tget (if k % 4 = 3 then 1 else 0) s.host.msix k
  else if 0x9000 ≤ o ∧ o < 0x9008 then wordK s.host.pend.toNat ((o - 0x9000) / 4)
  else if 0x30000 ≤ o ∧ o < 0x40000 then s.jnlWindow (o - 0x30000)
  else match s.regAt o with
    | some (r, k) => wordK (if force then r.force else r.val) k
    | none => 0

/-- What the word at a BAR0 offset reads as, shadows apart. -/
def State.word (s : State) (o : Nat) : Word := s.wordAt false o

/-- The word in force, as the integrity engine reads it (R451). -/
def State.wordInForce (s : State) (o : Nat) : Word := s.wordAt true o

/-- The offset lies in a block of the map (R435). -/
def State.mapped (s : State) (o : Nat) : Bool :=
  decide (0x800000 ≤ o) || (decide (0x600000 ≤ o) && decide (o < 0x640000)) || (decide (o < 0x600000) && (s.block o).isSome)

end Sys2Proof.Machine
end

