-- ==== Sys2Proof/Machine/HostAccess.lean ====
section
/-! DEFINITION. Accesses by the host and the Binnacle (16_registers_and_host.md R424 to R450): register reads and writes, staged
fields, clear aliases, flag bits, the BAR4 window, configuration requests and the events that reset the endpoint. -/

namespace Sys2Proof.Machine

/-- The BARs answer the requester: the host's do not in D3hot, nor before the identity is loaded and the link may train (R424, R426, R456, 18 R485,
R487). -/
def State.answers (s : State) (req : Requester) : Bool :=
  match req with
  | .host => s.host.idLoaded && s.boot.link && !s.host.d3
  | .binnacle => true

/-- An access that acts where the BARs answer, and else changes nothing (R426). -/
def State.access (s : State) (req : Requester) (f : State → State) : Out := .next (if s.answers req then f s else s)

/-! ### Reads (R437) -/

/-- A requester's shadow of the higher word at an offset. -/
def shadowKey (req : Requester) (off : Nat) : Nat := (match req with | .host => 0 | .binnacle => 1) * 2 ^ 24 + off

/-- Captures the higher words that a read of the low word at an offset latches; that of CHR_ORBCN takes CHR_ORBTIME as well (13
R366). -/
def State.capture (s : State) (req : Requester) (off words : Nat) : State :=
  let hi := (List.range (words - 1)).map fun k => off + 4 * (k + 1)
  let orb := if off = 0x40060 then [0x40070, 0x40074, 0x40078, 0x4007C] else []
  { s with host := { s.host with shadows := (hi ++ orb).foldl (fun t o => tset t (shadowKey req o) (s.word o)) s.host.shadows } }

/-- The read of the aligned word at an offset: a low word latches the higher ones, a higher word of a latched register is its shadow.
CHR_ORBTIME is latched by CHR_ORBCN alone. -/
def State.readWord (s : State) (req : Requester) (off : Nat) : State × Word :=
  match s.regAt off with
  | some (r, k) =>
    if r.kind = .latched then
      if k = 0 ∧ off ≠ 0x40070 then (s.capture req off r.words, s.word off) else (s, tget 0 s.host.shadows (shadowKey req off))
    else (s, s.word off)
  | none => (s, s.word off)

/-- The words of a request, in ascending offset order (R433). -/
def State.readWords (req : Requester) : Nat → Nat → State → State × List Word
  | _, 0, s => (s, [])
  | off, n + 1, s =>
    let r := s.readWord req off
    let t := State.readWords req (off + 4) n r.1
    (t.1, r.2 :: t.2)

/-- A read of n words with its answer. -/
def State.readReq (s : State) (req : Requester) (off n : Nat) : State :=
  let r := State.readWords req off n s
  { r.1 with host := { r.1.host with rdata := r.2 } }

/-- LOW_WORD_READ (R437), and the read of any other words of BAR0 (R433 to R435). -/
def execLowWordRead (req : Requester) (at_ : RegSpan) (s : State) : Out :=
  if !barReq at_.off at_.words then .fault .noSuchUnit else s.access req fun u => u.readReq req at_.off at_.words

/-! ### Staged fields (R444 to R448) -/

/-- The owner of the CHR_STEP and CHR_INC group (R448). -/
def State.chrOwner (s : State) (req : Requester) : Bool := decide (req = .binnacle) == s.kly.timeEn

/-- The owner of the CIG group (R448). -/
def State.cigOwner (s : State) (req : Requester) : Bool := decide (req = .binnacle) == s.kly.cfg.standalone

/-- Word k of a number replaced. -/
def setWordK {n : Nat} (b : BitVec n) (k : Nat) (v : Word) : BitVec n :=
  (b &&& ~~~((0xFFFFFFFF : Word).setWidth n <<< (32 * k))) ||| (v.setWidth n <<< (32 * k))

/-- A staged word of the Chronometer group. -/
def State.stageChr (s : State) (o : Nat) (v : Word) : State :=
  let k := s.chr
  if o < 0x40030 then { s with chr := { k with stStep := setWordK k.stStep ((o - 0x40020) / 4) v } }
  else
    let i := setWordK (k.stInc.setWidth 64) ((o - 0x40030) / 4) v
    { s with chr := { k with stInc := i.setWidth 42 } }

/-- A staged word of a pulse block. -/
def State.stagePulse (s : State) (o : Nat) (v : Word) : State :=
  let p := (o - 0x41000) / 0x40
  let r := (o - 0x41000) % 0x40
  let x := s.pulse p
  s.setPulse p (if r < 0x10 then { x with stStart := setWordK x.stStart (r / 4) v } else if r < 0x14 then { x with stPer := v } else { x with stWid := v })

/-- A staged word of the CIG group. -/
def State.stageCig (s : State) (o : Nat) (v : Word) : State :=
  if o = 0xC0010 then { s with cig := { s.cig with stRef := v } }
  else { s with cig := { s.cig with stRgn := tput 0 s.cig.stRgn ((o - 0xC0100) / 4) v } }

/-- A write to the staged word at an offset: the staging copy alone, or nothing for a requester that does not own the group
(R445, R448). -/
def State.stageWord (s : State) (req : Requester) (o : Nat) (v : Word) : State :=
  if o < 0x41000 then if s.chrOwner req then s.stageChr o v else s.notOwner
  else if o < 0x42000 then if req = .host then s.stagePulse o v else s.notOwner
  else if s.cigOwner req then s.stageCig o v else s.notOwner

/-- The offset is a word of a staged register. -/
def State.isStaged (s : State) (o : Nat) : Bool :=
  match s.regAt o with
  | some (r, _) => decide (r.kind = .staged)
  | none => false

/-- STAGED_WRITE (R445, R448). -/
def execStagedWrite (req : Requester) (off : Nat) (val : Word) (s : State) : Out :=
  if !stagedOff off then .fault .noSuchUnit else s.access req fun u => u.stageWord req off val

/-! ### Covered words (R454, R455) -/

/-- Words of BAR0 whose values in force a write of the word at o may change: its own; of CHR_CFG the rate and the pulse controls, of CHR_CMD the rate, of
CHR_PCTL its pulse block, of a flag word its aliases, of an alias its flag word, of a clear alias its register. -/
def touchedBy (o : Nat) : List Nat :=
  if o = 0x40000 then [0x40000, 0x40030, 0x40034] ++ (List.range 8).map fun p => 0x41018 + 0x40 * p
  else if o = 0x40038 then [0x40030, 0x40034]
  else if 0x41000 ≤ o ∧ o < 0x41200 then (List.range 7).map fun k => o / 0x40 * 0x40 + 4 * k
  else if 0x600000 ≤ o ∧ o < 0x640000 then o :: (List.range 32).map fun b => 0x800000 + 32 * (o - 0x600000) + 4 * b
  else if 0x800000 ≤ o then [0x600000 + (o - 0x800000) / 128 * 4, o]
  else if aliasOff o then [o - 4, o]
  else [o]

/-- STALE, where an access from state `old` has changed a covered word: one of `ws` under a region in force, or one of the fixed set (R454). -/
def State.noted (s old : State) (ws : List Nat) : State :=
  if ws.any fun o => s.regionMeets o (o + 4) && decide (s.wordInForce o ≠ old.wordInForce o) then s.coverChange false else s.covered old false

/-! ### Clear aliases and flag bits (R440, R443) -/

/-- The event register whose clear alias, its high word, is at an offset. -/
def State.aliasOf (s : State) (o : Nat) : Option EvtId :=
  match s.regAt o with
  | some (r, 1) => match r.kind with
    | .seqClear i => some i
    | _ => none
  | _ => none

/-- A write to the clear alias at an offset. -/
def State.writeClear (s : State) (o : Nat) (v : Word) : State :=
  match s.aliasOf o with
  | some i => (s.clearAlias i v).noted s (touchedBy o)
  | none => s

/-- CLEAR_ALIAS_WRITE (R440). A Field or virtual Field that the device lacks, or that is gated for the run, has no events to clear
(02 R81, 04 R144). -/
def execClearAliasWrite (off : Nat) (w : RegWrite) (s : State) : Out :=
  if !aliasOff off then .fault .noSuchUnit else s.access w.req fun u => u.writeClear off w.val

/-- A write to the alias of bit b of flag word w; that of a summary bit is ignored (R443). -/
def State.writeAlias (s : State) (o : Nat) (val : Word) : State :=
  let i := (o - 0x800000) / 4
  if i / 32 < 1024 then s else s.putFlagBit (i / 32) (i % 32) (val.getLsbD 0)

/-- A write to a bit alias, with what it covers. -/
def State.writeBit (s : State) (o : Nat) (v : Word) : State := (s.writeAlias o v).noted s (touchedBy o)

/-- BIT_ALIAS_WRITE (R443). -/
def execBitAliasWrite (off : Nat) (w : RegWrite) (s : State) : Out :=
  if !bitOff off then .fault .noSuchUnit else s.access w.req fun u => u.writeBit off w.val

/-! ### Time and power commands (13 R361 to R363, R372, 17 R462, R477): the writes that the table lists as commands of their own -/

/-- CHR_ARM (13 R361, R363), by the host. -/
def execChrArm (s : State) : Out := s.access .host State.chrArm

/-- A commit by CHR_CMD: bit 0 STEP, bit 1 RATE. -/
def State.commitChr (s : State) (req : Requester) (v : Word) : State := (s.writeChrCmd (s.chrOwner req) v).noted s (touchedBy 0x40038)

/-- CHR_STEP_COMMIT (13 R361). -/
def execChrStepCommit (req : Requester) (s : State) : Out := s.access req fun u => u.commitChr req 1

/-- CHR_RATE_COMMIT (13 R359). -/
def execChrRateCommit (req : Requester) (s : State) : Out := s.access req fun u => u.commitChr req 2

/-- CHR_MODE_CHANGE (13 R356): a write of CHR_CFG. -/
def execChrModeChange (w : RegWrite) (s : State) : Out :=
  s.access w.req fun u => (u.writeChrCfg w.val).noted u (touchedBy 0x40000)

/-- PULSE_COMMIT (13 R372): the host owns the pulse groups (R448). -/
def execPulseCommit (req : Requester) (p : Nat) (s : State) : Out :=
  if p ≥ 8 then .fault .noSuchUnit
  else s.access req fun u => if req = .host then (chrEvents (u.commitPulse p)).noted u (touchedBy (0x41018 + 0x40 * p)) else u.notOwner

/-- CLK_GATE_WRITE (17 R462). -/
def execClkGateWrite (w : RegWrite) (s : State) : Out :=
  s.access w.req fun u => (u.writeGate w.val).noted u (touchedBy 0xA0008)

/-- WAKE (17 R477), by the host driver. -/
def execWake (s : State) : Out := s.access .host State.wake

/-! ### Integrity control (R453, R454, R457) -/

/-- LEARN: the first pass that begins after the write loads the reference; where passes run, one is in progress. -/
def State.cigLearn (s : State) : State := { s with cig := { s.cig with learn := true, learning := !s.cig.en } }

/-- COMMIT of the CIG group: CIG_REF and every CIG_RGNr take force, and STALE clears. -/
def State.cigApply (s : State) : State := { s with cig := { s.cig with ref := s.cig.stRef, rgn := s.cig.stRgn, stale := false } }

def State.cigCommit (s : State) (req : Requester) : State := if s.cigOwner req then s.cigApply else s.notOwner

/-- EN and TAKE of CIG_CTL written; a pass begins when EN is set. -/
def State.cigRun (s : State) (on take : Bool) : State :=
  let u := { s with cig := { s.cig with en := on, take := take, learning := if on = s.cig.en then s.cig.learning else true } }
  u.noted s [0xC0000]

/-- A write of CIG_CTL: EN and TAKE, then LEARN, then COMMIT. -/
def State.writeCigCtl (s : State) (req : Requester) (v : Word) : State :=
  let on := v.getLsbD 31
  let s1 := s.cigRun on (v.getLsbD 30)
  let s2 := if v.getLsbD 1 then (if on && !s.cig.en then { s1 with cig := { s1.cig with learn := true } } else s1.cigLearn) else s1
  if v.getLsbD 0 then s2.cigCommit req else s2

/-! ### Writes (R434 to R436) -/

/-- Vector n is signalled where it is pending and no longer masked (R428). -/
def State.unmask (s : State) (n : Nat) : State :=
  if s.host.pend.getLsbD n && !s.msixMasked n then
    ({ s with host := { s.host with pend := s.host.pend &&& ~~~((1 : Dword) <<< n) } }).signal n
  else s

/-- A word of the MSI-X table; a vector that is unmasked while pending is signalled (R428). -/
def State.writeMsix (s : State) (k : Nat) (v : Word) : State :=
  if k % 4 ≠ 3 then { s with host := { s.host with msix := tput 0 s.host.msix k v } }
  else ({ s with host := { s.host with msix := tset s.host.msix k (v &&& 1) } }).unmask (k / 4)

/-- MBX_DOOR with RING (15 R400, R421): the command in the buffer is submitted; a doorbell rung while BUSY sets DBL. -/
def State.ringDoor (s : State) (m : Nat) : State :=
  let b := s.mbxOf m
  if b.busy then s.setMbx m { b with dbl := true } else (s.setMbx m (b.accept (bufReq m b.buf))).serveMbx m

/-- A register of a mailbox. -/
def State.writeMbx (s : State) (m r : Nat) (v : Word) : State :=
  if m ≥ 16 then s
  else if r = 0 then if v.getLsbD 0 then s.ringDoor m else s
  else if r = 0x0C then (s.consWrite m (v.extractLsb' 0 6)).serveAll
  else s

/-- A write to a register of a block that software writes directly; a write to another register is ignored (R435, R436). -/
def State.writeReg (s : State) (req : Requester) (o : Nat) (v : Word) : State :=
  if o < 0x10000 then
    if o = 0x18 then { s with host := { s.host with scratch := v } }
    else if o = 0x20 then { s with host := { s.host with wbase := v.extractLsb' 0 8 } }
    else if 0x8000 ≤ o ∧ o < 0x8400 then s.writeMsix ((o - 0x8000) / 4) v
    else s
  else if o < 0x20000 then s.writeMbx ((o - 0x10000) / 0x20) ((o - 0x10000) % 0x20) v
  else if o < 0x40000 then if o = 0x20008 then { s with jnl := { s.jnl with page := v.extractLsb' 0 2 } } else s
  else if o < 0x60000 then
    if o = 0x40000 then s.writeChrCfg v
    else if o = 0x40038 then s.writeChrCmd (s.chrOwner req) v
    else if o = 0x40080 then s.writePps v
    else if 0x41000 ≤ o ∧ o < 0x41200 ∧ o % 0x40 = 0x18 then s.writePctl (req = .host) ((o - 0x41000) / 0x40) v
    else s
  else if o < 0xC0000 then
    if o = 0xA0008 then s.writeGate v
    else if o = 0xA000C then if req = .binnacle then { s with clk := { s.clk with ben := v.extractLsb' 0 5 } } else s
    else if o = 0xA1004 then if v.getLsbD 0 then s.wake else s
    else if o = 0xA1020 then { s with pwr := { s.pwr with wmask := v.extractLsb' 0 3 } }
    else s
  else if o < 0x100000 then s
  else if 0x140000 ≤ o ∧ o < 0x144000 then
    let l := (o - 0x140000) / 0x100
    if o % 0x100 = 4 then s.setSext l { s.sextOf l with limit := v } else s
  else if 0x180000 ≤ o ∧ o < 0x190000 then
    let q := (o - 0x180000) / 0x4000
    if o % 0x4000 = 0x50 then { s with alm := { s.alm with mlimit := tset s.alm.mlimit q v } } else s
  else if 0x601000 ≤ o ∧ o < 0x640000 then { s with flags := tput 0 s.flags ((o - 0x600000) / 4) v }
  else s

/-- A write of a whole word at an offset of BAR0, with STALE where it changes a covered word (R454). -/
def State.writeWord (s : State) (req : Requester) (o : Nat) (v : Word) : State :=
  if !s.mapped o then s.raiseBit .hst 1
  else if 0x800000 ≤ o then s.writeBit o v
  else if (s.aliasOf o).isSome then s.writeClear o v
  else if s.isStaged o then s.stageWord req o v
  else if o = 0xC0000 then s.writeCigCtl req v
  else (s.writeReg req o v).noted s (touchedBy o)

/-- The words of a request, in ascending offset order (R433). -/
def State.writeWords (req : Requester) : Nat → List Word → State → State
  | _, [], s => s
  | off, v :: r, s => State.writeWords req (off + 4) r (s.writeWord req off v)

/-- REGISTER_WRITE (R433, R435, R436): the words of one request; partial byte enables discard it whole. -/
def execRegisterWrite (req : Requester) (off : Nat) (vals : List Word) (whole : Bool) (s : State) : Out :=
  if !barReq off vals.length then .fault .noSuchUnit
  else s.access req fun u => if whole then State.writeWords req off vals u else u.raiseBit .hst 2

/-! ### The BAR4 window (R429 to R432) -/

/-- The LPDDR6 byte address of a BAR4 offset (R430). -/
def State.bar4Addr (s : State) (off : Nat) : Nat := bar4At s.host.wbase off

/-- BAR4 accesses go through refresh-slot data beats: in a run whose tide table runs (R431; DESIGN CHOICE, log entry 78). -/
def State.viaSlots (s : State) : Bool := s.live && s.alm.tideOn

/-- The bursts of a request's pieces (R431): a write of less than a line takes two. -/
def bar4Bursts (id : Nat) (read : Bool) (a : Nat) (ps : List Piece) (bytes : List Byte) (noise : List (BitVec 288)) : List HostBurst :=
  ps.zipIdx.map fun p =>
    { id := id, read := read, addr := p.1.addr, len := p.1.len, ofs := p.1.addr - a
      data := (bytes.drop (p.1.addr - a)).take p.1.len, noise := noise.getD p.2 0
      left := if read || p.1.len == 32 then 1 else 2, told := false }

/-- Queues host bursts for refresh slots. -/
def State.queueHost (s : State) (l : List HostBurst) : State := { s with alm := { s.alm with hostQ := s.alm.hostQ ++ l } }

/-- BAR4_READ (R431): noise holds the error pattern of each line read. During a run its bursts wait for refresh slots, and the answer
fills as they come. -/
def execBar4Read (off len : Nat) (noise : List (BitVec 288)) (s : State) : Out :=
  if !bar4Ok off len then .fault .noSuchUnit
  else if !s.answers .host then .next s
  else
    let a := s.bar4Addr off
    let s0 := { s with host := { s.host with bdata := [], poison := false, rdId := s.host.rdId + 1 } }
    if s.viaSlots then .next (s0.queueHost (bar4Bursts s0.host.rdId true a (pieces a len) [] noise))
    else
      let s1 := (pieces a len).zipIdx.foldl (fun u p => u.readPiece p.1 (noise.getD p.2 0)) s0
      .next (if s1.host.poison then (s1.count .hstPoison 1).raiseBit .hst 6 else s1)

/-- One line of a BAR4 write. -/
def State.writePiece (s : State) (p : Piece) (l : List Byte) : State := s.putPiece p l (s.wprot p.addr)

/-- BAR4_WRITE (R431, R432). A request of which a line is discarded counts once; during a run the lines that are kept wait for refresh
slots. -/
def execBar4Write (off : Nat) (bytes : List Byte) (s : State) : Out :=
  if !bar4Ok off bytes.length then .fault .noSuchUnit
  else if !s.answers .host then .next s
  else
    let a := s.bar4Addr off
    let ps := pieces a bytes.length
    let bad := ps.any fun p => s.wprot p.addr
    let s1 :=
      if s.viaSlots then
        let s0 := { s with host := { s.host with wrId := s.host.wrId + 1 } }
        let bs := bar4Bursts s0.host.wrId false a (ps.filter fun p => !s.wprot p.addr) bytes []
        s0.queueHost (bs.map fun b => { b with told := bad })
      else ps.foldl (fun u p => u.writePiece p ((bytes.drop (p.addr - a)).take p.len)) s
    .next (if bad then (s1.count .hstWdrop 1).raiseBit .hst 5 else s1)

/-! ### The endpoint (R424 to R426) -/

/-- What the events of R426 reset: configuration space, the MSI-X table and its masks, the host's shadows, HST_WBASE, the host's requests in flight; RESET
is set. The Binnacle flushes its crossing to the endpoint (17 R468, R469; DEDUCED, log entry 103). -/
def State.endpointReset (s : State) (d3 : Bool) : State :=
  let s1 := { s with
    host := { s.host with d3 := d3, msix := [], pend := 0, cfgw := [], wbase := 0
                          shadows := s.host.shadows.filter fun p => decide (2 ^ 24 ≤ p.1) }
    alm := { s.alm with hostQ := [] } }
  (s1.raiseBit .hst 0).peerReset 7 5

/-- A write of a configuration word. PowerState 3 of PMCSR is a transition to D3hot and 0 leaves it; Initiate Function Level Reset is bit 15 of Device
Control; vectors that the function mask or MSI-X Enable let go are signalled (R426, R428). -/
def State.cfgWrite (s : State) (reg : Nat) (v : Word) : State :=
  if reg = 17 then
    if v.extractLsb' 0 2 = 3 then (if s.host.d3 then s else s.endpointReset true)
    else if v.extractLsb' 0 2 = 0 then { s with host := { s.host with d3 := false } }
    else s
  else if reg = 26 ∧ v.getLsbD 15 then s.endpointReset false
  else if reg = 20 then (List.range 64).foldl State.unmask (s.cfgStore 20 v)
  else s.cfgStore reg v

/-- CONFIG_REQUEST (R424): Request Retry Status until the identity registers are loaded; no answer on a link that a stopped boot has left untrained (18
R487). -/
def execConfigRequest (reg : Nat) (wr : Option Word) (s : State) : Out :=
  if 1024 ≤ reg then .fault .noSuchUnit
  else if s.boot.stopped && !s.boot.link then .next s
  else if !s.host.idLoaded then .next { s with host := { s.host with retry := true } }
  else
    let s1 := { s with host := { s.host with retry := false } }
    match wr with
    | some v => .next (s1.cfgWrite reg v)
    | none => .next { s1 with host := { s1.host with rdata := [s1.cfgWord reg] } }

/-- PERST_N (R426). -/
def execPerstN (s : State) : Out := .next (s.endpointReset false)

/-- FUNCTION_LEVEL_RESET (R426). -/
def execFunctionLevelReset (s : State) : Out := .next (s.endpointReset false)

/-- D3HOT_ENTRY (R426): the BARs answer no request from then on. -/
def execD3hotEntry (s : State) : Out := .next (s.endpointReset true)

end Sys2Proof.Machine
end

