-- ==== Sys2Proof/Machine/Cig.lean ====
section
/-! DEFINITION. The configuration integrity engine (16_registers_and_host.md R451 to R454): the words of a pass, CIG_PASS, CIG_LEARN
and CIG_COMMIT. -/

namespace Sys2Proof.Machine

/-! ### The fixed set (R451), in ascending offset order -/

def cigHead : List Nat := [0x40000, 0x40080, 0x60010, 0x60030, 0x80000, 0xA0008, 0xA000C, 0xA1020]
def cigLanes : List Nat := (List.range 64).flatMap fun l => [0, 0x10, 0x14, 0x80, 0x84, 0x88].map fun r => 0x100000 + 0x1000 * l + r
def cigSext : List Nat := (List.range 64).flatMap fun l => [0x140000 + 0x100 * l, 0x140004 + 0x100 * l]
def cigAlm : List Nat := (List.range 4).map fun q => 0x180050 + 0x4000 * q
def cigCap : List Nat := [0x200000, 0x200004, 0x200008, 0x20000C]
def cigBcn : List Nat := (List.range 16).flatMap fun b => [0x210000 + 0x20 * b, 0x210004 + 0x20 * b]
def cigWgm : List Nat :=
  (List.range 16).flatMap fun v => (List.range 64).flatMap fun t => [0x280000 + 0x4000 * v + 0x40 * t, 0x280004 + 0x4000 * v + 0x40 * t]
def cigFld : List Nat :=
  (List.range 16).flatMap fun f => (0x300000 + 0x10000 * f) :: (List.range 8).map fun n => 0x300010 + 0x10000 * f + 4 * n

/-- The fixed set, with the words that 17 R480 marks. -/
def cigFixed : List Nat := cigHead ++ cigLanes ++ cigSext ++ cigAlm ++ cigCap ++ cigBcn ++ cigWgm ++ cigFld

/-- The words of the regions in force, in ascending r. -/
def State.cigRegions (s : State) : List Nat :=
  s.cig.rgn.flatMap fun p => (List.range (p.2.extractLsb' 23 9).toNat).map fun i => 4 * ((p.2.extractLsb' 0 23).toNat + i)

/-- The value that the engine reads at an offset; an offset beyond BAR0 reads zero. -/
def State.cigWord (s : State) (o : Nat) : Word := if o < 0x1000000 then s.wordInForce o else 0

/-- The bytes of a pass (R452). -/
def State.cigBytes (s : State) : List Byte :=
  (cigFixed ++ s.cigRegions).flatMap fun o => leBytes 4 o ++ leBytes 4 (s.cigWord o).toNat

/-- The result of a pass. -/
def State.cigCrc (s : State) : Word := crc32c s.cigBytes

/-! ### CIG_PASS (R453, R454) -/

/-- The end of a learning pass: its result is the reference in force. -/
def State.cigLearned (s : State) (c : Word) : State :=
  ({ s with cig := { s.cig with ref := c, learn := false, learning := false, stale := false } }).raiseBit .cig 1

/-- The comparison of a pass: a difference sets MISMATCH and, with TAKE, is a fault of cause 2. -/
def State.cigCompare (s : State) (c : Word) : State :=
  if s.cig.stale || c == s.cig.ref then s
  else
    let s1 := s.raiseBit .cig 0
    if s.cig.take then s1.fault 2 24 else s1

/-- The next pass is the learning one, where LEARN waits. -/
def State.cigNext (s : State) : State := { s with cig := { s.cig with learning := s.cig.learn } }

/-- CIG_PASS (R453): a pass has read its words. -/
def execCigPass (s : State) : Out :=
  if !s.cig.en then .next s
  else
    let c := s.cigCrc
    let s1 := ({ s with cig := { s.cig with last := c } }).count .cigPass 1
    .next (if s.cig.learn && s.cig.learning then s1.cigLearned c else (s1.cigCompare c).cigNext)

/-- CIG_LEARN (R454). -/
def execCigLearn (req : Requester) (s : State) : Out := s.access req State.cigLearn

/-- CIG_COMMIT (R454, R448). -/
def execCigCommit (req : Requester) (s : State) : Out := s.access req fun u => u.cigCommit req

end Sys2Proof.Machine
end

