-- ==== Sys2Proof/Machine/Crossing.lean ====
section
/-! DEFINITION. The start of a crossing (00_scope.md R10): CN, and what a replay does at a presented crossing (14 R393). -/

namespace Sys2Proof.Machine

/-! ### The end of the crossing before -/

/-- Records that have left and can no longer be marked are kept for re-emission (12 R345), the 64 latest. -/
def State.keepRecs (s : State) : State :=
  let old (r : OutRec) : Bool := r.sent && cnLt (cnAdd r.c (s.latL + 3)) s.cn
  { s with out := { s.out with recs := s.out.recs.filter fun r => !old r
                               kept := ((s.out.recs.filter old).reverse ++ s.out.kept).take 64 } }

/-- What ends with a crossing: the chain frames handed over, its capture triggers, results that have left, the loss queue, a crossing of a lane
alignment, a full recording. -/
def State.crossingEnd (s : State) : State :=
  s.handOver.settleTriggers.prunePools.drainLosses.alignCrossing.endFullLog.keepRecs

/-! ### Replay (14 R393, R396) -/

/-- A recorded command, as Klowyn issues it again at its presented crossing. -/
def State.replayCmd (s : State) (w : Waiting) : State :=
  match kFind w.req.op with
  | some c =>
    let h := w.req.hdr
    let h1 := { h with mbx := 253, acn := if h.at_ then w.at_ + s.run.rshift else h.acn, rel := false }
    kRun c 253 { w.req with hdr := h1 } s
  | none => s

/-- A recorded word of CCMD. -/
def State.replayCcmd (s : State) (word : Byte) : State :=
  if word = 0x5A then s.externalAccept
  else if word = 0x3C then (s.ccmdWord word).orbit 0
  else if word = 0xC3 then (s.ccmdWord word).orbitZero 0
  else s

/-- A recorded pause whose command was accepted before the recording began. -/
def State.replayPause (s : State) (p : CN) : State :=
  if s.run.pauseAt.isNone && decide (s.run.phase = .running) then { s with run := { s.run with pauseAt := some (p + s.run.rshift) } } else s

/-- A recorded event, where it is due: a command in the crossing of its acceptance, or with the first crossing of the replay where
it was accepted before P0; a word of CCMD and a pause in their crossings. -/
def State.replayEvent (s : State) (e : LogEvt) : State :=
  let now (c : CN) : Bool := decide (c + s.run.rshift = s.cn)
  let first := decide (s.cn = s.run.first)
  match e with
  | .cmd w => if now w.cnAcc || (first && cnLt w.cnAcc s.log.p0 && cnLe s.log.p0 w.at_) then s.replayCmd w else s
  | .ccmd c word => if now c then s.replayCcmd word else s
  | .pause p => if now p then s.replayPause p else s
  | _ => s

/-- The recorded events of the present crossing. -/
def State.replayEvents (s : State) : State :=
  if s.run.replay && decide (s.run.phase ≠ .idle) && cnLe s.run.first s.cn then s.log.events.foldl State.replayEvent s else s

/-! ### CROSSING_START (R10) -/

/-- CN counts on while the MCLK monitor reports MCLK in window; the tide phase is CN mod 32 (07 R219). The LPDDR6 reads of crossing s
report in crossing s + 1 (07 R228, R231). -/
def execCrossingStart (s : State) : Out :=
  if !s.clk.mclkOk then .next s
  else
    let u := s.crossingEnd
    .next ({ u with cn := u.cn + 1, tick := 0 } : State).reportFound.replayEvents

end Sys2Proof.Machine
end

