-- ==== Sys2Proof/Machine/Dispatch.lean ====
section
/-! DEFINITION. One arm per command: the command's effect on everything but the queue. -/

namespace Sys2Proof.Machine

def exec (i : Instr) (s : State) : Host.Outcome State Fault Refusal :=
  match i with
  | .admitImage h slot src offset length => Sys2Proof.Machine.execAdmit h slot src offset length s
  | .admissionComplete => Sys2Proof.Machine.execAdmissionComplete s
  | .evict h slot => Sys2Proof.Machine.execEvict h slot s
  | .libquery h slot => Sys2Proof.Machine.execLibquery h slot s
  | .arm h slot pl seed seedv debug => Sys2Proof.Machine.execArm h slot pl seed seedv debug s
  | .runStart => Sys2Proof.Machine.execRunStart s
  | .stop h => Sys2Proof.Machine.execStop h s
  | .runStopEffect => Sys2Proof.Machine.execRunStopEffect s
  | .pause h => Sys2Proof.Machine.execPause h s
  | .pauseStart => Sys2Proof.Machine.execPauseStart s
  | .paused => Sys2Proof.Machine.execPaused s
  | .resume h => Sys2Proof.Machine.execResume h s
  | .resumeEffect ready => Sys2Proof.Machine.execResumeEffect ready s
  | .runFillEnd => Sys2Proof.Machine.execRunFillEnd s
  | .loadedTrainingComplete => Sys2Proof.Machine.execLoadedTrainingComplete s
  | .fill h slot => Sys2Proof.Machine.execFill h slot s
  | .fillComplete => Sys2Proof.Machine.execFillComplete s
  | .cancel h => Sys2Proof.Machine.execCancel h s
  | .switch h => Sys2Proof.Machine.execSwitch h s
  | .waypointInjection => Sys2Proof.Machine.execWaypointInjection s
  | .waypointArrival x y => Sys2Proof.Machine.execWaypointArrival x y s
  | .seam x y => Sys2Proof.Machine.execSeam x y s
  | .switchComplete => Sys2Proof.Machine.execSwitchComplete s
  | .tload h tid faces offset length => Sys2Proof.Machine.execTload h tid faces offset length s
  | .twrite h tid offset nrows => Sys2Proof.Machine.execTwrite h tid offset nrows s
  | .tableWriteComplete tid => Sys2Proof.Machine.execTableWriteComplete tid s
  | .tswap h tid => Sys2Proof.Machine.execTswap h tid s
  | .swapEffect tid => Sys2Proof.Machine.execSwapEffect tid s
  | .catchUp tid => Sys2Proof.Machine.execCatchUp tid s
  | .wgmcommit h clear count lst => Sys2Proof.Machine.execWgmcommit h clear count lst s
  | .wgmCommitApply => Sys2Proof.Machine.execWgmCommitApply s
  | .ctxcommit h count lst => Sys2Proof.Machine.execCtxcommit h count lst s
  | .contextCommitApply => Sys2Proof.Machine.execContextCommitApply s
  | .lanecommit h lane cnofs flim => Sys2Proof.Machine.execLanecommit h lane cnofs flim s
  | .cnofsApply lane => Sys2Proof.Machine.execCnofsApply lane s
  | .caparm h pre post lanes bcnen acclat ctl => Sys2Proof.Machine.execCaparm h pre post lanes bcnen acclat ctl s
  | .captureArmApply => Sys2Proof.Machine.execCaptureArmApply s
  | .captrig h => Sys2Proof.Machine.execCaptrig h s
  | .klowynTrigger => Sys2Proof.Machine.execKlowynTrigger s
  | .capdrain h dest haddr => Sys2Proof.Machine.execCapdrain h dest haddr s
  | .drainComplete => Sys2Proof.Machine.execDrainComplete s
  | .caprelease h => Sys2Proof.Machine.execCaprelease h s
  | .bcnload h beacon base len min ctl lst => Sys2Proof.Machine.execBcnload h beacon base len min ctl lst s
  | .beaconLoadApply => Sys2Proof.Machine.execBeaconLoadApply s
  | .envload h quay first count lst => Sys2Proof.Machine.execEnvload h quay first count lst s
  | .envelopeLoadApply => Sys2Proof.Machine.execEnvelopeLoadApply s
  | .logstart h mode lanes atArm lst => Sys2Proof.Machine.execLogstart h mode lanes atArm lst s
  | .logbookStart => Sys2Proof.Machine.execLogbookStart s
  | .logstop h => Sys2Proof.Machine.execLogstop h s
  | .replay h slot offset partialR debug => Sys2Proof.Machine.execReplay h slot offset partialR debug s
  | .paircfg h mode pairid pref mr autorst => Sys2Proof.Machine.execPaircfg h mode pairid pref mr autorst s
  | .yield h => Sys2Proof.Machine.execYield h s
  | .rejoin h src => Sys2Proof.Machine.execRejoin h src s
  | .timesvc h enable domain hubmask => Sys2Proof.Machine.execTimesvc h enable domain hubmask s
  | .tlaunch h lane timeLo timeHi lst => Sys2Proof.Machine.execTlaunch h lane timeLo timeHi lst s
  | .timeLaunch lane phase => Sys2Proof.Machine.execTimeLaunch lane phase s
  | .tmap h cn => Sys2Proof.Machine.execTmap h cn s
  | .deskew h first count ref window => Sys2Proof.Machine.execDeskew h first count ref window s
  | .pedestal h first count => Sys2Proof.Machine.execPedestal h first count s
  | .histo h target samples => Sys2Proof.Machine.execHisto h target samples s
  | .eyescan h lane dwell ethr haddr => Sys2Proof.Machine.execEyescan h lane dwell ethr haddr s
  | .eyescanComplete lane counts => Sys2Proof.Machine.execEyescanComplete lane counts s
  | .lanetune h lane => Sys2Proof.Machine.execLanetune h lane s
  | .lanealign h => Sys2Proof.Machine.execLanealign h s
  | .laneidle h lane enter => Sys2Proof.Machine.execLaneidle h lane enter s
  | .health h first => Sys2Proof.Machine.execHealth h first s
  | .sleep h st => Sys2Proof.Machine.execSleep h st s
  | .sleepReached => Sys2Proof.Machine.execSleepReached s
  | .wake => Sys2Proof.Machine.execWake s
  | .woke => Sys2Proof.Machine.execWoke s
  | .perflevel h pl => Sys2Proof.Machine.execPerflevel h pl s
  | .levelChangeComplete => Sys2Proof.Machine.execLevelChangeComplete s
  | .attest h nonceLo nonceHi => Sys2Proof.Machine.execAttest h nonceLo nonceHi s
  | .ownerupd h offset length => Sys2Proof.Machine.execOwnerupd h offset length s
  | .mgmtsend h lane lst => Sys2Proof.Machine.execMgmtsend h lane lst s
  | .manifestRun => Sys2Proof.Machine.execManifestRun s
  | .autoRestart => Sys2Proof.Machine.execAutoRestart s
  | .nop x y => Sys2Proof.Machine.execNop x y s
  | .macd x y => Sys2Proof.Machine.execMacd x y s
  | .macdz x y => Sys2Proof.Machine.execMacdz x y s
  | .macv x y => Sys2Proof.Machine.execMacv x y s
  | .macvz x y => Sys2Proof.Machine.execMacvz x y s
  | .accadd x y => Sys2Proof.Machine.execAccadd x y s
  | .accsub x y => Sys2Proof.Machine.execAccsub x y s
  | .accld x y => Sys2Proof.Machine.execAccld x y s
  | .accclr x y => Sys2Proof.Machine.execAccclr x y s
  | .accmax x y => Sys2Proof.Machine.execAccmax x y s
  | .accmin x y => Sys2Proof.Machine.execAccmin x y s
  | .rqs x y => Sys2Proof.Machine.execRqs x y s
  | .rqv x y => Sys2Proof.Machine.execRqv x y s
  | .rqvc x y => Sys2Proof.Machine.execRqvc x y s
  | .lutv8 x y => Sys2Proof.Machine.execLutv8 x y s
  | .lutv4 x y => Sys2Proof.Machine.execLutv4 x y s
  | .luts x y => Sys2Proof.Machine.execLuts x y s
  | .luti x y => Sys2Proof.Machine.execLuti x y s
  | .cmplt x y => Sys2Proof.Machine.execCmplt x y s
  | .cmple x y => Sys2Proof.Machine.execCmple x y s
  | .cmpeq x y => Sys2Proof.Machine.execCmpeq x y s
  | .cmpltu x y => Sys2Proof.Machine.execCmpltu x y s
  | .sel x y => Sys2Proof.Machine.execSel x y s
  | .min_ x y => Sys2Proof.Machine.execMin x y s
  | .max_ x y => Sys2Proof.Machine.execMax x y s
  | .cx x y => Sys2Proof.Machine.execCx x y s
  | .vmax x y => Sys2Proof.Machine.execVmax x y s
  | .vmin x y => Sys2Proof.Machine.execVmin x y s
  | .hmax x y => Sys2Proof.Machine.execHmax x y s
  | .abs_ x y => Sys2Proof.Machine.execAbs x y s
  | .and_ x y => Sys2Proof.Machine.execAnd x y s
  | .or_ x y => Sys2Proof.Machine.execOr x y s
  | .xor_ x y => Sys2Proof.Machine.execXor x y s
  | .andn x y => Sys2Proof.Machine.execAndn x y s
  | .shl x y => Sys2Proof.Machine.execShl x y s
  | .shr x y => Sys2Proof.Machine.execShr x y s
  | .sar x y => Sys2Proof.Machine.execSar x y s
  | .popc x y => Sys2Proof.Machine.execPopc x y s
  | .mov x y => Sys2Proof.Machine.execMov x y s
  | .bcast x y => Sys2Proof.Machine.execBcast x y s
  | .unpk x y => Sys2Proof.Machine.execUnpk x y s
  | .almanacLookupSlot sub pos noise => Sys2Proof.Machine.execAlmanacLookupSlot sub pos noise s
  | .sramRead req key noise => Sys2Proof.Machine.execSramRead req key noise s
  | .almanacResult req => Sys2Proof.Machine.execAlmanacResult req s
  | .writeClassSlot sub pos => Sys2Proof.Machine.execWriteClassSlot sub pos s
  | .refreshSlot sub => Sys2Proof.Machine.execRefreshSlot sub s
  | .retrainingStep sub pos width height => Sys2Proof.Machine.execRetrainingStep sub pos width height s
  | .crossingStart => Sys2Proof.Machine.execCrossingStart s
  | .codewordReceive lane syms => Sys2Proof.Machine.execCodewordReceive lane syms s
  | .alignmentMarker lane payload gap => Sys2Proof.Machine.execAlignmentMarker lane payload gap s
  | .lockLoss lane => Sys2Proof.Machine.execLockLoss lane s
  | .trainingBurst lane => Sys2Proof.Machine.execTrainingBurst lane s
  | .crossingFrameReceive lane => Sys2Proof.Machine.execCrossingFrameReceive lane s
  | .frameRelease lane => Sys2Proof.Machine.execFrameRelease lane s
  | .sextantMeasurement lane width height => Sys2Proof.Machine.execSextantMeasurement lane width height s
  | .channelStage => Sys2Proof.Machine.execChannelStage s
  | .averagingBlockComplete ctx => Sys2Proof.Machine.execAveragingBlockComplete ctx s
  | .wakeBufferFreeze => Sys2Proof.Machine.execWakeBufferFreeze s
  | .wgmDerivation => Sys2Proof.Machine.execWgmDerivation s
  | .scaleApply => Sys2Proof.Machine.execScaleApply s
  | .outputAssembly => Sys2Proof.Machine.execOutputAssembly s
  | .fdecDrive => Sys2Proof.Machine.execFdecDrive s
  | .hubFrameTransmit lane phase => Sys2Proof.Machine.execHubFrameTransmit lane phase s
  | .chainFrameTransmit lane => Sys2Proof.Machine.execChainFrameTransmit lane s
  | .hubPacketReceive lane bytes lost phase => Sys2Proof.Machine.execHubPacketReceive lane bytes lost phase s
  | .mirrorFrameSend => Sys2Proof.Machine.execMirrorFrameSend s
  | .mirrorFrameRelease => Sys2Proof.Machine.execMirrorFrameRelease s
  | .mirrorLaneDrop lane => Sys2Proof.Machine.execMirrorLaneDrop lane s
  | .takeover => Sys2Proof.Machine.execTakeover s
  | .rebaseLatch => Sys2Proof.Machine.execRebaseLatch s
  | .rebase => Sys2Proof.Machine.execRebase s
  | .joined => Sys2Proof.Machine.execJoined s
  | .orbitMarker phase => Sys2Proof.Machine.execOrbitMarker phase s
  | .orbitZero phase => Sys2Proof.Machine.execOrbitZero phase s
  | .externalAccept => Sys2Proof.Machine.execExternalAccept s
  | .ccmdIdle => Sys2Proof.Machine.execCcmdIdle s
  | .ccmdInvalid word => Sys2Proof.Machine.execCcmdInvalid word s
  | .ppsIn phase => Sys2Proof.Machine.execPpsIn phase s
  | .pulseEdge p => Sys2Proof.Machine.execPulseEdge p s
  | .pulseWidthEnd p => Sys2Proof.Machine.execPulseWidthEnd p s
  | .ppsOutEdge => Sys2Proof.Machine.execPpsOutEdge s
  | .ppsOutWidthEnd => Sys2Proof.Machine.execPpsOutWidthEnd s
  | .chrArm => Sys2Proof.Machine.execChrArm s
  | .chrStepCommit req => Sys2Proof.Machine.execChrStepCommit req s
  | .chrRateCommit req => Sys2Proof.Machine.execChrRateCommit req s
  | .chrModeChange w => Sys2Proof.Machine.execChrModeChange w s
  | .pulseCommit req p => Sys2Proof.Machine.execPulseCommit req p s
  | .stagedWrite req off val => Sys2Proof.Machine.execStagedWrite req off val s
  | .cigCommit req => Sys2Proof.Machine.execCigCommit req s
  | .cigLearn req => Sys2Proof.Machine.execCigLearn req s
  | .cigPass => Sys2Proof.Machine.execCigPass s
  | .clkGateWrite w => Sys2Proof.Machine.execClkGateWrite w s
  | .clearAliasWrite off w => Sys2Proof.Machine.execClearAliasWrite off w s
  | .lowWordRead req at_ => Sys2Proof.Machine.execLowWordRead req at_ s
  | .bitAliasWrite off w => Sys2Proof.Machine.execBitAliasWrite off w s
  | .registerWrite req off vals whole => Sys2Proof.Machine.execRegisterWrite req off vals whole s
  | .bar4Read off len noise => Sys2Proof.Machine.execBar4Read off len noise s
  | .bar4Write off bytes => Sys2Proof.Machine.execBar4Write off bytes s
  | .configRequest reg wr => Sys2Proof.Machine.execConfigRequest reg wr s
  | .perstN => Sys2Proof.Machine.execPerstN s
  | .functionLevelReset => Sys2Proof.Machine.execFunctionLevelReset s
  | .d3hotEntry => Sys2Proof.Machine.execD3hotEntry s
  | .resetAssert => Sys2Proof.Machine.execResetAssert s
  | .powerUp oscDly => Sys2Proof.Machine.execPowerUp oscDly s
  | .pwrGoodDeassert => Sys2Proof.Machine.execPwrGoodDeassert s
  | .oscDelayExpiry xtalOk => Sys2Proof.Machine.execOscDelayExpiry xtalOk s
  | .bootRomStart flashErr puf => Sys2Proof.Machine.execBootRomStart flashErr puf s
  | .railTimeout rail => Sys2Proof.Machine.execRailTimeout rail s
  | .klowynReboot flashErr => Sys2Proof.Machine.execKlowynReboot flashErr s
  | .watchdogExpiry => Sys2Proof.Machine.execWatchdogExpiry s
  | .mclkMonitorFail => Sys2Proof.Machine.execMclkMonitorFail s
  | .lrefclkMonitorFail => Sys2Proof.Machine.execLrefclkMonitorFail s
  | .crystalMonitorFail => Sys2Proof.Machine.execCrystalMonitorFail s
  | .monitorRecovery src freq => Sys2Proof.Machine.execMonitorRecovery src freq s
  | .railTelemetry rail mv fault => Sys2Proof.Machine.execRailTelemetry rail mv fault s
  | .temperatureRead temps => Sys2Proof.Machine.execTemperatureRead temps s
  | .thermalCheck temps => Sys2Proof.Machine.execThermalCheck temps s
  | .thermalRecovery => Sys2Proof.Machine.execThermalRecovery s
  | .tableLoadComplete tid => Sys2Proof.Machine.execTableLoadComplete tid s
  | .unlistedOpcodeCommand h opcode lst => Sys2Proof.Machine.execUnlistedOpcodeCommand h opcode lst s

end Sys2Proof.Machine
end

