-- ==== Sys2Proof/Machine/Step.lean ====
section
/-! DEFINITION. One step of the block: the command at the front of the queue acts on the state with the queue's rest; on an
empty queue the running clocks advance by one cycle (DESIGN CHOICE, log entry 4). -/

namespace Sys2Proof.Machine

/-- One cycle of every running clock, with nothing commanded (DESIGN CHOICE, log entry 4). -/
def idle (s : State) : State := s.lineTick.arrayTick.almTick.chrTick

def step (s : State) : Host.Outcome State Fault Refusal :=
  match s.pending with
  | [] => .next (idle s)
  | c :: r => exec c { s with pending := r }

/-- The state with the command that a table word spells at the front of the queue; unchanged where it spells none. -/
def State.withFetchWord (s : State) (nbits w : Nat) : State :=
  match Sys2Proof.decodeTableWord nbits w with
  | some c => { s with pending := c :: s.pending }
  | none => s

end Sys2Proof.Machine
end

