-- ==== Sys2Proof/WellFormed.lean ====
section
/-! DEFINITION. The commands whose operands name units that the device has. An ill-formed one is answered with the fault
noSuchUnit (DESIGN CHOICE, log entry 6). What a mailbox command's operands may hold is not checked here: Klowyn refuses it by status (15 R405). -/

namespace Sys2Proof

/-- A mailbox of the sixteen (15 R399). -/
def CmdHdr.wf (h : CmdHdr) : Bool := decide (h.mbx < 16)

/-- A cell of the virtual grid (02 R64). -/
def cellOk (x y : Nat) : Bool := decide (x < 1024 ∧ y < 1024)

/-- A lane (09 R278), a table (07 R209), a subchannel (07 R210). -/
def laneOk (l : Nat) : Bool := decide (l < 64)
def tableOk (t : Nat) : Bool := decide (t < 4096)
def subOk (q : Nat) : Bool := decide (q < 32)

/-- The 21 sensors (19 R518). -/
def tempsOk (t : List Int) : Bool := decide (t.length = 21)

/-- The command's operands name units that exist. -/
def Instr.wf (i : Instr) : Bool :=
  match i with
  | .admitImage h _ _ _ _ | .evict h _ | .libquery h _ | .arm h _ _ _ _ _ | .stop h | .pause h | .resume h | .fill h _ | .cancel h
  | .switch h | .tload h _ _ _ _ | .twrite h _ _ _ | .tswap h _ | .wgmcommit h _ _ _ | .ctxcommit h _ _ | .lanecommit h _ _ _
  | .caparm h _ _ _ _ _ _ | .captrig h | .capdrain h _ _ | .caprelease h | .bcnload h _ _ _ _ _ _ | .envload h _ _ _ _
  | .logstart h _ _ _ _ | .logstop h | .replay h _ _ _ _ | .paircfg h _ _ _ _ _ | .yield h | .rejoin h _ | .timesvc h _ _ _
  | .tlaunch h _ _ _ _ | .tmap h _ | .deskew h _ _ _ _ | .pedestal h _ _ | .histo h _ _ | .eyescan h _ _ _ _ | .lanetune h _
  | .lanealign h | .laneidle h _ _ | .health h _ | .sleep h _ | .perflevel h _ | .attest h _ _ | .ownerupd h _ _ | .mgmtsend h _ _
  | .unlistedOpcodeCommand h _ _ => h.wf
  | .waypointArrival x y | .seam x y | .nop x y | .macd x y | .macdz x y | .macv x y | .macvz x y | .accadd x y | .accsub x y
  | .accld x y | .accclr x y | .accmax x y | .accmin x y | .rqs x y | .rqv x y | .rqvc x y | .lutv8 x y | .lutv4 x y | .luts x y
  | .luti x y | .cmplt x y | .cmple x y | .cmpeq x y | .cmpltu x y | .sel x y | .min_ x y | .max_ x y | .cx x y | .vmax x y
  | .vmin x y | .hmax x y | .abs_ x y | .and_ x y | .or_ x y | .xor_ x y | .andn x y | .shl x y | .shr x y | .sar x y | .popc x y
  | .mov x y | .bcast x y | .unpk x y => cellOk x y
  | .tableWriteComplete t | .swapEffect t | .catchUp t | .tableLoadComplete t => tableOk t
  | .cnofsApply l | .timeLaunch l _ | .eyescanComplete l _ | .alignmentMarker l _ _ | .lockLoss l | .trainingBurst l
  | .crossingFrameReceive l | .frameRelease l | .sextantMeasurement l _ _ | .hubFrameTransmit l _ | .chainFrameTransmit l
  | .hubPacketReceive l _ _ _ => laneOk l
  | .codewordReceive l syms => laneOk l && decide (syms.length = 173)
  | .almanacLookupSlot sub pos _ => subOk sub && decide (pos < 8)
  | .writeClassSlot sub pos | .retrainingStep sub pos _ _ => subOk sub && decide (pos = 8 ∨ pos = 9)
  | .refreshSlot sub => subOk sub
  | .sramRead r k _ => decide (r < 8192 ∧ k < 16)
  | .almanacResult r => decide (r < 8192)
  | .averagingBlockComplete x => decide (x < 65536)
  | .mirrorLaneDrop i => decide (i < 4)
  | .pulseEdge p | .pulseWidthEnd p | .pulseCommit _ p => decide (p < 8)
  | .stagedWrite _ o _ => Machine.stagedOff o
  | .clearAliasWrite o _ => Machine.aliasOff o
  | .lowWordRead _ a => Machine.barReq a.off a.words
  | .registerWrite _ o l _ => Machine.barReq o l.length
  | .bitAliasWrite o _ => Machine.bitOff o
  | .bar4Read o n _ => Machine.bar4Ok o n
  | .bar4Write o l => Machine.bar4Ok o l.length
  | .configRequest r _ => decide (r < 1024)
  | .railTimeout r => decide (r < 8)
  | .railTelemetry r _ _ => decide (r < 13)
  | .temperatureRead t | .thermalCheck t => tempsOk t
  | .admissionComplete | .runStart | .runStopEffect | .pauseStart | .paused | .resumeEffect _ | .runFillEnd
  | .loadedTrainingComplete | .fillComplete | .waypointInjection | .switchComplete | .wgmCommitApply | .contextCommitApply
  | .captureArmApply | .klowynTrigger | .drainComplete | .beaconLoadApply | .envelopeLoadApply | .logbookStart | .sleepReached
  | .wake | .woke | .levelChangeComplete | .manifestRun | .autoRestart | .crossingStart | .channelStage | .wakeBufferFreeze
  | .wgmDerivation | .scaleApply | .outputAssembly | .fdecDrive | .mirrorFrameSend | .mirrorFrameRelease | .takeover
  | .rebaseLatch | .rebase | .joined | .orbitMarker _ | .orbitZero _ | .externalAccept | .ccmdIdle | .ccmdInvalid _ | .ppsIn _
  | .ppsOutEdge | .ppsOutWidthEnd | .chrArm | .chrStepCommit _ | .chrRateCommit _ | .chrModeChange _ | .cigCommit _ | .cigLearn _
  | .cigPass | .clkGateWrite _ | .perstN | .functionLevelReset | .d3hotEntry | .resetAssert | .powerUp _ | .pwrGoodDeassert
  | .oscDelayExpiry _ | .bootRomStart _ _ | .klowynReboot _ | .watchdogExpiry | .mclkMonitorFail | .lrefclkMonitorFail
  | .crystalMonitorFail | .monitorRecovery _ _ | .thermalRecovery => true

end Sys2Proof
end

