-- ==== Sys2Proof/Safety.lean ====
section
/-! DEFINITION. What counts as a safe state and a safe run of the block, in the terms that statements use. -/

namespace Sys2Proof.Machine

/-- Both memory tiers are in their canonical form: addresses strictly rising, no entry that reads as an unlisted address does
(DESIGN CHOICE, log entry 2). -/
def Memory.wf (t : Tbl Byte) : Bool := twf 0 t

/-- LPDDR6 and the SRAM tiers are in canonical form. -/
def State.memWf (s : State) : Bool := Memory.wf s.mem && Memory.wf s.sram

/-- The outcome is a next state. -/
def Goes (o : Out) : Prop := ∃ t, o = .next t

/-- The outcome is a next state of which p holds. -/
def GoesTo (o : Out) (p : State → Prop) : Prop := ∃ t, o = .next t ∧ p t

/-- The cell that an issue, waypoint or seam command names. -/
def cellOf? : Instr → Option (Nat × Nat)
  | .waypointArrival x y | .seam x y | .nop x y | .macd x y | .macdz x y | .macv x y | .macvz x y | .accadd x y | .accsub x y
  | .accld x y | .accclr x y | .accmax x y | .accmin x y | .rqs x y | .rqv x y | .rqvc x y | .lutv8 x y | .lutv4 x y | .luts x y
  | .luti x y | .cmplt x y | .cmple x y | .cmpeq x y | .cmpltu x y | .sel x y | .min_ x y | .max_ x y | .cx x y | .vmax x y
  | .vmin x y | .hmax x y | .abs_ x y | .and_ x y | .or_ x y | .xor_ x y | .andn x y | .shl x y | .shr x y | .sar x y | .popc x y
  | .mov x y | .bcast x y | .unpk x y => some (x, y)
  | _ => none

/-- RESET_N or PWR_GOOD takes the whole device (17 R472, 19 R517). -/
def resetsAll : Instr → Bool
  | .resetAssert | .pwrGoodDeassert => true
  | _ => false

/-- The commands that may change a byte of LPDDR6 or SRAM: writes by the host and to tables, catch-ups (with a stop's: 07 R238, R239), and
what takes the memory's power away or ends a run; a refresh slot carries the host's bursts (07 R218). -/
def mayWriteMemory : Instr → Bool
  | .bar4Write .. | .tableLoadComplete _ | .tableWriteComplete _ | .catchUp _ | .writeClassSlot .. | .refreshSlot _ | .runStopEffect | .takeover
  | .rebase | .mirrorFrameRelease | .sleepReached | .thermalCheck _ | .mclkMonitorFail | .lrefclkMonitorFail | .crystalMonitorFail
  | .watchdogExpiry | .klowynReboot _ | .thermalRecovery | .railTimeout _ => true
  | c => resetsAll c

/-- The commands that may change CN (00 R10, R11). -/
def mayCount : Instr → Bool
  | .crossingStart | .orbitZero _ => true
  | c => resetsAll c

/-- The commands that may move the time (13 R356, R357, R362); cycles of the clock pass only where no command waits (DESIGN CHOICE, log entry 4). -/
def mayMoveTime : Instr → Bool
  | .chrStepCommit _ | .chrRateCommit _ | .chrModeChange .. | .registerWrite .. => true
  | c => resetsAll c

/-- The commands that may change the flag space (16 R442, R443). -/
def mayWriteFlags : Instr → Bool
  | .bitAliasWrite .. | .registerWrite .. => true
  | c => resetsAll c

/-- The commands that may change configuration flash: OWNERUPD and what may run it, and a start of Klowyn (18 R489, R492, 15 R415). -/
def mayWriteFlash : Instr → Bool
  | .ownerupd .. | .unlistedOpcodeCommand .. | .manifestRun | .crossingStart | .mirrorFrameRelease | .registerWrite .. | .bootRomStart ..
  | .klowynReboot _ => true
  | _ => false

/-- The command's operands name units that this device has: those of the hardware, and a cell of its grade (00 R1, DESIGN CHOICE, log entry 6). -/
def runnable (c : Instr) (s : State) : Bool :=
  c.wf && (match cellOf? c with
    | some (x, y) => s.hasCell x y
    | none => true)

/-- Lane l with nothing changed but what its transmitter has sent (09 R296). -/
def SendsOnly (s t : State) (l : Nat) : Prop :=
  t.lane l = { s.lane l with txq := (t.lane l).txq, txPos := (t.lane l).txPos, txScr := (t.lane l).txScr, txCw := (t.lane l).txCw
                             txOut := (t.lane l).txOut, txBurst := (t.lane l).txBurst, txFrac := (t.lane l).txFrac }

/-! ### Commands of a mailbox (15 R400 to R410) -/

/-- Mailbox m is free, its ring has room and nothing held back, and Klowyn takes its command at once (15 R400, R401). -/
def State.takes (s : State) (m : Nat) : Bool :=
  decide (m < 16) && !(s.mbxOf m).busy && (s.mbxOf m).cmd.isNone && decide ((s.mbxOf m).held = []) && s.kly.up &&
  decide ((s.mbxOf m).used ≤ 62)

/-- An awake, owned device with its board table, open to a host: the sleep and policy checks of R405 pass (17 R477, 18 R491). -/
def State.isAwake (s : State) : Bool := decide (s.pwr.sst = 0) && s.boot.owned && s.boot.brdOk && !s.kly.cfg.standalone

/-- An awake device that is no member of a pair: the pair check of R405 passes too (12 R338). -/
def State.isOpen (s : State) : Bool := s.isAwake && !s.pairMode

/-- The header states the length, whether a crossing is announced, and no reserved bit (15 R402). -/
def hdrSays (h : CmdHdr) (len : Nat) (at_ : Bool) : Bool := decide (h.len = len) && (h.at_ == at_) && !h.rsvd

/-- A host submits a command that the checks common to all commands pass. -/
def asks (h : CmdHdr) (len : Nat) (at_ : Bool) (s : State) : Bool := s.takes h.mbx && s.isOpen && hdrSays h len at_

/-- The same to a device that may be a member of a pair. -/
def asksPair (h : CmdHdr) (len : Nat) (at_ : Bool) (s : State) : Bool := s.takes h.mbx && s.isAwake && hdrSays h len at_

/-- A command of list entries whose entry e is the last for what it names. -/
def lastOf {α : Type} (l : List α) (key : α → Nat) (e : α) : Prop := ∃ a b, l = a ++ e :: b ∧ ∀ x ∈ b, key x ≠ key e

/-- The announced crossing keeps the lead of R408. -/
def State.keepsLead (s : State) (h : CmdHdr) (op : Nat) : Bool :=
  decide (s.lead op h.len ≤ (s.target h - s.cn).toNat ∧ (s.target h - s.cn).toNat ≤ 2 ^ 47 - 1)

/-- The mailbox is free again, and its ring holds, at the producer index before the command, a completion with the command's TAG and
OPCODE, STATUS 0 and RESULT (15 R400, R404). -/
def Completes (s t : State) (h : CmdHdr) (op : Nat) (result : Dword) : Prop :=
  (t.mbxOf h.mbx).busy = false ∧
  ∃ e, tfind (t.mbxOf h.mbx).ring (s.mbxOf h.mbx).prod.toNat = some e ∧
    e.tag = h.tag ∧ e.op = BitVec.ofNat 16 op ∧ e.status = 0 ∧ e.kind = .completion ∧ e.record = resultRec result

/-- The ring holds the notice of the effect at crossing c behind the completion (15 R410). -/
def Notices (s t : State) (h : CmdHdr) (op : Nat) (c : CN) : Prop :=
  ∃ e, tfind (t.mbxOf h.mbx).ring ((s.mbxOf h.mbx).prod + 1).toNat = some e ∧
    e.tag = h.tag ∧ e.op = BitVec.ofNat 16 op ∧ e.kind = .effect ∧ e.cnEff = c

/-- The command is accepted as a long one: its mailbox stays BUSY, and Klowyn works on it (15 R400, R407). -/
def WorksOn (s t : State) (h : CmdHdr) (op : Nat) : Prop :=
  (t.mbxOf h.mbx).busy = true ∧
  ∃ w, t.kly.longs = s.kly.longs ++ [w] ∧ w.mbx = h.mbx ∧ w.req.op = BitVec.ofNat 16 op ∧ w.req.hdr = h

/-- The command is accepted, completes, and waits for crossing a (15 R406, R409). -/
def WaitsFor (s t : State) (h : CmdHdr) (op : Nat) (a : CN) : Prop :=
  Completes s t h op 0 ∧
  ∃ w, t.kly.waiting = s.kly.waiting ++ [w] ∧ w.mbx = h.mbx ∧ w.req.op = BitVec.ofNat 16 op ∧ w.req.hdr = h ∧ w.at_ = a

/-- One journal entry more than before (15 R413). -/
def Journals (s t : State) : Prop := t.jnl.head = s.jnl.head + 1

/-! ### What the owning chapters ask of announced commands (15 R406, R407) -/

/-- A WGMCOMMIT of these operands passes the checks of its chapter (04 R142). -/
def wgmcommitOk (clear count : Dword) (lst : List Byte) (s : State) : Bool :=
  decide (clear.toNat ≤ 1 ∧ count ≠ 0 ∧ lst.length = 16 * count.toNat ∧ lst.length ≤ 4016) &&
  (wgmCommitBad s (wgmEnts lst count.toNat)).isNone

/-- A CTXCOMMIT passes the checks of 08 R256. -/
def ctxcommitOk (count : Dword) (lst : List Byte) (s : State) : Bool :=
  decide (count ≠ 0 ∧ lst.length = 32 * count.toNat ∧ lst.length ≤ 4024) && (ctxEnts lst count.toNat).all CtxEnt.zero &&
  !(ctxEnts lst count.toNat).any s.commitCtxBad

/-- A LANECOMMIT names a lane and values of its fields (09 R304). -/
def lanecommitOk (lane cnofs flim : Dword) : Bool := decide (lane.toNat < 64 ∧ cnofs.toNat < 2 ^ 24 ∧ flim.toNat ≤ 1024)

/-- A CAPARM keeps the depth of its input lanes, and neither a capture nor a full-rate recording holds the buffer (08 R260, R264, R269). -/
def caparmOk (pre post lanes bcnen acclat ctl : Dword) (s : State) : Bool :=
  decide (pre.toNat < 8192 ∧ post.toNat ≠ 0 ∧ post.toNat ≤ 8192 ∧ lanes ≠ 0 ∧ bcnen.toNat < 65536 ∧ acclat.toNat < 4096 ∧ ctl.toNat < 16 ∧
    s.cap.st = .idle ∧ pre.toNat < capDepth (s.inputLanes lanes) ∧ pre.toNat + post.toNat ≤ capDepth (s.inputLanes lanes) ∧
    (ctl.getLsbD 0 = true → pre.toNat + acclat.toNat + 1 ≤ capDepth (s.inputLanes lanes))) && !s.logHolds

/-- A BCNLOAD stays within one Quay and asks for no more matches than it compares bits (08 R271). -/
def bcnloadOk (beacon base len min ctl : Dword) (lst : List Byte) : Bool :=
  decide (beacon.toNat < 16 ∧ base.toNat < 65536 ∧ 1 ≤ len.toNat ∧ len.toNat ≤ 4096 ∧ 1 ≤ min.toNat ∧ min.toNat ≤ 4096 ∧ ctl.toNat < 4 ∧
    lst.length = 1024 ∧ base.toNat / 16384 = (base.toNat + len.toNat - 1) / 16384 ∧
    min.toNat ≤ setBits (maskOf (lst.drop 512)) len.toNat)

/-- An ENVLOAD stays within the 4,096 envelopes of its Quay (08 R273). -/
def envloadOk (quay first count : Dword) (lst : List Byte) : Bool :=
  decide (quay.toNat < 4 ∧ first.toNat < 4096 ∧ 1 ≤ count.toNat ∧ first.toNat + count.toNat ≤ 4096 ∧ lst.length = 8 * count.toNat ∧
    lst.length ≤ 4008)

/-- A LOGSTART finds no recording, no replay, and in full-rate mode a free wake buffer, whose assignment may be empty (14 R390, R391). -/
def logstartFree (mode lanes : Dword) (lst : List Byte) (s : State) : Bool :=
  decide ((mode = 1 ∨ mode = 2) ∧ lanes ≠ 0 ∧ (lst.length = laneCount lanes ∨ (mode = 1 ∧ lst = []))) && !s.log.active && !s.log.atArm &&
  !s.run.replay && (decide (mode = 2) || (!s.captureHolds && !s.logHolds))

/-- The same, and in stream mode its assignment fits the lanes as they stand (14 R391). -/
def logstartOk (mode lanes : Dword) (lst : List Byte) (s : State) : Bool :=
  logstartFree mode lanes lst s && (decide (mode = 1) || !s.assignBad lanes lst)

/-! ### Ends and effects of commands in progress (15 R400, R409, R410) -/

/-- The command that waits alone for effect t under opcode op. -/
def dueOnly (s : State) (op : Nat) (t : CN) (w : Waiting) : Bool := decide (s.dueNow op t = [w])

/-- The command no longer waits. -/
def Leaves (s t : State) (w : Waiting) : Prop := t.kly.waiting = s.kly.waiting.filter fun x => x.jseq != w.jseq

/-- Where its mailbox's ring has room, the notice of effect at crossing c stands there (15 R410). -/
def Notified (s t : State) (w : Waiting) (c : CN) : Prop :=
  w.mbx < 16 → (s.mbxOf w.mbx).used < 64 → (s.mbxOf w.mbx).held = [] →
  ∃ e, tfind (t.mbxOf w.mbx).ring (s.mbxOf w.mbx).prod.toNat = some e ∧ e.tag = w.req.hdr.tag ∧ e.op = w.req.op ∧ e.kind = .effect ∧
    e.cnEff = c

/-- A long command has ended: Klowyn works on it no more, and where no mirrored CACK is missing and the ring has room, the completion with
RESULT d stands there and the mailbox is free (15 R400, R407). -/
def Ends (s t : State) (w : Waiting) (d : Dword) : Prop :=
  (t.kly.longs = s.kly.longs.filter fun x => x.jseq != w.jseq || x.mbx != w.mbx) ∧
  (w.mbx < 16 → (s.mbxOf w.mbx).used < 64 → (s.mbxOf w.mbx).held = [] → s.awaitsCack w.jseq = false →
    (t.mbxOf w.mbx).busy = false ∧
    ∃ e, tfind (t.mbxOf w.mbx).ring (s.mbxOf w.mbx).prod.toNat = some e ∧ e.tag = w.req.hdr.tag ∧ e.op = w.req.op ∧
      e.kind = .completion ∧ e.status = 0 ∧ e.record = resultRec d)

/-- Bit b of an event register is set. -/
def State.shows (s : State) (i : EvtId) (b : Nat) : Bool := (s.evt i).bits.getLsbD b

/-- The program and weights of a cell's shadow plane, and of its active one (06 R185, R186). -/
def Cell.shadow (c : Cell) : List MInstr × Tbl Word := if c.sel then (c.progA, c.wgtA) else (c.progB, c.wgtB)
def Cell.active (c : Cell) : List MInstr × Tbl Word := if c.sel then (c.progB, c.wgtB) else (c.progA, c.wgtA)

/-- The DATA that an output entry of input crossing c collects: that of the token at its port and stream time, else 0 (01 R33). -/
def State.collects (s : State) (c : CN) (e : OschEnt) : Word :=
  ((s.arr.edge.find? fun k => k.isAt s.hdr.n c e).map fun k => k.tok.data).getD 0

/-- The frames of the wake buffer as a drain to the host writes them: Quay by Quay, the oldest first (08 R261, R268; DESIGN CHOICE, log entry 31). -/
def State.drainBytes (s : State) : List Byte := (List.range 4).flatMap fun q => (tget [] s.cap.frames q).flatMap Frame.bytes

/-- Key k of request i for input crossing c stands unread in its pool (07 R205, R221). -/
def State.holdsKey (s : State) (i k : Nat) (c : CN) (x : KeySt) : Prop :=
  ((s.pool i c).bind fun p => tfind p.keys k) = some x ∧ x.read = false ∧ x.kind = .key

/-- That key has been read from copy cp of its table with the given bits of the line wrong, and counted in the Quay that serves it
(07 R213, R214, R228, R241). -/
def ServesKey (s u : State) (i k : Nat) (c : CN) (t : TblDesc) (cp : CopyRec) (x : KeySt) (noise : BitVec 288) : Prop :=
  (∃ r, ((u.pool i c).bind fun p => tfind p.keys k) = some { x with read := true, row := r } ∧
    (t.rowOf x.key = none → r = none) ∧
    ∀ j d, t.rowOf x.key = some j →
      (s.readLine (cp.lineRef t.lpddr (t.faceLine (s.faceFor t.tid c) j)) noise).data = some d → r = t.payload x.key (lineWords d)) ∧
  (let n : CtrId := if t.lpddr then .almDlk (cp.lineRef t.lpddr 0).quay else .almSlk (cp.lineRef t.lpddr 0).quay
   u.ctr n = satAdd (s.ctr n) 1) ∧ u.mem = s.mem ∧ u.sram = s.sram

/-! ### The array (02, 03) -/

/-- The device has cell (x, y), and it issues entry e, of opcode opc, now (02 R57 to R59). -/
def issues (s : State) (x y opc : Nat) (e : MInstr) : Bool := s.hasCell x y && decide (s.issueDue x y opc = some e)

/-- The cell at (x, y). -/
def State.cellXY (s : State) (x y : Nat) : Cell := s.cellAt (y * 1024 + x)

/-- The DATA of operand A, and of operand B, of entry e at cell (x, y) (02 R51). -/
def opA (s : State) (x y : Nat) (e : MInstr) : Word := ((s.cellXY x y).source e e.srcA).data
def opB (s : State) (x y : Nat) (e : MInstr) : Word := ((s.cellXY x y).source e e.srcB).data

/-- The condition of entry e holds at cell (x, y) (02 R55). -/
def condMet (s : State) (x y : Nat) (e : MInstr) : Bool := condHolds e.cond (s.cellXY x y).flag ((s.cellXY x y).tagA e)

/-- Entry e of opcode opc issues at (x, y) and its condition holds. -/
def acts (s : State) (x y opc : Nat) (e : MInstr) : Bool := issues s x y opc e && condMet s x y e

/-- The working-store word that the destination of entry e names, after the command. -/
def wsD (t : State) (x y : Nat) (e : MInstr) : Word := (t.cellXY x y).wsAt e.addrD

/-- The accumulator that entry e names. -/
def accN (t : State) (x y : Nat) (e : MInstr) : Word := (t.cellXY x y).accAt e.acc

/-- A waypoint leaves on port p of the cell in this tick, in place of what the program drives (06 R192). -/
def waypointOn (s : State) (x y p : Nat) : Bool := s.wpQualifies (s.cellXY x y) && woutHas (s.cellXY x y).wout p

/-- The tag of the result of entry e (02 R56). -/
def resTag (s : State) (x y : Nat) (e : MInstr) : BitVec 2 := resultTag e.tagOut (s.cellXY x y).flag ((s.cellXY x y).tagA e)

/-- Every route that names the result drives v with the result's tag and the epoch of the active plane, where its port has a link and no
waypoint leaves there (02 R51, R56, R57). -/
def Carries (s t : State) (x y : Nat) (e : MInstr) (v : Word) : Prop :=
  ∀ p d, (p, 9) ∈ e.routes → waypointOn s x y p = false → s.link x y p = some d →
    ({ left := d.2, dst := d.1, tok := { tag := resTag s x y e, epoch := (s.cellXY x y).epAct, data := v } } : Flight) ∈ t.arr.flight

/-- The destination that DST names holds v: accumulator ACC, the working-store word, or the hold register with the result's tag
(02 R54, 03 R88). -/
def Lands (s t : State) (x y : Nat) (e : MInstr) (v : Word) : Prop :=
  (e.dst = 1 → accN t x y e = v) ∧ (e.dst = 2 → wsD t x y e = v) ∧
  (e.dst = 3 → (t.cellXY x y).holdAt (e.addrD % 4) = { data := v, tag := resTag s x y e })

/-- The result v goes to the destination and the result routes of entry e, and F is f after the tick (03 R86, R87). -/
def Results (s t : State) (x y : Nat) (e : MInstr) (v : Word) (f : Bool) : Prop :=
  Carries s t x y e v ∧ Lands s t x y e v ∧ (t.cellXY x y).flag = f

end Sys2Proof.Machine
end

