-- ==== Sys2Proof/Certificates/Slice0/Obligations.lean ====
section
/-! DEFINITION. The statements for the provers. Most give what a command does where its conditions hold (completion with effect);
the rest are frames, invariants and whole-machine rules. -/

open Sys2Proof Sys2Proof.Machine


/-! ### The block as a machine -/

/-- A step takes the command at the front of the queue and runs it on the state with the queue's rest. -/
def Obligations.StepRunsTheFrontCommand : Prop :=
  ∀ (c : Instr) (r : List Instr) (s : State), step { s with pending := c :: r } = exec c { s with pending := r }

/-- With no command waiting, one cycle of the running clocks passes: outside a run the time advances by 1 ns in counter mode, a lane
changes no more than what it transmits (09 R296), and everything else stays (13 R355, R357; that a cycle passes on an empty queue is the model's
choice, DESIGN CHOICE, log entry 4). -/
def Obligations.IdleStepAdvancesTheTime : Prop :=
  ∀ s : State, s.pending = [] → s.timeRuns = true → s.chr.cal = false → s.armed = false →
    GoesTo (step s) fun t => t = { s with chr := { s.chr with c := s.chr.c + 65536 }, lanes := t.lanes } ∧
      (∀ l, SendsOnly s t l) ∧ (s.clk.lrefOk = false → t.lanes = s.lanes)

/-- What RESET_N leaves, where the spec states a value: no power-up, no run, the registers of 12 R354, 13 R376, 07 R241, 09 R305. -/
def Obligations.ResetLeavesStatedValues : Prop :=
  State.reset.pair.cfg = 0x0C000000 ∧ State.reset.chr.cfg = 0x3E8 ∧ State.reset.chr.inc = 0x10000000000 ∧
  State.reset.chr.pps = 0x06400000 ∧ State.reset.armed = false ∧ State.reset.out.fdecZ = true ∧ State.reset.cig.stale = true ∧
  (∀ l, (State.reset.sextOf l).limit = 0x100A0805 ∧ (State.reset.sextOf l).cfg = 0xA0000000) ∧
  (∀ l, (State.reset.lane l).eirx = true ∧ (State.reset.lane l).eitx = true ∧ (State.reset.lane l).slackMin = 0xFFFF) ∧
  (∀ i, (State.reset.evt i).bits = 0 ∧ (State.reset.evt i).seq = 0) ∧ (∀ i, State.reset.ctr i = 0)

/-- Reset memory is in canonical form (DESIGN CHOICE, log entry 2). -/
def Obligations.ResetMemoryIsCanonical : Prop := State.reset.memWf = true

/-- Every step keeps both memory tiers in canonical form: addresses strictly rising, no entry that reads as an unlisted address
does. -/
def Obligations.StepKeepsMemoryCanonical : Prop := ∀ s t : State, s.memWf = true → step s = .next t → t.memWf = true

/-- No command adds to the queue of waiting commands, drops one or reorders them. -/
def Obligations.CommandsLeaveTheQueue : Prop := ∀ (c : Instr) (s t : State), exec c s = .next t → t.pending = s.pending

/-- No command outside its list changes a byte of LPDDR6 or SRAM, CN (R10, R11), the time (13 R355 to R362), a bit of the flag space
(16 R442) or configuration flash (18 R489, R492). -/
def Obligations.DeviceStateChangesOnlyByItsCommands : Prop :=
  ∀ (c : Instr) (s t : State), exec c s = .next t →
    (mayWriteMemory c = false → t.mem = s.mem ∧ t.sram = s.sram) ∧
    (mayCount c = false → t.cn = s.cn) ∧
    (mayMoveTime c = false → t.chr.now = s.chr.now ∧ t.chr.free = s.chr.free ∧ t.chr.inc = s.chr.inc) ∧
    (mayWriteFlags c = false → t.flags = s.flags) ∧
    (mayWriteFlash c = false → t.boot.flash = s.boot.flash)

/-- A command answers a next state exactly where its operands name units that the device has; otherwise it stops with the one fault
(DESIGN CHOICE, log entry 6), and no command is refused. -/
def Obligations.CommandsStopOnlyOnMissingUnits : Prop :=
  ∀ (c : Instr) (s : State), (runnable c s = true → Goes (exec c s)) ∧ (runnable c s = false → exec c s = .fault .noSuchUnit)

/-! ### Cells: results, accumulators, F (03) -/

/-- The bitwise operations and shifts: AND, OR, XOR and ANDN on all 32 bits, shifts by B[4:0], POPC the number of 1 bits of (A and B);
F is whether the result is non-zero (R86, R113). a is operand A, b operand B, which reads 0 where SRCB is 0. -/
def Obligations.LogicShiftsAndCounts : Prop :=
  ∀ (s : State) (x y : Nat) (e : MInstr),
    let a := opA s x y e
    let b := opB s x y e
    let sh := b.toNat % 32
    let ones : Word := BitVec.ofNat 32 ((List.range 32).filter fun j => (a &&& b).getLsbD j).length
    (e.srcB = 0 → b = 0) ∧
    (acts s x y 0x30 e = true → GoesTo (exec (.and_ x y) s) fun t =>
      Results s t x y e (a &&& b) (decide ((a &&& b) ≠ 0))) ∧
    (acts s x y 0x31 e = true → GoesTo (exec (.or_ x y) s) fun t =>
      Results s t x y e (a ||| b) (decide ((a ||| b) ≠ 0))) ∧
    (acts s x y 0x32 e = true → GoesTo (exec (.xor_ x y) s) fun t =>
      Results s t x y e (a ^^^ b) (decide ((a ^^^ b) ≠ 0))) ∧
    (acts s x y 0x33 e = true → GoesTo (exec (.andn x y) s) fun t =>
      Results s t x y e (a &&& ~~~b) (decide ((a &&& ~~~b) ≠ 0))) ∧
    (acts s x y 0x34 e = true → GoesTo (exec (.shl x y) s) fun t =>
      Results s t x y e (a <<< sh) (decide ((a <<< sh) ≠ 0))) ∧
    (acts s x y 0x35 e = true → GoesTo (exec (.shr x y) s) fun t =>
      Results s t x y e (a >>> sh) (decide ((a >>> sh) ≠ 0))) ∧
    (acts s x y 0x36 e = true → GoesTo (exec (.sar x y) s) fun t =>
      Results s t x y e (a.sshiftRight sh) (decide ((a.sshiftRight sh) ≠ 0))) ∧
    (acts s x y 0x37 e = true → GoesTo (exec (.popc x y) s) fun t =>
      Results s t x y e ones (decide (ones ≠ 0)))

/-- The comparisons give 1 or 0 and put it into F; SEL chooses by F as it stood at the start; MIN, MAX and ABS are signed; CX gives the lower
word as its result, the higher one to its destination, and F where it exchanged them (R86, R109 to R111). -/
def Obligations.ComparisonsAndSelections : Prop :=
  ∀ (s : State) (x y : Nat) (e : MInstr),
    let a := opA s x y e
    let b := opB s x y e
    let F := (s.cellXY x y).flag
    let lo : Word := BitVec.ofInt 32 (min a.toInt b.toInt)
    let hi : Word := BitVec.ofInt 32 (max a.toInt b.toInt)
    (acts s x y 0x20 e = true → GoesTo (exec (.cmplt x y) s) fun t =>
      Results s t x y e (if a.toInt < b.toInt then 1 else 0) (decide (a.toInt < b.toInt))) ∧
    (acts s x y 0x21 e = true → GoesTo (exec (.cmple x y) s) fun t =>
      Results s t x y e (if a.toInt ≤ b.toInt then 1 else 0) (decide (a.toInt ≤ b.toInt))) ∧
    (acts s x y 0x22 e = true → GoesTo (exec (.cmpeq x y) s) fun t =>
      Results s t x y e (if a = b then 1 else 0) (decide (a = b))) ∧
    (acts s x y 0x23 e = true → GoesTo (exec (.cmpltu x y) s) fun t =>
      Results s t x y e (if a.toNat < b.toNat then 1 else 0) (decide (a.toNat < b.toNat))) ∧
    (acts s x y 0x24 e = true → GoesTo (exec (.sel x y) s) fun t =>
      Results s t x y e (if F then a else b) F) ∧
    (acts s x y 0x25 e = true → GoesTo (exec (.min_ x y) s) fun t =>
      Results s t x y e lo (decide (a.toInt ≤ b.toInt))) ∧
    (acts s x y 0x26 e = true → GoesTo (exec (.max_ x y) s) fun t =>
      Results s t x y e hi (decide (b.toInt ≤ a.toInt))) ∧
    (acts s x y 0x27 e = true → GoesTo (exec (.cx x y) s) fun t =>
      Carries s t x y e lo ∧ Lands s t x y e hi ∧
        (t.cellXY x y).flag = decide (b.toInt < a.toInt)) ∧
    (acts s x y 0x2B e = true → GoesTo (exec (.abs_ x y) s) fun t =>
      Results s t x y e (BitVec.ofInt 32 (min (a.toInt.natAbs : Int) (2 ^ 31 - 1))) (decide (a.toInt < 0)))

/-- The accumulator operations write the accumulator that ACC names, saturated to 32 bits; the result is its new value, and F, working store
and hold registers stay (R86 to R88). -/
def Obligations.AccumulatorOperationsSaturate : Prop :=
  ∀ (s : State) (x y : Nat) (e : MInstr),
    let a := opA s x y e
    let sat (v : Int) : Int := max (-(2 ^ 31)) (min (2 ^ 31 - 1) v)
    let keeps (t : State) : Prop := Carries s t x y e (accN t x y e) ∧ (t.cellXY x y).flag = (s.cellXY x y).flag ∧
      (e.dst = 1 → (t.cellXY x y).ws = (s.cellXY x y).ws ∧ (t.cellXY x y).hold = (s.cellXY x y).hold)
    (acts s x y 0x05 e = true → GoesTo (exec (.accadd x y) s) fun t => (accN t x y e).toInt = sat ((accN s x y e).toInt + a.toInt) ∧ keeps t) ∧
    (acts s x y 0x06 e = true → GoesTo (exec (.accsub x y) s) fun t => (accN t x y e).toInt = sat ((accN s x y e).toInt - a.toInt) ∧ keeps t) ∧
    (acts s x y 0x07 e = true → GoesTo (exec (.accld x y) s) fun t => (accN t x y e).toInt = a.toInt ∧ keeps t) ∧
    (acts s x y 0x08 e = true → GoesTo (exec (.accclr x y) s) fun t => (accN t x y e).toInt = 0 ∧ keeps t) ∧
    (acts s x y 0x09 e = true → GoesTo (exec (.accmax x y) s) fun t => (accN t x y e).toInt = max (accN s x y e).toInt a.toInt ∧ keeps t) ∧
    (acts s x y 0x0A e = true → GoesTo (exec (.accmin x y) s) fun t => (accN t x y e).toInt = min (accN s x y e).toInt a.toInt ∧ keeps t)

/-- MACD adds the exact dot product of the lanes to the accumulator, saturating once; MACDZ writes it alone: packed lanes, the one lane that
ADDRD[0] selects in INT16, or the ternary weights against the sixteen activations in H0 to H3 (R84, R90). MACV adds one product of lanes to
each of the accumulators from ACC on, MACVZ writes them (R91). -/
def Obligations.ProductsAccumulate : Prop :=
  ∀ (s : State) (x y : Nat) (e : MInstr) (f : Fmt), fmtOf e.fmt = some f → f ≠ .word →
    let a := opA s x y e
    let b := opB s x y e
    let ln (v : Word) (w j : Nat) : Int := (v.extractLsb' (w * j) w).toInt
    let sat (v : Int) : Int := max (-(2 ^ 31)) (min (2 ^ 31 - 1) v)
    let keeps (t : State) : Prop := Carries s t x y e (accN t x y e) ∧ (t.cellXY x y).flag = (s.cellXY x y).flag ∧
      (e.dst = 1 → (t.cellXY x y).ws = (s.cellXY x y).ws ∧ (t.cellXY x y).hold = (s.cellXY x y).hold)
    let dot : Int := match f with
      | .ternary => ((List.range 16).map fun j => ln ((s.cellXY x y).holdAt (j / 4)).data 8 (j % 4) * (match b.extractLsb' (2 * j) 2 with
          | 0b01 => 1
          | 0b11 => -1
          | _ => 0)).sum
      | .int16 => ln a 16 (e.addrD % 2) * ln b 16 (e.addrD % 2)
      | _ => ((List.range f.lanes).map fun j => ln a f.width j * ln b f.width j).sum
    let m := if f = .int16 then 1 else f.lanes
    let p (j : Nat) : Int := let k := if f = .int16 then e.addrD % 2 else j
      ln a f.width k * ln b f.width k
    (acts s x y 0x01 e = true → GoesTo (exec (.macd x y) s) fun t => (accN t x y e).toInt = sat ((accN s x y e).toInt + dot) ∧ keeps t) ∧
    (acts s x y 0x02 e = true → GoesTo (exec (.macdz x y) s) fun t => (accN t x y e).toInt = sat dot ∧ keeps t) ∧
    (f ≠ .ternary → acts s x y 0x03 e = true → GoesTo (exec (.macv x y) s) fun t => keeps t ∧ ∀ j, j < m →
      ((t.cellXY x y).accAt (e.acc + j)).toInt = sat (((s.cellXY x y).accAt (e.acc + j)).toInt + p j)) ∧
    (f ≠ .ternary → acts s x y 0x04 e = true → GoesTo (exec (.macvz x y) s) fun t => keeps t ∧ ∀ j, j < m →
      ((t.cellXY x y).accAt (e.acc + j)).toInt = sat (p j))

/-- RQS gives operand A requantised with the set that RQS names; RQV and RQVC requantise the accumulators from ACC on into packed lanes, RQVC
with a set for each lane (R97). -/
def Obligations.RequantisersGiveTheirLanes : Prop :=
  ∀ (s : State) (x y : Nat) (e : MInstr),
    let c := s.cellXY x y
    let w := satWidth e.satw
    let val (p : Nat) (v : Int) (ln : Nat) : Int :=
      (requantise e.rnd w v (rqM (c.rqAt p)) (rqS (c.rqAt p)) (draw s.run.seed s.pcn x y s.tick ln)).1
    (acts s x y 0x10 e = true → GoesTo (exec (.rqs x y) s) fun t =>
      Results s t x y e (BitVec.ofInt 32 (val e.rqs (opA s x y e).toInt 0)) (s.cellXY x y).flag) ∧
    (acts s x y 0x11 e = true → GoesTo (exec (.rqv x y) s) fun t =>
      Results s t x y e (packLanes w ((List.range (32 / w)).map fun j => val e.rqs (c.accAt (e.acc + j)).toInt j)) (s.cellXY x y).flag) ∧
    (acts s x y 0x12 e = true → GoesTo (exec (.rqvc x y) s) fun t =>
      Results s t x y e (packLanes w ((List.range (32 / w)).map fun j => val (e.rqs + j) (c.accAt (e.acc + j)).toInt j)) (s.cellXY x y).flag)

/-- One requantised lane: the product of value and multiplier is divided by 2^S, to nearest even, truncated or with the draw added, and
saturated to the lane, with the flag of a value that did not fit (R98). -/
def Obligations.RequantiserRoundsAsSpecified : Prop :=
  ∀ (w s : Nat) (v m : Int) (r : Dword), 1 ≤ w →
    let p := v * m
    let sat (q : Int) : Int × Bool :=
      (max (-(2 ^ (w - 1))) (min (2 ^ (w - 1) - 1) q), decide (q < -(2 ^ (w - 1)) ∨ 2 ^ (w - 1) - 1 < q))
    (∀ rnd, requantise rnd w v m 0 r = sat p) ∧
    (1 ≤ s → ∃ q : Int, requantise 0 w v m s r = sat q ∧ 2 * p - 2 ^ s ≤ 2 * (q * 2 ^ s) ∧ 2 * (q * 2 ^ s) ≤ 2 * p + 2 ^ s ∧
      ((2 * (q * 2 ^ s) = 2 * p - 2 ^ s ∨ 2 * (q * 2 ^ s) = 2 * p + 2 ^ s) → q % 2 = 0)) ∧
    (1 ≤ s → ∃ q : Int, requantise 1 w v m s r = sat q ∧ q * 2 ^ s ≤ p ∧ p < (q + 1) * 2 ^ s) ∧
    (1 ≤ s → s ≤ 47 → ∃ q : Int, requantise 2 w v m s r = sat q ∧ q * 2 ^ s ≤ p + (r.toNat % 2 ^ s : Nat) ∧
      p + (r.toNat % 2 ^ s : Nat) < (q + 1) * 2 ^ s)

/-- The lookups read the active weight plane from word ADDRW: LUTV8 and LUTV4 an entry for each lane of A, LUTS a 16-bit entry of A's low
byte, LUTI two neighbouring entries with a rounded interpolation between them (R106, R107). -/
def Obligations.LookupsReadTheWeightPlane : Prop :=
  ∀ (s : State) (x y : Nat) (e : MInstr),
    let a := opA s x y e
    let ent (w j : Nat) : Int := (((s.cellXY x y).wgtAt (e.addrW + j * w / 32)).extractLsb' (j * w % 32) w).toInt
    let u := ((a.extractLsb' 0 16).toInt + 32768).toNat
    let e0 := ent 16 (u / 256)
    let e1 := ent 16 (if u / 256 < 255 then u / 256 + 1 else 255)
    (acts s x y 0x18 e = true → GoesTo (exec (.lutv8 x y) s) fun t =>
      Results s t x y e (packLanes 8 ((List.range 4).map fun j => ent 8 ((a.extractLsb' (8 * j) 8).toInt + 128).toNat)) (s.cellXY x y).flag) ∧
    (acts s x y 0x19 e = true → GoesTo (exec (.lutv4 x y) s) fun t =>
      Results s t x y e (packLanes 4 ((List.range 8).map fun j => ent 4 ((a.extractLsb' (4 * j) 4).toInt + 8).toNat)) (s.cellXY x y).flag) ∧
    (acts s x y 0x1A e = true → GoesTo (exec (.luts x y) s) fun t =>
      Results s t x y e (BitVec.ofInt 32 (ent 16 (a.toNat % 256))) (s.cellXY x y).flag) ∧
    (acts s x y 0x1B e = true → GoesTo (exec (.luti x y) s) fun t =>
      Results s t x y e (BitVec.ofInt 32 (e0 + ((e1 - e0) * (u % 256 : Nat) + 128).fdiv 256)) (s.cellXY x y).flag)

/-- VMAX and VMIN act lane by lane, HMAX gives the highest lane and the lowest index at which it stands, MOV gives A, BCAST one lane of A in
every lane, UNPK four 4-bit lanes as bytes (R86, R112, R114). -/
def Obligations.LaneOperationsAndMoves : Prop :=
  ∀ (s : State) (x y : Nat) (e : MInstr) (f : Fmt), fmtOf e.fmt = some f →
    let a := opA s x y e
    let b := opB s x y e
    let ln (v : Word) (j : Nat) : Int := (v.extractLsb' (f.width * j) f.width).toInt
    (acts s x y 0x28 e = true → GoesTo (exec (.vmax x y) s) fun t =>
      Results s t x y e (packLanes f.width ((List.range f.lanes).map fun j => max (ln a j) (ln b j))) (s.cellXY x y).flag) ∧
    (acts s x y 0x29 e = true → GoesTo (exec (.vmin x y) s) fun t =>
      Results s t x y e (packLanes f.width ((List.range f.lanes).map fun j => min (ln a j) (ln b j))) (s.cellXY x y).flag) ∧
    (acts s x y 0x2A e = true → GoesTo (exec (.hmax x y) s) fun t =>
      ∃ n, n < f.lanes ∧ (∀ j, j < f.lanes → ln a j ≤ ln a n) ∧ (∀ j, j < n → ln a j < ln a n) ∧
        Results s t x y e (BitVec.ofInt 24 (ln a n) ++ BitVec.ofNat 8 n) (s.cellXY x y).flag) ∧
    (acts s x y 0x38 e = true → GoesTo (exec (.mov x y) s) fun t =>
      Results s t x y e a (s.cellXY x y).flag) ∧
    (acts s x y 0x39 e = true → GoesTo (exec (.bcast x y) s) fun t =>
      Results s t x y e (packLanes f.width (List.replicate f.lanes (ln a (b.toNat % 8 % f.lanes)))) (s.cellXY x y).flag) ∧
    (acts s x y 0x3A e = true → GoesTo (exec (.unpk x y) s) fun t =>
      Results s t x y e (packLanes 8 ((List.range 4).map fun j => (a.extractLsb' (4 * (4 * (b.toNat % 2) + j)) 4).toInt)) (s.cellXY x y).flag)

/-- NOP, and every operation whose condition fails, changes no store, accumulator, hold register or flag of its cell; the cell has issued
(R55, R57, R87). -/
def Obligations.NopAndFailedConditionsWriteNothing : Prop :=
  (∀ (s : State) (x y : Nat) (e : MInstr), issues s x y 0x00 e = true →
    GoesTo (exec (.nop x y) s) fun t =>
      t.cellXY x y = s.cellXY x y ∧ (y * 1024 + x) ∈ t.arr.issued) ∧
  (∀ (c : Instr) (opc : Nat) (op : OpIn → OpOut) (s : State) (x y : Nat) (e : MInstr), (∀ u, exec c u = issueOp opc op x y u) →
    issues s x y opc e = true → condMet s x y e = false →
    GoesTo (exec c s) fun t =>
      t.cellXY x y = s.cellXY x y ∧ (y * 1024 + x) ∈ t.arr.issued ∧ t.wgm = s.wgm)

/-- An issue changes in its cell no more than accumulators, working store, hold registers and F; beside the cell it adds tokens in
flight, the pops of the tick, underflow and saturation notes, the window readings of tensors with WGM_TSAT, and FLAGS bits of records. Every other
cell, every other register and all of memory stay (R57, R63, R100, 04 R120). That a command whose entry is not due changes nothing is the model's choice
(DESIGN CHOICE, log entry 7). -/
def Obligations.IssueFrame : Prop :=
  (∀ (c : Instr) (s t : State) (x y : Nat), cellOf? c = some (x, y) → c ≠ .waypointArrival x y → c ≠ .seam x y → exec c s = .next t →
    (∀ k, k ≠ y * 1024 + x → t.cellAt k = s.cellAt k) ∧
    (let u := t.cellXY x y
     u = { s.cellXY x y with acc := u.acc, ws := u.ws, hold := u.hold, flag := u.flag }) ∧
    (∀ f ∈ s.arr.flight, f ∈ t.arr.flight) ∧
    (∀ k, t.tensor k = { s.tensor k with m := (t.tensor k).m, n := (t.tensor k).n }) ∧
    (∀ i : CtrId, i.code < 4096 → t.ctr i = s.ctr i) ∧
    t.out.recs.map (fun r => { r with flags := 0 }) = s.out.recs.map (fun r => { r with flags := 0 }) ∧
    t = { s with
      arr := { s.arr with cells := t.arr.cells, flight := t.arr.flight, issued := t.arr.issued, pops := t.arr.pops, unf := t.arr.unf
                          sats := t.arr.sats, viol := t.arr.viol }
      wgm := { s.wgm with tensors := t.wgm.tensors }, ctrs := t.ctrs, out := { s.out with recs := t.out.recs } }) ∧
  (∀ (c : Instr) (opc : Nat) (op : OpIn → OpOut) (s : State) (x y : Nat), (∀ u, exec c u = issueOp opc op x y u) →
    s.hasCell x y = true → s.issueDue x y opc = none → exec c s = .next s)

/-- Whatever the operation and its condition, the queues that the entry pops and that are not empty are noted for the tick's end, where each loses
its head token and no other queue loses one; a route that names a source sends that source's token on, unless it shows nothing or a waypoint
leaves there (R51, R55, R57, R63). -/
def Obligations.IssuePopsAndRoutes : Prop :=
  (∀ (c : Instr) (opc : Nat) (op : OpIn → OpOut) (s : State) (x y : Nat) (e : MInstr), issues s x y opc e = true →
    (∀ u, exec c u = issueOp opc op x y u) →
    GoesTo (exec c s) fun t =>
      (∀ k p, (k, p) ∈ t.arr.pops ↔
        (k, p) ∈ s.arr.pops ∨ (k = y * 1024 + x ∧ p < 8 ∧ e.pops p = true ∧ ((s.cellXY x y).head? p).isSome = true)) ∧
      (∀ k, (t.cellAt k).queues = (s.cellAt k).queues) ∧
      (∀ p k d, (p, k) ∈ e.routes → k ≠ 0 → k ≠ 9 → ((s.cellXY x y).source e k).tag ≠ 0 → waypointOn s x y p = false →
        s.link x y p = some d → ({ left := d.2, dst := d.1, tok := (s.cellXY x y).source e k } : Flight) ∈ t.arr.flight) ∧
      (∀ f ∈ s.arr.flight, f ∈ t.arr.flight)) ∧
  (∀ (s : State) (k p : Nat), ((s.removeHeads).cellAt k).queue p = ((s.cellAt k).queue p).drop (s.arr.pops.count (k, p)))

/-- The seam exchanges the active and the shadow planes and epochs of a clocked cell whose count has run out (R193, 17 R462); a waypoint that
qualifies starts that count from the cell's delay, leaves on WOUT and is to leave its queue (R194, R196). -/
def Obligations.WaypointSwitchesTheCell : Prop :=
  (∀ (s : State) (x y : Nat), s.hasCell x y = true → s.live = true → s.cellRuns (y * 1024 + x) = true → (s.cellXY x y).seam = some 0 →
    GoesTo (exec (.seam x y) s) fun t =>
      (t.cellXY x y).sel = !(s.cellXY x y).sel ∧ (t.cellXY x y).epAct = (s.cellXY x y).epSh ∧
      (t.cellXY x y).epSh = (s.cellXY x y).epAct ∧ (t.cellXY x y).seam = none ∧
      t = { s with arr := { s.arr with cells := t.arr.cells } }) ∧
  (∀ (s : State) (x y : Nat), s.hasCell x y = true → s.live = true → s.cellRuns (y * 1024 + x) = true →
    s.arr.wpDone.contains (y * 1024 + x) = false →
    s.wpQualifies (s.cellXY x y) = true →
    GoesTo (exec (.waypointArrival x y) s) fun t =>
      (t.cellXY x y).seam = some (s.cellXY x y).dly ∧ (y * 1024 + x) ∈ t.arr.wpDone ∧
      (y * 1024 + x, (s.cellXY x y).win) ∈ t.arr.pops ∧
      t.arr.flight = (s.send x y ((woutPorts (s.cellXY x y).wout).map fun p =>
        (p, ((s.cellXY x y).queue (s.cellXY x y).win).headD { tag := 3, epoch := (s.cellXY x y).epSh, data := 0 }))).arr.flight)


/-! ### Commands that answer at once (15 R400 to R407) -/

/-- The queries answer without a journal entry: LIBQUERY with the image index and both digests, HEALTH with log entries, PEDESTAL with
the words CTX_DONE, TMAP with the time of a crossing, ATTEST with a report of the nonce given. -/
def Obligations.QueriesAnswer : Prop :=
  (∀ (h : CmdHdr) (slot : Dword) (s : State), asks h 8 false s = true → slot.toNat < 64 → (s.libSlot slot.toNat).used = true →
    GoesTo (exec (.libquery h slot) s) fun t =>
      Completes s t h 0x0103 (BitVec.ofNat 64 (s.imgIndex slot.toNat).toNat) ∧ t.jnl = s.jnl ∧
      ((s.libSlot slot.toNat).meas.length = 48 → (s.libSlot slot.toNat).frame.length = 48 →
        (t.mbxOf h.mbx).body 96 = (s.libSlot slot.toNat).meas ++ (s.libSlot slot.toNat).frame)) ∧
  (∀ (h : CmdHdr) (first : Dword) (s : State), asks h 8 false s = true →
    GoesTo (exec (.health h first) s) fun t => Completes s t h 0x0A08 0 ∧ t.jnl = s.jnl ∧
      (t.mbxOf h.mbx).body (32 * (s.healthFrom first.toNat).length) = (s.healthFrom first.toNat).flatMap HEnt.bytes) ∧
  (∀ (h : CmdHdr) (first count : Dword) (s : State), asks h 16 false s = true → 1 ≤ count.toNat → count.toNat ≤ 500 →
    first.toNat + count.toNat ≤ 65536 →
    GoesTo (exec (.pedestal h first count) s) fun t => Completes s t h 0x0A02 0 ∧ t.jnl = s.jnl ∧
      (t.mbxOf h.mbx).body (8 * count.toNat) = (List.range count.toNat).flatMap fun i => leBytes 8 (s.ctxOf (first.toNat + i)).done.toNat) ∧
  (∀ (h : CmdHdr) (cn : Dword) (s : State) (m : BitVec 128), asks h 8 false s = true → cn.toNat < 2 ^ 48 →
    s.chr.mapCn (cn.extractLsb' 0 48) = some m →
    GoesTo (exec (.tmap h cn) s) fun t => Completes s t h 0x0903 0 ∧ t.jnl = s.jnl ∧ (t.mbxOf h.mbx).body 16 = leBytes 16 m.toNat) ∧
  (∀ (h : CmdHdr) (lo hi : Dword) (s : State), asks h 16 false s = true → s.boot.pufOk = true →
    GoesTo (exec (.attest h lo hi) s) fun t => Completes s t h 0x0C01 0 ∧ t.jnl = s.jnl ∧
      (t.mbxOf h.mbx).body 24 = [0x4E, 0x59, 0x41, 0x54] ++ leBytes 2 1 ++ leBytes 2 888 ++ leBytes 8 lo.toNat ++ leBytes 8 hi.toNat)

/-- Every query, journaled or not accepted, leaves everything but the mailboxes, the interrupts and the free-value index alone, and
the commands in progress with it. -/
def Obligations.QueryFrame : Prop :=
  ∀ (h : CmdHdr) (a b : Dword) (c : Instr) (s t : State), s.takes h.mbx = true →
    c = .libquery h a ∨ c = .health h a ∨ c = .pedestal h a b ∨ c = .tmap h a ∨ c = .attest h a b →
    exec c s = .next t →
    t = { s with mbx := t.mbx, host := t.host, freeCtr := t.freeCtr, kly := { s.kly with lastMbx := h.mbx } } ∧
    t.host = { s.host with pend := t.host.pend, sent := t.host.sent } ∧ ∀ m, m ≠ h.mbx → t.mbxOf m = s.mbxOf m

/-- EVICT empties a library slot that no run uses, keeping its generation; TIMESVC sets the time service; LOGSTOP ends a recording;
CANCEL abandons a fill: each journaled and complete at once (06 R184, R188, 14 R391, 16 R448). -/
def Obligations.ServiceCommandsComplete : Prop :=
  (∀ (h : CmdHdr) (slot : Dword) (s : State), asks h 8 false s = true → slot.toNat < 64 → (s.libSlot slot.toNat).used = true →
    s.slotInUse slot.toNat = false →
    GoesTo (exec (.evict h slot) s) fun t => Completes s t h 0x0102 0 ∧ Journals s t ∧ (t.libSlot slot.toNat).used = false ∧
      (t.libSlot slot.toNat).gen = (s.libSlot slot.toNat).gen ∧ ∀ k, k ≠ slot.toNat → t.libSlot k = s.libSlot k) ∧
  (∀ (h : CmdHdr) (en dom hub : Dword) (s : State), asks h 24 false s = true → en.toNat ≤ 1 → dom.toNat ≤ 255 → hub.toNat ≤ 255 →
    GoesTo (exec (.timesvc h en dom hub) s) fun t => Completes s t h 0x0901 0 ∧ Journals s t ∧
      t.kly.timeEn = decide (en = 1) ∧ t.kly.timeDom.toNat = dom.toNat ∧ t.kly.timeHub.toNat = hub.toNat) ∧
  (∀ (h : CmdHdr) (s : State), asks h 0 false s = true → s.armed = true → (s.log.active || s.log.atArm) = true →
    GoesTo (exec (.logstop h) s) fun t => Completes s t h 0x0702 0 ∧ Journals s t ∧ t.log.active = false ∧ t.log.atArm = false) ∧
  (∀ (h : CmdHdr) (s : State), asks h 0 false s = true → s.armed = true → s.planes.sh = .filling →
    GoesTo (exec (.cancel h) s) fun t => Completes s t h 0x0302 0 ∧ Journals s t ∧ t.planes.sh = .empty ∧ t.arr = s.arr)

/-- FILL begins the fill of the shadow planes and answers with the crossing by which it ends (06 R186, R187). -/
def Obligations.FillBegins : Prop :=
  ∀ (h : CmdHdr) (slot : Dword) (s : State), asks h 8 false s = true → slot.toNat < 64 → s.armed = true → s.run.phase ≠ .paused →
    s.planes.sh = .empty ∨ s.planes.sh = .ready → (s.libSlot slot.toNat).used = true → s.run.mclkArm ≤ 4060000 →
    fillBad s.run.debug slot.toNat (s.imgAt s.planes.actSlot) (s.imgAt slot.toNat) (s.libSlot s.planes.actSlot).frame
      (s.libSlot slot.toNat).frame = none →
    GoesTo (exec (.fill h slot) s) fun t =>
      Completes s t h 0x0301 (((cnAdd s.cn ((1792 * (1024 * s.hdr.rows) + 1919) / 1920)).setWidth 64)) ∧ Journals s t ∧
      t.planes.sh = .filling ∧ t.planes.shSlot = slot.toNat ∧ t.planes.fillPos = 0 ∧ t.arr = s.arr

/-- CAPRELEASE ends a capture: IDLE before a trigger, after a freeze or in a drain IDLE or with AUTO the pre-fill again (08 R263, R268). -/
def Obligations.CapreleaseEndsTheCapture : Prop :=
  ∀ (h : CmdHdr) (s : State), asks h 0 false s = true → (∀ w ∈ s.kly.longs, w.mbx ≠ h.mbx) →
    (s.cap.st = .prefill ∨ s.cap.st = .armed → GoesTo (exec (.caprelease h) s) fun t =>
      Completes s t h 0x0604 0 ∧ Journals s t ∧ t.cap.st = .idle) ∧
    (s.cap.st = .frozen → GoesTo (exec (.caprelease h) s) fun t => Completes s t h 0x0604 0 ∧ Journals s t ∧
      t.cap.st = (if s.cap.cfg.getLsbD 31 then .prefill else .idle) ∧ t.cap.frames = []) ∧
    (s.cap.st = .draining → GoesTo (exec (.caprelease h) s) fun t => Completes s t h 0x0604 0 ∧ Journals s t ∧
      t.cap.st = (if s.cap.cfg.getLsbD 31 then .prefill else .idle) ∧ t.cap.frames = [] ∧ t.shows .cap 4 = true ∧
      ∀ w, s.longOf 0x0603 = some w → t.kly.longs = s.kly.longs.filter fun x => x.jseq != w.jseq || x.mbx != w.mbx)

/-- The lane services: LANEIDLE puts an unused lane into or out of electrical idle without lock, out of it with a training burst of 1,024 UI
(09 R303), but a mirror lane of a solo device, and every lane in the clock safe state, stays idle (12 R335, 17 R465); LANETUNE answers with three setting
words and writes no register (09 R298; that it completes in the step of its command is DESIGN CHOICE, log entry 54); MGMTSEND queues a management packet
on a hub lane (15 R418); DESKEW has Klowyn announce a capture around its reference crossing and a trigger at it, or ends at once where it covers no enabled
mapped context of a run (08 R255, R259; the capture's operands are DESIGN CHOICE, log entry 77). -/
def Obligations.LaneServicesComplete : Prop :=
  (∀ (h : CmdHdr) (lane enter : Dword) (s : State), asksPair h 16 false s = true → (s.pairMode = false ∨ s.pair.st ≠ .lost) →
    lane.toNat < 64 → enter.toNat ≤ 1 → s.armed = false ∨ (s.lane lane.toNat).role = 0 →
    GoesTo (exec (.laneidle h lane enter) s) fun t =>
      let x := s.lane lane.toNat
      let y := t.lane lane.toNat
      let mirrorSolo := x.role = 3 ∧ s.pairMode = false
      Completes s t h 0x0A07 0 ∧ Journals s t ∧ y.lock = false ∧ y.anchor = false ∧
      (mirrorSolo ∨ s.clk.safe = true → y.eitx = true ∧ y.eirx = true) ∧ (¬mirrorSolo → y.wake = decide (enter = 0)) ∧
      (¬mirrorSolo → s.clk.safe = false → y.eitx = (decide (enter = 1) || x.role == 1) ∧ y.eirx = (x.eirx || decide (enter = 1)) ∧
        (enter = 0 → x.role ≠ 1 → x.eitx = true → y.txBurst = 1024)) ∧
      ∀ l, l ≠ lane.toNat → t.lane l = s.lane l) ∧
  (∀ (h : CmdHdr) (lane : Dword) (s : State), asks h 8 false s = true → lane.toNat < 64 → s.armed = false →
    (s.lane lane.toNat).role ≠ 0 →
    GoesTo (exec (.lanetune h lane) s) fun t => Completes s t h 0x0A05 0 ∧ Journals s t ∧ t.lanes = s.lanes ∧
      ∃ tx rx df : Word, (t.mbxOf h.mbx).body 12 = leBytes 4 tx.toNat ++ leBytes 4 rx.toNat ++ leBytes 4 df.toNat ∧
        tx &&& 0xC0000000 = 0 ∧ rx &&& 0x0000FFFF = 0 ∧ df &&& 0xC0000000 = 0) ∧
  (∀ (h : CmdHdr) (lane : Dword) (lst : List Byte) (s : State), asks h (8 + lst.length) false s = true → lane.toNat < 64 →
    lst.length ≤ 2032 → (s.lane lane.toNat).role = 4 → (s.hubOf lane.toNat).room (mgmtPkt 0x10 lst) = true →
    GoesTo (exec (.mgmtsend h lane lst) s) fun t => Completes s t h 0x0D01 0 ∧ Journals s t ∧
      (t.hubOf lane.toNat).side = (s.hubOf lane.toNat).side ++ [mgmtPkt 0x10 lst]) ∧
  (∀ (h : CmdHdr) (first count ref window : Dword) (s : State), asks h 32 false s = true → count.toNat ≠ 0 → window.toNat ≠ 0 →
    first.toNat + count.toNat ≤ 65536 → first.toNat < 65536 → ref.toNat < 2 ^ 48 →
    let es := s.img.cmap.filter fun e =>
      s.armed && decide (first.toNat ≤ e.ctx ∧ e.ctx < first.toNat + count.toNat) && (s.ctxOf e.ctx).en
    let ls := s.inputLanes (cmapLanes es)
    let pre := window.toNat / 2
    let far (op len : Nat) (c : CN) : Prop := s.lead op len ≤ (c - s.cn).toNat ∧ (c - s.cn).toNat ≤ 2 ^ 47 - 1
    window.toNat ≤ capDepth ls → s.cap.st = .idle → s.logHolds = false →
    (es = [] → GoesTo (exec (.deskew h first count ref window) s) fun t => Completes s t h 0x0A01 0 ∧ Journals s t ∧ t.cap = s.cap) ∧
    (es ≠ [] → ls ≠ 0 → far 0x0601 48 (cnSub (ref.setWidth 48) pre) → far 0x0602 0 (ref.setWidth 48) →
      GoesTo (exec (.deskew h first count ref window) s) fun t => WorksOn s t h 0x0A01 ∧ t.jnl.head = s.jnl.head + 3 ∧ t.cap = s.cap ∧
        ∃ x y, t.kly.waiting = s.kly.waiting ++ [x, y] ∧ x.req.op = 0x0601 ∧ x.at_ = cnSub (ref.setWidth 48) pre ∧
          x.req.opd 0 = BitVec.ofNat 64 pre ∧ x.req.opd 1 = BitVec.ofNat 64 (window.toNat - pre) ∧ x.req.opd 2 = ls ∧
          y.req.op = 0x0602 ∧ y.at_ = ref.setWidth 48))

/-- PAIRCFG writes PAIR_CFG and leaves the member FORMING in pair mode, OFF and with authority in solo mode (12 R333, R354); YIELD raises
a host yield, CAUSE 0x05, in a running pair; a member without a partner stops at K = s + MR + 2 of the frame s that carries YIELD, the next crossing's,
so at CN + MR + 3 (12 R341, R343, R352); it is refused in solo mode; REJOIN begins a rejoin from FORMING (12 R347). -/
def Obligations.PairCommandsComplete : Prop :=
  (∀ (h : CmdHdr) (mode pid pref mr ar : Dword) (s : State), asksPair h 40 false s = true →
    (s.pairMode = false ∨ s.pair.st ≠ .lost) → s.armed = false → mode.toNat ≤ 1 → pid.toNat < 65536 → pref.toNat ≤ 1 →
    4 ≤ mr.toNat → mr.toNat ≤ 10 → ar.toNat ≤ 1 → mode = 0 ∨ pid ≠ 0 →
    GoesTo (exec (.paircfg h mode pid pref mr ar) s) fun t => Completes s t h 0x0801 0 ∧ Journals s t ∧
      (t.pair.cfg.extractLsb' 30 2).toNat = mode.toNat ∧ (t.pair.cfg.extractLsb' 0 16).toNat = pid.toNat ∧
      (t.pair.cfg.extractLsb' 25 4).toNat = mr.toNat ∧ t.pair.cfg.getLsbD 24 = decide (ar = 1) ∧ t.pair.cfg.getLsbD 29 = decide (pref = 1) ∧
      (mode = 1 → t.pair.st = .forming ∧ t.pair.auth = false) ∧ (mode = 0 → t.pair.st = .off ∧ t.pair.auth = true)) ∧
  (∀ (h : CmdHdr) (s : State), asksPair h 0 false s = true → s.armed = true → s.paired = true → s.pair.yieldCause = none →
    GoesTo (exec (.yield h) s) fun t => Completes s t h 0x0802 0 ∧ Journals s t ∧ t.pair.yieldCause = some 5 ∧ t.run = s.run) ∧
  (∀ (h : CmdHdr) (s : State), asksPair h 0 false s = true → s.armed = true → s.pairMode = true → s.paired = false → s.pair.pend = none →
    GoesTo (exec (.yield h) s) fun t => Completes s t h 0x0802 0 ∧ Journals s t ∧
      t.pair.pend = some { k := cnAdd (cnAdd s.cn 1) ((s.pair.cfg.extractLsb' 25 4).toNat + 2), cause := 5, mine := true, both := false, lossOfPeer := false }) ∧
  (∀ (h : CmdHdr) (s : State), asks h 0 false s = true → s.armed = true →
    GoesTo (exec (.yield h) s) fun t => (t.mbxOf h.mbx).busy = false ∧ t.jnl = s.jnl ∧ t.pair = s.pair ∧
      ∃ e, tfind (t.mbxOf h.mbx).ring (s.mbxOf h.mbx).prod.toNat = some e ∧ e.tag = h.tag ∧ e.kind = .completion ∧ e.status = 0xB007) ∧
  (∀ (h : CmdHdr) (src : Dword) (s : State), asksPair h 8 false s = true → s.armed = false → src.toNat ≤ 1 → s.pairMode = true →
    s.pair.st = .forming → s.pair.rejoin = none →
    GoesTo (exec (.rejoin h src) s) fun t => WorksOn s t h 0x0803 ∧ Journals s t ∧ t.pair.rejoin = some (src.toNat, false))

/-- OWNERUPD stores a certificate, staged at its offset under HST_WBASE (16 R430), that Klowyn accepts in the owner slot not in force
and takes Klowyn down to reboot; one that it does not
accept is refused with POLICY, and flash stays as it is (18 R492). -/
def Obligations.OwnerUpdateStoresTheCertificate : Prop :=
  ∀ (h : CmdHdr) (off len : Dword) (s : State), asks h 16 false s = true → s.armed = false → len.toNat ≠ 0 →
    off.toNat < 2 ^ 38 → len.toNat < 2 ^ 38 → s.bar4Addr off.toNat + len.toNat ≤ 2 ^ 38 →
    let env := tgets 0 s.mem (s.bar4Addr off.toNat) len.toNat
    GoesTo (exec (.ownerupd h off len) s) fun t =>
      ((s.certStaged env).isSome = true →
        Completes s t h 0x0C02 0 ∧ t.kly.up = false ∧ t.kly.waiting = [] ∧
        tget [] t.boot.flash.regions s.newOwnerSlot = env) ∧
      (s.certStaged env = none → t.boot = s.boot ∧ t.kly.up = true ∧ t.jnl = s.jnl)

/-- A command whose OPCODE is none of the listed ones is refused with 0xB001: its completion says so, nothing is journaled, and nothing
else changes (R405). -/
def Obligations.UnlistedOpcodesAreRefused : Prop :=
  ∀ (h : CmdHdr) (op : BitVec 16) (lst : List Byte) (s : State), s.takes h.mbx = true → kFind op = none →
    GoesTo (exec (.unlistedOpcodeCommand h op lst) s) fun t =>
      (t.mbxOf h.mbx).busy = false ∧ t.jnl = s.jnl ∧
      t = { s with mbx := t.mbx, host := t.host, kly := { s.kly with lastMbx := h.mbx } } ∧
      ∃ e, tfind (t.mbxOf h.mbx).ring (s.mbxOf h.mbx).prod.toNat = some e ∧ e.tag = h.tag ∧ e.op = op ∧ e.status = 0xB001 ∧
        e.kind = .completion ∧ e.jseq = 0


/-! ### Commands that name a crossing (15 R406 to R410) -/

/-- ARM, REPLAY, STOP, PAUSE, RESUME, SWITCH and TSWAP, where the checks of their chapters pass and the announced crossing keeps its
lead, complete and wait for that crossing; what they set at once is the run armed for it, its counters cleared (02 R81, 04 R144, 05 R177), or its mark
in the run, the planes or the Almanac. -/
def Obligations.RunCommandsWaitForTheirCrossing : Prop :=
  (∀ (h : CmdHdr) (slot pl seed seedv dbg : Dword) (s : State), asks h 40 true s = true → slot.toNat < 64 → pl.toNat ≤ 2 →
    seedv.toNat ≤ 1 → dbg.toNat ≤ 1 → s.armed = false → s.keepsLead h 0x0201 = true →
    s.armBad slot.toNat pl.toNat (dbg == 1) = none →
    GoesTo (exec (.arm h slot pl seed seedv dbg) s) fun t => WaitsFor s t h 0x0201 (s.target h) ∧ Journals s t ∧
      t.run.phase = .armed ∧ t.run.first = s.target h ∧ t.run.slot = slot.toNat ∧ t.run.pl = pl.toNat ∧ t.run.debug = (dbg == 1) ∧
      t.run.seed = (if seedv = 1 then seed else (s.imgAt slot.toNat).hdr.seed) ∧ t.planes.actSlot = slot.toNat ∧
      t.planes.sh = .empty ∧ t.clk.alock = true ∧ t.clk.freq = BitVec.ofNat 23 s.clk.mclk ∧ t.cig.stale = true ∧ t.mem = s.mem ∧
      (∀ i : CtrId, clearsAtArming i.code = true → t.ctr i = 0) ∧ (t.evt .runHz).bits = 0 ∧
      ∀ l, l < 64 → (t.lane l).cfg = laneCfg (s.imgAt slot.toNat) s.boot.board s.clk.mclk l) ∧
  (∀ (h : CmdHdr) (slot offset part dbg : Dword) (s : State), asks h 32 true s = true → slot.toNat < 64 →
    offset.toNat < 2 ^ 38 → part.toNat ≤ 1 → dbg.toNat ≤ 1 → s.armed = false → s.keepsLead h 0x0703 = true →
    s.log.active = false → s.log.slots ≠ [] → s.imagesMatch slot.toNat = true →
    s.armBad slot.toNat (min s.pwr.pl 2) (dbg == 1) = none →
    (part = 1 ∨ (s.framesLost = false ∧ s.log.broken = none ∧ (s.imgAt slot.toNat).readLanes.all s.log.has = true)) →
    (s.log.mode = 2 → s.replayBursts (s.imgAt slot.toNat) ≤ 32) →
    s.allStaged (s.imgAt slot.toNat) (s.bar4Addr offset.toNat) = true →
    GoesTo (exec (.replay h slot offset part dbg) s) fun t => WaitsFor s t h 0x0703 (s.target h) ∧ Journals s t ∧
      t.run.replay = true ∧ t.run.partialR = (part == 1) ∧ t.run.seed = s.log.seed ∧
      t.run.first = replayFirst (s.target h) s.log.p0 ∧ t.run.rshift = t.run.first - s.log.p0 ∧ t.log.stage = s.bar4Addr offset.toNat) ∧
  (∀ (h : CmdHdr) (s : State), asks h 0 true s = true → s.armed = true →
    (s.keepsLead h 0x0202 = true → GoesTo (exec (.stop h) s) fun t => WaitsFor s t h 0x0202 (s.target h) ∧ Journals s t ∧
      t.run = { s.run with stopAt := some (match s.run.stopAt with
        | some c => if cnLt (s.target h) c then s.target h else c
        | none => s.target h) }) ∧
    (s.keepsLead h 0x0203 = true → s.pauseMeets (s.target h) = false → GoesTo (exec (.pause h) s) fun t =>
      WaitsFor s t h 0x0203 (s.target h) ∧ Journals s t ∧ t.run = { s.run with pauseAt := some (s.target h) }) ∧
    (s.keepsLead h 0x0204 = true → s.run.phase = .paused → s.run.resumeQ = none → (s.target h - s.run.pcn).toNat % 32 = 0 →
      15 ≤ (s.target h - s.run.pausedAt).toNat → (s.target h - s.run.pausedAt).toNat < 2 ^ 47 → s.resumeDiffers = false →
      GoesTo (exec (.resume h) s) fun t => WaitsFor s t h 0x0204 (s.target h) ∧ Journals s t ∧
        t.run = { s.run with resumeQ := some (s.target h) } ∧ t.alm = { s.alm with trained := false }) ∧
    (s.keepsLead h 0x0303 = true → s.run.phase ≠ .draining → s.run.phase ≠ .paused → s.planes.swW = none → s.run.pauseAt = none →
      s.transferring = false → s.planes.sh = .ready →
      GoesTo (exec (.switch h) s) fun t => WaitsFor s t h 0x0303 (s.target h) ∧ Journals s t ∧ t.planes.sh = .switching ∧
        t.planes.swW = some (s.target h) ∧ t.planes.swCn = s.target h ∧ t.planes.actSlot = s.planes.actSlot ∧ t.arr = s.arr)) ∧
  (∀ (h : CmdHdr) (tid : Dword) (d : TblDesc) (s : State), asks h 8 true s = true → tid.toNat < 4096 → s.armed = true →
    s.keepsLead h 0x0403 = true → s.img.table tid.toNat = some d → d.faces ≠ 1 → s.transferring = false → s.swapping tid.toNat = false →
    (s.alm.writes ++ s.alm.catchUp).any (fun b => b.tid == tid.toNat) = false → s.run.pauseAt = none →
    GoesTo (exec (.tswap h tid) s) fun t => WaitsFor s t h 0x0403 (s.target h) ∧ Journals s t ∧ t.alm.tabs = s.alm.tabs ∧
      t.alm.swaps = s.alm.swaps ++ [{ tid := tid.toNat, a := s.target h, jseq := s.jnl.head + 1, done := false }])

/-- The long commands: accepted, journaled but for the query HISTO, their mailbox BUSY until they end (R400, R407). -/
def Obligations.LongCommandsAreTakenUp : Prop :=
  (∀ (h : CmdHdr) (slot src off len : Dword) (s : State), asks h 32 false s = true → slot.toNat < 64 → src.toNat ≤ 1 →
    off.toNat < 2 ^ 38 → len.toNat < 2 ^ 38 → len ≠ 0 → s.slotInUse slot.toNat = false →
    let o := if src = 0 then s.bar4Addr off.toNat else off.toNat
    let b := s.imageBytes src.toNat o len.toNat
    s.sourceBad src.toNat o len.toNat = false → s.libHeld slot.toNat + granules len.toNat ≤ s.kly.cfg.libg → s.sigBad b = false →
    admitBad s.dev.nc12 (if s.dev.nc12 then s.dev.dis else none) s.kly.cfg.libg s.boot.board b len.toNat = none →
    GoesTo (exec (.admitImage h slot src off len) s) fun t => WorksOn s t h 0x0101 ∧ Journals s t ∧ t.kly.lib = s.kly.lib ∧
      ∃ a, t.kly.admits = s.kly.admits ++ [a] ∧ a.slot = slot.toNat ∧ a.raw = b ∧ a.img = parseImage b) ∧
  (∀ (h : CmdHdr) (tid faces off len : Dword) (d : TblDesc × List CopyRec) (s : State), asks h 32 false s = true → s.armed = false →
    tid.toNat < 4096 → 1 ≤ faces.toNat → faces.toNat ≤ 3 → (faces.getLsbD 1 = true → d.1.faces ≠ 1) → off.toNat < 2 ^ 38 →
    s.bar4Addr off.toNat + len.toNat ≤ 2 ^ 38 → len.toNat < 2 ^ 38 → len ≠ 0 → s.loadDesc tid.toNat = some d →
    len.toNat = loadLen d.1 faces.toNat →
    GoesTo (exec (.tload h tid faces off len) s) fun t => WorksOn s t h 0x0401 ∧ Journals s t ∧ t.alm = s.alm ∧ t.mem = s.mem) ∧
  (∀ (h : CmdHdr) (tid off n : Dword) (d : TblDesc) (s : State), asks h 24 false s = true → s.armed = true → tid.toNat < 4096 →
    off.toNat < 2 ^ 38 → n ≠ 0 → s.img.table tid.toNat = some d → d.faces ≠ 1 →
    let a := s.bar4Addr off.toNat
    a + 48 * n.toNat ≤ 2 ^ 38 →
    (∀ i, i < n.toNat → (stagedRow s a i).1 ≤ d.rows ∧ (stagedRow s a i).2.1 = if s.idleFace tid.toNat then 1 else 0) →
    GoesTo (exec (.twrite h tid off n) s) fun t => WorksOn s t h 0x0402 ∧ Journals s t ∧
      t.alm.writes = s.alm.writes ++ (s.tab tid.toNat).bursts (s.jnl.head + 1) tid.toNat (s.idleFace tid.toNat)
        ((List.range n.toNat).map fun i => ((stagedRow s a i).1, (stagedRow s a i).2.2))) ∧
  (∀ (h : CmdHdr) (target samples : Dword) (s : State), asks h 16 false s = true → s.armed = true → histoTargetOk target = true →
    samples ≠ 0 →
    GoesTo (exec (.histo h target samples) s) fun t => WorksOn s t h 0x0A03 ∧ t.jnl = s.jnl ∧
      ∃ k, t.kly.histo = s.kly.histo ++ [k] ∧ k.target = target ∧ k.left = samples.toNat ∧ k.bins = []) ∧
  (∀ (h : CmdHdr) (dest haddr : Dword) (s : State), asks h 16 false s = true → dest.toNat ≤ 1 → s.cap.st = .frozen →
    dest = 1 ∨ s.log.active = false ∨ s.log.mode ≠ 2 →
    GoesTo (exec (.capdrain h dest haddr) s) fun t => WorksOn s t h 0x0603 ∧ Journals s t ∧ t.cap = { s.cap with st := .draining }) ∧
  (∀ (h : CmdHdr) (lane dwell ethr haddr : Dword) (s : State), asks h 32 false s = true → lane.toNat < 64 → 16 ≤ dwell.toNat →
    dwell.toNat ≤ 31 → ethr.toNat ≤ 127 → haddr ≠ 0 → (s.sextOf lane.toNat).busy = false → (s.lane lane.toNat).role ≠ 0 →
    (s.lane lane.toNat).lock = true →
    GoesTo (exec (.eyescan h lane dwell ethr haddr) s) fun t => WorksOn s t h 0x0A04 ∧ Journals s t ∧
      (t.sextOf lane.toNat).busy = true ∧ (t.sextOf lane.toNat).cfg = dwell.extractLsb' 0 5 ++ ethr.extractLsb' 0 7 ++ (0 : BitVec 20) ∧
      (t.sextOf lane.toNat).done = 0 ∧ t.lanes = s.lanes) ∧
  (∀ (h : CmdHdr) (s : State), asks h 0 false s = true → s.armed = true →
    GoesTo (exec (.lanealign h) s) fun t => WorksOn s t h 0x0A06 ∧ Journals s t ∧
      ∃ a, t.kly.align = s.kly.align ++ [a] ∧ a.left = 65536 ∧ a.minSl = 65535) ∧
  (∀ (h : CmdHdr) (st : Dword) (s : State), asks h 8 false s = true → s.armed = false → 1 ≤ st.toNat → st.toNat ≤ 3 →
    s.pwr.busy = .none →
    GoesTo (exec (.sleep h st) s) fun t => WorksOn s t h 0x0B01 ∧ Journals s t ∧ t.pwr.sst = s.pwr.sst ∧
      ∃ w, t.pwr.busy = .sleep st.toNat (some w)) ∧
  (∀ (h : CmdHdr) (pl : Dword) (s : State), asks h 8 false s = true → s.armed = false → pl.toNat ≤ 2 → s.pwr.busy = .none →
    (pl.toNat ≠ s.pwr.pl → GoesTo (exec (.perflevel h pl) s) fun t => WorksOn s t h 0x0B02 ∧ Journals s t ∧ t.pwr.pl = s.pwr.pl ∧
      ∃ w, t.pwr.busy = .level pl.toNat (some w)) ∧
    (pl.toNat = s.pwr.pl → GoesTo (exec (.perflevel h pl) s) fun t => Completes s t h 0x0B02 0 ∧ Journals s t ∧ t.pwr = s.pwr)) ∧
  (∀ (h : CmdHdr) (lane lo hi : Dword) (lst : List Byte) (s : State), asks h (24 + lst.length) false s = true → lane.toNat < 64 →
    launchPktOk lst = true → (s.lane lane.toNat).role = 4 → s.chr.now ≤ ((s.chr.units (hi ++ lo) : Nat) : Int) + 65536000 →
    s.chr.launches.length < 64 →
    (s.kly.longs.all fun w => w.req.op.toNat != 0x0902 || s.chr.launches.any fun q => q.jseq == w.jseq) = true →
    GoesTo (exec (.tlaunch h lane lo hi lst) s) fun t => WorksOn s t h 0x0902 ∧ Journals s t ∧
      ∃ q, t.chr.launches = s.chr.launches ++ [q] ∧ q.lane = lane.toNat ∧ q.time = (hi ++ lo : BitVec (64 + 64)))

/-- Outside a run an announced command takes effect in the crossing of its acceptance: it completes, its effect stands, and the notice
of effect follows (R407, R410). The entries of a list act in order, so the last one for a target stands. -/
def Obligations.AnnouncedCommandsActAtOnceOutsideARun : Prop :=
  (∀ (h : CmdHdr) (clear count : Dword) (lst : List Byte) (s : State), asks h (16 + lst.length) true s = true → s.armed = false →
    wgmcommitOk clear count lst s = true →
    GoesTo (exec (.wgmcommit h clear count lst) s) fun t => Completes s t h 0x0501 0 ∧ Notices s t h 0x0501 s.cn ∧ Journals s t ∧
      (∀ e, lastOf (wgmEnts lst count.toNat) WgmEnt.key e → (t.tensor e.key).cfg = e.cfg ∧ (t.tensor e.key).rdef = e.rdef ∧
        (clear = 1 → (t.tensor e.key).m = [] ∧ (t.tensor e.key).seen = false ∧ (t.tensor e.key).rNow = e.rdef)) ∧
      (∀ k, (∀ e ∈ wgmEnts lst count.toNat, e.key ≠ k) → t.tensor k = s.tensor k)) ∧
  (∀ (h : CmdHdr) (count : Dword) (lst : List Byte) (s : State), asks h (8 + lst.length) true s = true → s.armed = false →
    ctxcommitOk count lst s = true →
    GoesTo (exec (.ctxcommit h count lst) s) fun t => Completes s t h 0x0502 0 ∧ Notices s t h 0x0502 s.cn ∧ Journals s t ∧
      (∀ e, lastOf (ctxEnts lst count.toNat) CtxEnt.ctx e → (t.ctxOf e.ctx).ctl = e.c.ctl &&& 0xFF9FFFE0 ∧
        (t.ctxOf e.ctx).cal = e.c.cal ∧ (t.ctxOf e.ctx).tick = (s.ctxOf e.ctx).tick ∧ (t.ctxOf e.ctx).done = (s.ctxOf e.ctx).done) ∧
      (∀ x, (∀ e ∈ ctxEnts lst count.toNat, e.ctx ≠ x) → t.ctxOf x = s.ctxOf x)) ∧
  (∀ (h : CmdHdr) (lane cnofs flim : Dword) (s : State), asks h 24 true s = true → s.armed = false →
    lanecommitOk lane cnofs flim = true →
    GoesTo (exec (.lanecommit h lane cnofs flim) s) fun t => Completes s t h 0x0503 0 ∧ Notices s t h 0x0503 s.cn ∧ Journals s t ∧
      t.lane lane.toNat = { s.lane lane.toNat with cnofsAt := some (s.cn, cnofs.extractLsb' 0 24), flim := flim.toNat } ∧
      ∀ l, l ≠ lane.toNat → t.lane l = s.lane l) ∧
  (∀ (h : CmdHdr) (pre post lanes bcnen acclat ctl : Dword) (s : State), asks h 48 true s = true → s.armed = false →
    caparmOk pre post lanes bcnen acclat ctl s = true →
    GoesTo (exec (.caparm h pre post lanes bcnen acclat ctl) s) fun t => Completes s t h 0x0601 0 ∧ Notices s t h 0x0601 s.cn ∧
      Journals s t ∧ t.cap.st = (if pre = 0 then .armed else .prefill) ∧ t.cap.a0 = s.cn ∧ t.cap.lanes = lanes ∧ t.cap.frames = [] ∧
      t.cap.trigSrc = 0 ∧ t.ctr .capMtv = 0 ∧
      ∀ b, b < 16 → (t.beacon b).trig = bcnen.getLsbD b ∧ (t.beacon b).lastCn = 0 ∧ t.ctr (.bcnHit b) = 0) ∧
  (∀ (h : CmdHdr) (s : State), asks h 0 true s = true → s.armed = false →
    GoesTo (exec (.captrig h) s) fun t => Completes s t h 0x0602 0 ∧ Notices s t h 0x0602 s.cn ∧ Journals s t ∧
      t.cap = { s.cap with cands := s.cap.cands ++ [{ t := s.cn, src := 8 }] }) ∧
  (∀ (h : CmdHdr) (beacon base len min ctl : Dword) (lst : List Byte) (s : State), asks h 1064 true s = true → s.armed = false →
    bcnloadOk beacon base len min ctl lst = true →
    GoesTo (exec (.bcnload h beacon base len min ctl lst) s) fun t => Completes s t h 0x0605 0 ∧ Notices s t h 0x0605 s.cn ∧
      Journals s t ∧ (t.beacon beacon.toNat).enabled = ctl.getLsbD 0 ∧ (t.beacon beacon.toNat).trig = ctl.getLsbD 1 ∧
      (t.beacon beacon.toNat).len = len.toNat ∧ (t.beacon beacon.toNat).base = base.toNat ∧
      (t.beacon beacon.toNat).pat = maskOf lst ∧ (t.beacon beacon.toNat).care = maskOf (lst.drop 512) ∧
      ∀ b, b ≠ beacon.toNat → t.beacon b = s.beacon b) ∧
  (∀ (h : CmdHdr) (quay first count : Dword) (lst : List Byte) (s : State), asks h (24 + lst.length) true s = true → s.armed = false →
    envloadOk quay first count lst = true →
    GoesTo (exec (.envload h quay first count lst) s) fun t => Completes s t h 0x0606 0 ∧ Notices s t h 0x0606 s.cn ∧ Journals s t ∧
      (∀ i, i < count.toNat → tget (0, 0) t.chan.env (quay.toNat * 4096 + first.toNat + i) =
        (BitVec.ofNat 32 (leAt lst (8 * i) 4), BitVec.ofNat 32 (leAt lst (8 * i + 4) 4))) ∧
      (∀ k, k < quay.toNat * 4096 + first.toNat ∨ quay.toNat * 4096 + first.toNat + count.toNat ≤ k →
        tget (0, 0) t.chan.env k = tget (0, 0) s.chan.env k)) ∧
  (∀ (h : CmdHdr) (mode lanes : Dword) (lst : List Byte) (s : State), asks h (24 + lst.length) true s = true → s.armed = false →
    logstartOk mode lanes lst s = true →
    GoesTo (exec (.logstart h mode lanes 0 lst) s) fun t => Completes s t h 0x0701 0 ∧ Notices s t h 0x0701 s.cn ∧ Journals s t ∧
      t.log.active = true ∧ t.log.mode = mode.toNat ∧ t.log.lanes = lanes ∧ t.log.p0 = s.cn ∧ t.log.start = some (s.mkLatch s.cn true)) ∧
  (∀ (h : CmdHdr) (mode lanes : Dword) (lst : List Byte) (s : State), asks h (24 + lst.length) false s = true →
    logstartFree mode lanes lst s = true →
    GoesTo (exec (.logstart h mode lanes 1 lst) s) fun t => Completes s t h 0x0701 0 ∧ Journals s t ∧ t.log.active = false ∧
      t.log.atArm = true ∧ t.log.mode = mode.toNat ∧ t.log.lanes = lanes)

/-- In a run the same commands complete and wait for the crossing they announce; until then they change no register of their
chapter (R406, R408). -/
def Obligations.AnnouncedCommandsWaitInARun : Prop :=
  (∀ (h : CmdHdr) (clear count : Dword) (lst : List Byte) (s : State), asks h (16 + lst.length) true s = true → s.armed = true →
    s.keepsLead h 0x0501 = true → wgmcommitOk clear count lst s = true →
    GoesTo (exec (.wgmcommit h clear count lst) s) fun t => WaitsFor s t h 0x0501 (s.target h) ∧ Journals s t ∧ t.wgm = s.wgm) ∧
  (∀ (h : CmdHdr) (count : Dword) (lst : List Byte) (s : State), asks h (8 + lst.length) true s = true → s.armed = true →
    s.keepsLead h 0x0502 = true → ctxcommitOk count lst s = true →
    GoesTo (exec (.ctxcommit h count lst) s) fun t => WaitsFor s t h 0x0502 (s.target h) ∧ Journals s t ∧ t.chan = s.chan) ∧
  (∀ (h : CmdHdr) (lane cnofs flim : Dword) (s : State), asks h 24 true s = true → s.armed = true → s.keepsLead h 0x0503 = true →
    lanecommitOk lane cnofs flim = true →
    GoesTo (exec (.lanecommit h lane cnofs flim) s) fun t => WaitsFor s t h 0x0503 (s.target h) ∧ Journals s t ∧ t.lanes = s.lanes) ∧
  (∀ (h : CmdHdr) (pre post lanes bcnen acclat ctl : Dword) (s : State), asks h 48 true s = true → s.armed = true →
    s.keepsLead h 0x0601 = true → caparmOk pre post lanes bcnen acclat ctl s = true →
    GoesTo (exec (.caparm h pre post lanes bcnen acclat ctl) s) fun t => WaitsFor s t h 0x0601 (s.target h) ∧ Journals s t ∧
      t.cap = s.cap) ∧
  (∀ (h : CmdHdr) (s : State), asks h 0 true s = true → s.armed = true → s.keepsLead h 0x0602 = true →
    GoesTo (exec (.captrig h) s) fun t => WaitsFor s t h 0x0602 (s.target h) ∧ Journals s t ∧ t.cap = s.cap) ∧
  (∀ (h : CmdHdr) (beacon base len min ctl : Dword) (lst : List Byte) (s : State), asks h 1064 true s = true → s.armed = true →
    s.keepsLead h 0x0605 = true → bcnloadOk beacon base len min ctl lst = true →
    GoesTo (exec (.bcnload h beacon base len min ctl lst) s) fun t => WaitsFor s t h 0x0605 (s.target h) ∧ Journals s t ∧
      t.chan = s.chan) ∧
  (∀ (h : CmdHdr) (quay first count : Dword) (lst : List Byte) (s : State), asks h (24 + lst.length) true s = true → s.armed = true →
    s.keepsLead h 0x0606 = true → envloadOk quay first count lst = true →
    GoesTo (exec (.envload h quay first count lst) s) fun t => WaitsFor s t h 0x0606 (s.target h) ∧ Journals s t ∧ t.chan = s.chan) ∧
  (∀ (h : CmdHdr) (mode lanes : Dword) (lst : List Byte) (s : State), asks h (24 + lst.length) true s = true → s.armed = true →
    s.keepsLead h 0x0701 = true → logstartOk mode lanes lst s = true →
    GoesTo (exec (.logstart h mode lanes 0 lst) s) fun t => WaitsFor s t h 0x0701 (s.target h) ∧ Journals s t ∧
      t.log.start = none ∧ t.log.p0 = s.target h ∧ t.chan = s.chan)


/-! ### Runs, pauses, planes -/

/-- The run begins at tick 0 of its first crossing, with plane A active everywhere, and fills until L has passed (R13, R156, R185);
a stop ends it, by command or by a fault (R13, R353), with the Almanac's waiting bursts, table writes among them, complete (07 R239; at once: DESIGN
CHOICE, log entry 78) and the array's crossing control flushed (17 R469); the fill ends (R156). -/
def Obligations.RunStartsFillsAndStops : Prop :=
  (∀ (s : State) (w : Waiting), s.startDue = true → s.run.replay = false → s.pair.rejoin = none → dueOnly s 0x0201 s.cn w = true →
    GoesTo (exec .runStart s) fun t => t.run.phase = .running ∧ t.run.filling = true ∧
      t.run.fillEnd = cnAdd s.cn (s.hdr.rofs + s.hdr.a + 1) ∧ t.tick = 0 ∧ t.planes.actEp = 0 ∧
      (∀ k, (t.cellAt k).sel = false ∧ (t.cellAt k).epAct = 0 ∧ (t.cellAt k).epSh = 1 ∧ (t.cellAt k).flag = false ∧
        (t.cellAt k).acc = []) ∧ t.mem = s.mem ∧ Notified s t w s.cn ∧ Leaves s t w) ∧
  (∀ s : State, s.armed = true → s.run.faultAt ≠ some s.cn → s.run.stopAt = some s.cn →
    GoesTo (exec .runStopEffect s) fun t => t.armed = false ∧ t.run.reason = .command ∧ t.kly.waiting = [] ∧ t.out.fdec = 0 ∧
      t.arr.flight = [] ∧ t.planes.sh = .empty ∧ t.clk.alock = false ∧ t.alm.hostQ = [] ∧ t.alm.catchUp = [] ∧ t.alm.writes = [] ∧
      t.shows .clk 4 = true ∧
      (s.alm.hostQ = [] → s.alm.catchUp = [] → s.alm.writes = [] → (∀ x ∈ s.alm.swaps, x.done = false) → s.alm.fixes = [] → t.mem = s.mem)) ∧
  (∀ s : State, s.armed = true → s.run.faultAt = some s.cn →
    GoesTo (exec .runStopEffect s) fun t => t.armed = false ∧ t.run.reason = .fault ∧ t.pkg.alert = true ∧ t.kly.waiting = []) ∧
  (∀ s : State, s.live = true → s.run.filling = true → cnLe s.run.fillEnd s.cn = true →
    exec .runFillEnd s = .next { s with run := { s.run with filling := false, resumed := false } }) ∧
  (∀ s : State, s.alm.trained = false → s.run.phase = .armed ∨ (s.run.phase = .paused ∧ s.run.resumeQ ≠ none) →
    exec .loadedTrainingComplete s = .next { s with alm := { s.alm with trained := true } })

/-- A pause takes its latch as the channel stage would release P, ends its drain as PAUSED, and a resume at Q goes on from it with
the presented number of P (R386 to R388); after a fault stop the device arms the same image anew (R353). -/
def Obligations.PauseResumeAndRestart : Prop :=
  (∀ (s : State) (p : CN), s.run.phase = .running → s.run.pauseAt = some p → s.cn = cnAdd p s.hdr.rofs →
    GoesTo (exec .pauseStart s) fun t => t.run = { s.run with phase := .draining, pcn := p, lastP := p } ∧
      t.kly.pause = some (s.mkLatch p false) ∧
      t = { s with run := t.run, kly := { s.kly with pause := t.kly.pause }, log := t.log }) ∧
  (∀ s : State, s.run.phase = .draining → cnLe (cnAdd s.run.pcn (s.hdr.rofs + s.hdr.a + 1)) s.cn = true →
    GoesTo (exec .paused s) fun t => t.run = { s.run with phase := .paused, pauseAt := none, pausedAt := s.cn } ∧
      t.arr = s.arr ∧ t.chan = s.chan ∧ ∀ w, dueOnly s 0x0203 s.run.pcn w = true → Notified s t w s.cn ∧ Leaves s t w) ∧
  (∀ (s : State) (l : Latch) (w : Waiting), s.run.resumeQ = some s.cn → s.alm.trained = true → dueOnly s 0x0204 s.cn w = true →
    s.kly.pause = some l → s.atBoundary = true → s.dueNow 0x0501 s.cn = [] → s.dueNow 0x0502 s.cn = [] →
    GoesTo (exec (.resumeEffect true) s) fun t => t.run.phase = .running ∧ t.run.filling = true ∧ t.run.resumeQ = none ∧
      t.run.first = s.cn ∧ t.pcn = s.run.pcn - s.run.delta ∧ t.kly.pause = none ∧ t.tick = 0 ∧ t.planes.actEp = l.ep ∧
      Notified s t w s.cn ∧ Leaves s t w) ∧
  (∀ s : State, s.run.resumeQ = some s.cn →
    GoesTo (exec (.resumeEffect false) s) fun t => t.run = { s.run with resumeQ := none } ∧
      ∀ w, dueOnly s 0x0204 s.cn w = true → Leaves s t w) ∧
  (∀ s : State, s.restartDue = true → s.pairMode = false → s.pwr.sst = 0 → s.boot.owned = true → s.boot.brdOk = true →
    s.run.slot < 64 → s.run.pl ≤ 2 → s.armBad s.run.slot s.run.pl s.run.debug = none →
    GoesTo (exec .autoRestart s) fun t => t.run.phase = .armed ∧ t.run.first = cnAdd s.cn (s.lead 0x0201 40) ∧
      t.run.slot = s.run.slot ∧ t.run.pl = s.run.pl ∧ t.run.seed = s.run.seed ∧ t.run.debug = s.run.debug ∧ Journals s t ∧
      ∃ w, t.kly.waiting = s.kly.waiting ++ [w] ∧ w.mbx = 253)

/-- A fill ends with the image in every shadow plane and the active ones untouched (R186, R188); a switch sends a waypoint into every
root with the channel stage of W (R192) and completes with the slots exchanged and every shadow epoch one ahead (R199). -/
def Obligations.PlanesFillAndSwitch : Prop :=
  (∀ s : State, s.fillDue = true →
    GoesTo (exec .fillComplete s) fun t => t.planes = { s.planes with sh := .ready } ∧
      (∀ k, (t.cellAt k).shadow = (tget [MInstr.idle] (s.imgAt s.planes.shSlot).prog k, tget [] (s.imgAt s.planes.shSlot).wgt k) ∧
        (t.cellAt k).active = (s.cellAt k).active ∧ (t.cellAt k).ws = (s.cellAt k).ws) ∧
      t = { s with arr := { s.arr with cells := t.arr.cells }, planes := t.planes }) ∧
  (∀ (s : State) (w : CN), s.run.phase = .running → s.planes.wpSent = false → s.planes.swW = some w → w = cnSub s.cn s.hdr.rofs →
    GoesTo (exec .waypointInjection s) fun t => t.planes = { s.planes with wpSent := true } ∧
      t.arr.flight.map Flight.tok =
        s.arr.flight.map Flight.tok ++ List.replicate s.img.roots.length { tag := 3, epoch := s.planes.actEp + 1, data := 0 } ∧
      t = { s with arr := { s.arr with flight := t.arr.flight }, planes := t.planes }) ∧
  (∀ (s : State) (w : CN) (v : Waiting), s.live = true → s.planes.wpSent = true → s.planes.swW = some w →
    s.cn = cnAdd w (s.hdr.rofs + s.hdr.a + 2) → dueOnly s 0x0303 w v = true →
    GoesTo (exec .switchComplete s) fun t => t.planes.sh = .ready ∧ t.planes.actSlot = s.planes.shSlot ∧
      t.planes.shSlot = s.planes.actSlot ∧ t.planes.actEp = s.planes.actEp + 1 ∧ t.planes.swW = none ∧
      (∀ k, (t.cellAt k).epSh = (t.cellAt k).epAct + 1 ∧
        ((s.cellAt k).onTree = true → (t.cellAt k).epAct = (s.cellAt k).epAct) ∧
        ((s.cellAt k).onTree = false → (t.cellAt k).epAct = s.planes.actEp + 1)) ∧ Notified s t v s.cn ∧ Leaves s t v)

/-! ### The Almanac -/

/-- A load writes the staged rows and leaves the table loaded (R235; the staged order, row j at OFFSET + 32 j and the default row last, and that the
table is that of the image admitted last, are DESIGN CHOICE, log entry 28); a write completes when its bursts have gone (R225); a swap changes
the active face of its table alone (R237), and its catch-up brings the other face up to date (R238). -/
def Obligations.TablesLoadWriteAndSwap : Prop :=
  (∀ (s : State) (tid : Nat) (w : Waiting) (d : TblDesc × List CopyRec), tid < 4096 → s.longFor 0x0401 tid = some w →
    s.loadDesc tid = some d → s.copiesRun d = true →
    GoesTo (exec (.tableLoadComplete tid) s) fun t => Ends s t w 0 ∧ (t.tab tid).desc = some d ∧
      (t.tab tid).loaded = (if (s.tab tid).desc = some d then (s.tab tid).loaded else 0) ||| BitVec.ofNat 2 (w.req.opd 1).toNat ∧
      (t.tab tid).upd = [] ∧ (t.tab tid).active = (s.tab tid).active ∧
      ∀ c, d.2 = [c] → d.1.lpddr = false → w.req.opd 1 = 1 → t.mem = s.mem ∧
        ∀ j, j ≤ d.1.rows → t.lineData (c.lineRef false j) = tgets 0 s.mem (w.staged (w.req.opd 2).toNat + 32 * j) 32) ∧
  (∀ (s : State) (tid : Nat) (w : Waiting), tid < 4096 → s.longFor 0x0402 tid = some w →
    (s.live = false ∨ (s.writeWaits tid = false ∧
      ((s.tab tid).lpddr = false ∨ (s.alm.writes.filter fun b => b.jseq == w.jseq) = []))) →
    GoesTo (exec (.tableWriteComplete tid) s) fun t => Ends s t w 0 ∧
      t.alm.writes = (s.alm.writes.filter fun b => b.jseq != w.jseq) ∧ t.alm.tabs = s.alm.tabs ∧
      ∀ b r, (s.alm.writes.filter fun b => b.jseq == w.jseq) = [b] → s.burstRef b = some r → b.data.length = 32 →
        t.lineData r = b.data) ∧
  (∀ (s : State) (tid : Nat) (w : Waiting), tid < 4096 → s.live = true → s.swapDue tid = some w → (w.req.opd 0).toNat = tid →
    GoesTo (exec (.swapEffect tid) s) fun t => (t.tab tid) = { s.tab tid with active := !(s.tab tid).active } ∧
      (∀ k, k ≠ tid → t.tab k = s.tab k) ∧ t.alm.swapReg = (0 : BitVec 4) ++ BitVec.ofNat 12 tid ++ w.at_ ∧
      (∀ q, q < 4 → t.shows (.alm q) 5 = true) ∧ (∀ x ∈ t.alm.swaps, x.tid = tid → x.done = true) ∧ t.mem = s.mem ∧
      t.sram = s.sram ∧ Notified s t w w.at_ ∧ Leaves s t w) ∧
  (∀ (s : State) (tid : Nat) (x : Swap), tid < 4096 → s.live = true → x ∈ s.alm.swaps → x.tid = tid → x.done = true →
    cnLt (cnAdd x.a (s.hdr.rofs + s.hdr.a + 16)) s.cn = true →
    GoesTo (exec (.catchUp tid) s) fun t => (∀ y ∈ t.alm.swaps, y.tid ≠ tid) ∧ (t.tab tid).active = (s.tab tid).active ∧
      ((∀ f ∈ s.alm.fixes, f.tid ≠ tid) → t.mem = s.mem ∧ ((s.tab tid).lpddr = true → t.sram = s.sram)) ∧
      ((s.tab tid).lpddr = true →
        t.alm.catchUp = s.alm.catchUp ++ (s.tab tid).bursts 0 tid (!(s.tab tid).active) (s.tab tid).upd))

/-- The slots of the tide table, where it runs and the Quay's engine and LPDDR6 interface are clocked (R219, 17 R462): a write-class slot carries a fill burst, or else a table write, or else a catch-up, on a bank that keeps the
limits (R186, R224; the bank of a fill burst is DESIGN CHOICE, log entry 78); a refresh goes to the bank that the phase names, and its
data beats carry a read of a stream replay (14 R394; which subchannel's is DESIGN CHOICE, log entry 43) or else a host burst (R218, R223, R224); a
retraining slot measures one rank and the next time the other (R233, R234). -/
def Obligations.TideSlotsDoTheirWork : Prop :=
  (∀ (s : State) (sub pos : Nat), sub < 32 → (pos = 8 ∨ pos = 9) → s.slotsRun sub = true →
    tideClass (s.img.tideAt sub (s.cn.toNat % 32) pos) = 2 →
    (s.planes.sh = .filling →
      (∀ rb, ((List.range 32).find? fun k => s.bankFree sub k pos) = some rb → GoesTo (exec (.writeClassSlot sub pos) s) fun t =>
        t = { s with planes := { s.planes with fillPos := min (s.planes.fillPos + 32) s.fillBytes }
                     alm := { s.alm with acts := t.alm.acts } } ∧
        ({ sub := sub, bank := rb, cn := s.cn, pos := pos } : Act) ∈ t.alm.acts) ∧
      (((List.range 32).find? fun k => s.bankFree sub k pos) = none → exec (.writeClassSlot sub pos) s = .next s)) ∧
    (∀ b rb, s.planes.sh ≠ .filling → s.pickBurst sub pos (s.alm.writes.filter fun b => !s.writeWaits b.tid) = some (b, rb) →
      GoesTo (exec (.writeClassSlot sub pos) s) fun t => t.alm.writes = s.alm.writes.erase b ∧ t.alm.catchUp = s.alm.catchUp ∧
        ({ sub := sub, bank := rb, cn := s.cn, pos := pos } : Act) ∈ t.alm.acts ∧
        ∀ r, s.burstRef b = some r → b.data.length = 32 → t.lineData r = b.data) ∧
    (∀ b rb, s.planes.sh ≠ .filling → s.pickBurst sub pos (s.alm.writes.filter fun b => !s.writeWaits b.tid) = none →
      s.pickBurst sub pos s.alm.catchUp = some (b, rb) →
      GoesTo (exec (.writeClassSlot sub pos) s) fun t => t.alm.writes = s.alm.writes ∧ t.alm.catchUp = s.alm.catchUp.erase b)) ∧
  (∀ (s : State) (sub : Nat), sub < 32 → s.slotsRun sub = true →
    GoesTo (exec (.refreshSlot sub) s) fun t =>
      tget 0 t.alm.refresh sub = s.cn.toNat % 32 % 2 * 16 + s.cn.toNat % 32 / 2 ∧
      ((∀ b ∈ s.alm.hostQ, b.bank sub = none) → t = { s with alm := { s.alm with refresh := t.alm.refresh } }) ∧
      (s.replaySlot sub = true → t = { s with alm := { s.alm with refresh := t.alm.refresh } }) ∧
      (∀ b rb, s.run.replay = false → s.alm.hostQ = [b] → b.bank sub = some rb → s.bankFree sub rb 10 = true →
        ({ sub := sub, bank := rb, cn := s.cn, pos := 10 } : Act) ∈ t.alm.acts ∧
        (2 ≤ b.left → t.alm.hostQ = [{ b with left := b.left - 1 }] ∧ t.mem = s.mem) ∧
        (b.left < 2 → t.alm.hostQ = [] ∧ (b.read = true → t.mem = s.mem) ∧
          (b.read = false → s.memOn b.addr = true → s.wprot b.addr = false → tgets 0 t.mem b.addr b.data.length = b.data)))) ∧
  (∀ (s : State) (sub pos : Nat) (width height : BitVec 8), sub < 32 → (pos = 8 ∨ pos = 9) → s.slotsRun sub = true →
    tideClass (s.img.tideAt sub (s.cn.toNat % 32) pos) = 3 →
    let q := sub / 8
    let rank := tget 0 s.alm.trainRk sub
    let key := q * 16 + (sub % 8 * 2 + rank)
    let lim := tget 0x241A281C s.alm.mlimit q
    GoesTo (exec (.retrainingStep sub pos width height) s) fun t => tget 0 t.alm.trainRk sub = 1 - rank ∧
      (∃ m, tfind t.alm.margin key = some m ∧ m.extractLsb' 24 8 = width ∧ m.extractLsb' 16 8 = height ∧
        ∀ o, tfind s.alm.margin key = some o →
          (m.extractLsb' 8 8).toNat = min (o.extractLsb' 8 8).toNat width.toNat ∧
          (m.extractLsb' 0 8).toNat = min (o.extractLsb' 0 8).toNat height.toNat) ∧
      (width.toNat < (lim.extractLsb' 24 8).toNat → t.shows (.alm q) 3 = true) ∧ t.mem = s.mem)

/-- A key is served once, from the copy that its slot or tick names; the result goes to the port of its request, NULL where no row
contributes (R207, R214, R215, R221, R228); engines and ports act where they are clocked (17 R462). A direct key at or beyond ROWS counts as read (DESIGN
CHOICE, log entry 79). -/
def Obligations.AlmanacServesKeysAndAnswers : Prop :=
  (∀ (s : State) (sub pos : Nat) (noise : BitVec 288) (r : ReqRec) (t : TblDesc) (cp : CopyRec) (z : Nat) (x : KeySt),
    let w := s.img.tideAt sub (s.cn.toNat % 32) pos
    let c := s.lookupInput r w
    sub < 32 → pos < 8 → s.slotsRun sub = true → tideClass w = 0 → s.img.almt.reqs[tideReq w]? = some r →
    s.img.table r.tid = some t →
    ((s.img.copiesOf t).find? fun c => c.1.bank == tideBank w && (c.1.place.extractLsb' 0 5).toNat == sub &&
      c.1.place.getLsbD 5 == decide (pos % 2 = 1)) = some (cp, z) →
    s.holdsKey (tideReq w) (tideKey w) c x →
    GoesTo (exec (.almanacLookupSlot sub pos noise) s) fun u =>
      ServesKey s u (tideReq w) (tideKey w) c t cp x noise ∧
      (t.lpddr = true → ∃ f, u.alm.found = s.alm.found ++ [f] ∧ f.c = c)) ∧
  (∀ (s : State) (req key : Nat) (noise : BitVec 288) (r : ReqRec) (t : TblDesc) (sp : Word) (cp : CopyRec) (c : CN) (x : KeySt),
    req < 8192 → key < 16 → s.live = true → s.img.almt.reqs[req]? = some r → s.img.table r.tid = some t →
    r.keys[key]? = some sp → s.img.almt.copies[(sp.extractLsb' 0 16).toNat]? = some cp →
    r.inputOf s.hdr.n (r.tau0 + key + keyRead sp) s.cn s.tick = some c → t.lpddr = false → s.quayRuns (cp.lineRef false 0).quay = true → s.holdsKey req key c x →
    GoesTo (exec (.sramRead req key noise) s) fun u => ServesKey s u req key c t cp x noise ∧ u.alm.found = s.alm.found) ∧
  (∀ (s : State) (req : Nat) (r : ReqRec) (t : TblDesc) (c : CN) (p : Pool),
    req < 8192 → s.live = true → s.img.almt.reqs[req]? = some r → s.img.table r.tid = some t → s.portRuns r.edge = true →
    r.inputOf s.hdr.n (r.tau0 + t.d * s.hdr.n - 3) s.cn s.tick = some c → s.pool req c = some p → p.sent = false →
    GoesTo (exec (.almanacResult req) s) fun u =>
      (∃ l : List Token, u.arr.flight.map Flight.tok = s.arr.flight.map Flight.tok ++ l ∧ l.length = t.rw ∧
        (∀ k ∈ l, k.tag = if (∀ i, i < r.keys.length → ((tfind p.keys i).bind KeySt.row) = none) then 2 else 1) ∧
        ∀ k ∈ l, ∀ x, tfind p.keys 0 = some x → x.kind ≠ .missing → k.epoch = x.epoch) ∧
      u.pool req c = some { p with sent := true } ∧
      u = { s with arr := { s.arr with flight := u.arr.flight }, alm := { s.alm with pools := u.alm.pools } })


/-! ### Announced effects, admission, the crossing -/

/-- At the crossing that a waiting command names its effect stands and its notice follows (R142, R257, R264, R266, R273, R277, R304,
R390, R409, R410). That a capture's arming and its notice stand in device crossing A0 + R_OFS is DEDUCED (log entry 72), and so is the step in which a
context commit takes effect (log entry 90); commits that meet a resume follow it or go before it (PauseResumeAndRestart). -/
def Obligations.AnnouncedEffectsApply : Prop :=
  (∀ (s : State) (w : Waiting), dueOnly s 0x0501 s.cn w = true → s.run.resumeQ ≠ some s.cn →
    GoesTo (exec .wgmCommitApply s) fun t => Notified s t w s.cn ∧ Leaves s t w ∧
      (∀ e, lastOf (wgmEnts (w.req.list 2) (w.req.opd 1).toNat) WgmEnt.key e →
        (t.tensor e.key).cfg = e.cfg ∧ (t.tensor e.key).rdef = e.rdef ∧
        (w.req.opd 0 = 1 → (t.tensor e.key).m = [] ∧ (t.tensor e.key).seen = false ∧ (t.tensor e.key).rNow = e.rdef)) ∧
      (∀ k, (∀ e ∈ wgmEnts (w.req.list 2) (w.req.opd 1).toNat, e.key ≠ k) → t.tensor k = s.tensor k)) ∧
  (∀ (s : State) (w : Waiting), dueOnly s 0x0502 s.cn w = true → s.run.resumeQ ≠ some s.cn →
    GoesTo (exec .contextCommitApply s) fun t => Notified s t w s.cn ∧ Leaves s t w ∧
      (∀ e, lastOf (ctxEnts (w.req.list 1) (w.req.opd 0).toNat) CtxEnt.ctx e → (t.ctxOf e.ctx).ctl = e.c.ctl &&& 0xFF9FFFE0 ∧
        (t.ctxOf e.ctx).cal = e.c.cal ∧ (t.ctxOf e.ctx).done = (s.ctxOf e.ctx).done) ∧
      (∀ x, (∀ e ∈ ctxEnts (w.req.list 1) (w.req.opd 0).toNat, e.ctx ≠ x) → t.ctxOf x = s.ctxOf x)) ∧
  (∀ (s : State) (lane : Nat) (w : Waiting), lane < 64 →
    ((s.dueNow 0x0503 s.cn).filter fun w => w.req.opd 0 == BitVec.ofNat 64 lane) = [w] →
    GoesTo (exec (.cnofsApply lane) s) fun t => Notified s t w s.cn ∧ Leaves s t w ∧
      t.lane lane = { s.lane lane with cnofsAt := some (s.cn, (w.req.opd 1).extractLsb' 0 24), flim := (w.req.opd 2).toNat } ∧
      ∀ l, l ≠ lane → t.lane l = s.lane l) ∧
  (∀ (s : State) (w : Waiting), dueOnly s 0x0601 (cnSub s.cn s.hdr.rofs) w = true →
    s.dueNow 0x0605 (cnSub s.cn s.hdr.rofs) = [] → s.cap.st = .idle →
    GoesTo (exec .captureArmApply s) fun t => Notified s t w s.cn ∧ Leaves s t w ∧
      t.cap.st = (if w.req.opd 0 = 0 then .armed else .prefill) ∧ t.cap.a0 = cnSub s.cn s.hdr.rofs ∧ t.cap.lanes = w.req.opd 2 ∧
      t.cap.frames = [] ∧ t.ctr .capMtv = 0 ∧ ∀ b, b < 16 → (t.beacon b).trig = (w.req.opd 3).getLsbD b ∧ (t.beacon b).lastCn = 0) ∧
  (∀ (s : State) (w : Waiting), dueOnly s 0x0602 (cnSub s.cn s.hdr.rofs) w = true →
    GoesTo (exec .klowynTrigger s) fun t => Notified s t w s.cn ∧ Leaves s t w ∧
      t.cap = { s.cap with cands := s.cap.cands ++ [{ t := cnSub s.cn s.hdr.rofs, src := 8 }] }) ∧
  (∀ (s : State) (w : Waiting), dueOnly s 0x0605 (cnSub s.cn s.hdr.rofs) w = true →
    s.dueNow 0x0601 (cnSub s.cn s.hdr.rofs) = [] →
    GoesTo (exec .beaconLoadApply s) fun t => Notified s t w s.cn ∧ Leaves s t w ∧
      (t.beacon (w.req.opd 0).toNat).pat = maskOf (w.req.list 5) ∧
      (t.beacon (w.req.opd 0).toNat).care = maskOf ((w.req.list 5).drop 512) ∧
      (t.beacon (w.req.opd 0).toNat).enabled = (w.req.opd 4).getLsbD 0 ∧
      (t.beacon (w.req.opd 0).toNat).trig = (w.req.opd 4).getLsbD 1 ∧
      ∀ b, b ≠ (w.req.opd 0).toNat → t.beacon b = s.beacon b) ∧
  (∀ (s : State) (w : Waiting), dueOnly s 0x0606 (cnSub s.cn s.hdr.rofs) w = true →
    GoesTo (exec .envelopeLoadApply s) fun t => Notified s t w s.cn ∧ Leaves s t w ∧
      let base := (w.req.opd 0).toNat * 4096 + (w.req.opd 1).toNat
      let n := (w.req.opd 2).toNat
      (∀ i, i < n → tget (0, 0) t.chan.env (base + i) =
        (BitVec.ofNat 32 (leAt (w.req.list 3) (8 * i) 4), BitVec.ofNat 32 (leAt (w.req.list 3) (8 * i + 4) 4))) ∧
      (∀ k, k < base ∨ base + n ≤ k → tget (0, 0) t.chan.env k = tget (0, 0) s.chan.env k)) ∧
  (∀ (s : State) (w : Waiting), s.armLogDue = false → s.log.active = true → s.log.atArm = false → s.live = true →
    dueOnly s 0x0701 (cnSub s.cn s.hdr.rofs) w = true → w.req.opd 2 = 0 →
    GoesTo (exec .logbookStart s) fun t => Notified s t w s.cn ∧ Leaves s t w ∧ t.log.p0 = cnSub s.cn s.hdr.rofs ∧
      t.run = { s.run with lastP := cnSub s.cn s.hdr.rofs } ∧ t.log.seed = s.run.seed ∧
      t.log.start = some (s.mkLatch (cnSub s.cn s.hdr.rofs) true)) ∧
  (∀ s : State, s.log.active = true → s.log.atArm = true → s.live = true → s.cn = s.run.first →
    GoesTo (exec .logbookStart s) fun t => t.log.p0 = s.run.first ∧ t.log.atArm = false ∧ t.log.start = none ∧
      t.log.seed = s.run.seed ∧ t = { s with log := t.log })

/-- The oldest admission ends: its slot holds the image under the next generation number, which RESULT gives (R183); where a run has
taken the slot meanwhile the library stays as it is (R184). -/
def Obligations.AdmissionFillsItsSlot : Prop :=
  ∀ (s : State) (a : Admission) (rest : List Admission), s.kly.admits = a :: rest →
    (s.slotInUse a.slot = false → GoesTo (exec .admissionComplete s) fun t =>
      Ends s t a.w (BitVec.ofNat 64 (((s.libSlot a.slot).gen + 1) ++ BitVec.ofNat 6 a.slot : BitVec 16).toNat) ∧
      (t.libSlot a.slot).used = true ∧ (t.libSlot a.slot).gen = (s.libSlot a.slot).gen + 1 ∧ (t.libSlot a.slot).img = a.img ∧
      (t.libSlot a.slot).meas = a.meas ∧ (t.libSlot a.slot).frame = a.frame ∧ (∀ k, k ≠ a.slot → t.libSlot k = s.libSlot k) ∧
      t.kly.admits = rest) ∧
    (s.slotInUse a.slot = true → GoesTo (exec .admissionComplete s) fun t => t.kly.lib = s.kly.lib ∧ t.kly.admits = rest ∧
      t.kly.longs = s.kly.longs.filter fun w => w.jseq != a.w.jseq || w.mbx != a.w.mbx)

/-- CN counts on while MCLK is good, the triggers and reads of the crossing before are settled, and the array and memory stay; without
MCLK nothing happens (R10, R228, R266). -/
def Obligations.CrossingStartCounts : Prop :=
  (∀ s : State, s.clk.mclkOk = true → s.run.replay = false →
    GoesTo (exec .crossingStart s) fun t => t.cn = s.cn + 1 ∧ t.tick = 0 ∧ t.cap.cands = [] ∧ t.alm.found = [] ∧ t.arr = s.arr ∧
      t.mem = s.mem ∧ t.sram = s.sram ∧ t.wgm = s.wgm ∧ t.lanes = s.lanes ∧ t.run.phase = s.run.phase) ∧
  (∀ s : State, s.clk.mclkOk = false → exec .crossingStart s = .next s)

/-! ### Lanes -/

/-- A codeword is corrected and counted or lost (R284); a marker gives lock and the numbering, a wrong LID takes it away (R286, R288);
lock is lost after three missed markers or eight lost codewords (R286); a burst wakes the receiver (R303), not in the clock safe state (17 R465). That it
leaves a lane alone that waits for none is the model's convention (DESIGN CHOICE, log entry 7). -/
def Obligations.LanesLockAndReceive : Prop :=
  (∀ (s : State) (lane : Nat) (syms : List Nat), lane < 64 → syms.length = 173 → (s.lane lane).lock = true →
    (∀ w, gfLane.decode 8 (syms.map (· % 1024)) = some w → GoesTo (exec (.codewordReceive lane syms) s) fun t =>
      t.ctr (.lnk lane 0) = satAdd (s.ctr (.lnk lane 0)) (symDiff (syms.map (· % 1024)) w) ∧ (t.lane lane).ueRun = 0 ∧
      (∀ l, l ≠ lane → t.lane l = s.lane l) ∧ t.evts = s.evts) ∧
    (gfLane.decode 8 (syms.map (· % 1024)) = none → GoesTo (exec (.codewordReceive lane syms) s) fun t =>
      t.ctr (.lnk lane 1) = satAdd (s.ctr (.lnk lane 1)) 1 ∧ (t.lane lane).ueRun = (s.lane lane).ueRun + 1 ∧
      t.shows (.lnk lane) 0 = true ∧ ∀ l, l ≠ lane → t.lane l = s.lane l)) ∧
  (∀ (s : State) (lane : Nat) (p : Dword) (gap : Nat), lane < 64 → (p.extractLsb' 0 24) = 0xF628B4#24 → (s.lane lane).lock = false →
    (((s.lane lane).burst = true ∧ 66 * gap ≤ 2048 * (s.lane lane).ui) ∨
      (∃ m, (s.lane lane).cand = some m ∧ gap = 16384 ∧ (p.extractLsb' 24 5).toNat = (m + 1) % 25)) →
    ((s.lane lane).explid = 0 ∨ p.extractLsb' 32 8 = (s.lane lane).explid →
      GoesTo (exec (.alignmentMarker lane p gap) s) fun t => (t.lane lane).lock = true ∧ (t.lane lane).anchor = true ∧
        (t.lane lane).lid = p.extractLsb' 32 8 ∧ (t.lane lane).nextM = ((p.extractLsb' 24 5).toNat + 1) % 25 ∧
        (t.lane lane).nextX.extractLsb' 0 24 = p.extractLsb' 40 24 + (t.lane lane).cnofs ∧ (t.lane lane).burst = false) ∧
    ((s.lane lane).explid ≠ 0 → p.extractLsb' 32 8 ≠ (s.lane lane).explid →
      GoesTo (exec (.alignmentMarker lane p gap) s) fun t => (t.lane lane).lock = false ∧ t.shows (.lnk lane) 7 = true ∧
        (t.lane lane).lid = p.extractLsb' 32 8)) ∧
  (∀ (s : State) (lane : Nat) (p : Dword) (gap : Nat), lane < 64 → (p.extractLsb' 0 24) = 0xF628B4#24 → (s.lane lane).lock = false →
    (s.lane lane).burst = false → (s.lane lane).cand = none →
    exec (.alignmentMarker lane p gap) s = .next (s.setLane lane { s.lane lane with cand := some (p.extractLsb' 24 5).toNat })) ∧
  (∀ (s : State) (lane : Nat), lane < 64 → (s.lane lane).lock = true → (3 ≤ (s.lane lane).missed ∨ 8 ≤ (s.lane lane).ueRun) →
    GoesTo (exec (.lockLoss lane) s) fun t => (t.lane lane).lock = false ∧ (t.lane lane).anchor = false ∧
      (t.lane lane).blocks = [] ∧ t.shows (.lnk lane) 4 = true ∧ (∀ l, l ≠ lane → t.lane l = s.lane l) ∧
      ∀ w ∈ t.kly.longs, w.req.op = 0x0A04 → w.req.opd 0 ≠ BitVec.ofNat 64 lane) ∧
  (∀ (s : State) (lane : Nat), lane < 64 → (s.lane lane).wake = false ∨ s.clk.safe = true → exec (.trainingBurst lane) s = .next s) ∧
  (∀ (s : State) (lane : Nat), lane < 64 → (s.lane lane).wake = true → s.clk.safe = false →
    GoesTo (exec (.trainingBurst lane) s) fun t => (t.lane lane).burst = true ∧ (t.lane lane).eirx = false ∧
      (t.lane lane).lock = false ∧ (t.lane lane).cfg = (s.lane lane).cfg ∧ (∀ l, l ≠ lane → t.lane l = s.lane l) ∧
      t = { s with lanes := t.lanes }) ∧
  (∀ (s : State) (lane : Nat) (m : RxBlk) (body tl : List RxBlk), lane < 64 →
    let x := s.lane lane
    x.lock = true → x.anchor = true → x.dmg = false → (x.role = 1 ∨ x.role = 2) → x.blocks = m :: (body ++ tl) → m.isMark = true →
    (∀ b ∈ body, b.isData = true) → body.length = x.blen - 1 → (∀ b, tl.head? = some b → b.isData = false) →
    ((tget [] s.chan.ring lane).head?.map fun e => cnLe x.nextX e.x).getD false = false →
    cnLt m.1 (cnSub (cnAdd x.nextX x.rofs) 8) = false → (x.buf.any fun g => decide (g.x = x.nextX)) = false →
    GoesTo (exec (.crossingFrameReceive lane) s) fun t => (t.lane lane).nextX = x.nextX + 1 ∧ (t.lane lane).blocks = tl ∧
      ∃ f, (t.lane lane).buf = x.buf ++ [f] ∧ f.x = x.nextX ∧ f.mask = 0 ∧ f.pay.extractLsb' 0 64 = m.pay)

/-- A frame is released ROFS crossings after its number: what is held reaches the payload ring with its slack, what has not arrived is
late and wholly lost (R291, R294, 01 R32). The Sextant records a measurement and its minima since arming, warns below a warning limit, and
raises a lane fault at the second measurement in a row below a hard limit (R301, R306). -/
def Obligations.LaneReleasesAndMargins : Prop :=
  (∀ (s : State) (lane : Nat), lane < 64 → (s.lane lane).role = 1 → s.releaseDue lane = true → s.run.replay = false →
      let n := cnSub s.cn (s.lane lane).rofs
      (∀ f, ((s.lane lane).buf.find? fun f => decide (f.x = n)) = some f → f.mask = 0 →
        GoesTo (exec (.frameRelease lane) s) fun t =>
          tget [] t.chan.ring lane = ({ x := n, pay := { data := f.pay.setWidth 1472, lost := 0 } } :: tget [] s.chan.ring lane).take 16 ∧
          (t.lane lane).slackLast = BitVec.ofNat 16 (min ((s.cn - f.cn).toNat * s.hdr.n - f.tick) 65535) ∧
          (∀ g ∈ (t.lane lane).buf, cnLe g.x n = false) ∧ t.ctr (.lnk lane 2) = s.ctr (.lnk lane 2)) ∧
      (((s.lane lane).buf.find? fun f => decide (f.x = n)) = none → (s.lane lane).lock = true → (s.lane lane).anchor = true →
        cnLe (s.lane lane).nextX n = true →
        GoesTo (exec (.frameRelease lane) s) fun t =>
          tget [] t.chan.ring lane = ({ x := n, pay := { data := 0, lost := BitVec.allOnes 1472 } } :: tget [] s.chan.ring lane).take 16 ∧
          t.ctr (.lnk lane 3) = satAdd (s.ctr (.lnk lane 3)) 1 ∧ t.ctr (.lnk lane 2) = satAdd (s.ctr (.lnk lane 2)) 1 ∧
          t.shows (.lnk lane) 1 = true ∧ t.shows .runLat 0 = true)) ∧
  (∀ (s : State) (lane : Nat) (w h : BitVec 8), lane < 64 → s.armed = true → (s.lane lane).role ≠ 0 →
      let x := s.sextOf lane
      GoesTo (exec (.sextantMeasurement lane w h) s) fun t =>
        (t.sextOf lane).margin.extractLsb' 24 8 = w ∧ (t.sextOf lane).margin.extractLsb' 16 8 = h ∧ (t.sextOf lane).seen = true ∧
        (x.seen = true → ((t.sextOf lane).margin.extractLsb' 8 8).toNat = min (x.margin.extractLsb' 8 8).toNat w.toNat ∧
          ((t.sextOf lane).margin.extractLsb' 0 8).toNat = min (x.margin.extractLsb' 0 8).toNat h.toNat) ∧
        (w.toNat < x.wwarn → t.shows (.sxt lane) 0 = true) ∧
        (w.toNat < x.whard → x.streak ≠ 0 → t.shows (.sxt lane) 1 = true ∧ t.shows (.lnk lane) 5 = true) ∧
        (x.whard ≤ w.toNat → x.hhard ≤ h.toNat → (t.sextOf lane).streak = 0))

/-! ### Channels and the wake buffer -/

/-- The channel stage begins the record of input crossing CN - R_OFS and drives its tokens (R246, R251, R253); an averaging block
ends with its sum and count kept and the accumulator cleared (R275). -/
def Obligations.ChannelStageAndAveraging : Prop :=
  (∀ s : State, s.chan.stageAt ≠ some s.cn → s.run.phase = .running → cnLe s.run.first (cnSub s.cn s.hdr.rofs) = true →
    let cc := cnSub s.cn s.hdr.rofs
    let ep := s.epochOf cc
    GoesTo (exec .channelStage s) fun t => t.chan.stageAt = some s.cn ∧
      (∃ r, t.out.recs = s.out.recs ++ [r] ∧ r.c = cc ∧ r.slot = ep.slot ∧ r.epoch = ep.epoch ∧ r.asm = false ∧ r.sent = false) ∧
      (∀ e, (s.imgAt ep.slot).cmap = [e] → s.quayRuns (e.ctx / 16384) = true →
        let c := s.ctxOf e.ctx
        let v := c.gain ((sampleOf e c (s.ringAt e.laneIx (cnSub cc c.cross))).1 - c.ped e.sgn)
        t.arr.flight.map Flight.tok = s.arr.flight.map Flight.tok ++
          [{ tag := 1, epoch := ep.epoch, data := tokenData [(e, if c.en then (c.requant e.width v).1 else 0)] }])) ∧
  (∀ (s : State) (q : Nat), s.chan.stageAt ≠ some s.cn → s.run.phase = .idle → q < 4 → s.cap.st.writes = true →
    s.cap.a0Pend = false → cnLe s.cap.a0 (cnSub s.cn s.hdr.rofs) = true → (∀ c, s.cap.stopFr = some c → cnLt c s.cn = false) →
    lanesIn (s.inputLanes s.cap.lanes) q ≠ [] →
    GoesTo (exec .channelStage s) fun t => t.out = s.out ∧ t.arr = s.arr ∧ t.cap.lastFr = cnSub s.cn s.hdr.rofs ∧
      ∃ f, (tget [] t.cap.frames q).getLast? = some f ∧ f.cn = cnSub s.cn s.hdr.rofs ∧ f.lanes = laneMask (lanesIn (s.inputLanes s.cap.lanes) q)) ∧
  (∀ (s : State) (x : Nat), x < 65536 → s.chan.avgDue.contains x = true →
    GoesTo (exec (.averagingBlockComplete x) s) fun t => (t.ctxOf x).acc = 0 ∧
      (t.ctxOf x).done.extractLsb' 0 40 = (s.ctxOf x).acc.extractLsb' 0 40 ∧
      (t.ctxOf x).done.extractLsb' 57 7 = (s.ctxOf x).acc.extractLsb' 57 7 ∧
      (t.ctxOf x).done.extractLsb' 40 17 = (s.ctxOf x).done.extractLsb' 40 17 + 1 ∧ x ∉ t.chan.avgDue ∧
      t.ctr .capAvg = satAdd (s.ctr .capAvg) 1 ∧ ∀ y, y ≠ x → t.ctxOf y = s.ctxOf y)

/-- A trigger is accepted, or counted as ignored while POST runs; the buffer freezes at its crossing (R266, R267), which completes a deskew
calibration whose channels all show the reference within 15 crossings (R255; that it ends there, with the buffer IDLE and its frames dropped, is DESIGN
CHOICE, log entry 77); a drain delivers
every frame and frees the buffer, or arms it anew with AUTO (R263, R264, R268; the order of the Quays is DESIGN CHOICE, log entry 31); an external accept is a trigger where EXTEN is set
(R265). -/
def Obligations.WakeBufferTriggersAndDrains : Prop :=
  (∀ s : State, s.cap.cands = [] → s.freezeDue = true → s.longOf 0x0A01 = none →
    GoesTo (exec .wakeBufferFreeze s) fun t => t.cap = { s.cap with st := .frozen, stopFr := none } ∧ t.shows .cap 3 = true) ∧
  (∀ (s : State) (g : Trig), s.cap.cands = [g] → s.cap.st = .armed → g.src ≠ 1 → s.cap.a0Pend = false →
    cnLe (cnAdd s.cap.a0 s.capPre) g.t = true → s.longOf 0x0A01 = none →
    GoesTo (exec .wakeBufferFreeze s) fun t => t.cap.trigCn = g.t ∧ t.cap.trigSrc = g.src ∧ t.shows .cap 0 = true ∧
      (t.cap.st = .post ∨ t.cap.st = .frozen) ∧ t.cap.cands = []) ∧
  (∀ (s : State) (g : Trig), s.cap.cands = [g] → s.cap.st = .post → s.trigReady g = true → s.longOf 0x0A01 = none →
    GoesTo (exec .wakeBufferFreeze s) fun t => t.ctr .capIgnBusy = satAdd (s.ctr .capIgnBusy) 1 ∧ t.shows .cap 1 = true ∧
      t.cap.trigCn = s.cap.trigCn ∧ t.cap.trigSrc = s.cap.trigSrc) ∧
  (∀ (s : State) (w : Waiting), s.cap.cands = [] → s.freezeDue = true → s.longOf 0x0A01 = some w → s.pairMode = false →
    let seen := (s.deskewCtxs w).map (s.deskewSeen w)
    let latest := (seen.filterMap id).foldl laterCn (cnSub w.ref (w.req.opd 3).toNat)
    (∀ k ∈ seen, ∃ c, k = some c ∧ (latest - c).toNat ≤ 15) →
    GoesTo (exec .wakeBufferFreeze s) fun t => t.cap.st = .idle ∧ t.cap.frames = [] ∧
      Ends s t w (BitVec.ofNat 64 (s.deskewCtxs w).length)) ∧
  (∀ (s : State) (w : Waiting), s.cap.st = .draining → s.longOf 0x0603 = some w →
    GoesTo (exec .drainComplete s) fun t => t.cap.st = (if s.cap.cfg.getLsbD 31 then .prefill else .idle) ∧ t.cap.frames = [] ∧
      t.shows .cap 4 = true ∧ Ends s t w 0 ∧
      (w.req.opd 0 = 1 → t.host.dma = tputs 0 s.host.dma (w.req.opd 1).toNat s.drainBytes) ∧
      (w.req.opd 0 ≠ 1 → t.cap.sent = (List.range 4).flatMap s.quayPackets)) ∧
  (∀ s : State, s.run.replay = false →
    GoesTo (exec .externalAccept s) fun t => t.pkg = { s.pkg with lastCmd := 0x5A } ∧
      t.cap = (if s.cap.cfg.getLsbD 29 then
        { s.cap with cands := s.cap.cands ++ [{ t := cnSub s.cn (s.cap.cfg.extractLsb' 16 12).toNat, src := 4 }] } else s.cap))

/-! ### Weighmaster, output, chains, hub -/

/-- A tensor's range for the next crossing follows the window maximum, and falls by at most the step of DROP (R122, R130); M and S are formed
of it there and come into force at the boundary, when they reach every parameter set with WGM set that names the tensor (03 R99, R127). -/
def Obligations.ScalesAreDerivedAndApplied : Prop :=
  (∀ (s : State) (k : Nat) (t : Tensor), s.derivable = true → tsorted s.wgm.tensors = true → tfind s.wgm.tensors k = some t →
    tcEnable t.cfg = true → tcLink t.cfg = 0 → tcFaThr t.cfg = 0 → s.kly.histo = [] →
    let m := t.windowMax s.pcn
    GoesTo (exec .wgmDerivation s) fun u => u.wgm.derived = some s.pcn ∧ u.chan.levels = [] ∧
      (m = 0 → (u.tensor k).rNow = t.rNow ∧ (u.tensor k).seen = t.seen) ∧
      (m ≠ 0 → (u.tensor k).seen = true ∧
        (t.seen = false ∨ tcDrop t.cfg = 0 → (u.tensor k).rNow = BitVec.ofNat 32 m) ∧
        (t.seen = true → tcDrop t.cfg ≠ 0 →
          (u.tensor k).rNow = BitVec.ofNat 32 (max m (t.rNow.toNat - t.rNow.toNat >>> tcDrop t.cfg)))) ∧
      ((u.tensor k).rNow ≠ 0 →
        (u.tensor k).next = some ((u.tensor k).rNow, scaleOf (u.tensor k).rNow.toNat (tcTarget t.cfg))) ∧
      (u.tensor k).mNow = t.mNow ∧ (u.tensor k).sNow = t.sNow ∧ (u.tensor k).rForce = t.rForce) ∧
  (∀ (s : State) (k : Nat) (t : Tensor) (r : Word) (m : BitVec 16) (sh : BitVec 6), s.atBoundary = true → tsorted s.wgm.tensors = true →
    tfind s.wgm.tensors k = some t → t.next = some (r, m, sh) →
    GoesTo (exec .scaleApply s) fun u => u.tensor k = { t with mNow := m, sNow := sh, rForce := r, next := none } ∧
      ∀ (c : Nat) (x : Cell) (p : Nat) (w : Word), tfind s.arr.cells c = some x → tfind x.rq p = some w →
        4 * (c / 1024 / 256) + c % 1024 / 256 = k / 64 → rqWgm w = true → rqTensor w = k % 64 →
        ∃ w', tfind (u.cellAt c).rq p = some w' ∧ w'.extractLsb' 16 16 = m ∧ w'.extractLsb' 10 6 = sh ∧ w'.extractLsb' 0 10 = w.extractLsb' 0 10)

/-- Output assembly collects the DATA of the entries whose parity takes in the crossing and whose Quay is clocked (17 R462): its digest is the CRC of them in order, its decision bits
are their lowest bits, and a missing token is a deviation (01 R33, R34, 14 R384); FDEC shows the decision at tick t of crossing C + L,
and nothing without authority (01 R29, 10 R323). -/
def Obligations.OutputAssemblyAndDecision : Prop :=
  (∀ (s : State) (r : OutRec), (s.out.recs.find? fun r => !r.asm && decide (s.asmAt r.c = s.cn)) = some r →
    let es := (s.imgAt r.slot).osch.ents.filter fun e => e.par.admits r.c && s.portRuns e.edge
    GoesTo (exec .outputAssembly s) fun t =>
      (∃ x ∈ t.out.recs, x.c = r.c ∧ x.asm = true ∧ x.odig = crc64 (es.flatMap fun e => leBytes 4 (s.collects r.c e).toNat) ∧
        ∀ b, b < 16 → (x.fdec.getLsbD b = true ↔ ∃ e ∈ es, e.kind = .fdec b ∧ (s.collects r.c e).getLsbD 0 = true)) ∧
      ((∃ e ∈ es, (s.arr.edge.find? fun k => k.isAt s.hdr.n r.c e) = none) → t.shows .runLat 1 = true)) ∧
  (∀ s : State, s.live = true → s.tick = s.hdr.t →
    GoesTo (exec .fdecDrive s) fun t => t = { s with out := { s.out with fdec := t.out.fdec, fdecZ := false } } ∧
      (s.hasAuth = false → t.out.fdec = 0) ∧
      (s.hasAuth = true → (∀ r, (s.out.recs.find? fun r => r.asm && decide (cnAdd r.c s.latL = s.cn)) = some r → t.out.fdec = r.fdec) ∧
        ((s.out.recs.find? fun r => r.asm && decide (cnAdd r.c s.latL = s.cn)) = none → t.out.fdec = 0)))

/-- A hub frame fills Q - 1 blocks; its first names the record whose fragment it carries, or none (R320), and the record takes the next
ICTR (R317); a chain frame names its flits (R310, R311, R314). -/
def Obligations.HubAndChainFramesAreSent : Prop :=
  (∀ (s : State) (lane : Nat) (phase : BitVec 4), lane < 64 → (s.lane lane).role = 4 → s.sentNow lane = false →
    let c := cnSub s.cn (s.latL + 3)
    (s.armed = false ∨ s.tick = s.hubTick c) →
    ((s.out.recs.find? fun r => r.asm && decide (r.c = c)) = none → 2 ≤ (s.lane lane).qblk →
      GoesTo (exec (.hubFrameTransmit lane phase) s) fun t => (t.lane lane).txLast.length = (s.lane lane).qblk - 1 ∧
        ((t.lane lane).txLast.headD 0).extractLsb' 0 48 = BitVec.allOnes 48 ∧ (t.lane lane).txCn = s.cn ∧
        t.ctr (.hub lane 2) = s.ctr (.hub lane 2) ∧ t.out = s.out) ∧
    (∀ r, (s.out.recs.find? fun r => r.asm && decide (r.c = c)) = some r → r.sent = false → s.hubLanes = [lane] →
      GoesTo (exec (.hubFrameTransmit lane phase) s) fun t => ((t.lane lane).txLast.headD 0).extractLsb' 0 48 = c ∧
        (t.lane lane).txCn = s.cn ∧ t.out.ictr = s.out.ictr + 1 ∧ t.ctr (.hub lane 2) = satAdd (s.ctr (.hub lane 2)) 1 ∧
        ∃ x ∈ t.out.recs, x.c = c ∧ x.sent = true ∧ x.ictr = s.out.ictr ∧ x.auth = s.hasAuth)) ∧
  (∀ (s : State) (lane : Nat), lane < 64 → s.live = true → s.tick = 0 → (s.lane lane).role = 2 → s.sentNow lane = false →
    GoesTo (exec (.chainFrameTransmit lane) s) fun t => (t.lane lane).txCn = s.cn ∧
      ((s.lane lane).eitx = false →
        (t.lane lane).txq = (s.lane lane).txq ++ txBlocks (cnSub s.cn (s.latL + 3)) (t.lane lane).txLast) ∧
      (s.img.sendLoop lane = none → ((t.lane lane).txLast.headD 0).extractLsb' 0 2 = 0 ∧ (t.lane lane).txLast.length = 1) ∧
      (∀ lp, s.img.sendLoop lane = some lp → (t.lane lane).txLast.length = 1 + 8 * max lp.nf0 lp.nf1 ∧
        ((t.lane lane).txLast.headD 0).extractLsb' 0 2 = BitVec.ofNat 2 (lp.nf ((cnSub s.cn (s.latL + 3)).toNat % 2))) ∧
      (s.img.recvLoop lane = none → ((t.lane lane).txLast.headD 0).extractLsb' 40 24 = 0))

/-- A packet that arrives broken is discarded and counted, a management packet of class 0x10 goes to the host, a timing frame goes to
Klowyn with its stamp or on to another lane; what finds Klowyn down waits in the receiver (R322, 13 R368, 15 R418). A launch that is due enters its
lane's side stream ahead of every packet not yet begun, and its command completes with the stamp of its first block's egress (13 R364, R371; that it completes there, and where a
reception stands, are DESIGN CHOICE, log entries 38 and 83; how long the block waits before the pins is DEDUCED, log entry 83). -/
def Obligations.HubPacketsAndLaunches : Prop :=
  (∀ (s : State) (lane : Nat) (bytes : List Byte) (phase : BitVec 4), lane < 64 → (s.lane lane).role = 4 →
    GoesTo (exec (.hubPacketReceive lane bytes true phase) s) fun t =>
      t.ctr (.hub lane 3) = satAdd (s.ctr (.hub lane 3)) 1 ∧ t.shows (.chn lane) 2 = true ∧ t.hub = s.hub ∧ t.kly = s.kly) ∧
  (∀ (s : State) (lane : Nat) (bytes : List Byte) (phase : BitVec 4), lane < 64 → (s.lane lane).role = 4 →
    8 ≤ bytes.length → bytes.length ≤ 2048 → leAt bytes 0 2 = bytes.length →
    (leAt bytes 2 1 % 16 = 3 → s.kly.up = false →
      ((s.hubOf lane).rx.map fun x => x.1.len).sum + (8 + (bytes.length - 8)) ≤ 65536 →
      GoesTo (exec (.hubPacketReceive lane bytes false phase) s) fun t => t = s.setHub lane { s.hubOf lane with
        rx := (s.hubOf lane).rx ++ [({ typ := 3, body := bytes.drop 8, ingress := none, launch := none }, 0)] }) ∧
    (leAt bytes 2 1 % 16 = 3 → s.kly.up = true → (bytes.drop 8).headD 0 = 0x10 →
      (s.kly.hostMgmt.map List.length).sum + (bytes.drop 16).length ≤ 65536 →
      GoesTo (exec (.hubPacketReceive lane bytes false phase) s) fun t => t.kly.hostMgmt = s.kly.hostMgmt ++ [bytes.drop 16] ∧
        t = { s with kly := t.kly }) ∧
    (leAt bytes 2 1 % 16 = 1 → 50 ≤ bytes.length → (bytes.getD 16 0).toNat % 16 = 0 →
      (s.kly.up = true → (bytes.getD 9 0).getLsbD 0 = true → bytes.getD 8 0 = 0 →
        GoesTo (exec (.hubPacketReceive lane bytes false phase) s) fun t => t.hub = s.hub ∧
          t.chr.stamps = ((BitVec.ofNat 16 (leAt (bytes.drop 8) 2 2), s.chr.layout (s.ingress lane phase)) :: s.chr.stamps).take 64 ∧
          t.chr.inbox = ((bytes.drop 8, s.chr.layout (s.ingress lane phase)) :: s.chr.inbox).take 64) ∧
      (∀ k j : Nat, (bytes.getD 9 0).getLsbD 0 = false →
        (s.hubLanes.zipIdx.filter fun e => (bytes.getD 8 0).getLsbD e.2 && e.1 != lane) = [(k, j)] →
        let p : Pkt := { typ := 1, body := bytes.drop 8, ingress := some ((s.ingress lane phase : Int) - s.chr.steps), launch := none }
        (s.hubOf k).room p = true →
        GoesTo (exec (.hubPacketReceive lane bytes false phase) s) fun t => t.chr = s.chr ∧
          (t.hubOf k).side = (s.hubOf k).side ++ [p]))) ∧
  (∀ (s : State) (lane : Nat) (phase : BitVec 4) (q : Launch), lane < 64 → s.clk.lrefOk = true → s.launchDue lane = some q →
    let p : Pkt := { typ := 2, body := q.body, ingress := none, launch := some q.jseq }
    ((s.hubOf lane).room p = true → GoesTo (exec (.timeLaunch lane phase) s) fun t =>
      t.chr.launches = (s.chr.launches.filter fun r => r.jseq != q.jseq) ∧ t.kly = s.kly ∧
      p ∈ (t.hubOf lane).side ∧ (∀ x ∈ (s.hubOf lane).side, x ∈ (t.hubOf lane).side) ∧
      ((∀ x ∈ (s.hubOf lane).side, p.sameLaunch x = false) → (t.hubOf lane).side =
        if (s.hubOf lane).sidePos = 0 then p :: (s.hubOf lane).side else (s.hubOf lane).side.take 1 ++ p :: (s.hubOf lane).side.drop 1)) ∧
    ((s.hubOf lane).room p = false → GoesTo (exec (.timeLaunch lane phase) s) fun t =>
      t.chr.launches = (s.chr.launches.filter fun r => r.jseq != q.jseq) ∧ t.hub = s.hub ∧
      t.ctr (.hub lane 4) = satAdd (s.ctr (.hub lane 4)) 1 ∧ t.shows (.chn lane) 2 = true)) ∧
  (∀ (s : State) (lane : Nat) (phase : BitVec 4) (p : Pkt) (j : Nat) (w : Waiting), lane < 64 → (s.lane lane).role = 4 →
    s.sentNow lane = false → s.armed = false → (s.out.recs.find? fun r => r.asm && decide (r.c = cnSub s.cn (s.latL + 3))) = none →
    3 ≤ (s.lane lane).qblk → (s.hubOf lane).side = [p] → (s.hubOf lane).sidePos = 0 → p.launch = some j →
    (s.kly.longs.find? fun w => w.jseq == j) = some w →
    GoesTo (exec (.hubFrameTransmit lane phase) s) fun t => Ends s t w ((s.chr.layout (s.chr.stampIn (phase.toNat * 4096 + s.egressDelay (s.lane lane)))).extractLsb' 0 64))


/-! ### The pair -/

/-- In a crossing each mirror lane carries the member's status in its first blocks (12 R336); at the release the status counts (R340), and
the second release in a row without one is the loss of the peer, while a member's own YIELD of a frame names K though the peer's frame is missing (R343). -/
def Obligations.MirrorFramesCarryStatus : Prop :=
  (∀ s : State, s.mirrorDue = true → s.pair.rejoin = none → s.pair.latchJ0 = none →
    GoesTo (exec .mirrorFrameSend s) fun t => t.pair.sent.head? = some (s.cn, s.ownStatus) ∧
      ∀ l ∈ s.mirrorLanes, (t.lane l).txCn = s.cn ∧ (t.lane l).txLast.take 4 = s.ownStatus.blocks ∧
        ((t.lane l).txLast.headD 0).getLsbD 48 = s.pair.yieldCause.isSome ∧ ((t.lane l).txLast.headD 0).getLsbD 51 = s.pair.auth) ∧
  (∀ s : State, s.mirrorRelDue = true → s.pair.rejoin = none → (∀ l ∈ s.mirrorLanes, (s.lane l).buf = []) →
    GoesTo (exec .mirrorFrameRelease s) fun t => t.pair.relAt = some s.mirrorY ∧ t.pair.rxMiss = s.pair.rxMiss + 1 ∧
      (s.pair.rxMiss = 1 → s.paired = true → s.pair.pend = none → (∀ a, s.sentAt s.mirrorY = some a → a.yield = false) →
        t.shows .pair 3 = true ∧
        ∃ p, t.pair.pend = some p ∧ p.k = cnAdd (s.mirrorY - 1) (s.mr + 3) ∧ p.cause = 4 ∧ p.lossOfPeer = true) ∧
      (∀ a, s.pair.rxMiss = 0 → s.paired = true → s.pair.pend = none → s.sentAt s.mirrorY = some a → a.yield = true →
        ∃ p, t.pair.pend = some p ∧ p.k = cnAdd s.mirrorY (s.mr + 2) ∧ p.cause = a.cause ∧ p.mine = true ∧ p.lossOfPeer = false)) ∧
  (∀ (s : State) (l : Nat) (f : RxFrame), s.mirrorRelDue = true → s.pair.rejoin = none → s.mirrorLanes = [l] →
    ((s.lane l).buf.find? fun f => decide (f.x = s.mirrorY)) = some f → f.mask = 0 → f.pay.extractLsb' 256 1728 = 0 →
    s.pair.rxBuf = [] →
    GoesTo (exec .mirrorFrameRelease s) fun t => t.pair.relAt = some s.mirrorY ∧ t.pair.rxMiss = 0 ∧
      t.pair.rx.head? = some (s.mirrorY, statusOf f.pay))

/-- Authority changes at K: the member that yields stops, the other takes it and marks its first record; the loss of the peer leaves the
survivor in LOST (R343 to R346, R351, R352); a member in probation, or with a fault of its own, takes no authority and stops (R349, R351); a mirror lane
that fails is dropped (R351). That the commands which await the partner are released when it is lost or yields is DEDUCED (log entry 59). A rejoin is rebased and ends as JOINED, or ends where its latch is not whole (R348, R349; the latter DESIGN CHOICE, log
entry 41). -/
def Obligations.AuthorityChangesAndRejoins : Prop :=
  (∀ (s : State) (p : PendK), s.pair.pend = some p → s.cn = p.k →
    (p.lossOfPeer = true → s.pair.yieldCause = none → s.pair.st ≠ .probation → s.pair.auth = true →
      GoesTo (exec .takeover s) fun t => t.pair.st = .lost ∧ t.pair.auth = true ∧ t.pair.waitCack = [] ∧ t.pair.kcn = p.k ∧
        t.run.phase = s.run.phase) ∧
    (p.lossOfPeer = true → s.pair.yieldCause ≠ none ∨ s.pair.st = .probation → s.armed = true →
      GoesTo (exec .takeover s) fun t => t.pair.st = .yielding ∧ t.pair.auth = false ∧ t.pair.cause = s.pair.yieldCause.getD 4 ∧
        t.armed = false ∧ t.run.reason = .yield ∧ t.shows .pair 1 = true) ∧
    (p.lossOfPeer = false → p.both = false → p.mine = false → s.armed = true →
      ∀ c, s.pair.yieldCause = some c → GoesTo (exec .takeover s) fun t => t.pair.st = .yielding ∧ t.pair.auth = false ∧
        t.pair.cause = c ∧ t.armed = false ∧ t.run.reason = .yield) ∧
    (p.lossOfPeer = true → s.pair.yieldCause = none → s.pair.st ≠ .probation → s.pair.auth = false →
      GoesTo (exec .takeover s) fun t => t.pair.st = .lost ∧ t.pair.auth = true ∧
      t.pair.role = 1 ∧ t.pair.pend = none ∧ t.pair.kcn = p.k ∧ t.pair.takeC = some (cnSub p.k (s.latL + 3)) ∧
      t.shows .pair 0 = true ∧ t.run.phase = s.run.phase) ∧
    (p.lossOfPeer = false → p.both = true ∨ p.mine = true → s.armed = true → GoesTo (exec .takeover s) fun t =>
      t.pair.st = .yielding ∧ t.pair.auth = false ∧ t.pair.side = false ∧ t.pair.cause = p.cause ∧ t.pair.kcn = p.k ∧
      t.armed = false ∧ t.run.reason = .yield ∧ t.shows .pair 1 = true) ∧
    (p.lossOfPeer = false → p.both = false → p.mine = false → s.pair.auth = false → s.pair.yieldCause = none →
      GoesTo (exec .takeover s) fun t => t.pair.auth = true ∧ t.pair.role = 1 ∧ t.pair.side = true ∧ t.pair.pst = 0 ∧
        t.pair.cause = p.cause ∧ t.shows .pair 0 = true ∧ t.shows .pair 1 = true ∧ t.run.phase = s.run.phase) ∧
    (p.lossOfPeer = false → p.both = false → p.mine = false → s.pair.auth = true → s.pair.yieldCause = none →
      GoesTo (exec .takeover s) fun t => t.pair.auth = true ∧ t.pair.role = s.pair.role ∧ t.pair.side = true ∧ t.pair.pst = 0 ∧
        t.pair.waitCack = [] ∧ t.run.phase = s.run.phase)) ∧
  (∀ (s : State) (i : Nat), i < 4 → s.pair.mlanes.getLsbD i = true → 1024 ≤ tget 0 s.pair.laneMiss i →
    GoesTo (exec (.mirrorLaneDrop i) s) fun t => t.pair = { s.pair with mlanes := s.pair.mlanes &&& ~~~((1 : BitVec 4) <<< i) } ∧
      t.shows .pair 4 = true) ∧
  (∀ (s : State) (j : CN), s.pair.latchJ0 = some j → s.live = true → s.pair.latch = none → s.cn = cnAdd j s.hdr.rofs →
    exec .rebaseLatch s =
      .next { s with pair := { s.pair with latch := some (s.mkLatch j true) }, run := { s.run with lastP := j } }) ∧
  (∀ (s : State) (j : CN), s.pair.rebaseJ = some j → s.live = true → s.pair.rejoin ≠ none → s.cn = cnAdd j s.hdr.rofs →
    (s.latchAll = false → GoesTo (exec .rebase s) fun t => t.armed = false ∧ t.pair.st = .forming ∧ t.pair.rejoin = none) ∧
    (∀ w, s.latchAll = true → dueOnly s 0x0804 j w = true → GoesTo (exec .rebase s) fun t => t.pair.st = .probation ∧ t.pair.role = 2 ∧
      t.pair.pst = 3 ∧ t.pair.vcn = j - 1 ∧ t.pair.probation = 0 ∧ t.pair.latch = some s.gotLatch ∧ Leaves s t w)) ∧
  (∀ (s : State) (j : CN) (l : Latch) (w : Waiting), s.pair.rebaseJ = some j → s.live = true → s.pair.rejoin = none →
    s.pair.latch = some l → s.cn = cnAdd j s.hdr.rofs → dueOnly s 0x0804 j w = true → w.at_ = j →
    GoesTo (exec .rebase s) fun t => t.pair.pst = 2 ∧ t.pair.vcn = j - 1 ∧ t.pair.vValid = true ∧ Notified s t w s.cn ∧ Leaves s t w ∧
      ∀ x c, l.ctxs = [(x, c)] → (t.ctxOf x).acc = c.acc ∧ (t.ctxOf x).ages = c.ages) ∧
  (∀ (s : State) (j : CN) (l : Latch), s.pair.rebaseJ = some j → s.live = true → s.pair.latch = some l →
    s.cn = cnAdd j (s.hdr.rofs + 1) → s.atBoundary = true →
    GoesTo (exec .rebase s) fun t => t.pair.rebaseJ = none ∧ t.pair.latchJ0 = none ∧ t.pair.latch = none ∧ t.pair.serving = false ∧
      t.chan = s.chan) ∧
  (∀ s : State, s.pair.st = .probation → 64 ≤ s.pair.probation →
    GoesTo (exec .joined s) fun t => t.pair.st = .joined ∧ t.pair.rejoin = none ∧ t.shows .pair 5 = true ∧
      ∀ w, s.longOf 0x0803 = some w → Ends s t w 0)

/-! ### CCMD and the Chronometer -/

/-- CCMD words: an orbit marker captures CN and the time (13 R366), an orbit-zero resets CN outside a run and is counted in one (00 R11),
idle does nothing and an undefined word is counted (19 R512). -/
def Obligations.CcmdWordsAct : Prop :=
  (∀ (s : State) (phase : BitVec 4), s.run.replay = false →
    let time := s.chr.layout (s.chr.stamp phase)
    (GoesTo (exec (.orbitMarker phase) s) fun t => t.chr.orbCn = s.cn ∧ t.chr.orbTime = time ∧
      t.pkg = { s.pkg with lastCmd := 0x3C } ∧ t.cn = s.cn ∧ t.arr = s.arr) ∧
    (s.armed = false → GoesTo (exec (.orbitZero phase) s) fun t => t.cn = 0 ∧ t.pkg = { s.pkg with lastCmd := 0xC3 } ∧
      t.ctr .ccOz = s.ctr .ccOz ∧ t.chr.orbCn = 0 ∧ t.chr.orbTime = time ∧ t.arr = s.arr) ∧
    (s.armed = true → GoesTo (exec (.orbitZero phase) s) fun t => t.cn = s.cn ∧
      t.pkg = { s.pkg with lastCmd := 0xC3, ozRun := true } ∧ t.ctr .ccOz = satAdd (s.ctr .ccOz) 1 ∧
      t.chr.orbCn = s.cn ∧ t.chr.orbTime = time ∧ t.arr = s.arr) ∧
    (∀ word : Byte, word ≠ 0x00 → word ≠ 0x3C → word ≠ 0xC3 → word ≠ 0x5A →
      GoesTo (exec (.ccmdInvalid word) s) fun t => t.ctr .ccInv = satAdd (s.ctr .ccInv) 1 ∧ t = { s with ctrs := t.ctrs })) ∧
  (∀ s : State, exec .ccmdIdle s = .next s)

/-- A pulse rises as the time reaches its edge and falls when its width has run, and a schedule that waited for it takes force as it was committed
(R372); an edge that is held low is skipped and counted (R375); PPS_OUT marks each whole second once and PPS_IN takes a stamp (R374). -/
def Obligations.PulsesAndPps : Prop :=
  (∀ (s : State) (p : Nat), p < 8 → (s.pulse p).live = true → (s.pulse p).high = false → s.chr.edgeAt (s.pulse p) ≤ s.chr.now →
    (s.pulsesHeld = false → GoesTo (exec (.pulseEdge p) s) fun t => (t.pulse p).high = decide ((s.pulse p).wid ≠ 0) ∧
      (t.pulse p).nextK = (s.pulse p).nextK + 1 ∧ (t.pulse p).skip = (s.pulse p).skip ∧ ∀ q, q ≠ p → t.pulse q = s.pulse q) ∧
    (s.pulsesHeld = true → GoesTo (exec (.pulseEdge p) s) fun t => (t.pulse p).high = false ∧
      (t.pulse p).skip = satAdd (s.pulse p).skip 1 ∧ (t.pulse p).nextK = (s.pulse p).nextK + 1 ∧ t.shows .chr 5 = true)) ∧
  (∀ (s : State) (p : Nat), p < 8 → (s.pulse p).high = true → ((s.pulse p).endAt : Int) ≤ s.chr.free →
    ((s.pulse p).defer = none → exec (.pulseWidthEnd p) s = .next (s.setPulse p { s.pulse p with high := false })) ∧
    (∀ c, (s.pulse p).defer = some c → GoesTo (exec (.pulseWidthEnd p) s) fun t => (t.pulse p).high = false ∧
      (t.pulse p).start = c.1 ∧ (t.pulse p).per = c.2.1 ∧ (t.pulse p).wid = c.2.2 ∧ (t.pulse p).defer = none ∧
      ∀ q, q ≠ p → t.pulse q = s.pulse q)) ∧
  (∀ s : State, s.chr.pps.getLsbD 31 = true → s.chr.ppsLast < s.chr.wholeSec →
    GoesTo (exec .ppsOutEdge s) fun t => t.chr.ppsLast = s.chr.wholeSec ∧ t = { s with chr := t.chr } ∧
      (s.pulsesHeld = false → s.chr.ppsWidth ≠ 0 → s.chr.drove s.chr.wholeSec = false → t.chr.ppsHigh = true ∧
        t.chr.drove s.chr.wholeSec = true) ∧
      (s.chr.drove s.chr.wholeSec = true → t.chr.ppsHigh = s.chr.ppsHigh)) ∧
  (∀ s : State, s.chr.ppsHigh = true → (s.chr.ppsEnd : Int) ≤ s.chr.free →
    exec .ppsOutWidthEnd s = .next { s with chr := { s.chr with ppsHigh := false } }) ∧
  (∀ (s : State) (phase : BitVec 4), s.chr.pps.getLsbD 30 = true →
    GoesTo (exec (.ppsIn phase) s) fun t => t.chr = { s.chr with ppsIn := s.chr.layout (s.chr.stamp phase) } ∧ t.shows .chr 3 = true)

/-- The owner's commits correct the time: a step moves it and locks an armed time base, or is refused (R357, R359, R361, R362); a rate
changes with the time continuous (R357); a change of mode resets the time and drops the launches (R356); a pulse schedule takes
effect at once or after the pulse (R372). A requester that is no owner changes nothing (16 R448). -/
def Obligations.ChronometerCommits : Prop :=
  (∀ s : State, s.answers .host = true → GoesTo (exec .chrArm s) fun t => t.chr.st = .armed ∧ t.chr.refCnt = 0 ∧ t.chr.lateCnt = 0 ∧ t.chr.now = s.chr.now) ∧
  (∀ s : State, GoesTo (exec (.registerWrite .binnacle 0x40038 [4] true) s) fun t => t.chr.st = .armed ∧ t.chr.refCnt = 0 ∧ t.chr.lateCnt = 0 ∧
    t.chr.now = s.chr.now) ∧
  (∀ (s : State) (req : Requester), s.answers req = true → decide (req = .binnacle) = s.kly.timeEn →
    let d := s.chr.stStep.toInt
    (s.chr.cal = false → 0 ≤ s.chr.now + d → (s.chr.st ≠ .locked ∨ (s.chr.sthr ≠ 0 ∧ d.natAbs ≤ s.chr.sthr * 65536)) →
      GoesTo (exec (.chrStepCommit req) s) fun t => t.chr.now = s.chr.now + d ∧ t.chr.free = s.chr.free ∧ t.chr.stStep = 0 ∧
        t.chr.st = (if s.chr.st = .armed then .locked else s.chr.st) ∧ t.shows .chr 0 = true) ∧
    (s.chr.now + d < 0 ∨ (s.chr.st = .locked ∧ (s.chr.sthr = 0 ∨ s.chr.sthr * 65536 < d.natAbs)) →
      GoesTo (exec (.chrStepCommit req) s) fun t => t.chr.now = s.chr.now ∧ t.chr.st = s.chr.st ∧
        t.chr.refCnt = satAdd s.chr.refCnt 1 ∧ t.shows .chr 1 = true) ∧
    (s.chr.cal = false → 2 ^ 40 - 2 ^ 31 ≤ s.chr.stInc.toNat → s.chr.stInc.toNat ≤ 2 ^ 40 + 2 ^ 31 →
      GoesTo (exec (.chrRateCommit req) s) fun t => t.chr.now = s.chr.now ∧ t.chr.inc = s.chr.stInc ∧ t.chr.c = s.chr.c) ∧
    (s.chr.stInc.toNat < 2 ^ 40 - 2 ^ 31 ∨ 2 ^ 40 + 2 ^ 31 < s.chr.stInc.toNat →
      GoesTo (exec (.chrRateCommit req) s) fun t => t.chr = { s.chr with refCnt := satAdd s.chr.refCnt 1 } ∧
        t.shows .chr 1 = true)) ∧
  (∀ (s : State) (req : Requester), s.answers req = true → decide (req = .binnacle) ≠ s.kly.timeEn →
    (GoesTo (exec (.chrStepCommit req) s) fun t => t.chr = s.chr ∧ t.shows .hst 3 = true) ∧
    (GoesTo (exec (.chrRateCommit req) s) fun t => t.chr = s.chr ∧ t.shows .hst 3 = true)) ∧
  (∀ (s : State) (req : Requester) (val : Word), s.answers req = true →
    (val.getLsbD 31 ≠ s.chr.cal → GoesTo (exec (.chrModeChange ⟨req, val⟩) s) fun t => t.chr.cal = val.getLsbD 31 ∧ t.chr.now = 0 ∧
      t.chr.free = s.chr.free ∧ t.chr.st = .unset ∧ t.chr.launches = [] ∧ t.chr.inc = 0x10000000000 ∧ ∀ p, (t.pulse p).en = false) ∧
    (val.getLsbD 31 = s.chr.cal → GoesTo (exec (.chrModeChange ⟨req, val⟩) s) fun t =>
      t.chr = { s.chr with cfg := val &&& 0x800FFFFF })) ∧
  (∀ (s : State) (p : Nat), p < 8 → s.answers .host = true →
    ((s.pulse p).stBad = false → (s.pulse p).high = false → GoesTo (exec (.pulseCommit .host p) s) fun t =>
      (t.pulse p).start = (s.pulse p).stStart ∧ (t.pulse p).per = (s.pulse p).stPer ∧ (t.pulse p).wid = (s.pulse p).stWid ∧
      ∀ q, q ≠ p → t.pulse q = s.pulse q) ∧
    ((s.pulse p).stBad = false → (s.pulse p).high = true → GoesTo (exec (.pulseCommit .host p) s) fun t =>
      t.chr = (s.setPulse p { s.pulse p with defer := some (s.pulse p).staged }).chr ∧ t = { s with chr := t.chr, cig := t.cig }) ∧
    ((s.pulse p).stBad = true → GoesTo (exec (.pulseCommit .host p) s) fun t => t.chr = s.chr ∧ t.shows .chr 6 = true) ∧
    GoesTo (exec (.pulseCommit .binnacle p) s) fun t => t.chr = s.chr ∧ t.shows .hst 3 = true)


/-! ### The host's accesses -/

/-- A write to a staged field changes its staging copy alone, and nothing where the requester does not own the group (16 R445, R448); the words of
a write reach their registers, in ascending order, a partial one is discarded whole with PART set, an unmapped one with UNMAP (R433, R435); a low word
latches the higher ones and they read from the requester's shadow (R437); where the BARs do not answer, no access acts (R426). -/
def Obligations.RegisterAccessesActAsSpecified : Prop :=
  (∀ (s : State) (req : Requester) (val : Word) (k : Nat), s.answers req = true →
    (k < 3 → s.chrOwner req = true → GoesTo (exec (.stagedWrite req (0x40020 + 4 * k) val) s) fun t =>
      t = { s with chr := { s.chr with stStep := t.chr.stStep } } ∧ t.chr.stStep.extractLsb' (32 * k) 32 = val ∧
      ∀ j, j < 3 → j ≠ k → t.chr.stStep.extractLsb' (32 * j) 32 = s.chr.stStep.extractLsb' (32 * j) 32) ∧
    (s.chrOwner req = true → GoesTo (exec (.stagedWrite req 0x40030 val) s) fun t =>
      t = { s with chr := { s.chr with stInc := t.chr.stInc } } ∧ t.chr.stInc.extractLsb' 0 32 = val ∧
      t.chr.stInc.extractLsb' 32 10 = s.chr.stInc.extractLsb' 32 10) ∧
    (k < 8 → req = .host → GoesTo (exec (.stagedWrite req (0x41010 + 0x40 * k) val) s) fun t =>
      t.pulse k = { s.pulse k with stPer := val } ∧ (∀ q, q ≠ k → t.pulse q = s.pulse q)) ∧
    (s.cigOwner req = true → exec (.stagedWrite req 0xC0010 val) s = .next { s with cig := { s.cig with stRef := val } }) ∧
    (k < 64 → s.cigOwner req = true → GoesTo (exec (.stagedWrite req (0xC0100 + 4 * k) val) s) fun t =>
      tget 0 t.cig.stRgn k = val ∧ (∀ j, j ≠ k → tget 0 t.cig.stRgn j = tget 0 s.cig.stRgn j) ∧
      t = { s with cig := { s.cig with stRgn := t.cig.stRgn } }) ∧
    (s.cigOwner req = false → GoesTo (exec (.stagedWrite req 0xC0010 val) s) fun t => t.cig = s.cig ∧ t.shows .hst 3 = true) ∧
    (s.chrOwner req = false → GoesTo (exec (.stagedWrite req 0x40020 val) s) fun t => t.chr = s.chr ∧ t.shows .hst 3 = true)) ∧
  (∀ (s : State) (req : Requester) (val : Word), s.answers req = true →
    (GoesTo (exec (.registerWrite req 0x18 [val] true) s) fun t => t.host.scratch = val ∧ t = { s with host := t.host, cig := t.cig }) ∧
    (∀ off vals, barReq off vals.length = true → GoesTo (exec (.registerWrite req off vals false) s) fun t =>
      t.host.scratch = s.host.scratch ∧ t.shows .hst 2 = true ∧ t = { s with host := t.host, evts := t.evts }) ∧
    (GoesTo (exec (.registerWrite req 0x5FFFFC [val] true) s) fun t => t.shows .hst 1 = true ∧
      t = { s with host := t.host, evts := t.evts }) ∧
    exec (.registerWrite req 0x00 [val] true) s = .next s ∧
    (∀ a b : Word, s.chrOwner req = true → exec (.registerWrite req 0x40020 [a, b, val] true) s =
      .next { s with chr := { s.chr with stStep := val ++ b ++ a } }) ∧
    (∀ l, l < 64 → GoesTo (exec (.registerWrite req (0x140004 + 0x100 * l) [val] true) s) fun t =>
      t.sextOf l = { s.sextOf l with limit := val } ∧ ∀ k, k ≠ l → t.sextOf k = s.sextOf k)) ∧
  (∀ (s : State) (req : Requester) (off : Nat) (r : Reg) (k : Nat), barWord off = true → s.answers req = true →
    s.regAt off = some (r, k) →
    (r.kind ≠ .latched → exec (.lowWordRead req ⟨off, 1⟩) s = .next { s with host := { s.host with rdata := [s.word off] } }) ∧
    (r.kind = .latched → k = 0 → off ≠ 0x40070 → GoesTo (exec (.lowWordRead req ⟨off, 1⟩) s) fun t => t.host.rdata = [s.word off] ∧
      t = { s with host := { s.host with rdata := t.host.rdata, shadows := t.host.shadows } } ∧
      ∀ j, 1 ≤ j → j < r.words → tget 0 t.host.shadows (shadowKey req (off + 4 * j)) = s.word (off + 4 * j)) ∧
    (r.kind = .latched → k = 0 → off ≠ 0x40070 → barReq off 2 = true → s.regAt (off + 4) = some (r, 1) → 2 ≤ r.words →
      GoesTo (exec (.lowWordRead req ⟨off, 2⟩) s) fun t => t.host.rdata = [s.word off, s.word (off + 4)]) ∧
    (r.kind = .latched → k ≠ 0 → exec (.lowWordRead req ⟨off, 1⟩) s =
      .next { s with host := { s.host with rdata := [tget 0 s.host.shadows (shadowKey req off)] } })) ∧
  (∀ (s : State) (off n : Nat) (vals : List Word) (whole : Bool) (val : Word), s.answers .host = false →
    (barReq off n = true → exec (.lowWordRead .host ⟨off, n⟩) s = .next s) ∧
    (barReq off vals.length = true → exec (.registerWrite .host off vals whole) s = .next s) ∧
    (stagedOff off = true → exec (.stagedWrite .host off val) s = .next s) ∧
    (aliasOff off = true → exec (.clearAliasWrite off ⟨.host, val⟩) s = .next s) ∧
    (bitOff off = true → exec (.bitAliasWrite off ⟨.host, val⟩) s = .next s) ∧ exec (.clkGateWrite ⟨.host, val⟩) s = .next s)

/-- A bit alias reads and writes one flag bit, a summary bit it reads only (16 R443); a clear alias clears the events no younger than the
value written, or sets STALESEQ
(R440, R441); the integrity engine learns, commits and compares (R453, R454); clocks that are in use keep running (17 R462; which clocks are in use is
DEDUCED, log entry 46). -/
def Obligations.FlagsIntegrityAndGates : Prop :=
  (∀ (s : State) (req : Requester) (off : Nat) (val : Word), bitOff off = true → s.answers req = true →
    let i := (off - 0x800000) / 4
    (1024 ≤ i / 32 → GoesTo (exec (.bitAliasWrite off ⟨req, val⟩) s) fun t => t = { s with flags := t.flags, cig := t.cig } ∧
      ∀ w b, b < 32 → (tget 0 t.flags w).getLsbD b =
        if w = i / 32 ∧ b = i % 32 then val.getLsbD 0 else (tget 0 s.flags w).getLsbD b) ∧
    (i / 32 < 1024 → exec (.bitAliasWrite off ⟨req, val⟩) s = .next s) ∧
    exec (.lowWordRead req ⟨off, 1⟩) s =
      .next { s with host := { s.host with rdata := [if (s.flagWord (i / 32)).getLsbD (i % 32) then 1 else 0] } }) ∧
  (∀ (s : State) (req : Requester) (off : Nat) (q : Word) (i : EvtId), aliasOff off = true → s.answers req = true → s.aliasOf off = some i →
    (((s.evt i).seq - q).toNat < 2 ^ 31 → GoesTo (exec (.clearAliasWrite off ⟨req, q⟩) s) fun t => (t.evt i).seq = (s.evt i).seq ∧
      (∀ b, b < 32 → (t.evt i).bits.getLsbD b =
        ((s.evt i).bits.getLsbD b && decide (2 ^ 31 ≤ (q - tget 0 (s.evt i).last b).toNat))) ∧
      t = { s with host := t.host, evts := t.evts, cig := t.cig }) ∧
    (2 ^ 31 ≤ ((s.evt i).seq - q).toNat → GoesTo (exec (.clearAliasWrite off ⟨req, q⟩) s) fun t => t.shows .hst 4 = true ∧
      (i.code ≠ EvtId.hst.code → t.evt i = s.evt i) ∧ t = { s with host := t.host, evts := t.evts, cig := t.cig })) ∧
  (∀ (s : State) (req : Requester), s.answers req = true →
    (s.cigOwner req = true →
      exec (.cigCommit req) s = .next { s with cig := { s.cig with ref := s.cig.stRef, rgn := s.cig.stRgn, stale := false } }) ∧
    (s.cigOwner req = false → GoesTo (exec (.cigCommit req) s) fun t => t.cig = s.cig ∧ t.shows .hst 3 = true) ∧
    exec (.cigLearn req) s = .next { s with cig := { s.cig with learn := true, learning := !s.cig.en } }) ∧
  (∀ s : State, s.cig.en = true →
    (s.cig.learn = true → s.cig.learning = true → GoesTo (exec .cigPass s) fun t => t.cig.last = s.cigCrc ∧ t.cig.ref = s.cigCrc ∧
      t.cig.learn = false ∧ t.cig.stale = false ∧ t.shows .cig 1 = true ∧ t.ctr .cigPass = satAdd (s.ctr .cigPass) 1) ∧
    (s.cig.learn = false → s.cig.stale = false → s.cigCrc ≠ s.cig.ref → GoesTo (exec .cigPass s) fun t =>
      t.cig.last = s.cigCrc ∧ t.cig.ref = s.cig.ref ∧ t.shows .cig 0 = true ∧ t.ctr .cigPass = satAdd (s.ctr .cigPass) 1 ∧
      (s.cig.take = true → s.armed = true → s.paired = false → t.run.faultAt = some s.cn)) ∧
    (s.cig.learn = false → (s.cig.stale = true ∨ s.cigCrc = s.cig.ref) → GoesTo (exec .cigPass s) fun t =>
      t.cig.last = s.cigCrc ∧ t.evts = s.evts ∧ t.run = s.run ∧ t.ctr .cigPass = satAdd (s.ctr .cigPass) 1)) ∧
  (∀ (s : State) (req : Requester) (val : Word), s.answers req = true → GoesTo (exec (.clkGateWrite ⟨req, val⟩) s) fun t =>
    (∀ n, n < 30 → t.clk.gate.getLsbD n = (val.getLsbD n || (s.gateRefused (val.extractLsb' 0 30)).contains n)) ∧
    (∀ n, (s.gateRefused (val.extractLsb' 0 30)).getLast? = some n → (t.clk.gref.extractLsb' 0 5).toNat = n ∧
      t.clk.gref.getLsbD 31 = s.nodeServes n ∧ t.shows .clk 3 = true))

/-- Outside the slots of a run a BAR4 read returns as many bytes as it asks for, those of the line where its decoder has it and poison where not
(16 R431, 07 R231); a write changes exactly its own bytes, and none of a line of the library or of an active face (R431, R432). While the tide table
runs, a request waits as bursts, one for each line, for refresh slots (07 R218, 16 R431; when it does is DESIGN CHOICE, log entry 78). -/
def Obligations.Bar4ReadsAndWrites : Prop :=
  (∀ (s : State) (off len : Nat) (noise : List (BitVec 288)), bar4Ok off len = true → s.answers .host = true → s.viaSlots = true →
    GoesTo (exec (.bar4Read off len noise) s) fun t => t.host.rdId = s.host.rdId + 1 ∧ t.host.bdata = [] ∧ t.host.poison = false ∧
      t = { s with host := t.host, alm := { s.alm with hostQ := t.alm.hostQ } } ∧
      ∃ bs, t.alm.hostQ = s.alm.hostQ ++ bs ∧
        bs.map (fun b => (b.addr, b.len)) = (pieces (s.bar4Addr off) len).map (fun p => (p.addr, p.len)) ∧
        ∀ b ∈ bs, b.read = true ∧ b.id = s.host.rdId + 1 ∧ b.left = 1) ∧
  (∀ (s : State) (off : Nat) (bytes : List Byte), bar4Ok off bytes.length = true → s.answers .host = true → s.viaSlots = true →
    let a := s.bar4Addr off
    GoesTo (exec (.bar4Write off bytes) s) fun t => t.host.wrId = s.host.wrId + 1 ∧ t.mem = s.mem ∧ t.sram = s.sram ∧
      (∃ bs, t.alm.hostQ = s.alm.hostQ ++ bs ∧ bs.map (fun b => (b.addr, b.len)) =
          ((pieces a bytes.length).filter fun p => !s.wprot p.addr).map (fun p => (p.addr, p.len)) ∧
        ∀ b ∈ bs, b.read = false ∧ b.data = (bytes.drop (b.addr - a)).take b.len ∧ b.left = if b.len = 32 then 1 else 2) ∧
      (∀ p ∈ pieces a bytes.length, s.wprot p.addr = true → t.shows .hst 5 = true ∧
        t.ctr .hstWdrop = satAdd (s.ctr .hstWdrop) 1)) ∧
  (∀ (s : State) (off len : Nat) (noise : List (BitVec 288)), bar4Ok off len = true → s.answers .host = true → s.viaSlots = false →
    GoesTo (exec (.bar4Read off len noise) s) fun t => t.host.bdata.length = len ∧
      t = { s with host := t.host, ctrs := t.ctrs, evts := t.evts, freeCtr := t.freeCtr } ∧
      (0 < len → s.bar4Addr off % 32 + len ≤ 32 → s.memOn (s.bar4Addr off) = true →
        (∀ d, s.inLibrary (s.bar4Addr off) = false → (s.readLine (lineOf (s.bar4Addr off)) (noise.getD 0 0)).data = some d →
          t.host.bdata = bytesAt d (s.bar4Addr off % 32) len ∧ t.host.poison = false) ∧
        ((s.readLine (lineOf (s.bar4Addr off)) (noise.getD 0 0)).data = none → t.host.poison = true ∧
          t.ctr .hstPoison = satAdd (s.ctr .hstPoison) 1 ∧ t.shows .hst 6 = true))) ∧
  (∀ (s : State) (off : Nat) (bytes : List Byte), bar4Ok off bytes.length = true → s.answers .host = true → s.viaSlots = false →
    let a := s.bar4Addr off
    GoesTo (exec (.bar4Write off bytes) s) fun t =>
      (∀ i, i < a ∨ a + bytes.length ≤ i → tget 0 t.mem i = tget 0 s.mem i) ∧ t.sram = s.sram ∧
      ((∀ p ∈ pieces a bytes.length, s.memOn p.addr = true ∧ s.wprot p.addr = false) → tgets 0 t.mem a bytes.length = bytes ∧
        t = { s with mem := t.mem }) ∧
      (∀ p ∈ pieces a bytes.length, s.wprot p.addr = true → t.shows .hst 5 = true ∧
        t.ctr .hstWdrop = satAdd (s.ctr .hstWdrop) 1 ∧ ∀ i, i < p.len → tget 0 t.mem (p.addr + i) = tget 0 s.mem (p.addr + i)))

/-! ### Endpoint, boot, clocks, power -/

/-- Configuration requests, the endpoint's resets, RESET_N and the boot as 16 R424 to R426, 17 R461, R469 to R472, 15 R420 and 18
R485 to R489, R495 have them: what they load, clear, start or stop. The places and fields of the configuration words are PRESUMED (log entry 95), and so is
the MSI-X capability's reset (log entry 14); what the pending bits, the epoch and a rail that fails leave is DESIGN CHOICE (log entries 8, 44 and 103), and so
is the content of memory after RESET_N, which reads 0 (log entry 2). -/
def Obligations.EndpointResetsAndBoots : Prop :=
  (∀ (s : State) (reg : Nat), reg < 1024 →
    (s.boot.stopped = true → s.boot.link = false → ∀ wr, exec (.configRequest reg wr) s = .next s) ∧
    (s.boot.stopped = false ∨ s.boot.link = true →
      (s.host.idLoaded = false → ∀ wr, exec (.configRequest reg wr) s = .next { s with host := { s.host with retry := true } }) ∧
      (s.host.idLoaded = true →
        (GoesTo (exec (.configRequest reg none) s) fun t => t.host.retry = false ∧ t.host.rdata = [s.cfgWord reg] ∧
          t.host.cfgw = s.host.cfgw) ∧
        (∀ v c, cfgFind reg = some c → reg ≠ 17 → reg ≠ 20 → (reg = 26 → v.getLsbD 15 = false) → GoesTo (exec (.configRequest reg (some v)) s) fun t =>
          t.host.retry = false ∧ t = { s with host := t.host } ∧ (∀ k, k ≠ reg → t.cfgWord k = s.cfgWord k) ∧
          t.cfgWord reg &&& ~~~c.open_ = ((s.cfgWord reg &&& ~~~c.rw) ||| (v &&& c.rw)) &&& ~~~c.open_) ∧
        (∀ v, cfgFind reg = none → exec (.configRequest reg (some v)) s = .next { s with host := { s.host with retry := false } }) ∧
        (let u : State := { s with host := { s.host with retry := false } }
         ∀ v : Word, (v.getLsbD 15 = true → exec (.configRequest 26 (some v)) s = exec .functionLevelReset u) ∧
          (v.extractLsb' 0 2 = 3 → s.host.d3 = false → exec (.configRequest 17 (some v)) s = exec .d3hotEntry u) ∧
          (v.extractLsb' 0 2 = 0 → exec (.configRequest 17 (some v)) s = .next { u with host := { u.host with d3 := false } }) ∧
          GoesTo (exec (.configRequest 20 (some v)) s) fun t => t = { s with host := t.host } ∧
            t.cfgWord 20 = (s.cfgWord 20 &&& 0x3FFFFFFF) ||| (v &&& 0xC0000000) ∧ ∀ k, k ≠ 20 → t.cfgWord k = s.cfgWord k) ∧
        (∀ m, (reg, m) ∈ [(4, (0xFF000004 : Word)), (5, 0xFFFFFFFF), (6, 0xFFF00004), (7, 0xFFFFFFFF), (8, 0xC), (9, 0xFFFFFFFC)] →
          s.host.cfgw = [] → GoesTo (exec (.configRequest reg (some 0xFFFFFFFF)) s) fun t => t.cfgWord reg = m)))) ∧
  (∀ (c : Instr) (s : State), (c = .perstN ∨ c = .functionLevelReset ∨ c = .d3hotEntry) →
    GoesTo (exec c s) fun t => t.host.d3 = decide (c = .d3hotEntry) ∧ t.host.msix = [] ∧ t.host.cfgw = [] ∧ t.host.wbase = 0 ∧
      (∀ v, v ≠ 25 → v ≠ 26 → t.host.pend.getLsbD v = false) ∧ t.host.sent = s.host.sent ∧ t.alm.hostQ = [] ∧
      (∀ k, k < 2 ^ 24 → tget 0 t.host.shadows k = 0) ∧ (∀ k, 2 ^ 24 ≤ k → tget 0 t.host.shadows k = tget 0 s.host.shadows k) ∧
      t.host.scratch = s.host.scratch ∧ t.shows .hst 0 = true ∧ (t.evt .hst).seq = (s.evt .hst).seq + 1 ∧
      (∀ b, b ≠ 0 → t.shows .hst b = s.shows .hst b) ∧ t.shows .clk 4 = true ∧ t.clk.cdc = 16 * 7 + 5 ∧
      (∀ i : EvtId, i.code ≠ EvtId.hst.code → i.code ≠ EvtId.clk.code → t.evt i = s.evt i) ∧
      t = { s with host := t.host, evts := t.evts, ctrs := t.ctrs, freeCtr := s.freeCtr + 1, alm := { s.alm with hostQ := [] }
                   clk := { s.clk with cdc := t.clk.cdc } }) ∧
  (∀ (c : Instr) (s : State), (c = .resetAssert ∨ c = .pwrGoodDeassert) →
    GoesTo (exec c s) fun t => t.evts = [] ∧ t.ctrs = [] ∧ t.mbx = [] ∧ t.kly = Klowyn.reset ∧ t.mem = [] ∧ t.sram = [] ∧ t.cn = 0 ∧
      t.armed = false ∧ t.boot.stage = 0 ∧ t.boot.powered = false ∧ t.boot.resetN = false ∧ t.boot.flash = s.boot.flash ∧
      t.dev = s.dev ∧ t.pkg = PkgState.reset) ∧
  (∀ (s : State) (d : BitVec 2), s.boot.powered = false →
    GoesTo (exec (.powerUp d) s) fun t => t.boot = { s.boot with powered := true, pwrGood := true, resetN := true } ∧
      t.clk = { s.clk with oscDly := d, oscRun := true } ∧
      t.pwr.railok = 0x80) ∧
  (∀ s : State, s.boot.powered = true → s.clk.oscRun = true →
    (GoesTo (exec (.oscDelayExpiry true) s) fun t => t.clk = { s.clk with oscRun := false, xtalOk := true, ben := 0b10001 } ∧
      t.pkg.binOut = true) ∧ exec (.oscDelayExpiry false) s = .next s) ∧
  (∀ (s : State) (err : Option Nat) (puf : List Byte), s.bootReady = true → s.mbx = [] →
    GoesTo (exec (.bootRomStart err puf) s) fun t =>
      (t.boot.stopped = false → t.kly.up = true ∧ t.boot.stage = 8 ∧ t.boot.code = 0 ∧ t.pwr.railok = 0xFF ∧ t.clk.ben = 0b10101 ∧
        t.host.idLoaded = true ∧ t.boot.link = true ∧ t.pkg.quayOut = true ∧ t.out.fdec = 0 ∧ t.out.fdecZ = false ∧ t.clk.gate = t.bootGate ∧
        t.boot.puf = bytesAt puf 0 4096 ∧ t.jnl.head = 0 ∧
        (s.clk.ben.getLsbD 0 = true → t.boot.idKey = pufKey (Config.pufCorrect t.boot.puf t.facHelper) ∧
          t.boot.pufOk = (keyBytes (ecMul 384 t.boot.idKey bpG) == t.facKey))) ∧
      (t.boot.stopped = true → t.kly.up = false ∧ t.pkg.alert = true ∧ t.host.idFw = 0) ∧
      (err = some 1 → t.boot.stopped = true ∧ t.boot.stage = 1 ∧ t.boot.code = 5) ∧
      (err = none → dirOk s.boot.flash.dir = false → t.boot.stopped = true ∧ t.boot.stage = 1 ∧ t.boot.code = 1)) ∧
  (∀ (s : State) (err : Option Nat), s.rebootDue = true → s.mbx = [] →
    GoesTo (exec (.klowynReboot err) s) fun t => t.kly.waiting = [] ∧ t.kly.longs = [] ∧ t.shows .clk 4 = true ∧
      t.run.phase = (if s.run.phase = .armed then .idle else s.run.phase) ∧
      (t.boot.stopped = false → t.kly.up = true ∧ t.boot.stage = 8 ∧ t.jnl.head = 0) ∧
      (t.boot.stopped = true → t.kly.up = false ∧ t.pkg.alert = true)) ∧
  (∀ (s : State) (rail : Nat), rail < 7 →
    (s.bootReady = true → GoesTo (exec (.railTimeout rail) s) fun t => t.boot.stopped = true ∧ t.pkg.alert = true ∧ t.kly.up = false ∧
      t.host = { s.host with idFw := 0 } ∧
      (dirOk s.boot.flash.dir = true → s.vendorRegion 1 = true → t.boot.stage = 2 ∧ t.boot.code = 6)) ∧
    (s.bootReady = false → s.cooled = true → GoesTo (exec (.railTimeout rail) s) fun t => t.boot.stopped = true ∧ t.boot.code = 6 ∧
      t.boot.stage = s.boot.stage ∧ t.pkg.alert = true ∧ t.kly.up = false) ∧
    (s.bootReady = false → s.cooled = false → s.pwr.busy = .wake → s.pwr.sst = 3 → GoesTo (exec (.railTimeout rail) s) fun t =>
      t.boot = { s.boot with code := 6 } ∧ t.pwr.busy = .none ∧ t.pwr.sst = 3 ∧ t.pkg.alert = true)) ∧
  (∀ s : State, s.kly.up = true → GoesTo (exec .watchdogExpiry s) fun t => t.kly.up = false ∧ t.kly.waiting = [] ∧ t.kly.longs = [] ∧
    t.run.phase = (if s.run.phase = .armed then .idle else s.run.phase) ∧
    (s.armed = true → s.run.phase ≠ .armed → s.paired = false → t.run.faultAt = some s.cn)) ∧
  (∀ (s : State) (p : Nat), s.kly.up = true → s.kly.manPos = some p →
    (s.manifest.length ≤ p → exec .manifestRun s = .next { s with kly := { s.kly with manPos := none } }) ∧
    (p < s.manifest.length → s.inWork 254 = true → exec .manifestRun s = .next s) ∧
    (∀ st, p < s.manifest.length → s.inWork 254 = false →
      s.manifestBad (manifestReq s.manifest p) = some st →
      GoesTo (exec .manifestRun s) fun t => t.kly.manPos = none ∧ t.pkg.alert = true ∧ t.jnl = s.jnl) ∧
    (p < s.manifest.length → s.inWork 254 = false → s.manifestBad (manifestReq s.manifest p) = none →
      64 ≤ s.manifest.length → s.manifest.length ≤ p + recordLen (manifestReq s.manifest p) →
      GoesTo (exec .manifestRun s) fun t => t = { kTake 254 (manifestReq s.manifest p) s with
        kly := { (kTake 254 (manifestReq s.manifest p) s).kly with manPos := none } }))

/-- A failed clock source stops the run and brings the safe state, its recovery ends it (17 R464 to R466, 13 R355; that a member of a
pair yields in that step is DEDUCED, log entry 85); levels and sleep
states change as their commands asked (R474 to R477; that LPDDR6 reads 0 after S3 is DESIGN CHOICE, log entry 2); rails and temperatures are watched (R475, 19 R518 to R523); an eye scan ends with its
counts in host memory (09 R302). -/
def Obligations.ClocksPowerAndHeat : Prop :=
  (∀ s : State,
    (s.clk.mclkOk = true → GoesTo (exec .mclkMonitorFail s) fun t => t.clk.mclkOk = false ∧ t.clk.safe = true ∧ ClkSrc.mclk ∈ t.clk.wait ∧
      t.out.fdec = 0 ∧ t.pkg.alert = true ∧ t.shows .clk 0 = true ∧ t.armed = false ∧ (s.armed = true → t.run.reason = .clock) ∧
      (s.pwr.busy ≠ .none → t.pwr.failed = true) ∧
      (s.armed = true → s.paired = true → t.pair.st = .yielding ∧ t.pair.auth = false ∧ t.pair.cause = 6 ∧ t.shows .pair 1 = true)) ∧
    (s.clk.lrefOk = false → GoesTo (exec .lrefclkMonitorFail s) fun t => t.chr.srcX = true ∧ t.chr.stopped = !s.clk.xtalOk ∧
      t = { s with chr := t.chr, evts := t.evts, host := t.host }) ∧
    (s.clk.lrefOk = true → GoesTo (exec .lrefclkMonitorFail s) fun t => t.clk.lrefOk = false ∧ t.clk.safe = true ∧
      ClkSrc.lrefclk ∈ t.clk.wait ∧ t.shows .clk 1 = true ∧ t.armed = false ∧ t.chr.srcX = true ∧ t.chr.stopped = !s.clk.xtalOk) ∧
    (s.clk.xtalOk = true → GoesTo (exec .crystalMonitorFail s) fun t => t.clk.xtalOk = false ∧ t.clk.safe = true ∧
      ClkSrc.crystal ∈ t.clk.wait ∧ t.shows .clk 2 = true ∧ t.armed = false)) ∧
  (∀ (s : State) (freq : Nat), s.clk.safe = true →
    (mclkInWindow freq = false → exec (.monitorRecovery .mclk freq) s = .next s) ∧
    (mclkInWindow freq = true → s.clk.wait = [.mclk] → GoesTo (exec (.monitorRecovery .mclk freq) s) fun t => t.clk.mclkOk = true ∧
      t.clk.mclk = freq ∧ t.clk.wait = [] ∧ t.clk.safe = false ∧ t.shows .clk 5 = true) ∧
    (s.clk.wait = [.lrefclk] → GoesTo (exec (.monitorRecovery .lrefclk freq) s) fun t => t.clk.lrefOk = true ∧ t.clk.wait = [] ∧
      t.clk.safe = false ∧ t.shows .clk 5 = true) ∧
    (s.clk.wait = [.crystal] → GoesTo (exec (.monitorRecovery .crystal freq) s) fun t => t.clk.xtalOk = true ∧ t.clk.wait = [] ∧
      t.clk.safe = false ∧ t.shows .clk 5 = true)) ∧
  (∀ (s : State) (st : Nat) (w : Waiting), s.pwr.busy = .sleep st (some w) → s.clk.wait = [] → 1 ≤ st → st ≤ 3 → s.pwr.wakeReq = false →
    (st = 3 → ∀ x ∈ s.kly.longs, x.req.op.toNat ≠ 0x0902) →
    GoesTo (exec .sleepReached s) fun t => t.pwr.sst = BitVec.ofNat 2 st ∧ t.pwr.busy = .none ∧ t.shows .pwr 2 = true ∧ Ends s t w 0 ∧
      (st = 1 → t.pwr.bias = -200) ∧ (st = 2 → t.pwr.bias = -300 ∧ t.pwr.retain = true ∧ t.pwr.selfRef = true) ∧
      (st = 3 → t.pwr.railok = 0x80 ∧ t.mem = [])) ∧
  (∀ s : State, (s.answers .host = true →
      (s.pwr.busy = .none → s.pwr.sst ≠ 0 → exec .wake s = .next { s with pwr := { s.pwr with busy := .wake } }) ∧
      ∀ st w, s.pwr.busy = .sleep st w → exec .wake s = .next { s with pwr := { s.pwr with wakeReq := true } }) ∧
    (s.pwr.busy = .wake → s.clk.wait = [] → GoesTo (exec .woke s) fun t => t.pwr.sst = 0 ∧ t.pwr.busy = .none ∧
      t.shows .pwr 3 = true ∧ (s.pwr.sst = 3 → t.pwr.railok = 0xFF ∧ t.pkg.quayOut = true))) ∧
  (∀ (s : State) (pl : Nat) (w : Waiting), s.pwr.busy = .level pl (some w) → s.clk.wait = [] →
    GoesTo (exec .levelChangeComplete s) fun t => t.pwr.pl = pl ∧ t.pwr.busy = .none ∧ t.shows .pwr 1 = true ∧ Ends s t w 0) ∧
  (∀ (s : State) (rail mv : Nat) (fault : Bool), rail < 13 → s.pwr.railok.getLsbD (railBit rail) = true → mv < 65536 → s.periph 2 = true →
    (fault = true ∨ offTarget mv (s.railTarget rail) = true → GoesTo (exec (.railTelemetry rail mv fault) s) fun t =>
      tfind t.pwr.read rail = some mv ∧ t.shows .pwr 0 = true) ∧
    (fault = false → offTarget mv (s.railTarget rail) = false → exec (.railTelemetry rail mv fault) s =
      .next { s with pwr := { s.pwr with read := tset s.pwr.read rail mv } })) ∧
  (∀ (s : State) (temps : List Int), temps.length = 21 →
    (s.kly.up = true → GoesTo (exec (.temperatureRead temps) s) fun t => t.pkg.temps = temps ∧ t.run = s.run) ∧
    ((∀ x ∈ temps, x < 105) → s.pkg.emerg = false →
      exec (.thermalCheck temps) s = .next { s with pkg := { s.pkg with temps := temps } }) ∧
    ((∃ x ∈ temps, 105 ≤ x) → (∀ x ∈ temps, x < 115) → s.pkg.emerg = false → s.armed = true → s.paired = false →
      GoesTo (exec (.thermalCheck temps) s) fun t => t.pkg.emerg = true ∧ t.run.faultAt = some s.cn ∧ t.pwr.busy = .none) ∧
    ((∃ x ∈ temps, 105 ≤ x) → (∀ x ∈ temps, x < 115) → s.armed = false → s.kly.up = true → s.pkg.cool = false →
      GoesTo (exec (.thermalCheck temps) s) fun t => t.pkg.emerg = true ∧ t.pkg.alert = true ∧ t.pkg.cool = true ∧ t.pwr.railok = 0x80 ∧
        t.pwr.sst = 0) ∧
    ((∃ x ∈ temps, 115 ≤ x) → GoesTo (exec (.thermalCheck temps) s) fun t => t.pkg.trip = true ∧ t.pkg.alert = true ∧
      t.pwr.railok = 0x80 ∧ t.pwr.sst = 0 ∧ t.armed = false ∧ t.out.fdecZ = true)) ∧
  (∀ s : State, s.cooled = true →
    GoesTo (exec .thermalRecovery s) fun t => t.pwr.railok = 0xFF ∧ t.pkg.quayOut = true ∧ t.pkg.emerg = false ∧ t.pkg.trip = false ∧
      t.pkg.cool = false ∧ t.kly.up = false) ∧
  (∀ (s : State) (lane : Nat) (counts : List (BitVec 32)) (w : Waiting), lane < 64 →
    (s.kly.longs.find? fun w => w.req.op.toNat == 0x0A04 && w.req.opd 0 == BitVec.ofNat 64 lane) = some w →
    GoesTo (exec (.eyescanComplete lane counts) s) fun t => Ends s t w 0 ∧ (t.sextOf lane).busy = false ∧
      (t.sextOf lane).done = 4096 ∧ t.shows (.sxt lane) 2 = true ∧
      t.host.dma = tputs 0 s.host.dma (w.req.opd 3).toNat
        ((counts.take (if (s.lane lane).rate ≤ 1 then 12288 else 4096)).flatMap fun c => leBytes 4 c.toNat))
end

