-- ==== Sys2Proof/Laws/State.lean ====
section
/-! SUPPORT. What each named update of State leaves alone, one lemma per field per update, so that no later proof unfolds a
record update; and what a store reads as after an update of it. -/

namespace Sys2Proof.Machine

/-! ### setCell -/

@[simp] theorem State.setCell_pending (s : State) (k : Nat) (c : Cell) : (s.setCell k c).pending = s.pending := rfl
@[simp] theorem State.setCell_freeCtr (s : State) (k : Nat) (c : Cell) : (s.setCell k c).freeCtr = s.freeCtr := rfl
@[simp] theorem State.setCell_cn (s : State) (k : Nat) (c : Cell) : (s.setCell k c).cn = s.cn := rfl
@[simp] theorem State.setCell_tick (s : State) (k : Nat) (c : Cell) : (s.setCell k c).tick = s.tick := rfl
@[simp] theorem State.setCell_dev (s : State) (k : Nat) (c : Cell) : (s.setCell k c).dev = s.dev := rfl
@[simp] theorem State.setCell_clk (s : State) (k : Nat) (c : Cell) : (s.setCell k c).clk = s.clk := rfl
@[simp] theorem State.setCell_pwr (s : State) (k : Nat) (c : Cell) : (s.setCell k c).pwr = s.pwr := rfl
@[simp] theorem State.setCell_boot (s : State) (k : Nat) (c : Cell) : (s.setCell k c).boot = s.boot := rfl
@[simp] theorem State.setCell_pkg (s : State) (k : Nat) (c : Cell) : (s.setCell k c).pkg = s.pkg := rfl
@[simp] theorem State.setCell_host (s : State) (k : Nat) (c : Cell) : (s.setCell k c).host = s.host := rfl
@[simp] theorem State.setCell_cig (s : State) (k : Nat) (c : Cell) : (s.setCell k c).cig = s.cig := rfl
@[simp] theorem State.setCell_evts (s : State) (k : Nat) (c : Cell) : (s.setCell k c).evts = s.evts := rfl
@[simp] theorem State.setCell_ctrs (s : State) (k : Nat) (c : Cell) : (s.setCell k c).ctrs = s.ctrs := rfl
@[simp] theorem State.setCell_flags (s : State) (k : Nat) (c : Cell) : (s.setCell k c).flags = s.flags := rfl
@[simp] theorem State.setCell_mbx (s : State) (k : Nat) (c : Cell) : (s.setCell k c).mbx = s.mbx := rfl
@[simp] theorem State.setCell_jnl (s : State) (k : Nat) (c : Cell) : (s.setCell k c).jnl = s.jnl := rfl
@[simp] theorem State.setCell_kly (s : State) (k : Nat) (c : Cell) : (s.setCell k c).kly = s.kly := rfl
@[simp] theorem State.setCell_log (s : State) (k : Nat) (c : Cell) : (s.setCell k c).log = s.log := rfl
@[simp] theorem State.setCell_run (s : State) (k : Nat) (c : Cell) : (s.setCell k c).run = s.run := rfl
@[simp] theorem State.setCell_planes (s : State) (k : Nat) (c : Cell) : (s.setCell k c).planes = s.planes := rfl
@[simp] theorem State.setCell_wgm (s : State) (k : Nat) (c : Cell) : (s.setCell k c).wgm = s.wgm := rfl
@[simp] theorem State.setCell_alm (s : State) (k : Nat) (c : Cell) : (s.setCell k c).alm = s.alm := rfl
@[simp] theorem State.setCell_chan (s : State) (k : Nat) (c : Cell) : (s.setCell k c).chan = s.chan := rfl
@[simp] theorem State.setCell_cap (s : State) (k : Nat) (c : Cell) : (s.setCell k c).cap = s.cap := rfl
@[simp] theorem State.setCell_mem (s : State) (k : Nat) (c : Cell) : (s.setCell k c).mem = s.mem := rfl
@[simp] theorem State.setCell_sram (s : State) (k : Nat) (c : Cell) : (s.setCell k c).sram = s.sram := rfl
@[simp] theorem State.setCell_lanes (s : State) (k : Nat) (c : Cell) : (s.setCell k c).lanes = s.lanes := rfl
@[simp] theorem State.setCell_sext (s : State) (k : Nat) (c : Cell) : (s.setCell k c).sext = s.sext := rfl
@[simp] theorem State.setCell_hub (s : State) (k : Nat) (c : Cell) : (s.setCell k c).hub = s.hub := rfl
@[simp] theorem State.setCell_out (s : State) (k : Nat) (c : Cell) : (s.setCell k c).out = s.out := rfl
@[simp] theorem State.setCell_pair (s : State) (k : Nat) (c : Cell) : (s.setCell k c).pair = s.pair := rfl
@[simp] theorem State.setCell_chr (s : State) (k : Nat) (c : Cell) : (s.setCell k c).chr = s.chr := rfl

/-! ### setLane -/

@[simp] theorem State.setLane_pending (s : State) (l : Nat) (x : Lane) : (s.setLane l x).pending = s.pending := rfl
@[simp] theorem State.setLane_freeCtr (s : State) (l : Nat) (x : Lane) : (s.setLane l x).freeCtr = s.freeCtr := rfl
@[simp] theorem State.setLane_cn (s : State) (l : Nat) (x : Lane) : (s.setLane l x).cn = s.cn := rfl
@[simp] theorem State.setLane_tick (s : State) (l : Nat) (x : Lane) : (s.setLane l x).tick = s.tick := rfl
@[simp] theorem State.setLane_dev (s : State) (l : Nat) (x : Lane) : (s.setLane l x).dev = s.dev := rfl
@[simp] theorem State.setLane_clk (s : State) (l : Nat) (x : Lane) : (s.setLane l x).clk = s.clk := rfl
@[simp] theorem State.setLane_pwr (s : State) (l : Nat) (x : Lane) : (s.setLane l x).pwr = s.pwr := rfl
@[simp] theorem State.setLane_boot (s : State) (l : Nat) (x : Lane) : (s.setLane l x).boot = s.boot := rfl
@[simp] theorem State.setLane_pkg (s : State) (l : Nat) (x : Lane) : (s.setLane l x).pkg = s.pkg := rfl
@[simp] theorem State.setLane_host (s : State) (l : Nat) (x : Lane) : (s.setLane l x).host = s.host := rfl
@[simp] theorem State.setLane_cig (s : State) (l : Nat) (x : Lane) : (s.setLane l x).cig = s.cig := rfl
@[simp] theorem State.setLane_evts (s : State) (l : Nat) (x : Lane) : (s.setLane l x).evts = s.evts := rfl
@[simp] theorem State.setLane_ctrs (s : State) (l : Nat) (x : Lane) : (s.setLane l x).ctrs = s.ctrs := rfl
@[simp] theorem State.setLane_flags (s : State) (l : Nat) (x : Lane) : (s.setLane l x).flags = s.flags := rfl
@[simp] theorem State.setLane_mbx (s : State) (l : Nat) (x : Lane) : (s.setLane l x).mbx = s.mbx := rfl
@[simp] theorem State.setLane_jnl (s : State) (l : Nat) (x : Lane) : (s.setLane l x).jnl = s.jnl := rfl
@[simp] theorem State.setLane_kly (s : State) (l : Nat) (x : Lane) : (s.setLane l x).kly = s.kly := rfl
@[simp] theorem State.setLane_log (s : State) (l : Nat) (x : Lane) : (s.setLane l x).log = s.log := rfl
@[simp] theorem State.setLane_run (s : State) (l : Nat) (x : Lane) : (s.setLane l x).run = s.run := rfl
@[simp] theorem State.setLane_planes (s : State) (l : Nat) (x : Lane) : (s.setLane l x).planes = s.planes := rfl
@[simp] theorem State.setLane_arr (s : State) (l : Nat) (x : Lane) : (s.setLane l x).arr = s.arr := rfl
@[simp] theorem State.setLane_wgm (s : State) (l : Nat) (x : Lane) : (s.setLane l x).wgm = s.wgm := rfl
@[simp] theorem State.setLane_alm (s : State) (l : Nat) (x : Lane) : (s.setLane l x).alm = s.alm := rfl
@[simp] theorem State.setLane_chan (s : State) (l : Nat) (x : Lane) : (s.setLane l x).chan = s.chan := rfl
@[simp] theorem State.setLane_cap (s : State) (l : Nat) (x : Lane) : (s.setLane l x).cap = s.cap := rfl
@[simp] theorem State.setLane_mem (s : State) (l : Nat) (x : Lane) : (s.setLane l x).mem = s.mem := rfl
@[simp] theorem State.setLane_sram (s : State) (l : Nat) (x : Lane) : (s.setLane l x).sram = s.sram := rfl
@[simp] theorem State.setLane_sext (s : State) (l : Nat) (x : Lane) : (s.setLane l x).sext = s.sext := rfl
@[simp] theorem State.setLane_hub (s : State) (l : Nat) (x : Lane) : (s.setLane l x).hub = s.hub := rfl
@[simp] theorem State.setLane_out (s : State) (l : Nat) (x : Lane) : (s.setLane l x).out = s.out := rfl
@[simp] theorem State.setLane_pair (s : State) (l : Nat) (x : Lane) : (s.setLane l x).pair = s.pair := rfl
@[simp] theorem State.setLane_chr (s : State) (l : Nat) (x : Lane) : (s.setLane l x).chr = s.chr := rfl

/-! ### setSext -/

@[simp] theorem State.setSext_pending (s : State) (l : Nat) (x : Sext) : (s.setSext l x).pending = s.pending := rfl
@[simp] theorem State.setSext_freeCtr (s : State) (l : Nat) (x : Sext) : (s.setSext l x).freeCtr = s.freeCtr := rfl
@[simp] theorem State.setSext_cn (s : State) (l : Nat) (x : Sext) : (s.setSext l x).cn = s.cn := rfl
@[simp] theorem State.setSext_tick (s : State) (l : Nat) (x : Sext) : (s.setSext l x).tick = s.tick := rfl
@[simp] theorem State.setSext_dev (s : State) (l : Nat) (x : Sext) : (s.setSext l x).dev = s.dev := rfl
@[simp] theorem State.setSext_clk (s : State) (l : Nat) (x : Sext) : (s.setSext l x).clk = s.clk := rfl
@[simp] theorem State.setSext_pwr (s : State) (l : Nat) (x : Sext) : (s.setSext l x).pwr = s.pwr := rfl
@[simp] theorem State.setSext_boot (s : State) (l : Nat) (x : Sext) : (s.setSext l x).boot = s.boot := rfl
@[simp] theorem State.setSext_pkg (s : State) (l : Nat) (x : Sext) : (s.setSext l x).pkg = s.pkg := rfl
@[simp] theorem State.setSext_host (s : State) (l : Nat) (x : Sext) : (s.setSext l x).host = s.host := rfl
@[simp] theorem State.setSext_cig (s : State) (l : Nat) (x : Sext) : (s.setSext l x).cig = s.cig := rfl
@[simp] theorem State.setSext_evts (s : State) (l : Nat) (x : Sext) : (s.setSext l x).evts = s.evts := rfl
@[simp] theorem State.setSext_ctrs (s : State) (l : Nat) (x : Sext) : (s.setSext l x).ctrs = s.ctrs := rfl
@[simp] theorem State.setSext_flags (s : State) (l : Nat) (x : Sext) : (s.setSext l x).flags = s.flags := rfl
@[simp] theorem State.setSext_mbx (s : State) (l : Nat) (x : Sext) : (s.setSext l x).mbx = s.mbx := rfl
@[simp] theorem State.setSext_jnl (s : State) (l : Nat) (x : Sext) : (s.setSext l x).jnl = s.jnl := rfl
@[simp] theorem State.setSext_kly (s : State) (l : Nat) (x : Sext) : (s.setSext l x).kly = s.kly := rfl
@[simp] theorem State.setSext_log (s : State) (l : Nat) (x : Sext) : (s.setSext l x).log = s.log := rfl
@[simp] theorem State.setSext_run (s : State) (l : Nat) (x : Sext) : (s.setSext l x).run = s.run := rfl
@[simp] theorem State.setSext_planes (s : State) (l : Nat) (x : Sext) : (s.setSext l x).planes = s.planes := rfl
@[simp] theorem State.setSext_arr (s : State) (l : Nat) (x : Sext) : (s.setSext l x).arr = s.arr := rfl
@[simp] theorem State.setSext_wgm (s : State) (l : Nat) (x : Sext) : (s.setSext l x).wgm = s.wgm := rfl
@[simp] theorem State.setSext_alm (s : State) (l : Nat) (x : Sext) : (s.setSext l x).alm = s.alm := rfl
@[simp] theorem State.setSext_chan (s : State) (l : Nat) (x : Sext) : (s.setSext l x).chan = s.chan := rfl
@[simp] theorem State.setSext_cap (s : State) (l : Nat) (x : Sext) : (s.setSext l x).cap = s.cap := rfl
@[simp] theorem State.setSext_mem (s : State) (l : Nat) (x : Sext) : (s.setSext l x).mem = s.mem := rfl
@[simp] theorem State.setSext_sram (s : State) (l : Nat) (x : Sext) : (s.setSext l x).sram = s.sram := rfl
@[simp] theorem State.setSext_lanes (s : State) (l : Nat) (x : Sext) : (s.setSext l x).lanes = s.lanes := rfl
@[simp] theorem State.setSext_hub (s : State) (l : Nat) (x : Sext) : (s.setSext l x).hub = s.hub := rfl
@[simp] theorem State.setSext_out (s : State) (l : Nat) (x : Sext) : (s.setSext l x).out = s.out := rfl
@[simp] theorem State.setSext_pair (s : State) (l : Nat) (x : Sext) : (s.setSext l x).pair = s.pair := rfl
@[simp] theorem State.setSext_chr (s : State) (l : Nat) (x : Sext) : (s.setSext l x).chr = s.chr := rfl

/-! ### setHub -/

@[simp] theorem State.setHub_pending (s : State) (l : Nat) (x : HubLane) : (s.setHub l x).pending = s.pending := rfl
@[simp] theorem State.setHub_freeCtr (s : State) (l : Nat) (x : HubLane) : (s.setHub l x).freeCtr = s.freeCtr := rfl
@[simp] theorem State.setHub_cn (s : State) (l : Nat) (x : HubLane) : (s.setHub l x).cn = s.cn := rfl
@[simp] theorem State.setHub_tick (s : State) (l : Nat) (x : HubLane) : (s.setHub l x).tick = s.tick := rfl
@[simp] theorem State.setHub_dev (s : State) (l : Nat) (x : HubLane) : (s.setHub l x).dev = s.dev := rfl
@[simp] theorem State.setHub_clk (s : State) (l : Nat) (x : HubLane) : (s.setHub l x).clk = s.clk := rfl
@[simp] theorem State.setHub_pwr (s : State) (l : Nat) (x : HubLane) : (s.setHub l x).pwr = s.pwr := rfl
@[simp] theorem State.setHub_boot (s : State) (l : Nat) (x : HubLane) : (s.setHub l x).boot = s.boot := rfl
@[simp] theorem State.setHub_pkg (s : State) (l : Nat) (x : HubLane) : (s.setHub l x).pkg = s.pkg := rfl
@[simp] theorem State.setHub_host (s : State) (l : Nat) (x : HubLane) : (s.setHub l x).host = s.host := rfl
@[simp] theorem State.setHub_cig (s : State) (l : Nat) (x : HubLane) : (s.setHub l x).cig = s.cig := rfl
@[simp] theorem State.setHub_evts (s : State) (l : Nat) (x : HubLane) : (s.setHub l x).evts = s.evts := rfl
@[simp] theorem State.setHub_ctrs (s : State) (l : Nat) (x : HubLane) : (s.setHub l x).ctrs = s.ctrs := rfl
@[simp] theorem State.setHub_flags (s : State) (l : Nat) (x : HubLane) : (s.setHub l x).flags = s.flags := rfl
@[simp] theorem State.setHub_mbx (s : State) (l : Nat) (x : HubLane) : (s.setHub l x).mbx = s.mbx := rfl
@[simp] theorem State.setHub_jnl (s : State) (l : Nat) (x : HubLane) : (s.setHub l x).jnl = s.jnl := rfl
@[simp] theorem State.setHub_kly (s : State) (l : Nat) (x : HubLane) : (s.setHub l x).kly = s.kly := rfl
@[simp] theorem State.setHub_log (s : State) (l : Nat) (x : HubLane) : (s.setHub l x).log = s.log := rfl
@[simp] theorem State.setHub_run (s : State) (l : Nat) (x : HubLane) : (s.setHub l x).run = s.run := rfl
@[simp] theorem State.setHub_planes (s : State) (l : Nat) (x : HubLane) : (s.setHub l x).planes = s.planes := rfl
@[simp] theorem State.setHub_arr (s : State) (l : Nat) (x : HubLane) : (s.setHub l x).arr = s.arr := rfl
@[simp] theorem State.setHub_wgm (s : State) (l : Nat) (x : HubLane) : (s.setHub l x).wgm = s.wgm := rfl
@[simp] theorem State.setHub_alm (s : State) (l : Nat) (x : HubLane) : (s.setHub l x).alm = s.alm := rfl
@[simp] theorem State.setHub_chan (s : State) (l : Nat) (x : HubLane) : (s.setHub l x).chan = s.chan := rfl
@[simp] theorem State.setHub_cap (s : State) (l : Nat) (x : HubLane) : (s.setHub l x).cap = s.cap := rfl
@[simp] theorem State.setHub_mem (s : State) (l : Nat) (x : HubLane) : (s.setHub l x).mem = s.mem := rfl
@[simp] theorem State.setHub_sram (s : State) (l : Nat) (x : HubLane) : (s.setHub l x).sram = s.sram := rfl
@[simp] theorem State.setHub_lanes (s : State) (l : Nat) (x : HubLane) : (s.setHub l x).lanes = s.lanes := rfl
@[simp] theorem State.setHub_sext (s : State) (l : Nat) (x : HubLane) : (s.setHub l x).sext = s.sext := rfl
@[simp] theorem State.setHub_out (s : State) (l : Nat) (x : HubLane) : (s.setHub l x).out = s.out := rfl
@[simp] theorem State.setHub_pair (s : State) (l : Nat) (x : HubLane) : (s.setHub l x).pair = s.pair := rfl
@[simp] theorem State.setHub_chr (s : State) (l : Nat) (x : HubLane) : (s.setHub l x).chr = s.chr := rfl

/-! ### setCtx -/

@[simp] theorem State.setCtx_pending (s : State) (x : Nat) (c : Ctx) : (s.setCtx x c).pending = s.pending := rfl
@[simp] theorem State.setCtx_freeCtr (s : State) (x : Nat) (c : Ctx) : (s.setCtx x c).freeCtr = s.freeCtr := rfl
@[simp] theorem State.setCtx_cn (s : State) (x : Nat) (c : Ctx) : (s.setCtx x c).cn = s.cn := rfl
@[simp] theorem State.setCtx_tick (s : State) (x : Nat) (c : Ctx) : (s.setCtx x c).tick = s.tick := rfl
@[simp] theorem State.setCtx_dev (s : State) (x : Nat) (c : Ctx) : (s.setCtx x c).dev = s.dev := rfl
@[simp] theorem State.setCtx_clk (s : State) (x : Nat) (c : Ctx) : (s.setCtx x c).clk = s.clk := rfl
@[simp] theorem State.setCtx_pwr (s : State) (x : Nat) (c : Ctx) : (s.setCtx x c).pwr = s.pwr := rfl
@[simp] theorem State.setCtx_boot (s : State) (x : Nat) (c : Ctx) : (s.setCtx x c).boot = s.boot := rfl
@[simp] theorem State.setCtx_pkg (s : State) (x : Nat) (c : Ctx) : (s.setCtx x c).pkg = s.pkg := rfl
@[simp] theorem State.setCtx_host (s : State) (x : Nat) (c : Ctx) : (s.setCtx x c).host = s.host := rfl
@[simp] theorem State.setCtx_cig (s : State) (x : Nat) (c : Ctx) : (s.setCtx x c).cig = s.cig := rfl
@[simp] theorem State.setCtx_evts (s : State) (x : Nat) (c : Ctx) : (s.setCtx x c).evts = s.evts := rfl
@[simp] theorem State.setCtx_ctrs (s : State) (x : Nat) (c : Ctx) : (s.setCtx x c).ctrs = s.ctrs := rfl
@[simp] theorem State.setCtx_flags (s : State) (x : Nat) (c : Ctx) : (s.setCtx x c).flags = s.flags := rfl
@[simp] theorem State.setCtx_mbx (s : State) (x : Nat) (c : Ctx) : (s.setCtx x c).mbx = s.mbx := rfl
@[simp] theorem State.setCtx_jnl (s : State) (x : Nat) (c : Ctx) : (s.setCtx x c).jnl = s.jnl := rfl
@[simp] theorem State.setCtx_kly (s : State) (x : Nat) (c : Ctx) : (s.setCtx x c).kly = s.kly := rfl
@[simp] theorem State.setCtx_log (s : State) (x : Nat) (c : Ctx) : (s.setCtx x c).log = s.log := rfl
@[simp] theorem State.setCtx_run (s : State) (x : Nat) (c : Ctx) : (s.setCtx x c).run = s.run := rfl
@[simp] theorem State.setCtx_planes (s : State) (x : Nat) (c : Ctx) : (s.setCtx x c).planes = s.planes := rfl
@[simp] theorem State.setCtx_arr (s : State) (x : Nat) (c : Ctx) : (s.setCtx x c).arr = s.arr := rfl
@[simp] theorem State.setCtx_wgm (s : State) (x : Nat) (c : Ctx) : (s.setCtx x c).wgm = s.wgm := rfl
@[simp] theorem State.setCtx_alm (s : State) (x : Nat) (c : Ctx) : (s.setCtx x c).alm = s.alm := rfl
@[simp] theorem State.setCtx_cap (s : State) (x : Nat) (c : Ctx) : (s.setCtx x c).cap = s.cap := rfl
@[simp] theorem State.setCtx_mem (s : State) (x : Nat) (c : Ctx) : (s.setCtx x c).mem = s.mem := rfl
@[simp] theorem State.setCtx_sram (s : State) (x : Nat) (c : Ctx) : (s.setCtx x c).sram = s.sram := rfl
@[simp] theorem State.setCtx_lanes (s : State) (x : Nat) (c : Ctx) : (s.setCtx x c).lanes = s.lanes := rfl
@[simp] theorem State.setCtx_sext (s : State) (x : Nat) (c : Ctx) : (s.setCtx x c).sext = s.sext := rfl
@[simp] theorem State.setCtx_hub (s : State) (x : Nat) (c : Ctx) : (s.setCtx x c).hub = s.hub := rfl
@[simp] theorem State.setCtx_out (s : State) (x : Nat) (c : Ctx) : (s.setCtx x c).out = s.out := rfl
@[simp] theorem State.setCtx_pair (s : State) (x : Nat) (c : Ctx) : (s.setCtx x c).pair = s.pair := rfl
@[simp] theorem State.setCtx_chr (s : State) (x : Nat) (c : Ctx) : (s.setCtx x c).chr = s.chr := rfl

/-! ### setTensor -/

@[simp] theorem State.setTensor_pending (s : State) (k : Nat) (t : Tensor) : (s.setTensor k t).pending = s.pending := rfl
@[simp] theorem State.setTensor_freeCtr (s : State) (k : Nat) (t : Tensor) : (s.setTensor k t).freeCtr = s.freeCtr := rfl
@[simp] theorem State.setTensor_cn (s : State) (k : Nat) (t : Tensor) : (s.setTensor k t).cn = s.cn := rfl
@[simp] theorem State.setTensor_tick (s : State) (k : Nat) (t : Tensor) : (s.setTensor k t).tick = s.tick := rfl
@[simp] theorem State.setTensor_dev (s : State) (k : Nat) (t : Tensor) : (s.setTensor k t).dev = s.dev := rfl
@[simp] theorem State.setTensor_clk (s : State) (k : Nat) (t : Tensor) : (s.setTensor k t).clk = s.clk := rfl
@[simp] theorem State.setTensor_pwr (s : State) (k : Nat) (t : Tensor) : (s.setTensor k t).pwr = s.pwr := rfl
@[simp] theorem State.setTensor_boot (s : State) (k : Nat) (t : Tensor) : (s.setTensor k t).boot = s.boot := rfl
@[simp] theorem State.setTensor_pkg (s : State) (k : Nat) (t : Tensor) : (s.setTensor k t).pkg = s.pkg := rfl
@[simp] theorem State.setTensor_host (s : State) (k : Nat) (t : Tensor) : (s.setTensor k t).host = s.host := rfl
@[simp] theorem State.setTensor_cig (s : State) (k : Nat) (t : Tensor) : (s.setTensor k t).cig = s.cig := rfl
@[simp] theorem State.setTensor_evts (s : State) (k : Nat) (t : Tensor) : (s.setTensor k t).evts = s.evts := rfl
@[simp] theorem State.setTensor_ctrs (s : State) (k : Nat) (t : Tensor) : (s.setTensor k t).ctrs = s.ctrs := rfl
@[simp] theorem State.setTensor_flags (s : State) (k : Nat) (t : Tensor) : (s.setTensor k t).flags = s.flags := rfl
@[simp] theorem State.setTensor_mbx (s : State) (k : Nat) (t : Tensor) : (s.setTensor k t).mbx = s.mbx := rfl
@[simp] theorem State.setTensor_jnl (s : State) (k : Nat) (t : Tensor) : (s.setTensor k t).jnl = s.jnl := rfl
@[simp] theorem State.setTensor_kly (s : State) (k : Nat) (t : Tensor) : (s.setTensor k t).kly = s.kly := rfl
@[simp] theorem State.setTensor_log (s : State) (k : Nat) (t : Tensor) : (s.setTensor k t).log = s.log := rfl
@[simp] theorem State.setTensor_run (s : State) (k : Nat) (t : Tensor) : (s.setTensor k t).run = s.run := rfl
@[simp] theorem State.setTensor_planes (s : State) (k : Nat) (t : Tensor) : (s.setTensor k t).planes = s.planes := rfl
@[simp] theorem State.setTensor_arr (s : State) (k : Nat) (t : Tensor) : (s.setTensor k t).arr = s.arr := rfl
@[simp] theorem State.setTensor_alm (s : State) (k : Nat) (t : Tensor) : (s.setTensor k t).alm = s.alm := rfl
@[simp] theorem State.setTensor_chan (s : State) (k : Nat) (t : Tensor) : (s.setTensor k t).chan = s.chan := rfl
@[simp] theorem State.setTensor_cap (s : State) (k : Nat) (t : Tensor) : (s.setTensor k t).cap = s.cap := rfl
@[simp] theorem State.setTensor_mem (s : State) (k : Nat) (t : Tensor) : (s.setTensor k t).mem = s.mem := rfl
@[simp] theorem State.setTensor_sram (s : State) (k : Nat) (t : Tensor) : (s.setTensor k t).sram = s.sram := rfl
@[simp] theorem State.setTensor_lanes (s : State) (k : Nat) (t : Tensor) : (s.setTensor k t).lanes = s.lanes := rfl
@[simp] theorem State.setTensor_sext (s : State) (k : Nat) (t : Tensor) : (s.setTensor k t).sext = s.sext := rfl
@[simp] theorem State.setTensor_hub (s : State) (k : Nat) (t : Tensor) : (s.setTensor k t).hub = s.hub := rfl
@[simp] theorem State.setTensor_out (s : State) (k : Nat) (t : Tensor) : (s.setTensor k t).out = s.out := rfl
@[simp] theorem State.setTensor_pair (s : State) (k : Nat) (t : Tensor) : (s.setTensor k t).pair = s.pair := rfl
@[simp] theorem State.setTensor_chr (s : State) (k : Nat) (t : Tensor) : (s.setTensor k t).chr = s.chr := rfl

/-! ### setMbx -/

@[simp] theorem State.setMbx_pending (s : State) (m : Nat) (x : Mbx) : (s.setMbx m x).pending = s.pending := rfl
@[simp] theorem State.setMbx_freeCtr (s : State) (m : Nat) (x : Mbx) : (s.setMbx m x).freeCtr = s.freeCtr := rfl
@[simp] theorem State.setMbx_cn (s : State) (m : Nat) (x : Mbx) : (s.setMbx m x).cn = s.cn := rfl
@[simp] theorem State.setMbx_tick (s : State) (m : Nat) (x : Mbx) : (s.setMbx m x).tick = s.tick := rfl
@[simp] theorem State.setMbx_dev (s : State) (m : Nat) (x : Mbx) : (s.setMbx m x).dev = s.dev := rfl
@[simp] theorem State.setMbx_clk (s : State) (m : Nat) (x : Mbx) : (s.setMbx m x).clk = s.clk := rfl
@[simp] theorem State.setMbx_pwr (s : State) (m : Nat) (x : Mbx) : (s.setMbx m x).pwr = s.pwr := rfl
@[simp] theorem State.setMbx_boot (s : State) (m : Nat) (x : Mbx) : (s.setMbx m x).boot = s.boot := rfl
@[simp] theorem State.setMbx_pkg (s : State) (m : Nat) (x : Mbx) : (s.setMbx m x).pkg = s.pkg := rfl
@[simp] theorem State.setMbx_host (s : State) (m : Nat) (x : Mbx) : (s.setMbx m x).host = s.host := rfl
@[simp] theorem State.setMbx_cig (s : State) (m : Nat) (x : Mbx) : (s.setMbx m x).cig = s.cig := rfl
@[simp] theorem State.setMbx_evts (s : State) (m : Nat) (x : Mbx) : (s.setMbx m x).evts = s.evts := rfl
@[simp] theorem State.setMbx_ctrs (s : State) (m : Nat) (x : Mbx) : (s.setMbx m x).ctrs = s.ctrs := rfl
@[simp] theorem State.setMbx_flags (s : State) (m : Nat) (x : Mbx) : (s.setMbx m x).flags = s.flags := rfl
@[simp] theorem State.setMbx_jnl (s : State) (m : Nat) (x : Mbx) : (s.setMbx m x).jnl = s.jnl := rfl
@[simp] theorem State.setMbx_kly (s : State) (m : Nat) (x : Mbx) : (s.setMbx m x).kly = s.kly := rfl
@[simp] theorem State.setMbx_log (s : State) (m : Nat) (x : Mbx) : (s.setMbx m x).log = s.log := rfl
@[simp] theorem State.setMbx_run (s : State) (m : Nat) (x : Mbx) : (s.setMbx m x).run = s.run := rfl
@[simp] theorem State.setMbx_planes (s : State) (m : Nat) (x : Mbx) : (s.setMbx m x).planes = s.planes := rfl
@[simp] theorem State.setMbx_arr (s : State) (m : Nat) (x : Mbx) : (s.setMbx m x).arr = s.arr := rfl
@[simp] theorem State.setMbx_wgm (s : State) (m : Nat) (x : Mbx) : (s.setMbx m x).wgm = s.wgm := rfl
@[simp] theorem State.setMbx_alm (s : State) (m : Nat) (x : Mbx) : (s.setMbx m x).alm = s.alm := rfl
@[simp] theorem State.setMbx_chan (s : State) (m : Nat) (x : Mbx) : (s.setMbx m x).chan = s.chan := rfl
@[simp] theorem State.setMbx_cap (s : State) (m : Nat) (x : Mbx) : (s.setMbx m x).cap = s.cap := rfl
@[simp] theorem State.setMbx_mem (s : State) (m : Nat) (x : Mbx) : (s.setMbx m x).mem = s.mem := rfl
@[simp] theorem State.setMbx_sram (s : State) (m : Nat) (x : Mbx) : (s.setMbx m x).sram = s.sram := rfl
@[simp] theorem State.setMbx_lanes (s : State) (m : Nat) (x : Mbx) : (s.setMbx m x).lanes = s.lanes := rfl
@[simp] theorem State.setMbx_sext (s : State) (m : Nat) (x : Mbx) : (s.setMbx m x).sext = s.sext := rfl
@[simp] theorem State.setMbx_hub (s : State) (m : Nat) (x : Mbx) : (s.setMbx m x).hub = s.hub := rfl
@[simp] theorem State.setMbx_out (s : State) (m : Nat) (x : Mbx) : (s.setMbx m x).out = s.out := rfl
@[simp] theorem State.setMbx_pair (s : State) (m : Nat) (x : Mbx) : (s.setMbx m x).pair = s.pair := rfl
@[simp] theorem State.setMbx_chr (s : State) (m : Nat) (x : Mbx) : (s.setMbx m x).chr = s.chr := rfl

/-! ### setTab -/

@[simp] theorem State.setTab_pending (s : State) (t : Nat) (x : AlmTab) : (s.setTab t x).pending = s.pending := rfl
@[simp] theorem State.setTab_freeCtr (s : State) (t : Nat) (x : AlmTab) : (s.setTab t x).freeCtr = s.freeCtr := rfl
@[simp] theorem State.setTab_cn (s : State) (t : Nat) (x : AlmTab) : (s.setTab t x).cn = s.cn := rfl
@[simp] theorem State.setTab_tick (s : State) (t : Nat) (x : AlmTab) : (s.setTab t x).tick = s.tick := rfl
@[simp] theorem State.setTab_dev (s : State) (t : Nat) (x : AlmTab) : (s.setTab t x).dev = s.dev := rfl
@[simp] theorem State.setTab_clk (s : State) (t : Nat) (x : AlmTab) : (s.setTab t x).clk = s.clk := rfl
@[simp] theorem State.setTab_pwr (s : State) (t : Nat) (x : AlmTab) : (s.setTab t x).pwr = s.pwr := rfl
@[simp] theorem State.setTab_boot (s : State) (t : Nat) (x : AlmTab) : (s.setTab t x).boot = s.boot := rfl
@[simp] theorem State.setTab_pkg (s : State) (t : Nat) (x : AlmTab) : (s.setTab t x).pkg = s.pkg := rfl
@[simp] theorem State.setTab_host (s : State) (t : Nat) (x : AlmTab) : (s.setTab t x).host = s.host := rfl
@[simp] theorem State.setTab_cig (s : State) (t : Nat) (x : AlmTab) : (s.setTab t x).cig = s.cig := rfl
@[simp] theorem State.setTab_evts (s : State) (t : Nat) (x : AlmTab) : (s.setTab t x).evts = s.evts := rfl
@[simp] theorem State.setTab_ctrs (s : State) (t : Nat) (x : AlmTab) : (s.setTab t x).ctrs = s.ctrs := rfl
@[simp] theorem State.setTab_flags (s : State) (t : Nat) (x : AlmTab) : (s.setTab t x).flags = s.flags := rfl
@[simp] theorem State.setTab_mbx (s : State) (t : Nat) (x : AlmTab) : (s.setTab t x).mbx = s.mbx := rfl
@[simp] theorem State.setTab_jnl (s : State) (t : Nat) (x : AlmTab) : (s.setTab t x).jnl = s.jnl := rfl
@[simp] theorem State.setTab_kly (s : State) (t : Nat) (x : AlmTab) : (s.setTab t x).kly = s.kly := rfl
@[simp] theorem State.setTab_log (s : State) (t : Nat) (x : AlmTab) : (s.setTab t x).log = s.log := rfl
@[simp] theorem State.setTab_run (s : State) (t : Nat) (x : AlmTab) : (s.setTab t x).run = s.run := rfl
@[simp] theorem State.setTab_planes (s : State) (t : Nat) (x : AlmTab) : (s.setTab t x).planes = s.planes := rfl
@[simp] theorem State.setTab_arr (s : State) (t : Nat) (x : AlmTab) : (s.setTab t x).arr = s.arr := rfl
@[simp] theorem State.setTab_wgm (s : State) (t : Nat) (x : AlmTab) : (s.setTab t x).wgm = s.wgm := rfl
@[simp] theorem State.setTab_chan (s : State) (t : Nat) (x : AlmTab) : (s.setTab t x).chan = s.chan := rfl
@[simp] theorem State.setTab_cap (s : State) (t : Nat) (x : AlmTab) : (s.setTab t x).cap = s.cap := rfl
@[simp] theorem State.setTab_mem (s : State) (t : Nat) (x : AlmTab) : (s.setTab t x).mem = s.mem := rfl
@[simp] theorem State.setTab_sram (s : State) (t : Nat) (x : AlmTab) : (s.setTab t x).sram = s.sram := rfl
@[simp] theorem State.setTab_lanes (s : State) (t : Nat) (x : AlmTab) : (s.setTab t x).lanes = s.lanes := rfl
@[simp] theorem State.setTab_sext (s : State) (t : Nat) (x : AlmTab) : (s.setTab t x).sext = s.sext := rfl
@[simp] theorem State.setTab_hub (s : State) (t : Nat) (x : AlmTab) : (s.setTab t x).hub = s.hub := rfl
@[simp] theorem State.setTab_out (s : State) (t : Nat) (x : AlmTab) : (s.setTab t x).out = s.out := rfl
@[simp] theorem State.setTab_pair (s : State) (t : Nat) (x : AlmTab) : (s.setTab t x).pair = s.pair := rfl
@[simp] theorem State.setTab_chr (s : State) (t : Nat) (x : AlmTab) : (s.setTab t x).chr = s.chr := rfl

/-! ### setBeacon -/

@[simp] theorem State.setBeacon_pending (s : State) (b : Nat) (x : Beacon) : (s.setBeacon b x).pending = s.pending := rfl
@[simp] theorem State.setBeacon_freeCtr (s : State) (b : Nat) (x : Beacon) : (s.setBeacon b x).freeCtr = s.freeCtr := rfl
@[simp] theorem State.setBeacon_cn (s : State) (b : Nat) (x : Beacon) : (s.setBeacon b x).cn = s.cn := rfl
@[simp] theorem State.setBeacon_tick (s : State) (b : Nat) (x : Beacon) : (s.setBeacon b x).tick = s.tick := rfl
@[simp] theorem State.setBeacon_dev (s : State) (b : Nat) (x : Beacon) : (s.setBeacon b x).dev = s.dev := rfl
@[simp] theorem State.setBeacon_clk (s : State) (b : Nat) (x : Beacon) : (s.setBeacon b x).clk = s.clk := rfl
@[simp] theorem State.setBeacon_pwr (s : State) (b : Nat) (x : Beacon) : (s.setBeacon b x).pwr = s.pwr := rfl
@[simp] theorem State.setBeacon_boot (s : State) (b : Nat) (x : Beacon) : (s.setBeacon b x).boot = s.boot := rfl
@[simp] theorem State.setBeacon_pkg (s : State) (b : Nat) (x : Beacon) : (s.setBeacon b x).pkg = s.pkg := rfl
@[simp] theorem State.setBeacon_host (s : State) (b : Nat) (x : Beacon) : (s.setBeacon b x).host = s.host := rfl
@[simp] theorem State.setBeacon_cig (s : State) (b : Nat) (x : Beacon) : (s.setBeacon b x).cig = s.cig := rfl
@[simp] theorem State.setBeacon_evts (s : State) (b : Nat) (x : Beacon) : (s.setBeacon b x).evts = s.evts := rfl
@[simp] theorem State.setBeacon_ctrs (s : State) (b : Nat) (x : Beacon) : (s.setBeacon b x).ctrs = s.ctrs := rfl
@[simp] theorem State.setBeacon_flags (s : State) (b : Nat) (x : Beacon) : (s.setBeacon b x).flags = s.flags := rfl
@[simp] theorem State.setBeacon_mbx (s : State) (b : Nat) (x : Beacon) : (s.setBeacon b x).mbx = s.mbx := rfl
@[simp] theorem State.setBeacon_jnl (s : State) (b : Nat) (x : Beacon) : (s.setBeacon b x).jnl = s.jnl := rfl
@[simp] theorem State.setBeacon_kly (s : State) (b : Nat) (x : Beacon) : (s.setBeacon b x).kly = s.kly := rfl
@[simp] theorem State.setBeacon_log (s : State) (b : Nat) (x : Beacon) : (s.setBeacon b x).log = s.log := rfl
@[simp] theorem State.setBeacon_run (s : State) (b : Nat) (x : Beacon) : (s.setBeacon b x).run = s.run := rfl
@[simp] theorem State.setBeacon_planes (s : State) (b : Nat) (x : Beacon) : (s.setBeacon b x).planes = s.planes := rfl
@[simp] theorem State.setBeacon_arr (s : State) (b : Nat) (x : Beacon) : (s.setBeacon b x).arr = s.arr := rfl
@[simp] theorem State.setBeacon_wgm (s : State) (b : Nat) (x : Beacon) : (s.setBeacon b x).wgm = s.wgm := rfl
@[simp] theorem State.setBeacon_alm (s : State) (b : Nat) (x : Beacon) : (s.setBeacon b x).alm = s.alm := rfl
@[simp] theorem State.setBeacon_cap (s : State) (b : Nat) (x : Beacon) : (s.setBeacon b x).cap = s.cap := rfl
@[simp] theorem State.setBeacon_mem (s : State) (b : Nat) (x : Beacon) : (s.setBeacon b x).mem = s.mem := rfl
@[simp] theorem State.setBeacon_sram (s : State) (b : Nat) (x : Beacon) : (s.setBeacon b x).sram = s.sram := rfl
@[simp] theorem State.setBeacon_lanes (s : State) (b : Nat) (x : Beacon) : (s.setBeacon b x).lanes = s.lanes := rfl
@[simp] theorem State.setBeacon_sext (s : State) (b : Nat) (x : Beacon) : (s.setBeacon b x).sext = s.sext := rfl
@[simp] theorem State.setBeacon_hub (s : State) (b : Nat) (x : Beacon) : (s.setBeacon b x).hub = s.hub := rfl
@[simp] theorem State.setBeacon_out (s : State) (b : Nat) (x : Beacon) : (s.setBeacon b x).out = s.out := rfl
@[simp] theorem State.setBeacon_pair (s : State) (b : Nat) (x : Beacon) : (s.setBeacon b x).pair = s.pair := rfl
@[simp] theorem State.setBeacon_chr (s : State) (b : Nat) (x : Beacon) : (s.setBeacon b x).chr = s.chr := rfl

/-! ### setPulse -/

@[simp] theorem State.setPulse_pending (s : State) (p : Nat) (x : Pulse) : (s.setPulse p x).pending = s.pending := rfl
@[simp] theorem State.setPulse_freeCtr (s : State) (p : Nat) (x : Pulse) : (s.setPulse p x).freeCtr = s.freeCtr := rfl
@[simp] theorem State.setPulse_cn (s : State) (p : Nat) (x : Pulse) : (s.setPulse p x).cn = s.cn := rfl
@[simp] theorem State.setPulse_tick (s : State) (p : Nat) (x : Pulse) : (s.setPulse p x).tick = s.tick := rfl
@[simp] theorem State.setPulse_dev (s : State) (p : Nat) (x : Pulse) : (s.setPulse p x).dev = s.dev := rfl
@[simp] theorem State.setPulse_clk (s : State) (p : Nat) (x : Pulse) : (s.setPulse p x).clk = s.clk := rfl
@[simp] theorem State.setPulse_pwr (s : State) (p : Nat) (x : Pulse) : (s.setPulse p x).pwr = s.pwr := rfl
@[simp] theorem State.setPulse_boot (s : State) (p : Nat) (x : Pulse) : (s.setPulse p x).boot = s.boot := rfl
@[simp] theorem State.setPulse_pkg (s : State) (p : Nat) (x : Pulse) : (s.setPulse p x).pkg = s.pkg := rfl
@[simp] theorem State.setPulse_host (s : State) (p : Nat) (x : Pulse) : (s.setPulse p x).host = s.host := rfl
@[simp] theorem State.setPulse_cig (s : State) (p : Nat) (x : Pulse) : (s.setPulse p x).cig = s.cig := rfl
@[simp] theorem State.setPulse_evts (s : State) (p : Nat) (x : Pulse) : (s.setPulse p x).evts = s.evts := rfl
@[simp] theorem State.setPulse_ctrs (s : State) (p : Nat) (x : Pulse) : (s.setPulse p x).ctrs = s.ctrs := rfl
@[simp] theorem State.setPulse_flags (s : State) (p : Nat) (x : Pulse) : (s.setPulse p x).flags = s.flags := rfl
@[simp] theorem State.setPulse_mbx (s : State) (p : Nat) (x : Pulse) : (s.setPulse p x).mbx = s.mbx := rfl
@[simp] theorem State.setPulse_jnl (s : State) (p : Nat) (x : Pulse) : (s.setPulse p x).jnl = s.jnl := rfl
@[simp] theorem State.setPulse_kly (s : State) (p : Nat) (x : Pulse) : (s.setPulse p x).kly = s.kly := rfl
@[simp] theorem State.setPulse_log (s : State) (p : Nat) (x : Pulse) : (s.setPulse p x).log = s.log := rfl
@[simp] theorem State.setPulse_run (s : State) (p : Nat) (x : Pulse) : (s.setPulse p x).run = s.run := rfl
@[simp] theorem State.setPulse_planes (s : State) (p : Nat) (x : Pulse) : (s.setPulse p x).planes = s.planes := rfl
@[simp] theorem State.setPulse_arr (s : State) (p : Nat) (x : Pulse) : (s.setPulse p x).arr = s.arr := rfl
@[simp] theorem State.setPulse_wgm (s : State) (p : Nat) (x : Pulse) : (s.setPulse p x).wgm = s.wgm := rfl
@[simp] theorem State.setPulse_alm (s : State) (p : Nat) (x : Pulse) : (s.setPulse p x).alm = s.alm := rfl
@[simp] theorem State.setPulse_chan (s : State) (p : Nat) (x : Pulse) : (s.setPulse p x).chan = s.chan := rfl
@[simp] theorem State.setPulse_cap (s : State) (p : Nat) (x : Pulse) : (s.setPulse p x).cap = s.cap := rfl
@[simp] theorem State.setPulse_mem (s : State) (p : Nat) (x : Pulse) : (s.setPulse p x).mem = s.mem := rfl
@[simp] theorem State.setPulse_sram (s : State) (p : Nat) (x : Pulse) : (s.setPulse p x).sram = s.sram := rfl
@[simp] theorem State.setPulse_lanes (s : State) (p : Nat) (x : Pulse) : (s.setPulse p x).lanes = s.lanes := rfl
@[simp] theorem State.setPulse_sext (s : State) (p : Nat) (x : Pulse) : (s.setPulse p x).sext = s.sext := rfl
@[simp] theorem State.setPulse_hub (s : State) (p : Nat) (x : Pulse) : (s.setPulse p x).hub = s.hub := rfl
@[simp] theorem State.setPulse_out (s : State) (p : Nat) (x : Pulse) : (s.setPulse p x).out = s.out := rfl
@[simp] theorem State.setPulse_pair (s : State) (p : Nat) (x : Pulse) : (s.setPulse p x).pair = s.pair := rfl

/-! ### count -/

@[simp] theorem State.count_pending (s : State) (i : CtrId) (k : Nat) : (s.count i k).pending = s.pending := rfl
@[simp] theorem State.count_freeCtr (s : State) (i : CtrId) (k : Nat) : (s.count i k).freeCtr = s.freeCtr := rfl
@[simp] theorem State.count_cn (s : State) (i : CtrId) (k : Nat) : (s.count i k).cn = s.cn := rfl
@[simp] theorem State.count_tick (s : State) (i : CtrId) (k : Nat) : (s.count i k).tick = s.tick := rfl
@[simp] theorem State.count_dev (s : State) (i : CtrId) (k : Nat) : (s.count i k).dev = s.dev := rfl
@[simp] theorem State.count_clk (s : State) (i : CtrId) (k : Nat) : (s.count i k).clk = s.clk := rfl
@[simp] theorem State.count_pwr (s : State) (i : CtrId) (k : Nat) : (s.count i k).pwr = s.pwr := rfl
@[simp] theorem State.count_boot (s : State) (i : CtrId) (k : Nat) : (s.count i k).boot = s.boot := rfl
@[simp] theorem State.count_pkg (s : State) (i : CtrId) (k : Nat) : (s.count i k).pkg = s.pkg := rfl
@[simp] theorem State.count_host (s : State) (i : CtrId) (k : Nat) : (s.count i k).host = s.host := rfl
@[simp] theorem State.count_cig (s : State) (i : CtrId) (k : Nat) : (s.count i k).cig = s.cig := rfl
@[simp] theorem State.count_evts (s : State) (i : CtrId) (k : Nat) : (s.count i k).evts = s.evts := rfl
@[simp] theorem State.count_flags (s : State) (i : CtrId) (k : Nat) : (s.count i k).flags = s.flags := rfl
@[simp] theorem State.count_mbx (s : State) (i : CtrId) (k : Nat) : (s.count i k).mbx = s.mbx := rfl
@[simp] theorem State.count_jnl (s : State) (i : CtrId) (k : Nat) : (s.count i k).jnl = s.jnl := rfl
@[simp] theorem State.count_kly (s : State) (i : CtrId) (k : Nat) : (s.count i k).kly = s.kly := rfl
@[simp] theorem State.count_log (s : State) (i : CtrId) (k : Nat) : (s.count i k).log = s.log := rfl
@[simp] theorem State.count_run (s : State) (i : CtrId) (k : Nat) : (s.count i k).run = s.run := rfl
@[simp] theorem State.count_planes (s : State) (i : CtrId) (k : Nat) : (s.count i k).planes = s.planes := rfl
@[simp] theorem State.count_arr (s : State) (i : CtrId) (k : Nat) : (s.count i k).arr = s.arr := rfl
@[simp] theorem State.count_wgm (s : State) (i : CtrId) (k : Nat) : (s.count i k).wgm = s.wgm := rfl
@[simp] theorem State.count_alm (s : State) (i : CtrId) (k : Nat) : (s.count i k).alm = s.alm := rfl
@[simp] theorem State.count_chan (s : State) (i : CtrId) (k : Nat) : (s.count i k).chan = s.chan := rfl
@[simp] theorem State.count_cap (s : State) (i : CtrId) (k : Nat) : (s.count i k).cap = s.cap := rfl
@[simp] theorem State.count_mem (s : State) (i : CtrId) (k : Nat) : (s.count i k).mem = s.mem := rfl
@[simp] theorem State.count_sram (s : State) (i : CtrId) (k : Nat) : (s.count i k).sram = s.sram := rfl
@[simp] theorem State.count_lanes (s : State) (i : CtrId) (k : Nat) : (s.count i k).lanes = s.lanes := rfl
@[simp] theorem State.count_sext (s : State) (i : CtrId) (k : Nat) : (s.count i k).sext = s.sext := rfl
@[simp] theorem State.count_hub (s : State) (i : CtrId) (k : Nat) : (s.count i k).hub = s.hub := rfl
@[simp] theorem State.count_out (s : State) (i : CtrId) (k : Nat) : (s.count i k).out = s.out := rfl
@[simp] theorem State.count_pair (s : State) (i : CtrId) (k : Nat) : (s.count i k).pair = s.pair := rfl
@[simp] theorem State.count_chr (s : State) (i : CtrId) (k : Nat) : (s.count i k).chr = s.chr := rfl

/-! ### bumpFree -/

@[simp] theorem State.bumpFree_pending (s : State) : (s.bumpFree).pending = s.pending := rfl
@[simp] theorem State.bumpFree_cn (s : State) : (s.bumpFree).cn = s.cn := rfl
@[simp] theorem State.bumpFree_tick (s : State) : (s.bumpFree).tick = s.tick := rfl
@[simp] theorem State.bumpFree_dev (s : State) : (s.bumpFree).dev = s.dev := rfl
@[simp] theorem State.bumpFree_clk (s : State) : (s.bumpFree).clk = s.clk := rfl
@[simp] theorem State.bumpFree_pwr (s : State) : (s.bumpFree).pwr = s.pwr := rfl
@[simp] theorem State.bumpFree_boot (s : State) : (s.bumpFree).boot = s.boot := rfl
@[simp] theorem State.bumpFree_pkg (s : State) : (s.bumpFree).pkg = s.pkg := rfl
@[simp] theorem State.bumpFree_host (s : State) : (s.bumpFree).host = s.host := rfl
@[simp] theorem State.bumpFree_cig (s : State) : (s.bumpFree).cig = s.cig := rfl
@[simp] theorem State.bumpFree_evts (s : State) : (s.bumpFree).evts = s.evts := rfl
@[simp] theorem State.bumpFree_ctrs (s : State) : (s.bumpFree).ctrs = s.ctrs := rfl
@[simp] theorem State.bumpFree_flags (s : State) : (s.bumpFree).flags = s.flags := rfl
@[simp] theorem State.bumpFree_mbx (s : State) : (s.bumpFree).mbx = s.mbx := rfl
@[simp] theorem State.bumpFree_jnl (s : State) : (s.bumpFree).jnl = s.jnl := rfl
@[simp] theorem State.bumpFree_kly (s : State) : (s.bumpFree).kly = s.kly := rfl
@[simp] theorem State.bumpFree_log (s : State) : (s.bumpFree).log = s.log := rfl
@[simp] theorem State.bumpFree_run (s : State) : (s.bumpFree).run = s.run := rfl
@[simp] theorem State.bumpFree_planes (s : State) : (s.bumpFree).planes = s.planes := rfl
@[simp] theorem State.bumpFree_arr (s : State) : (s.bumpFree).arr = s.arr := rfl
@[simp] theorem State.bumpFree_wgm (s : State) : (s.bumpFree).wgm = s.wgm := rfl
@[simp] theorem State.bumpFree_alm (s : State) : (s.bumpFree).alm = s.alm := rfl
@[simp] theorem State.bumpFree_chan (s : State) : (s.bumpFree).chan = s.chan := rfl
@[simp] theorem State.bumpFree_cap (s : State) : (s.bumpFree).cap = s.cap := rfl
@[simp] theorem State.bumpFree_mem (s : State) : (s.bumpFree).mem = s.mem := rfl
@[simp] theorem State.bumpFree_sram (s : State) : (s.bumpFree).sram = s.sram := rfl
@[simp] theorem State.bumpFree_lanes (s : State) : (s.bumpFree).lanes = s.lanes := rfl
@[simp] theorem State.bumpFree_sext (s : State) : (s.bumpFree).sext = s.sext := rfl
@[simp] theorem State.bumpFree_hub (s : State) : (s.bumpFree).hub = s.hub := rfl
@[simp] theorem State.bumpFree_out (s : State) : (s.bumpFree).out = s.out := rfl
@[simp] theorem State.bumpFree_pair (s : State) : (s.bumpFree).pair = s.pair := rfl
@[simp] theorem State.bumpFree_chr (s : State) : (s.bumpFree).chr = s.chr := rfl

/-! ### jAdd -/

@[simp] theorem State.jAdd_pending (s : State) (e : JEnt) : (s.jAdd e).pending = s.pending := rfl
@[simp] theorem State.jAdd_freeCtr (s : State) (e : JEnt) : (s.jAdd e).freeCtr = s.freeCtr := rfl
@[simp] theorem State.jAdd_cn (s : State) (e : JEnt) : (s.jAdd e).cn = s.cn := rfl
@[simp] theorem State.jAdd_tick (s : State) (e : JEnt) : (s.jAdd e).tick = s.tick := rfl
@[simp] theorem State.jAdd_dev (s : State) (e : JEnt) : (s.jAdd e).dev = s.dev := rfl
@[simp] theorem State.jAdd_clk (s : State) (e : JEnt) : (s.jAdd e).clk = s.clk := rfl
@[simp] theorem State.jAdd_pwr (s : State) (e : JEnt) : (s.jAdd e).pwr = s.pwr := rfl
@[simp] theorem State.jAdd_boot (s : State) (e : JEnt) : (s.jAdd e).boot = s.boot := rfl
@[simp] theorem State.jAdd_pkg (s : State) (e : JEnt) : (s.jAdd e).pkg = s.pkg := rfl
@[simp] theorem State.jAdd_host (s : State) (e : JEnt) : (s.jAdd e).host = s.host := rfl
@[simp] theorem State.jAdd_cig (s : State) (e : JEnt) : (s.jAdd e).cig = s.cig := rfl
@[simp] theorem State.jAdd_evts (s : State) (e : JEnt) : (s.jAdd e).evts = s.evts := rfl
@[simp] theorem State.jAdd_ctrs (s : State) (e : JEnt) : (s.jAdd e).ctrs = s.ctrs := rfl
@[simp] theorem State.jAdd_flags (s : State) (e : JEnt) : (s.jAdd e).flags = s.flags := rfl
@[simp] theorem State.jAdd_mbx (s : State) (e : JEnt) : (s.jAdd e).mbx = s.mbx := rfl
@[simp] theorem State.jAdd_kly (s : State) (e : JEnt) : (s.jAdd e).kly = s.kly := rfl
@[simp] theorem State.jAdd_log (s : State) (e : JEnt) : (s.jAdd e).log = s.log := rfl
@[simp] theorem State.jAdd_run (s : State) (e : JEnt) : (s.jAdd e).run = s.run := rfl
@[simp] theorem State.jAdd_planes (s : State) (e : JEnt) : (s.jAdd e).planes = s.planes := rfl
@[simp] theorem State.jAdd_arr (s : State) (e : JEnt) : (s.jAdd e).arr = s.arr := rfl
@[simp] theorem State.jAdd_wgm (s : State) (e : JEnt) : (s.jAdd e).wgm = s.wgm := rfl
@[simp] theorem State.jAdd_alm (s : State) (e : JEnt) : (s.jAdd e).alm = s.alm := rfl
@[simp] theorem State.jAdd_chan (s : State) (e : JEnt) : (s.jAdd e).chan = s.chan := rfl
@[simp] theorem State.jAdd_cap (s : State) (e : JEnt) : (s.jAdd e).cap = s.cap := rfl
@[simp] theorem State.jAdd_mem (s : State) (e : JEnt) : (s.jAdd e).mem = s.mem := rfl
@[simp] theorem State.jAdd_sram (s : State) (e : JEnt) : (s.jAdd e).sram = s.sram := rfl
@[simp] theorem State.jAdd_lanes (s : State) (e : JEnt) : (s.jAdd e).lanes = s.lanes := rfl
@[simp] theorem State.jAdd_sext (s : State) (e : JEnt) : (s.jAdd e).sext = s.sext := rfl
@[simp] theorem State.jAdd_hub (s : State) (e : JEnt) : (s.jAdd e).hub = s.hub := rfl
@[simp] theorem State.jAdd_out (s : State) (e : JEnt) : (s.jAdd e).out = s.out := rfl
@[simp] theorem State.jAdd_pair (s : State) (e : JEnt) : (s.jAdd e).pair = s.pair := rfl
@[simp] theorem State.jAdd_chr (s : State) (e : JEnt) : (s.jAdd e).chr = s.chr := rfl

/-! ### jEffect -/

@[simp] theorem State.jEffect_pending (s : State) (q : Nat) (c : CN) : (s.jEffect q c).pending = s.pending := rfl
@[simp] theorem State.jEffect_freeCtr (s : State) (q : Nat) (c : CN) : (s.jEffect q c).freeCtr = s.freeCtr := rfl
@[simp] theorem State.jEffect_cn (s : State) (q : Nat) (c : CN) : (s.jEffect q c).cn = s.cn := rfl
@[simp] theorem State.jEffect_tick (s : State) (q : Nat) (c : CN) : (s.jEffect q c).tick = s.tick := rfl
@[simp] theorem State.jEffect_dev (s : State) (q : Nat) (c : CN) : (s.jEffect q c).dev = s.dev := rfl
@[simp] theorem State.jEffect_clk (s : State) (q : Nat) (c : CN) : (s.jEffect q c).clk = s.clk := rfl
@[simp] theorem State.jEffect_pwr (s : State) (q : Nat) (c : CN) : (s.jEffect q c).pwr = s.pwr := rfl
@[simp] theorem State.jEffect_boot (s : State) (q : Nat) (c : CN) : (s.jEffect q c).boot = s.boot := rfl
@[simp] theorem State.jEffect_pkg (s : State) (q : Nat) (c : CN) : (s.jEffect q c).pkg = s.pkg := rfl
@[simp] theorem State.jEffect_host (s : State) (q : Nat) (c : CN) : (s.jEffect q c).host = s.host := rfl
@[simp] theorem State.jEffect_cig (s : State) (q : Nat) (c : CN) : (s.jEffect q c).cig = s.cig := rfl
@[simp] theorem State.jEffect_evts (s : State) (q : Nat) (c : CN) : (s.jEffect q c).evts = s.evts := rfl
@[simp] theorem State.jEffect_ctrs (s : State) (q : Nat) (c : CN) : (s.jEffect q c).ctrs = s.ctrs := rfl
@[simp] theorem State.jEffect_flags (s : State) (q : Nat) (c : CN) : (s.jEffect q c).flags = s.flags := rfl
@[simp] theorem State.jEffect_mbx (s : State) (q : Nat) (c : CN) : (s.jEffect q c).mbx = s.mbx := rfl
@[simp] theorem State.jEffect_kly (s : State) (q : Nat) (c : CN) : (s.jEffect q c).kly = s.kly := rfl
@[simp] theorem State.jEffect_log (s : State) (q : Nat) (c : CN) : (s.jEffect q c).log = s.log := rfl
@[simp] theorem State.jEffect_run (s : State) (q : Nat) (c : CN) : (s.jEffect q c).run = s.run := rfl
@[simp] theorem State.jEffect_planes (s : State) (q : Nat) (c : CN) : (s.jEffect q c).planes = s.planes := rfl
@[simp] theorem State.jEffect_arr (s : State) (q : Nat) (c : CN) : (s.jEffect q c).arr = s.arr := rfl
@[simp] theorem State.jEffect_wgm (s : State) (q : Nat) (c : CN) : (s.jEffect q c).wgm = s.wgm := rfl
@[simp] theorem State.jEffect_alm (s : State) (q : Nat) (c : CN) : (s.jEffect q c).alm = s.alm := rfl
@[simp] theorem State.jEffect_chan (s : State) (q : Nat) (c : CN) : (s.jEffect q c).chan = s.chan := rfl
@[simp] theorem State.jEffect_cap (s : State) (q : Nat) (c : CN) : (s.jEffect q c).cap = s.cap := rfl
@[simp] theorem State.jEffect_mem (s : State) (q : Nat) (c : CN) : (s.jEffect q c).mem = s.mem := rfl
@[simp] theorem State.jEffect_sram (s : State) (q : Nat) (c : CN) : (s.jEffect q c).sram = s.sram := rfl
@[simp] theorem State.jEffect_lanes (s : State) (q : Nat) (c : CN) : (s.jEffect q c).lanes = s.lanes := rfl
@[simp] theorem State.jEffect_sext (s : State) (q : Nat) (c : CN) : (s.jEffect q c).sext = s.sext := rfl
@[simp] theorem State.jEffect_hub (s : State) (q : Nat) (c : CN) : (s.jEffect q c).hub = s.hub := rfl
@[simp] theorem State.jEffect_out (s : State) (q : Nat) (c : CN) : (s.jEffect q c).out = s.out := rfl
@[simp] theorem State.jEffect_pair (s : State) (q : Nat) (c : CN) : (s.jEffect q c).pair = s.pair := rfl
@[simp] theorem State.jEffect_chr (s : State) (q : Nat) (c : CN) : (s.jEffect q c).chr = s.chr := rfl

/-! ### jEnd -/

@[simp] theorem State.jEnd_pending (s : State) (q : Nat) (st : JSt) (c : BitVec 16) (r : Dword) : (s.jEnd q st c r).pending = s.pending := rfl
@[simp] theorem State.jEnd_freeCtr (s : State) (q : Nat) (st : JSt) (c : BitVec 16) (r : Dword) : (s.jEnd q st c r).freeCtr = s.freeCtr := rfl
@[simp] theorem State.jEnd_cn (s : State) (q : Nat) (st : JSt) (c : BitVec 16) (r : Dword) : (s.jEnd q st c r).cn = s.cn := rfl
@[simp] theorem State.jEnd_tick (s : State) (q : Nat) (st : JSt) (c : BitVec 16) (r : Dword) : (s.jEnd q st c r).tick = s.tick := rfl
@[simp] theorem State.jEnd_dev (s : State) (q : Nat) (st : JSt) (c : BitVec 16) (r : Dword) : (s.jEnd q st c r).dev = s.dev := rfl
@[simp] theorem State.jEnd_clk (s : State) (q : Nat) (st : JSt) (c : BitVec 16) (r : Dword) : (s.jEnd q st c r).clk = s.clk := rfl
@[simp] theorem State.jEnd_pwr (s : State) (q : Nat) (st : JSt) (c : BitVec 16) (r : Dword) : (s.jEnd q st c r).pwr = s.pwr := rfl
@[simp] theorem State.jEnd_boot (s : State) (q : Nat) (st : JSt) (c : BitVec 16) (r : Dword) : (s.jEnd q st c r).boot = s.boot := rfl
@[simp] theorem State.jEnd_pkg (s : State) (q : Nat) (st : JSt) (c : BitVec 16) (r : Dword) : (s.jEnd q st c r).pkg = s.pkg := rfl
@[simp] theorem State.jEnd_host (s : State) (q : Nat) (st : JSt) (c : BitVec 16) (r : Dword) : (s.jEnd q st c r).host = s.host := rfl
@[simp] theorem State.jEnd_cig (s : State) (q : Nat) (st : JSt) (c : BitVec 16) (r : Dword) : (s.jEnd q st c r).cig = s.cig := rfl
@[simp] theorem State.jEnd_evts (s : State) (q : Nat) (st : JSt) (c : BitVec 16) (r : Dword) : (s.jEnd q st c r).evts = s.evts := rfl
@[simp] theorem State.jEnd_ctrs (s : State) (q : Nat) (st : JSt) (c : BitVec 16) (r : Dword) : (s.jEnd q st c r).ctrs = s.ctrs := rfl
@[simp] theorem State.jEnd_flags (s : State) (q : Nat) (st : JSt) (c : BitVec 16) (r : Dword) : (s.jEnd q st c r).flags = s.flags := rfl
@[simp] theorem State.jEnd_mbx (s : State) (q : Nat) (st : JSt) (c : BitVec 16) (r : Dword) : (s.jEnd q st c r).mbx = s.mbx := rfl
@[simp] theorem State.jEnd_kly (s : State) (q : Nat) (st : JSt) (c : BitVec 16) (r : Dword) : (s.jEnd q st c r).kly = s.kly := rfl
@[simp] theorem State.jEnd_log (s : State) (q : Nat) (st : JSt) (c : BitVec 16) (r : Dword) : (s.jEnd q st c r).log = s.log := rfl
@[simp] theorem State.jEnd_run (s : State) (q : Nat) (st : JSt) (c : BitVec 16) (r : Dword) : (s.jEnd q st c r).run = s.run := rfl
@[simp] theorem State.jEnd_planes (s : State) (q : Nat) (st : JSt) (c : BitVec 16) (r : Dword) : (s.jEnd q st c r).planes = s.planes := rfl
@[simp] theorem State.jEnd_arr (s : State) (q : Nat) (st : JSt) (c : BitVec 16) (r : Dword) : (s.jEnd q st c r).arr = s.arr := rfl
@[simp] theorem State.jEnd_wgm (s : State) (q : Nat) (st : JSt) (c : BitVec 16) (r : Dword) : (s.jEnd q st c r).wgm = s.wgm := rfl
@[simp] theorem State.jEnd_alm (s : State) (q : Nat) (st : JSt) (c : BitVec 16) (r : Dword) : (s.jEnd q st c r).alm = s.alm := rfl
@[simp] theorem State.jEnd_chan (s : State) (q : Nat) (st : JSt) (c : BitVec 16) (r : Dword) : (s.jEnd q st c r).chan = s.chan := rfl
@[simp] theorem State.jEnd_cap (s : State) (q : Nat) (st : JSt) (c : BitVec 16) (r : Dword) : (s.jEnd q st c r).cap = s.cap := rfl
@[simp] theorem State.jEnd_mem (s : State) (q : Nat) (st : JSt) (c : BitVec 16) (r : Dword) : (s.jEnd q st c r).mem = s.mem := rfl
@[simp] theorem State.jEnd_sram (s : State) (q : Nat) (st : JSt) (c : BitVec 16) (r : Dword) : (s.jEnd q st c r).sram = s.sram := rfl
@[simp] theorem State.jEnd_lanes (s : State) (q : Nat) (st : JSt) (c : BitVec 16) (r : Dword) : (s.jEnd q st c r).lanes = s.lanes := rfl
@[simp] theorem State.jEnd_sext (s : State) (q : Nat) (st : JSt) (c : BitVec 16) (r : Dword) : (s.jEnd q st c r).sext = s.sext := rfl
@[simp] theorem State.jEnd_hub (s : State) (q : Nat) (st : JSt) (c : BitVec 16) (r : Dword) : (s.jEnd q st c r).hub = s.hub := rfl
@[simp] theorem State.jEnd_out (s : State) (q : Nat) (st : JSt) (c : BitVec 16) (r : Dword) : (s.jEnd q st c r).out = s.out := rfl
@[simp] theorem State.jEnd_pair (s : State) (q : Nat) (st : JSt) (c : BitVec 16) (r : Dword) : (s.jEnd q st c r).pair = s.pair := rfl
@[simp] theorem State.jEnd_chr (s : State) (q : Nat) (st : JSt) (c : BitVec 16) (r : Dword) : (s.jEnd q st c r).chr = s.chr := rfl

/-! ### dropLong -/

@[simp] theorem State.dropLong_pending (s : State) (w : Waiting) : (s.dropLong w).pending = s.pending := rfl
@[simp] theorem State.dropLong_freeCtr (s : State) (w : Waiting) : (s.dropLong w).freeCtr = s.freeCtr := rfl
@[simp] theorem State.dropLong_cn (s : State) (w : Waiting) : (s.dropLong w).cn = s.cn := rfl
@[simp] theorem State.dropLong_tick (s : State) (w : Waiting) : (s.dropLong w).tick = s.tick := rfl
@[simp] theorem State.dropLong_dev (s : State) (w : Waiting) : (s.dropLong w).dev = s.dev := rfl
@[simp] theorem State.dropLong_clk (s : State) (w : Waiting) : (s.dropLong w).clk = s.clk := rfl
@[simp] theorem State.dropLong_pwr (s : State) (w : Waiting) : (s.dropLong w).pwr = s.pwr := rfl
@[simp] theorem State.dropLong_boot (s : State) (w : Waiting) : (s.dropLong w).boot = s.boot := rfl
@[simp] theorem State.dropLong_pkg (s : State) (w : Waiting) : (s.dropLong w).pkg = s.pkg := rfl
@[simp] theorem State.dropLong_host (s : State) (w : Waiting) : (s.dropLong w).host = s.host := rfl
@[simp] theorem State.dropLong_cig (s : State) (w : Waiting) : (s.dropLong w).cig = s.cig := rfl
@[simp] theorem State.dropLong_evts (s : State) (w : Waiting) : (s.dropLong w).evts = s.evts := rfl
@[simp] theorem State.dropLong_ctrs (s : State) (w : Waiting) : (s.dropLong w).ctrs = s.ctrs := rfl
@[simp] theorem State.dropLong_flags (s : State) (w : Waiting) : (s.dropLong w).flags = s.flags := rfl
@[simp] theorem State.dropLong_mbx (s : State) (w : Waiting) : (s.dropLong w).mbx = s.mbx := rfl
@[simp] theorem State.dropLong_jnl (s : State) (w : Waiting) : (s.dropLong w).jnl = s.jnl := rfl
@[simp] theorem State.dropLong_log (s : State) (w : Waiting) : (s.dropLong w).log = s.log := rfl
@[simp] theorem State.dropLong_run (s : State) (w : Waiting) : (s.dropLong w).run = s.run := rfl
@[simp] theorem State.dropLong_planes (s : State) (w : Waiting) : (s.dropLong w).planes = s.planes := rfl
@[simp] theorem State.dropLong_arr (s : State) (w : Waiting) : (s.dropLong w).arr = s.arr := rfl
@[simp] theorem State.dropLong_wgm (s : State) (w : Waiting) : (s.dropLong w).wgm = s.wgm := rfl
@[simp] theorem State.dropLong_alm (s : State) (w : Waiting) : (s.dropLong w).alm = s.alm := rfl
@[simp] theorem State.dropLong_chan (s : State) (w : Waiting) : (s.dropLong w).chan = s.chan := rfl
@[simp] theorem State.dropLong_cap (s : State) (w : Waiting) : (s.dropLong w).cap = s.cap := rfl
@[simp] theorem State.dropLong_mem (s : State) (w : Waiting) : (s.dropLong w).mem = s.mem := rfl
@[simp] theorem State.dropLong_sram (s : State) (w : Waiting) : (s.dropLong w).sram = s.sram := rfl
@[simp] theorem State.dropLong_lanes (s : State) (w : Waiting) : (s.dropLong w).lanes = s.lanes := rfl
@[simp] theorem State.dropLong_sext (s : State) (w : Waiting) : (s.dropLong w).sext = s.sext := rfl
@[simp] theorem State.dropLong_hub (s : State) (w : Waiting) : (s.dropLong w).hub = s.hub := rfl
@[simp] theorem State.dropLong_out (s : State) (w : Waiting) : (s.dropLong w).out = s.out := rfl
@[simp] theorem State.dropLong_pair (s : State) (w : Waiting) : (s.dropLong w).pair = s.pair := rfl
@[simp] theorem State.dropLong_chr (s : State) (w : Waiting) : (s.dropLong w).chr = s.chr := rfl

/-! ### dropWaiting -/

@[simp] theorem State.dropWaiting_pending (s : State) (q : Nat) : (s.dropWaiting q).pending = s.pending := rfl
@[simp] theorem State.dropWaiting_freeCtr (s : State) (q : Nat) : (s.dropWaiting q).freeCtr = s.freeCtr := rfl
@[simp] theorem State.dropWaiting_cn (s : State) (q : Nat) : (s.dropWaiting q).cn = s.cn := rfl
@[simp] theorem State.dropWaiting_tick (s : State) (q : Nat) : (s.dropWaiting q).tick = s.tick := rfl
@[simp] theorem State.dropWaiting_dev (s : State) (q : Nat) : (s.dropWaiting q).dev = s.dev := rfl
@[simp] theorem State.dropWaiting_clk (s : State) (q : Nat) : (s.dropWaiting q).clk = s.clk := rfl
@[simp] theorem State.dropWaiting_pwr (s : State) (q : Nat) : (s.dropWaiting q).pwr = s.pwr := rfl
@[simp] theorem State.dropWaiting_boot (s : State) (q : Nat) : (s.dropWaiting q).boot = s.boot := rfl
@[simp] theorem State.dropWaiting_pkg (s : State) (q : Nat) : (s.dropWaiting q).pkg = s.pkg := rfl
@[simp] theorem State.dropWaiting_host (s : State) (q : Nat) : (s.dropWaiting q).host = s.host := rfl
@[simp] theorem State.dropWaiting_cig (s : State) (q : Nat) : (s.dropWaiting q).cig = s.cig := rfl
@[simp] theorem State.dropWaiting_evts (s : State) (q : Nat) : (s.dropWaiting q).evts = s.evts := rfl
@[simp] theorem State.dropWaiting_ctrs (s : State) (q : Nat) : (s.dropWaiting q).ctrs = s.ctrs := rfl
@[simp] theorem State.dropWaiting_flags (s : State) (q : Nat) : (s.dropWaiting q).flags = s.flags := rfl
@[simp] theorem State.dropWaiting_mbx (s : State) (q : Nat) : (s.dropWaiting q).mbx = s.mbx := rfl
@[simp] theorem State.dropWaiting_jnl (s : State) (q : Nat) : (s.dropWaiting q).jnl = s.jnl := rfl
@[simp] theorem State.dropWaiting_log (s : State) (q : Nat) : (s.dropWaiting q).log = s.log := rfl
@[simp] theorem State.dropWaiting_run (s : State) (q : Nat) : (s.dropWaiting q).run = s.run := rfl
@[simp] theorem State.dropWaiting_planes (s : State) (q : Nat) : (s.dropWaiting q).planes = s.planes := rfl
@[simp] theorem State.dropWaiting_arr (s : State) (q : Nat) : (s.dropWaiting q).arr = s.arr := rfl
@[simp] theorem State.dropWaiting_wgm (s : State) (q : Nat) : (s.dropWaiting q).wgm = s.wgm := rfl
@[simp] theorem State.dropWaiting_alm (s : State) (q : Nat) : (s.dropWaiting q).alm = s.alm := rfl
@[simp] theorem State.dropWaiting_chan (s : State) (q : Nat) : (s.dropWaiting q).chan = s.chan := rfl
@[simp] theorem State.dropWaiting_cap (s : State) (q : Nat) : (s.dropWaiting q).cap = s.cap := rfl
@[simp] theorem State.dropWaiting_mem (s : State) (q : Nat) : (s.dropWaiting q).mem = s.mem := rfl
@[simp] theorem State.dropWaiting_sram (s : State) (q : Nat) : (s.dropWaiting q).sram = s.sram := rfl
@[simp] theorem State.dropWaiting_lanes (s : State) (q : Nat) : (s.dropWaiting q).lanes = s.lanes := rfl
@[simp] theorem State.dropWaiting_sext (s : State) (q : Nat) : (s.dropWaiting q).sext = s.sext := rfl
@[simp] theorem State.dropWaiting_hub (s : State) (q : Nat) : (s.dropWaiting q).hub = s.hub := rfl
@[simp] theorem State.dropWaiting_out (s : State) (q : Nat) : (s.dropWaiting q).out = s.out := rfl
@[simp] theorem State.dropWaiting_pair (s : State) (q : Nat) : (s.dropWaiting q).pair = s.pair := rfl
@[simp] theorem State.dropWaiting_chr (s : State) (q : Nat) : (s.dropWaiting q).chr = s.chr := rfl

/-! ### await -/

@[simp] theorem State.await_pending (s : State) (w : Waiting) : (s.await w).pending = s.pending := rfl
@[simp] theorem State.await_freeCtr (s : State) (w : Waiting) : (s.await w).freeCtr = s.freeCtr := rfl
@[simp] theorem State.await_cn (s : State) (w : Waiting) : (s.await w).cn = s.cn := rfl
@[simp] theorem State.await_tick (s : State) (w : Waiting) : (s.await w).tick = s.tick := rfl
@[simp] theorem State.await_dev (s : State) (w : Waiting) : (s.await w).dev = s.dev := rfl
@[simp] theorem State.await_clk (s : State) (w : Waiting) : (s.await w).clk = s.clk := rfl
@[simp] theorem State.await_pwr (s : State) (w : Waiting) : (s.await w).pwr = s.pwr := rfl
@[simp] theorem State.await_boot (s : State) (w : Waiting) : (s.await w).boot = s.boot := rfl
@[simp] theorem State.await_pkg (s : State) (w : Waiting) : (s.await w).pkg = s.pkg := rfl
@[simp] theorem State.await_host (s : State) (w : Waiting) : (s.await w).host = s.host := rfl
@[simp] theorem State.await_cig (s : State) (w : Waiting) : (s.await w).cig = s.cig := rfl
@[simp] theorem State.await_evts (s : State) (w : Waiting) : (s.await w).evts = s.evts := rfl
@[simp] theorem State.await_ctrs (s : State) (w : Waiting) : (s.await w).ctrs = s.ctrs := rfl
@[simp] theorem State.await_flags (s : State) (w : Waiting) : (s.await w).flags = s.flags := rfl
@[simp] theorem State.await_mbx (s : State) (w : Waiting) : (s.await w).mbx = s.mbx := rfl
@[simp] theorem State.await_jnl (s : State) (w : Waiting) : (s.await w).jnl = s.jnl := rfl
@[simp] theorem State.await_log (s : State) (w : Waiting) : (s.await w).log = s.log := rfl
@[simp] theorem State.await_run (s : State) (w : Waiting) : (s.await w).run = s.run := rfl
@[simp] theorem State.await_planes (s : State) (w : Waiting) : (s.await w).planes = s.planes := rfl
@[simp] theorem State.await_arr (s : State) (w : Waiting) : (s.await w).arr = s.arr := rfl
@[simp] theorem State.await_wgm (s : State) (w : Waiting) : (s.await w).wgm = s.wgm := rfl
@[simp] theorem State.await_alm (s : State) (w : Waiting) : (s.await w).alm = s.alm := rfl
@[simp] theorem State.await_chan (s : State) (w : Waiting) : (s.await w).chan = s.chan := rfl
@[simp] theorem State.await_cap (s : State) (w : Waiting) : (s.await w).cap = s.cap := rfl
@[simp] theorem State.await_mem (s : State) (w : Waiting) : (s.await w).mem = s.mem := rfl
@[simp] theorem State.await_sram (s : State) (w : Waiting) : (s.await w).sram = s.sram := rfl
@[simp] theorem State.await_lanes (s : State) (w : Waiting) : (s.await w).lanes = s.lanes := rfl
@[simp] theorem State.await_sext (s : State) (w : Waiting) : (s.await w).sext = s.sext := rfl
@[simp] theorem State.await_hub (s : State) (w : Waiting) : (s.await w).hub = s.hub := rfl
@[simp] theorem State.await_out (s : State) (w : Waiting) : (s.await w).out = s.out := rfl
@[simp] theorem State.await_pair (s : State) (w : Waiting) : (s.await w).pair = s.pair := rfl
@[simp] theorem State.await_chr (s : State) (w : Waiting) : (s.await w).chr = s.chr := rfl

/-! ### awaitLong -/

@[simp] theorem State.awaitLong_pending (s : State) (w : Waiting) : (s.awaitLong w).pending = s.pending := rfl
@[simp] theorem State.awaitLong_freeCtr (s : State) (w : Waiting) : (s.awaitLong w).freeCtr = s.freeCtr := rfl
@[simp] theorem State.awaitLong_cn (s : State) (w : Waiting) : (s.awaitLong w).cn = s.cn := rfl
@[simp] theorem State.awaitLong_tick (s : State) (w : Waiting) : (s.awaitLong w).tick = s.tick := rfl
@[simp] theorem State.awaitLong_dev (s : State) (w : Waiting) : (s.awaitLong w).dev = s.dev := rfl
@[simp] theorem State.awaitLong_clk (s : State) (w : Waiting) : (s.awaitLong w).clk = s.clk := rfl
@[simp] theorem State.awaitLong_pwr (s : State) (w : Waiting) : (s.awaitLong w).pwr = s.pwr := rfl
@[simp] theorem State.awaitLong_boot (s : State) (w : Waiting) : (s.awaitLong w).boot = s.boot := rfl
@[simp] theorem State.awaitLong_pkg (s : State) (w : Waiting) : (s.awaitLong w).pkg = s.pkg := rfl
@[simp] theorem State.awaitLong_host (s : State) (w : Waiting) : (s.awaitLong w).host = s.host := rfl
@[simp] theorem State.awaitLong_cig (s : State) (w : Waiting) : (s.awaitLong w).cig = s.cig := rfl
@[simp] theorem State.awaitLong_evts (s : State) (w : Waiting) : (s.awaitLong w).evts = s.evts := rfl
@[simp] theorem State.awaitLong_ctrs (s : State) (w : Waiting) : (s.awaitLong w).ctrs = s.ctrs := rfl
@[simp] theorem State.awaitLong_flags (s : State) (w : Waiting) : (s.awaitLong w).flags = s.flags := rfl
@[simp] theorem State.awaitLong_mbx (s : State) (w : Waiting) : (s.awaitLong w).mbx = s.mbx := rfl
@[simp] theorem State.awaitLong_jnl (s : State) (w : Waiting) : (s.awaitLong w).jnl = s.jnl := rfl
@[simp] theorem State.awaitLong_log (s : State) (w : Waiting) : (s.awaitLong w).log = s.log := rfl
@[simp] theorem State.awaitLong_run (s : State) (w : Waiting) : (s.awaitLong w).run = s.run := rfl
@[simp] theorem State.awaitLong_planes (s : State) (w : Waiting) : (s.awaitLong w).planes = s.planes := rfl
@[simp] theorem State.awaitLong_arr (s : State) (w : Waiting) : (s.awaitLong w).arr = s.arr := rfl
@[simp] theorem State.awaitLong_wgm (s : State) (w : Waiting) : (s.awaitLong w).wgm = s.wgm := rfl
@[simp] theorem State.awaitLong_alm (s : State) (w : Waiting) : (s.awaitLong w).alm = s.alm := rfl
@[simp] theorem State.awaitLong_chan (s : State) (w : Waiting) : (s.awaitLong w).chan = s.chan := rfl
@[simp] theorem State.awaitLong_cap (s : State) (w : Waiting) : (s.awaitLong w).cap = s.cap := rfl
@[simp] theorem State.awaitLong_mem (s : State) (w : Waiting) : (s.awaitLong w).mem = s.mem := rfl
@[simp] theorem State.awaitLong_sram (s : State) (w : Waiting) : (s.awaitLong w).sram = s.sram := rfl
@[simp] theorem State.awaitLong_lanes (s : State) (w : Waiting) : (s.awaitLong w).lanes = s.lanes := rfl
@[simp] theorem State.awaitLong_sext (s : State) (w : Waiting) : (s.awaitLong w).sext = s.sext := rfl
@[simp] theorem State.awaitLong_hub (s : State) (w : Waiting) : (s.awaitLong w).hub = s.hub := rfl
@[simp] theorem State.awaitLong_out (s : State) (w : Waiting) : (s.awaitLong w).out = s.out := rfl
@[simp] theorem State.awaitLong_pair (s : State) (w : Waiting) : (s.awaitLong w).pair = s.pair := rfl
@[simp] theorem State.awaitLong_chr (s : State) (w : Waiting) : (s.awaitLong w).chr = s.chr := rfl

/-! ### sendFrame -/

@[simp] theorem State.sendFrame_pending (s : State) (l : Nat) (num : CN) (d : List Dword) : (s.sendFrame l num d).pending = s.pending := rfl
@[simp] theorem State.sendFrame_freeCtr (s : State) (l : Nat) (num : CN) (d : List Dword) : (s.sendFrame l num d).freeCtr = s.freeCtr := rfl
@[simp] theorem State.sendFrame_cn (s : State) (l : Nat) (num : CN) (d : List Dword) : (s.sendFrame l num d).cn = s.cn := rfl
@[simp] theorem State.sendFrame_tick (s : State) (l : Nat) (num : CN) (d : List Dword) : (s.sendFrame l num d).tick = s.tick := rfl
@[simp] theorem State.sendFrame_dev (s : State) (l : Nat) (num : CN) (d : List Dword) : (s.sendFrame l num d).dev = s.dev := rfl
@[simp] theorem State.sendFrame_clk (s : State) (l : Nat) (num : CN) (d : List Dword) : (s.sendFrame l num d).clk = s.clk := rfl
@[simp] theorem State.sendFrame_pwr (s : State) (l : Nat) (num : CN) (d : List Dword) : (s.sendFrame l num d).pwr = s.pwr := rfl
@[simp] theorem State.sendFrame_boot (s : State) (l : Nat) (num : CN) (d : List Dword) : (s.sendFrame l num d).boot = s.boot := rfl
@[simp] theorem State.sendFrame_pkg (s : State) (l : Nat) (num : CN) (d : List Dword) : (s.sendFrame l num d).pkg = s.pkg := rfl
@[simp] theorem State.sendFrame_host (s : State) (l : Nat) (num : CN) (d : List Dword) : (s.sendFrame l num d).host = s.host := rfl
@[simp] theorem State.sendFrame_cig (s : State) (l : Nat) (num : CN) (d : List Dword) : (s.sendFrame l num d).cig = s.cig := rfl
@[simp] theorem State.sendFrame_evts (s : State) (l : Nat) (num : CN) (d : List Dword) : (s.sendFrame l num d).evts = s.evts := rfl
@[simp] theorem State.sendFrame_ctrs (s : State) (l : Nat) (num : CN) (d : List Dword) : (s.sendFrame l num d).ctrs = s.ctrs := rfl
@[simp] theorem State.sendFrame_flags (s : State) (l : Nat) (num : CN) (d : List Dword) : (s.sendFrame l num d).flags = s.flags := rfl
@[simp] theorem State.sendFrame_mbx (s : State) (l : Nat) (num : CN) (d : List Dword) : (s.sendFrame l num d).mbx = s.mbx := rfl
@[simp] theorem State.sendFrame_jnl (s : State) (l : Nat) (num : CN) (d : List Dword) : (s.sendFrame l num d).jnl = s.jnl := rfl
@[simp] theorem State.sendFrame_kly (s : State) (l : Nat) (num : CN) (d : List Dword) : (s.sendFrame l num d).kly = s.kly := rfl
@[simp] theorem State.sendFrame_log (s : State) (l : Nat) (num : CN) (d : List Dword) : (s.sendFrame l num d).log = s.log := rfl
@[simp] theorem State.sendFrame_run (s : State) (l : Nat) (num : CN) (d : List Dword) : (s.sendFrame l num d).run = s.run := rfl
@[simp] theorem State.sendFrame_planes (s : State) (l : Nat) (num : CN) (d : List Dword) : (s.sendFrame l num d).planes = s.planes := rfl
@[simp] theorem State.sendFrame_arr (s : State) (l : Nat) (num : CN) (d : List Dword) : (s.sendFrame l num d).arr = s.arr := rfl
@[simp] theorem State.sendFrame_wgm (s : State) (l : Nat) (num : CN) (d : List Dword) : (s.sendFrame l num d).wgm = s.wgm := rfl
@[simp] theorem State.sendFrame_alm (s : State) (l : Nat) (num : CN) (d : List Dword) : (s.sendFrame l num d).alm = s.alm := rfl
@[simp] theorem State.sendFrame_chan (s : State) (l : Nat) (num : CN) (d : List Dword) : (s.sendFrame l num d).chan = s.chan := rfl
@[simp] theorem State.sendFrame_cap (s : State) (l : Nat) (num : CN) (d : List Dword) : (s.sendFrame l num d).cap = s.cap := rfl
@[simp] theorem State.sendFrame_mem (s : State) (l : Nat) (num : CN) (d : List Dword) : (s.sendFrame l num d).mem = s.mem := rfl
@[simp] theorem State.sendFrame_sram (s : State) (l : Nat) (num : CN) (d : List Dword) : (s.sendFrame l num d).sram = s.sram := rfl
@[simp] theorem State.sendFrame_sext (s : State) (l : Nat) (num : CN) (d : List Dword) : (s.sendFrame l num d).sext = s.sext := rfl
@[simp] theorem State.sendFrame_hub (s : State) (l : Nat) (num : CN) (d : List Dword) : (s.sendFrame l num d).hub = s.hub := rfl
@[simp] theorem State.sendFrame_out (s : State) (l : Nat) (num : CN) (d : List Dword) : (s.sendFrame l num d).out = s.out := rfl
@[simp] theorem State.sendFrame_pair (s : State) (l : Nat) (num : CN) (d : List Dword) : (s.sendFrame l num d).pair = s.pair := rfl
@[simp] theorem State.sendFrame_chr (s : State) (l : Nat) (num : CN) (d : List Dword) : (s.sendFrame l num d).chr = s.chr := rfl

/-! ### flagWindow -/

@[simp] theorem State.flagWindow_pending (s : State) (b : BitVec 13) : (s.flagWindow b).pending = s.pending := rfl
@[simp] theorem State.flagWindow_freeCtr (s : State) (b : BitVec 13) : (s.flagWindow b).freeCtr = s.freeCtr := rfl
@[simp] theorem State.flagWindow_cn (s : State) (b : BitVec 13) : (s.flagWindow b).cn = s.cn := rfl
@[simp] theorem State.flagWindow_tick (s : State) (b : BitVec 13) : (s.flagWindow b).tick = s.tick := rfl
@[simp] theorem State.flagWindow_dev (s : State) (b : BitVec 13) : (s.flagWindow b).dev = s.dev := rfl
@[simp] theorem State.flagWindow_clk (s : State) (b : BitVec 13) : (s.flagWindow b).clk = s.clk := rfl
@[simp] theorem State.flagWindow_pwr (s : State) (b : BitVec 13) : (s.flagWindow b).pwr = s.pwr := rfl
@[simp] theorem State.flagWindow_boot (s : State) (b : BitVec 13) : (s.flagWindow b).boot = s.boot := rfl
@[simp] theorem State.flagWindow_pkg (s : State) (b : BitVec 13) : (s.flagWindow b).pkg = s.pkg := rfl
@[simp] theorem State.flagWindow_host (s : State) (b : BitVec 13) : (s.flagWindow b).host = s.host := rfl
@[simp] theorem State.flagWindow_cig (s : State) (b : BitVec 13) : (s.flagWindow b).cig = s.cig := rfl
@[simp] theorem State.flagWindow_evts (s : State) (b : BitVec 13) : (s.flagWindow b).evts = s.evts := rfl
@[simp] theorem State.flagWindow_ctrs (s : State) (b : BitVec 13) : (s.flagWindow b).ctrs = s.ctrs := rfl
@[simp] theorem State.flagWindow_flags (s : State) (b : BitVec 13) : (s.flagWindow b).flags = s.flags := rfl
@[simp] theorem State.flagWindow_mbx (s : State) (b : BitVec 13) : (s.flagWindow b).mbx = s.mbx := rfl
@[simp] theorem State.flagWindow_jnl (s : State) (b : BitVec 13) : (s.flagWindow b).jnl = s.jnl := rfl
@[simp] theorem State.flagWindow_kly (s : State) (b : BitVec 13) : (s.flagWindow b).kly = s.kly := rfl
@[simp] theorem State.flagWindow_log (s : State) (b : BitVec 13) : (s.flagWindow b).log = s.log := rfl
@[simp] theorem State.flagWindow_run (s : State) (b : BitVec 13) : (s.flagWindow b).run = s.run := rfl
@[simp] theorem State.flagWindow_planes (s : State) (b : BitVec 13) : (s.flagWindow b).planes = s.planes := rfl
@[simp] theorem State.flagWindow_arr (s : State) (b : BitVec 13) : (s.flagWindow b).arr = s.arr := rfl
@[simp] theorem State.flagWindow_wgm (s : State) (b : BitVec 13) : (s.flagWindow b).wgm = s.wgm := rfl
@[simp] theorem State.flagWindow_alm (s : State) (b : BitVec 13) : (s.flagWindow b).alm = s.alm := rfl
@[simp] theorem State.flagWindow_chan (s : State) (b : BitVec 13) : (s.flagWindow b).chan = s.chan := rfl
@[simp] theorem State.flagWindow_cap (s : State) (b : BitVec 13) : (s.flagWindow b).cap = s.cap := rfl
@[simp] theorem State.flagWindow_mem (s : State) (b : BitVec 13) : (s.flagWindow b).mem = s.mem := rfl
@[simp] theorem State.flagWindow_sram (s : State) (b : BitVec 13) : (s.flagWindow b).sram = s.sram := rfl
@[simp] theorem State.flagWindow_lanes (s : State) (b : BitVec 13) : (s.flagWindow b).lanes = s.lanes := rfl
@[simp] theorem State.flagWindow_sext (s : State) (b : BitVec 13) : (s.flagWindow b).sext = s.sext := rfl
@[simp] theorem State.flagWindow_hub (s : State) (b : BitVec 13) : (s.flagWindow b).hub = s.hub := rfl
@[simp] theorem State.flagWindow_pair (s : State) (b : BitVec 13) : (s.flagWindow b).pair = s.pair := rfl
@[simp] theorem State.flagWindow_chr (s : State) (b : BitVec 13) : (s.flagWindow b).chr = s.chr := rfl

/-! ### breakLog -/

@[simp] theorem State.breakLog_pending (s : State) : (s.breakLog).pending = s.pending := rfl
@[simp] theorem State.breakLog_freeCtr (s : State) : (s.breakLog).freeCtr = s.freeCtr := rfl
@[simp] theorem State.breakLog_cn (s : State) : (s.breakLog).cn = s.cn := rfl
@[simp] theorem State.breakLog_tick (s : State) : (s.breakLog).tick = s.tick := rfl
@[simp] theorem State.breakLog_dev (s : State) : (s.breakLog).dev = s.dev := rfl
@[simp] theorem State.breakLog_clk (s : State) : (s.breakLog).clk = s.clk := rfl
@[simp] theorem State.breakLog_pwr (s : State) : (s.breakLog).pwr = s.pwr := rfl
@[simp] theorem State.breakLog_boot (s : State) : (s.breakLog).boot = s.boot := rfl
@[simp] theorem State.breakLog_pkg (s : State) : (s.breakLog).pkg = s.pkg := rfl
@[simp] theorem State.breakLog_host (s : State) : (s.breakLog).host = s.host := rfl
@[simp] theorem State.breakLog_cig (s : State) : (s.breakLog).cig = s.cig := rfl
@[simp] theorem State.breakLog_evts (s : State) : (s.breakLog).evts = s.evts := rfl
@[simp] theorem State.breakLog_ctrs (s : State) : (s.breakLog).ctrs = s.ctrs := rfl
@[simp] theorem State.breakLog_flags (s : State) : (s.breakLog).flags = s.flags := rfl
@[simp] theorem State.breakLog_mbx (s : State) : (s.breakLog).mbx = s.mbx := rfl
@[simp] theorem State.breakLog_jnl (s : State) : (s.breakLog).jnl = s.jnl := rfl
@[simp] theorem State.breakLog_kly (s : State) : (s.breakLog).kly = s.kly := rfl
@[simp] theorem State.breakLog_run (s : State) : (s.breakLog).run = s.run := rfl
@[simp] theorem State.breakLog_planes (s : State) : (s.breakLog).planes = s.planes := rfl
@[simp] theorem State.breakLog_arr (s : State) : (s.breakLog).arr = s.arr := rfl
@[simp] theorem State.breakLog_wgm (s : State) : (s.breakLog).wgm = s.wgm := rfl
@[simp] theorem State.breakLog_alm (s : State) : (s.breakLog).alm = s.alm := rfl
@[simp] theorem State.breakLog_chan (s : State) : (s.breakLog).chan = s.chan := rfl
@[simp] theorem State.breakLog_cap (s : State) : (s.breakLog).cap = s.cap := rfl
@[simp] theorem State.breakLog_mem (s : State) : (s.breakLog).mem = s.mem := rfl
@[simp] theorem State.breakLog_sram (s : State) : (s.breakLog).sram = s.sram := rfl
@[simp] theorem State.breakLog_lanes (s : State) : (s.breakLog).lanes = s.lanes := rfl
@[simp] theorem State.breakLog_sext (s : State) : (s.breakLog).sext = s.sext := rfl
@[simp] theorem State.breakLog_hub (s : State) : (s.breakLog).hub = s.hub := rfl
@[simp] theorem State.breakLog_out (s : State) : (s.breakLog).out = s.out := rfl
@[simp] theorem State.breakLog_pair (s : State) : (s.breakLog).pair = s.pair := rfl
@[simp] theorem State.breakLog_chr (s : State) : (s.breakLog).chr = s.chr := rfl

/-! ### coverChange -/

@[simp] theorem State.coverChange_pending (s : State) (b : Bool) : (s.coverChange b).pending = s.pending := rfl
@[simp] theorem State.coverChange_freeCtr (s : State) (b : Bool) : (s.coverChange b).freeCtr = s.freeCtr := rfl
@[simp] theorem State.coverChange_cn (s : State) (b : Bool) : (s.coverChange b).cn = s.cn := rfl
@[simp] theorem State.coverChange_tick (s : State) (b : Bool) : (s.coverChange b).tick = s.tick := rfl
@[simp] theorem State.coverChange_dev (s : State) (b : Bool) : (s.coverChange b).dev = s.dev := rfl
@[simp] theorem State.coverChange_clk (s : State) (b : Bool) : (s.coverChange b).clk = s.clk := rfl
@[simp] theorem State.coverChange_pwr (s : State) (b : Bool) : (s.coverChange b).pwr = s.pwr := rfl
@[simp] theorem State.coverChange_boot (s : State) (b : Bool) : (s.coverChange b).boot = s.boot := rfl
@[simp] theorem State.coverChange_pkg (s : State) (b : Bool) : (s.coverChange b).pkg = s.pkg := rfl
@[simp] theorem State.coverChange_host (s : State) (b : Bool) : (s.coverChange b).host = s.host := rfl
@[simp] theorem State.coverChange_evts (s : State) (b : Bool) : (s.coverChange b).evts = s.evts := rfl
@[simp] theorem State.coverChange_ctrs (s : State) (b : Bool) : (s.coverChange b).ctrs = s.ctrs := rfl
@[simp] theorem State.coverChange_flags (s : State) (b : Bool) : (s.coverChange b).flags = s.flags := rfl
@[simp] theorem State.coverChange_mbx (s : State) (b : Bool) : (s.coverChange b).mbx = s.mbx := rfl
@[simp] theorem State.coverChange_jnl (s : State) (b : Bool) : (s.coverChange b).jnl = s.jnl := rfl
@[simp] theorem State.coverChange_kly (s : State) (b : Bool) : (s.coverChange b).kly = s.kly := rfl
@[simp] theorem State.coverChange_log (s : State) (b : Bool) : (s.coverChange b).log = s.log := rfl
@[simp] theorem State.coverChange_run (s : State) (b : Bool) : (s.coverChange b).run = s.run := rfl
@[simp] theorem State.coverChange_planes (s : State) (b : Bool) : (s.coverChange b).planes = s.planes := rfl
@[simp] theorem State.coverChange_arr (s : State) (b : Bool) : (s.coverChange b).arr = s.arr := rfl
@[simp] theorem State.coverChange_wgm (s : State) (b : Bool) : (s.coverChange b).wgm = s.wgm := rfl
@[simp] theorem State.coverChange_alm (s : State) (b : Bool) : (s.coverChange b).alm = s.alm := rfl
@[simp] theorem State.coverChange_chan (s : State) (b : Bool) : (s.coverChange b).chan = s.chan := rfl
@[simp] theorem State.coverChange_cap (s : State) (b : Bool) : (s.coverChange b).cap = s.cap := rfl
@[simp] theorem State.coverChange_mem (s : State) (b : Bool) : (s.coverChange b).mem = s.mem := rfl
@[simp] theorem State.coverChange_sram (s : State) (b : Bool) : (s.coverChange b).sram = s.sram := rfl
@[simp] theorem State.coverChange_lanes (s : State) (b : Bool) : (s.coverChange b).lanes = s.lanes := rfl
@[simp] theorem State.coverChange_sext (s : State) (b : Bool) : (s.coverChange b).sext = s.sext := rfl
@[simp] theorem State.coverChange_hub (s : State) (b : Bool) : (s.coverChange b).hub = s.hub := rfl
@[simp] theorem State.coverChange_out (s : State) (b : Bool) : (s.coverChange b).out = s.out := rfl
@[simp] theorem State.coverChange_pair (s : State) (b : Bool) : (s.coverChange b).pair = s.pair := rfl
@[simp] theorem State.coverChange_chr (s : State) (b : Bool) : (s.coverChange b).chr = s.chr := rfl

/-! ### signal -/

@[simp] theorem State.signal_pending (s : State) (v : Nat) : (s.signal v).pending = s.pending := by unfold State.signal; split <;> rfl
@[simp] theorem State.signal_freeCtr (s : State) (v : Nat) : (s.signal v).freeCtr = s.freeCtr := by unfold State.signal; split <;> rfl
@[simp] theorem State.signal_cn (s : State) (v : Nat) : (s.signal v).cn = s.cn := by unfold State.signal; split <;> rfl
@[simp] theorem State.signal_tick (s : State) (v : Nat) : (s.signal v).tick = s.tick := by unfold State.signal; split <;> rfl
@[simp] theorem State.signal_dev (s : State) (v : Nat) : (s.signal v).dev = s.dev := by unfold State.signal; split <;> rfl
@[simp] theorem State.signal_clk (s : State) (v : Nat) : (s.signal v).clk = s.clk := by unfold State.signal; split <;> rfl
@[simp] theorem State.signal_pwr (s : State) (v : Nat) : (s.signal v).pwr = s.pwr := by unfold State.signal; split <;> rfl
@[simp] theorem State.signal_boot (s : State) (v : Nat) : (s.signal v).boot = s.boot := by unfold State.signal; split <;> rfl
@[simp] theorem State.signal_pkg (s : State) (v : Nat) : (s.signal v).pkg = s.pkg := by unfold State.signal; split <;> rfl
@[simp] theorem State.signal_cig (s : State) (v : Nat) : (s.signal v).cig = s.cig := by unfold State.signal; split <;> rfl
@[simp] theorem State.signal_evts (s : State) (v : Nat) : (s.signal v).evts = s.evts := by unfold State.signal; split <;> rfl
@[simp] theorem State.signal_ctrs (s : State) (v : Nat) : (s.signal v).ctrs = s.ctrs := by unfold State.signal; split <;> rfl
@[simp] theorem State.signal_flags (s : State) (v : Nat) : (s.signal v).flags = s.flags := by unfold State.signal; split <;> rfl
@[simp] theorem State.signal_mbx (s : State) (v : Nat) : (s.signal v).mbx = s.mbx := by unfold State.signal; split <;> rfl
@[simp] theorem State.signal_jnl (s : State) (v : Nat) : (s.signal v).jnl = s.jnl := by unfold State.signal; split <;> rfl
@[simp] theorem State.signal_kly (s : State) (v : Nat) : (s.signal v).kly = s.kly := by unfold State.signal; split <;> rfl
@[simp] theorem State.signal_log (s : State) (v : Nat) : (s.signal v).log = s.log := by unfold State.signal; split <;> rfl
@[simp] theorem State.signal_run (s : State) (v : Nat) : (s.signal v).run = s.run := by unfold State.signal; split <;> rfl
@[simp] theorem State.signal_planes (s : State) (v : Nat) : (s.signal v).planes = s.planes := by unfold State.signal; split <;> rfl
@[simp] theorem State.signal_arr (s : State) (v : Nat) : (s.signal v).arr = s.arr := by unfold State.signal; split <;> rfl
@[simp] theorem State.signal_wgm (s : State) (v : Nat) : (s.signal v).wgm = s.wgm := by unfold State.signal; split <;> rfl
@[simp] theorem State.signal_alm (s : State) (v : Nat) : (s.signal v).alm = s.alm := by unfold State.signal; split <;> rfl
@[simp] theorem State.signal_chan (s : State) (v : Nat) : (s.signal v).chan = s.chan := by unfold State.signal; split <;> rfl
@[simp] theorem State.signal_cap (s : State) (v : Nat) : (s.signal v).cap = s.cap := by unfold State.signal; split <;> rfl
@[simp] theorem State.signal_mem (s : State) (v : Nat) : (s.signal v).mem = s.mem := by unfold State.signal; split <;> rfl
@[simp] theorem State.signal_sram (s : State) (v : Nat) : (s.signal v).sram = s.sram := by unfold State.signal; split <;> rfl
@[simp] theorem State.signal_lanes (s : State) (v : Nat) : (s.signal v).lanes = s.lanes := by unfold State.signal; split <;> rfl
@[simp] theorem State.signal_sext (s : State) (v : Nat) : (s.signal v).sext = s.sext := by unfold State.signal; split <;> rfl
@[simp] theorem State.signal_hub (s : State) (v : Nat) : (s.signal v).hub = s.hub := by unfold State.signal; split <;> rfl
@[simp] theorem State.signal_out (s : State) (v : Nat) : (s.signal v).out = s.out := by unfold State.signal; split <;> rfl
@[simp] theorem State.signal_pair (s : State) (v : Nat) : (s.signal v).pair = s.pair := by unfold State.signal; split <;> rfl
@[simp] theorem State.signal_chr (s : State) (v : Nat) : (s.signal v).chr = s.chr := by unfold State.signal; split <;> rfl

/-! ### raise -/

@[simp] theorem State.raise_pending (s : State) (i : EvtId) (m : Word) : (s.raise i m).pending = s.pending := by unfold State.raise; simp only; split <;> (try split) <;> simp
@[simp] theorem State.raise_freeCtr (s : State) (i : EvtId) (m : Word) : (s.raise i m).freeCtr = s.freeCtr := by unfold State.raise; simp only; split <;> (try split) <;> simp
@[simp] theorem State.raise_cn (s : State) (i : EvtId) (m : Word) : (s.raise i m).cn = s.cn := by unfold State.raise; simp only; split <;> (try split) <;> simp
@[simp] theorem State.raise_tick (s : State) (i : EvtId) (m : Word) : (s.raise i m).tick = s.tick := by unfold State.raise; simp only; split <;> (try split) <;> simp
@[simp] theorem State.raise_dev (s : State) (i : EvtId) (m : Word) : (s.raise i m).dev = s.dev := by unfold State.raise; simp only; split <;> (try split) <;> simp
@[simp] theorem State.raise_clk (s : State) (i : EvtId) (m : Word) : (s.raise i m).clk = s.clk := by unfold State.raise; simp only; split <;> (try split) <;> simp
@[simp] theorem State.raise_pwr (s : State) (i : EvtId) (m : Word) : (s.raise i m).pwr = s.pwr := by unfold State.raise; simp only; split <;> (try split) <;> simp
@[simp] theorem State.raise_boot (s : State) (i : EvtId) (m : Word) : (s.raise i m).boot = s.boot := by unfold State.raise; simp only; split <;> (try split) <;> simp
@[simp] theorem State.raise_pkg (s : State) (i : EvtId) (m : Word) : (s.raise i m).pkg = s.pkg := by unfold State.raise; simp only; split <;> (try split) <;> simp
@[simp] theorem State.raise_cig (s : State) (i : EvtId) (m : Word) : (s.raise i m).cig = s.cig := by unfold State.raise; simp only; split <;> (try split) <;> simp
@[simp] theorem State.raise_ctrs (s : State) (i : EvtId) (m : Word) : (s.raise i m).ctrs = s.ctrs := by unfold State.raise; simp only; split <;> (try split) <;> simp
@[simp] theorem State.raise_flags (s : State) (i : EvtId) (m : Word) : (s.raise i m).flags = s.flags := by unfold State.raise; simp only; split <;> (try split) <;> simp
@[simp] theorem State.raise_mbx (s : State) (i : EvtId) (m : Word) : (s.raise i m).mbx = s.mbx := by unfold State.raise; simp only; split <;> (try split) <;> simp
@[simp] theorem State.raise_jnl (s : State) (i : EvtId) (m : Word) : (s.raise i m).jnl = s.jnl := by unfold State.raise; simp only; split <;> (try split) <;> simp
@[simp] theorem State.raise_kly (s : State) (i : EvtId) (m : Word) : (s.raise i m).kly = s.kly := by unfold State.raise; simp only; split <;> (try split) <;> simp
@[simp] theorem State.raise_log (s : State) (i : EvtId) (m : Word) : (s.raise i m).log = s.log := by unfold State.raise; simp only; split <;> (try split) <;> simp
@[simp] theorem State.raise_run (s : State) (i : EvtId) (m : Word) : (s.raise i m).run = s.run := by unfold State.raise; simp only; split <;> (try split) <;> simp
@[simp] theorem State.raise_planes (s : State) (i : EvtId) (m : Word) : (s.raise i m).planes = s.planes := by unfold State.raise; simp only; split <;> (try split) <;> simp
@[simp] theorem State.raise_arr (s : State) (i : EvtId) (m : Word) : (s.raise i m).arr = s.arr := by unfold State.raise; simp only; split <;> (try split) <;> simp
@[simp] theorem State.raise_wgm (s : State) (i : EvtId) (m : Word) : (s.raise i m).wgm = s.wgm := by unfold State.raise; simp only; split <;> (try split) <;> simp
@[simp] theorem State.raise_alm (s : State) (i : EvtId) (m : Word) : (s.raise i m).alm = s.alm := by unfold State.raise; simp only; split <;> (try split) <;> simp
@[simp] theorem State.raise_chan (s : State) (i : EvtId) (m : Word) : (s.raise i m).chan = s.chan := by unfold State.raise; simp only; split <;> (try split) <;> simp
@[simp] theorem State.raise_cap (s : State) (i : EvtId) (m : Word) : (s.raise i m).cap = s.cap := by unfold State.raise; simp only; split <;> (try split) <;> simp
@[simp] theorem State.raise_mem (s : State) (i : EvtId) (m : Word) : (s.raise i m).mem = s.mem := by unfold State.raise; simp only; split <;> (try split) <;> simp
@[simp] theorem State.raise_sram (s : State) (i : EvtId) (m : Word) : (s.raise i m).sram = s.sram := by unfold State.raise; simp only; split <;> (try split) <;> simp
@[simp] theorem State.raise_lanes (s : State) (i : EvtId) (m : Word) : (s.raise i m).lanes = s.lanes := by unfold State.raise; simp only; split <;> (try split) <;> simp
@[simp] theorem State.raise_sext (s : State) (i : EvtId) (m : Word) : (s.raise i m).sext = s.sext := by unfold State.raise; simp only; split <;> (try split) <;> simp
@[simp] theorem State.raise_hub (s : State) (i : EvtId) (m : Word) : (s.raise i m).hub = s.hub := by unfold State.raise; simp only; split <;> (try split) <;> simp
@[simp] theorem State.raise_out (s : State) (i : EvtId) (m : Word) : (s.raise i m).out = s.out := by unfold State.raise; simp only; split <;> (try split) <;> simp
@[simp] theorem State.raise_pair (s : State) (i : EvtId) (m : Word) : (s.raise i m).pair = s.pair := by unfold State.raise; simp only; split <;> (try split) <;> simp
@[simp] theorem State.raise_chr (s : State) (i : EvtId) (m : Word) : (s.raise i m).chr = s.chr := by unfold State.raise; simp only; split <;> (try split) <;> simp

/-! ### raiseBit -/

@[simp] theorem State.raiseBit_pending (s : State) (i : EvtId) (b : Nat) : (s.raiseBit i b).pending = s.pending := by simp [State.raiseBit]
@[simp] theorem State.raiseBit_freeCtr (s : State) (i : EvtId) (b : Nat) : (s.raiseBit i b).freeCtr = s.freeCtr := by simp [State.raiseBit]
@[simp] theorem State.raiseBit_cn (s : State) (i : EvtId) (b : Nat) : (s.raiseBit i b).cn = s.cn := by simp [State.raiseBit]
@[simp] theorem State.raiseBit_tick (s : State) (i : EvtId) (b : Nat) : (s.raiseBit i b).tick = s.tick := by simp [State.raiseBit]
@[simp] theorem State.raiseBit_dev (s : State) (i : EvtId) (b : Nat) : (s.raiseBit i b).dev = s.dev := by simp [State.raiseBit]
@[simp] theorem State.raiseBit_clk (s : State) (i : EvtId) (b : Nat) : (s.raiseBit i b).clk = s.clk := by simp [State.raiseBit]
@[simp] theorem State.raiseBit_pwr (s : State) (i : EvtId) (b : Nat) : (s.raiseBit i b).pwr = s.pwr := by simp [State.raiseBit]
@[simp] theorem State.raiseBit_boot (s : State) (i : EvtId) (b : Nat) : (s.raiseBit i b).boot = s.boot := by simp [State.raiseBit]
@[simp] theorem State.raiseBit_pkg (s : State) (i : EvtId) (b : Nat) : (s.raiseBit i b).pkg = s.pkg := by simp [State.raiseBit]
@[simp] theorem State.raiseBit_cig (s : State) (i : EvtId) (b : Nat) : (s.raiseBit i b).cig = s.cig := by simp [State.raiseBit]
@[simp] theorem State.raiseBit_ctrs (s : State) (i : EvtId) (b : Nat) : (s.raiseBit i b).ctrs = s.ctrs := by simp [State.raiseBit]
@[simp] theorem State.raiseBit_flags (s : State) (i : EvtId) (b : Nat) : (s.raiseBit i b).flags = s.flags := by simp [State.raiseBit]
@[simp] theorem State.raiseBit_mbx (s : State) (i : EvtId) (b : Nat) : (s.raiseBit i b).mbx = s.mbx := by simp [State.raiseBit]
@[simp] theorem State.raiseBit_jnl (s : State) (i : EvtId) (b : Nat) : (s.raiseBit i b).jnl = s.jnl := by simp [State.raiseBit]
@[simp] theorem State.raiseBit_kly (s : State) (i : EvtId) (b : Nat) : (s.raiseBit i b).kly = s.kly := by simp [State.raiseBit]
@[simp] theorem State.raiseBit_log (s : State) (i : EvtId) (b : Nat) : (s.raiseBit i b).log = s.log := by simp [State.raiseBit]
@[simp] theorem State.raiseBit_run (s : State) (i : EvtId) (b : Nat) : (s.raiseBit i b).run = s.run := by simp [State.raiseBit]
@[simp] theorem State.raiseBit_planes (s : State) (i : EvtId) (b : Nat) : (s.raiseBit i b).planes = s.planes := by simp [State.raiseBit]
@[simp] theorem State.raiseBit_arr (s : State) (i : EvtId) (b : Nat) : (s.raiseBit i b).arr = s.arr := by simp [State.raiseBit]
@[simp] theorem State.raiseBit_wgm (s : State) (i : EvtId) (b : Nat) : (s.raiseBit i b).wgm = s.wgm := by simp [State.raiseBit]
@[simp] theorem State.raiseBit_alm (s : State) (i : EvtId) (b : Nat) : (s.raiseBit i b).alm = s.alm := by simp [State.raiseBit]
@[simp] theorem State.raiseBit_chan (s : State) (i : EvtId) (b : Nat) : (s.raiseBit i b).chan = s.chan := by simp [State.raiseBit]
@[simp] theorem State.raiseBit_cap (s : State) (i : EvtId) (b : Nat) : (s.raiseBit i b).cap = s.cap := by simp [State.raiseBit]
@[simp] theorem State.raiseBit_mem (s : State) (i : EvtId) (b : Nat) : (s.raiseBit i b).mem = s.mem := by simp [State.raiseBit]
@[simp] theorem State.raiseBit_sram (s : State) (i : EvtId) (b : Nat) : (s.raiseBit i b).sram = s.sram := by simp [State.raiseBit]
@[simp] theorem State.raiseBit_lanes (s : State) (i : EvtId) (b : Nat) : (s.raiseBit i b).lanes = s.lanes := by simp [State.raiseBit]
@[simp] theorem State.raiseBit_sext (s : State) (i : EvtId) (b : Nat) : (s.raiseBit i b).sext = s.sext := by simp [State.raiseBit]
@[simp] theorem State.raiseBit_hub (s : State) (i : EvtId) (b : Nat) : (s.raiseBit i b).hub = s.hub := by simp [State.raiseBit]
@[simp] theorem State.raiseBit_out (s : State) (i : EvtId) (b : Nat) : (s.raiseBit i b).out = s.out := by simp [State.raiseBit]
@[simp] theorem State.raiseBit_pair (s : State) (i : EvtId) (b : Nat) : (s.raiseBit i b).pair = s.pair := by simp [State.raiseBit]
@[simp] theorem State.raiseBit_chr (s : State) (i : EvtId) (b : Nat) : (s.raiseBit i b).chr = s.chr := by simp [State.raiseBit]

/-! ### post -/

@[simp] theorem State.post_pending (s : State) (m : Nat) (e : RingEntry) : (s.post m e).pending = s.pending := by unfold State.post; simp only; split <;> (try split) <;> (try split) <;> simp
@[simp] theorem State.post_freeCtr (s : State) (m : Nat) (e : RingEntry) : (s.post m e).freeCtr = s.freeCtr := by unfold State.post; simp only; split <;> (try split) <;> (try split) <;> simp
@[simp] theorem State.post_cn (s : State) (m : Nat) (e : RingEntry) : (s.post m e).cn = s.cn := by unfold State.post; simp only; split <;> (try split) <;> (try split) <;> simp
@[simp] theorem State.post_tick (s : State) (m : Nat) (e : RingEntry) : (s.post m e).tick = s.tick := by unfold State.post; simp only; split <;> (try split) <;> (try split) <;> simp
@[simp] theorem State.post_dev (s : State) (m : Nat) (e : RingEntry) : (s.post m e).dev = s.dev := by unfold State.post; simp only; split <;> (try split) <;> (try split) <;> simp
@[simp] theorem State.post_clk (s : State) (m : Nat) (e : RingEntry) : (s.post m e).clk = s.clk := by unfold State.post; simp only; split <;> (try split) <;> (try split) <;> simp
@[simp] theorem State.post_pwr (s : State) (m : Nat) (e : RingEntry) : (s.post m e).pwr = s.pwr := by unfold State.post; simp only; split <;> (try split) <;> (try split) <;> simp
@[simp] theorem State.post_boot (s : State) (m : Nat) (e : RingEntry) : (s.post m e).boot = s.boot := by unfold State.post; simp only; split <;> (try split) <;> (try split) <;> simp
@[simp] theorem State.post_pkg (s : State) (m : Nat) (e : RingEntry) : (s.post m e).pkg = s.pkg := by unfold State.post; simp only; split <;> (try split) <;> (try split) <;> simp
@[simp] theorem State.post_cig (s : State) (m : Nat) (e : RingEntry) : (s.post m e).cig = s.cig := by unfold State.post; simp only; split <;> (try split) <;> (try split) <;> simp
@[simp] theorem State.post_evts (s : State) (m : Nat) (e : RingEntry) : (s.post m e).evts = s.evts := by unfold State.post; simp only; split <;> (try split) <;> (try split) <;> simp
@[simp] theorem State.post_ctrs (s : State) (m : Nat) (e : RingEntry) : (s.post m e).ctrs = s.ctrs := by unfold State.post; simp only; split <;> (try split) <;> (try split) <;> simp
@[simp] theorem State.post_flags (s : State) (m : Nat) (e : RingEntry) : (s.post m e).flags = s.flags := by unfold State.post; simp only; split <;> (try split) <;> (try split) <;> simp
@[simp] theorem State.post_jnl (s : State) (m : Nat) (e : RingEntry) : (s.post m e).jnl = s.jnl := by unfold State.post; simp only; split <;> (try split) <;> (try split) <;> simp
@[simp] theorem State.post_kly (s : State) (m : Nat) (e : RingEntry) : (s.post m e).kly = s.kly := by unfold State.post; simp only; split <;> (try split) <;> (try split) <;> simp
@[simp] theorem State.post_log (s : State) (m : Nat) (e : RingEntry) : (s.post m e).log = s.log := by unfold State.post; simp only; split <;> (try split) <;> (try split) <;> simp
@[simp] theorem State.post_run (s : State) (m : Nat) (e : RingEntry) : (s.post m e).run = s.run := by unfold State.post; simp only; split <;> (try split) <;> (try split) <;> simp
@[simp] theorem State.post_planes (s : State) (m : Nat) (e : RingEntry) : (s.post m e).planes = s.planes := by unfold State.post; simp only; split <;> (try split) <;> (try split) <;> simp
@[simp] theorem State.post_arr (s : State) (m : Nat) (e : RingEntry) : (s.post m e).arr = s.arr := by unfold State.post; simp only; split <;> (try split) <;> (try split) <;> simp
@[simp] theorem State.post_wgm (s : State) (m : Nat) (e : RingEntry) : (s.post m e).wgm = s.wgm := by unfold State.post; simp only; split <;> (try split) <;> (try split) <;> simp
@[simp] theorem State.post_alm (s : State) (m : Nat) (e : RingEntry) : (s.post m e).alm = s.alm := by unfold State.post; simp only; split <;> (try split) <;> (try split) <;> simp
@[simp] theorem State.post_chan (s : State) (m : Nat) (e : RingEntry) : (s.post m e).chan = s.chan := by unfold State.post; simp only; split <;> (try split) <;> (try split) <;> simp
@[simp] theorem State.post_cap (s : State) (m : Nat) (e : RingEntry) : (s.post m e).cap = s.cap := by unfold State.post; simp only; split <;> (try split) <;> (try split) <;> simp
@[simp] theorem State.post_mem (s : State) (m : Nat) (e : RingEntry) : (s.post m e).mem = s.mem := by unfold State.post; simp only; split <;> (try split) <;> (try split) <;> simp
@[simp] theorem State.post_sram (s : State) (m : Nat) (e : RingEntry) : (s.post m e).sram = s.sram := by unfold State.post; simp only; split <;> (try split) <;> (try split) <;> simp
@[simp] theorem State.post_lanes (s : State) (m : Nat) (e : RingEntry) : (s.post m e).lanes = s.lanes := by unfold State.post; simp only; split <;> (try split) <;> (try split) <;> simp
@[simp] theorem State.post_sext (s : State) (m : Nat) (e : RingEntry) : (s.post m e).sext = s.sext := by unfold State.post; simp only; split <;> (try split) <;> (try split) <;> simp
@[simp] theorem State.post_hub (s : State) (m : Nat) (e : RingEntry) : (s.post m e).hub = s.hub := by unfold State.post; simp only; split <;> (try split) <;> (try split) <;> simp
@[simp] theorem State.post_out (s : State) (m : Nat) (e : RingEntry) : (s.post m e).out = s.out := by unfold State.post; simp only; split <;> (try split) <;> (try split) <;> simp
@[simp] theorem State.post_pair (s : State) (m : Nat) (e : RingEntry) : (s.post m e).pair = s.pair := by unfold State.post; simp only; split <;> (try split) <;> (try split) <;> simp
@[simp] theorem State.post_chr (s : State) (m : Nat) (e : RingEntry) : (s.post m e).chr = s.chr := by unfold State.post; simp only; split <;> (try split) <;> (try split) <;> simp

/-! ### unbusy -/

@[simp] theorem State.unbusy_pending (s : State) (m : Nat) : (s.unbusy m).pending = s.pending := by unfold State.unbusy; split <;> rfl
@[simp] theorem State.unbusy_freeCtr (s : State) (m : Nat) : (s.unbusy m).freeCtr = s.freeCtr := by unfold State.unbusy; split <;> rfl
@[simp] theorem State.unbusy_cn (s : State) (m : Nat) : (s.unbusy m).cn = s.cn := by unfold State.unbusy; split <;> rfl
@[simp] theorem State.unbusy_tick (s : State) (m : Nat) : (s.unbusy m).tick = s.tick := by unfold State.unbusy; split <;> rfl
@[simp] theorem State.unbusy_dev (s : State) (m : Nat) : (s.unbusy m).dev = s.dev := by unfold State.unbusy; split <;> rfl
@[simp] theorem State.unbusy_clk (s : State) (m : Nat) : (s.unbusy m).clk = s.clk := by unfold State.unbusy; split <;> rfl
@[simp] theorem State.unbusy_pwr (s : State) (m : Nat) : (s.unbusy m).pwr = s.pwr := by unfold State.unbusy; split <;> rfl
@[simp] theorem State.unbusy_boot (s : State) (m : Nat) : (s.unbusy m).boot = s.boot := by unfold State.unbusy; split <;> rfl
@[simp] theorem State.unbusy_pkg (s : State) (m : Nat) : (s.unbusy m).pkg = s.pkg := by unfold State.unbusy; split <;> rfl
@[simp] theorem State.unbusy_host (s : State) (m : Nat) : (s.unbusy m).host = s.host := by unfold State.unbusy; split <;> rfl
@[simp] theorem State.unbusy_cig (s : State) (m : Nat) : (s.unbusy m).cig = s.cig := by unfold State.unbusy; split <;> rfl
@[simp] theorem State.unbusy_evts (s : State) (m : Nat) : (s.unbusy m).evts = s.evts := by unfold State.unbusy; split <;> rfl
@[simp] theorem State.unbusy_ctrs (s : State) (m : Nat) : (s.unbusy m).ctrs = s.ctrs := by unfold State.unbusy; split <;> rfl
@[simp] theorem State.unbusy_flags (s : State) (m : Nat) : (s.unbusy m).flags = s.flags := by unfold State.unbusy; split <;> rfl
@[simp] theorem State.unbusy_jnl (s : State) (m : Nat) : (s.unbusy m).jnl = s.jnl := by unfold State.unbusy; split <;> rfl
@[simp] theorem State.unbusy_kly (s : State) (m : Nat) : (s.unbusy m).kly = s.kly := by unfold State.unbusy; split <;> rfl
@[simp] theorem State.unbusy_log (s : State) (m : Nat) : (s.unbusy m).log = s.log := by unfold State.unbusy; split <;> rfl
@[simp] theorem State.unbusy_run (s : State) (m : Nat) : (s.unbusy m).run = s.run := by unfold State.unbusy; split <;> rfl
@[simp] theorem State.unbusy_planes (s : State) (m : Nat) : (s.unbusy m).planes = s.planes := by unfold State.unbusy; split <;> rfl
@[simp] theorem State.unbusy_arr (s : State) (m : Nat) : (s.unbusy m).arr = s.arr := by unfold State.unbusy; split <;> rfl
@[simp] theorem State.unbusy_wgm (s : State) (m : Nat) : (s.unbusy m).wgm = s.wgm := by unfold State.unbusy; split <;> rfl
@[simp] theorem State.unbusy_alm (s : State) (m : Nat) : (s.unbusy m).alm = s.alm := by unfold State.unbusy; split <;> rfl
@[simp] theorem State.unbusy_chan (s : State) (m : Nat) : (s.unbusy m).chan = s.chan := by unfold State.unbusy; split <;> rfl
@[simp] theorem State.unbusy_cap (s : State) (m : Nat) : (s.unbusy m).cap = s.cap := by unfold State.unbusy; split <;> rfl
@[simp] theorem State.unbusy_mem (s : State) (m : Nat) : (s.unbusy m).mem = s.mem := by unfold State.unbusy; split <;> rfl
@[simp] theorem State.unbusy_sram (s : State) (m : Nat) : (s.unbusy m).sram = s.sram := by unfold State.unbusy; split <;> rfl
@[simp] theorem State.unbusy_lanes (s : State) (m : Nat) : (s.unbusy m).lanes = s.lanes := by unfold State.unbusy; split <;> rfl
@[simp] theorem State.unbusy_sext (s : State) (m : Nat) : (s.unbusy m).sext = s.sext := by unfold State.unbusy; split <;> rfl
@[simp] theorem State.unbusy_hub (s : State) (m : Nat) : (s.unbusy m).hub = s.hub := by unfold State.unbusy; split <;> rfl
@[simp] theorem State.unbusy_out (s : State) (m : Nat) : (s.unbusy m).out = s.out := by unfold State.unbusy; split <;> rfl
@[simp] theorem State.unbusy_pair (s : State) (m : Nat) : (s.unbusy m).pair = s.pair := by unfold State.unbusy; split <;> rfl
@[simp] theorem State.unbusy_chr (s : State) (m : Nat) : (s.unbusy m).chr = s.chr := by unfold State.unbusy; split <;> rfl

/-! ### setBuf -/

@[simp] theorem State.setBuf_pending (s : State) (m : Nat) (l : List Byte) : (s.setBuf m l).pending = s.pending := by unfold State.setBuf; split <;> rfl
@[simp] theorem State.setBuf_freeCtr (s : State) (m : Nat) (l : List Byte) : (s.setBuf m l).freeCtr = s.freeCtr := by unfold State.setBuf; split <;> rfl
@[simp] theorem State.setBuf_cn (s : State) (m : Nat) (l : List Byte) : (s.setBuf m l).cn = s.cn := by unfold State.setBuf; split <;> rfl
@[simp] theorem State.setBuf_tick (s : State) (m : Nat) (l : List Byte) : (s.setBuf m l).tick = s.tick := by unfold State.setBuf; split <;> rfl
@[simp] theorem State.setBuf_dev (s : State) (m : Nat) (l : List Byte) : (s.setBuf m l).dev = s.dev := by unfold State.setBuf; split <;> rfl
@[simp] theorem State.setBuf_clk (s : State) (m : Nat) (l : List Byte) : (s.setBuf m l).clk = s.clk := by unfold State.setBuf; split <;> rfl
@[simp] theorem State.setBuf_pwr (s : State) (m : Nat) (l : List Byte) : (s.setBuf m l).pwr = s.pwr := by unfold State.setBuf; split <;> rfl
@[simp] theorem State.setBuf_boot (s : State) (m : Nat) (l : List Byte) : (s.setBuf m l).boot = s.boot := by unfold State.setBuf; split <;> rfl
@[simp] theorem State.setBuf_pkg (s : State) (m : Nat) (l : List Byte) : (s.setBuf m l).pkg = s.pkg := by unfold State.setBuf; split <;> rfl
@[simp] theorem State.setBuf_host (s : State) (m : Nat) (l : List Byte) : (s.setBuf m l).host = s.host := by unfold State.setBuf; split <;> rfl
@[simp] theorem State.setBuf_cig (s : State) (m : Nat) (l : List Byte) : (s.setBuf m l).cig = s.cig := by unfold State.setBuf; split <;> rfl
@[simp] theorem State.setBuf_evts (s : State) (m : Nat) (l : List Byte) : (s.setBuf m l).evts = s.evts := by unfold State.setBuf; split <;> rfl
@[simp] theorem State.setBuf_ctrs (s : State) (m : Nat) (l : List Byte) : (s.setBuf m l).ctrs = s.ctrs := by unfold State.setBuf; split <;> rfl
@[simp] theorem State.setBuf_flags (s : State) (m : Nat) (l : List Byte) : (s.setBuf m l).flags = s.flags := by unfold State.setBuf; split <;> rfl
@[simp] theorem State.setBuf_jnl (s : State) (m : Nat) (l : List Byte) : (s.setBuf m l).jnl = s.jnl := by unfold State.setBuf; split <;> rfl
@[simp] theorem State.setBuf_kly (s : State) (m : Nat) (l : List Byte) : (s.setBuf m l).kly = s.kly := by unfold State.setBuf; split <;> rfl
@[simp] theorem State.setBuf_log (s : State) (m : Nat) (l : List Byte) : (s.setBuf m l).log = s.log := by unfold State.setBuf; split <;> rfl
@[simp] theorem State.setBuf_run (s : State) (m : Nat) (l : List Byte) : (s.setBuf m l).run = s.run := by unfold State.setBuf; split <;> rfl
@[simp] theorem State.setBuf_planes (s : State) (m : Nat) (l : List Byte) : (s.setBuf m l).planes = s.planes := by unfold State.setBuf; split <;> rfl
@[simp] theorem State.setBuf_arr (s : State) (m : Nat) (l : List Byte) : (s.setBuf m l).arr = s.arr := by unfold State.setBuf; split <;> rfl
@[simp] theorem State.setBuf_wgm (s : State) (m : Nat) (l : List Byte) : (s.setBuf m l).wgm = s.wgm := by unfold State.setBuf; split <;> rfl
@[simp] theorem State.setBuf_alm (s : State) (m : Nat) (l : List Byte) : (s.setBuf m l).alm = s.alm := by unfold State.setBuf; split <;> rfl
@[simp] theorem State.setBuf_chan (s : State) (m : Nat) (l : List Byte) : (s.setBuf m l).chan = s.chan := by unfold State.setBuf; split <;> rfl
@[simp] theorem State.setBuf_cap (s : State) (m : Nat) (l : List Byte) : (s.setBuf m l).cap = s.cap := by unfold State.setBuf; split <;> rfl
@[simp] theorem State.setBuf_mem (s : State) (m : Nat) (l : List Byte) : (s.setBuf m l).mem = s.mem := by unfold State.setBuf; split <;> rfl
@[simp] theorem State.setBuf_sram (s : State) (m : Nat) (l : List Byte) : (s.setBuf m l).sram = s.sram := by unfold State.setBuf; split <;> rfl
@[simp] theorem State.setBuf_lanes (s : State) (m : Nat) (l : List Byte) : (s.setBuf m l).lanes = s.lanes := by unfold State.setBuf; split <;> rfl
@[simp] theorem State.setBuf_sext (s : State) (m : Nat) (l : List Byte) : (s.setBuf m l).sext = s.sext := by unfold State.setBuf; split <;> rfl
@[simp] theorem State.setBuf_hub (s : State) (m : Nat) (l : List Byte) : (s.setBuf m l).hub = s.hub := by unfold State.setBuf; split <;> rfl
@[simp] theorem State.setBuf_out (s : State) (m : Nat) (l : List Byte) : (s.setBuf m l).out = s.out := by unfold State.setBuf; split <;> rfl
@[simp] theorem State.setBuf_pair (s : State) (m : Nat) (l : List Byte) : (s.setBuf m l).pair = s.pair := by unfold State.setBuf; split <;> rfl
@[simp] theorem State.setBuf_chr (s : State) (m : Nat) (l : List Byte) : (s.setBuf m l).chr = s.chr := by unfold State.setBuf; split <;> rfl

/-! ### refuse -/

@[simp] theorem State.refuse_pending (s : State) (m : Nat) (r : KReq) (f : Refuse) : (s.refuse m r f).pending = s.pending := by simp [State.refuse]
@[simp] theorem State.refuse_freeCtr (s : State) (m : Nat) (r : KReq) (f : Refuse) : (s.refuse m r f).freeCtr = s.freeCtr := by simp [State.refuse]
@[simp] theorem State.refuse_cn (s : State) (m : Nat) (r : KReq) (f : Refuse) : (s.refuse m r f).cn = s.cn := by simp [State.refuse]
@[simp] theorem State.refuse_tick (s : State) (m : Nat) (r : KReq) (f : Refuse) : (s.refuse m r f).tick = s.tick := by simp [State.refuse]
@[simp] theorem State.refuse_dev (s : State) (m : Nat) (r : KReq) (f : Refuse) : (s.refuse m r f).dev = s.dev := by simp [State.refuse]
@[simp] theorem State.refuse_clk (s : State) (m : Nat) (r : KReq) (f : Refuse) : (s.refuse m r f).clk = s.clk := by simp [State.refuse]
@[simp] theorem State.refuse_pwr (s : State) (m : Nat) (r : KReq) (f : Refuse) : (s.refuse m r f).pwr = s.pwr := by simp [State.refuse]
@[simp] theorem State.refuse_boot (s : State) (m : Nat) (r : KReq) (f : Refuse) : (s.refuse m r f).boot = s.boot := by simp [State.refuse]
@[simp] theorem State.refuse_pkg (s : State) (m : Nat) (r : KReq) (f : Refuse) : (s.refuse m r f).pkg = s.pkg := by simp [State.refuse]
@[simp] theorem State.refuse_cig (s : State) (m : Nat) (r : KReq) (f : Refuse) : (s.refuse m r f).cig = s.cig := by simp [State.refuse]
@[simp] theorem State.refuse_evts (s : State) (m : Nat) (r : KReq) (f : Refuse) : (s.refuse m r f).evts = s.evts := by simp [State.refuse]
@[simp] theorem State.refuse_ctrs (s : State) (m : Nat) (r : KReq) (f : Refuse) : (s.refuse m r f).ctrs = s.ctrs := by simp [State.refuse]
@[simp] theorem State.refuse_flags (s : State) (m : Nat) (r : KReq) (f : Refuse) : (s.refuse m r f).flags = s.flags := by simp [State.refuse]
@[simp] theorem State.refuse_jnl (s : State) (m : Nat) (r : KReq) (f : Refuse) : (s.refuse m r f).jnl = s.jnl := by simp [State.refuse]
@[simp] theorem State.refuse_kly (s : State) (m : Nat) (r : KReq) (f : Refuse) : (s.refuse m r f).kly = s.kly := by simp [State.refuse]
@[simp] theorem State.refuse_log (s : State) (m : Nat) (r : KReq) (f : Refuse) : (s.refuse m r f).log = s.log := by simp [State.refuse]
@[simp] theorem State.refuse_run (s : State) (m : Nat) (r : KReq) (f : Refuse) : (s.refuse m r f).run = s.run := by simp [State.refuse]
@[simp] theorem State.refuse_planes (s : State) (m : Nat) (r : KReq) (f : Refuse) : (s.refuse m r f).planes = s.planes := by simp [State.refuse]
@[simp] theorem State.refuse_arr (s : State) (m : Nat) (r : KReq) (f : Refuse) : (s.refuse m r f).arr = s.arr := by simp [State.refuse]
@[simp] theorem State.refuse_wgm (s : State) (m : Nat) (r : KReq) (f : Refuse) : (s.refuse m r f).wgm = s.wgm := by simp [State.refuse]
@[simp] theorem State.refuse_alm (s : State) (m : Nat) (r : KReq) (f : Refuse) : (s.refuse m r f).alm = s.alm := by simp [State.refuse]
@[simp] theorem State.refuse_chan (s : State) (m : Nat) (r : KReq) (f : Refuse) : (s.refuse m r f).chan = s.chan := by simp [State.refuse]
@[simp] theorem State.refuse_cap (s : State) (m : Nat) (r : KReq) (f : Refuse) : (s.refuse m r f).cap = s.cap := by simp [State.refuse]
@[simp] theorem State.refuse_mem (s : State) (m : Nat) (r : KReq) (f : Refuse) : (s.refuse m r f).mem = s.mem := by simp [State.refuse]
@[simp] theorem State.refuse_sram (s : State) (m : Nat) (r : KReq) (f : Refuse) : (s.refuse m r f).sram = s.sram := by simp [State.refuse]
@[simp] theorem State.refuse_lanes (s : State) (m : Nat) (r : KReq) (f : Refuse) : (s.refuse m r f).lanes = s.lanes := by simp [State.refuse]
@[simp] theorem State.refuse_sext (s : State) (m : Nat) (r : KReq) (f : Refuse) : (s.refuse m r f).sext = s.sext := by simp [State.refuse]
@[simp] theorem State.refuse_hub (s : State) (m : Nat) (r : KReq) (f : Refuse) : (s.refuse m r f).hub = s.hub := by simp [State.refuse]
@[simp] theorem State.refuse_out (s : State) (m : Nat) (r : KReq) (f : Refuse) : (s.refuse m r f).out = s.out := by simp [State.refuse]
@[simp] theorem State.refuse_pair (s : State) (m : Nat) (r : KReq) (f : Refuse) : (s.refuse m r f).pair = s.pair := by simp [State.refuse]
@[simp] theorem State.refuse_chr (s : State) (m : Nat) (r : KReq) (f : Refuse) : (s.refuse m r f).chr = s.chr := by simp [State.refuse]

/-! ### complete -/

@[simp] theorem State.complete_pending (s : State) (m : Nat) (r : KReq) (q : Nat) (c : CN) (d : Dword) (l : List Byte) : (s.complete m r q c d l).pending = s.pending := by simp [State.complete]
@[simp] theorem State.complete_freeCtr (s : State) (m : Nat) (r : KReq) (q : Nat) (c : CN) (d : Dword) (l : List Byte) : (s.complete m r q c d l).freeCtr = s.freeCtr := by simp [State.complete]
@[simp] theorem State.complete_cn (s : State) (m : Nat) (r : KReq) (q : Nat) (c : CN) (d : Dword) (l : List Byte) : (s.complete m r q c d l).cn = s.cn := by simp [State.complete]
@[simp] theorem State.complete_tick (s : State) (m : Nat) (r : KReq) (q : Nat) (c : CN) (d : Dword) (l : List Byte) : (s.complete m r q c d l).tick = s.tick := by simp [State.complete]
@[simp] theorem State.complete_dev (s : State) (m : Nat) (r : KReq) (q : Nat) (c : CN) (d : Dword) (l : List Byte) : (s.complete m r q c d l).dev = s.dev := by simp [State.complete]
@[simp] theorem State.complete_clk (s : State) (m : Nat) (r : KReq) (q : Nat) (c : CN) (d : Dword) (l : List Byte) : (s.complete m r q c d l).clk = s.clk := by simp [State.complete]
@[simp] theorem State.complete_pwr (s : State) (m : Nat) (r : KReq) (q : Nat) (c : CN) (d : Dword) (l : List Byte) : (s.complete m r q c d l).pwr = s.pwr := by simp [State.complete]
@[simp] theorem State.complete_boot (s : State) (m : Nat) (r : KReq) (q : Nat) (c : CN) (d : Dword) (l : List Byte) : (s.complete m r q c d l).boot = s.boot := by simp [State.complete]
@[simp] theorem State.complete_pkg (s : State) (m : Nat) (r : KReq) (q : Nat) (c : CN) (d : Dword) (l : List Byte) : (s.complete m r q c d l).pkg = s.pkg := by simp [State.complete]
@[simp] theorem State.complete_cig (s : State) (m : Nat) (r : KReq) (q : Nat) (c : CN) (d : Dword) (l : List Byte) : (s.complete m r q c d l).cig = s.cig := by simp [State.complete]
@[simp] theorem State.complete_evts (s : State) (m : Nat) (r : KReq) (q : Nat) (c : CN) (d : Dword) (l : List Byte) : (s.complete m r q c d l).evts = s.evts := by simp [State.complete]
@[simp] theorem State.complete_ctrs (s : State) (m : Nat) (r : KReq) (q : Nat) (c : CN) (d : Dword) (l : List Byte) : (s.complete m r q c d l).ctrs = s.ctrs := by simp [State.complete]
@[simp] theorem State.complete_flags (s : State) (m : Nat) (r : KReq) (q : Nat) (c : CN) (d : Dword) (l : List Byte) : (s.complete m r q c d l).flags = s.flags := by simp [State.complete]
@[simp] theorem State.complete_jnl (s : State) (m : Nat) (r : KReq) (q : Nat) (c : CN) (d : Dword) (l : List Byte) : (s.complete m r q c d l).jnl = s.jnl := by simp [State.complete]
@[simp] theorem State.complete_kly (s : State) (m : Nat) (r : KReq) (q : Nat) (c : CN) (d : Dword) (l : List Byte) : (s.complete m r q c d l).kly = s.kly := by simp [State.complete]
@[simp] theorem State.complete_log (s : State) (m : Nat) (r : KReq) (q : Nat) (c : CN) (d : Dword) (l : List Byte) : (s.complete m r q c d l).log = s.log := by simp [State.complete]
@[simp] theorem State.complete_run (s : State) (m : Nat) (r : KReq) (q : Nat) (c : CN) (d : Dword) (l : List Byte) : (s.complete m r q c d l).run = s.run := by simp [State.complete]
@[simp] theorem State.complete_planes (s : State) (m : Nat) (r : KReq) (q : Nat) (c : CN) (d : Dword) (l : List Byte) : (s.complete m r q c d l).planes = s.planes := by simp [State.complete]
@[simp] theorem State.complete_arr (s : State) (m : Nat) (r : KReq) (q : Nat) (c : CN) (d : Dword) (l : List Byte) : (s.complete m r q c d l).arr = s.arr := by simp [State.complete]
@[simp] theorem State.complete_wgm (s : State) (m : Nat) (r : KReq) (q : Nat) (c : CN) (d : Dword) (l : List Byte) : (s.complete m r q c d l).wgm = s.wgm := by simp [State.complete]
@[simp] theorem State.complete_alm (s : State) (m : Nat) (r : KReq) (q : Nat) (c : CN) (d : Dword) (l : List Byte) : (s.complete m r q c d l).alm = s.alm := by simp [State.complete]
@[simp] theorem State.complete_chan (s : State) (m : Nat) (r : KReq) (q : Nat) (c : CN) (d : Dword) (l : List Byte) : (s.complete m r q c d l).chan = s.chan := by simp [State.complete]
@[simp] theorem State.complete_cap (s : State) (m : Nat) (r : KReq) (q : Nat) (c : CN) (d : Dword) (l : List Byte) : (s.complete m r q c d l).cap = s.cap := by simp [State.complete]
@[simp] theorem State.complete_mem (s : State) (m : Nat) (r : KReq) (q : Nat) (c : CN) (d : Dword) (l : List Byte) : (s.complete m r q c d l).mem = s.mem := by simp [State.complete]
@[simp] theorem State.complete_sram (s : State) (m : Nat) (r : KReq) (q : Nat) (c : CN) (d : Dword) (l : List Byte) : (s.complete m r q c d l).sram = s.sram := by simp [State.complete]
@[simp] theorem State.complete_lanes (s : State) (m : Nat) (r : KReq) (q : Nat) (c : CN) (d : Dword) (l : List Byte) : (s.complete m r q c d l).lanes = s.lanes := by simp [State.complete]
@[simp] theorem State.complete_sext (s : State) (m : Nat) (r : KReq) (q : Nat) (c : CN) (d : Dword) (l : List Byte) : (s.complete m r q c d l).sext = s.sext := by simp [State.complete]
@[simp] theorem State.complete_hub (s : State) (m : Nat) (r : KReq) (q : Nat) (c : CN) (d : Dword) (l : List Byte) : (s.complete m r q c d l).hub = s.hub := by simp [State.complete]
@[simp] theorem State.complete_out (s : State) (m : Nat) (r : KReq) (q : Nat) (c : CN) (d : Dword) (l : List Byte) : (s.complete m r q c d l).out = s.out := by simp [State.complete]
@[simp] theorem State.complete_pair (s : State) (m : Nat) (r : KReq) (q : Nat) (c : CN) (d : Dword) (l : List Byte) : (s.complete m r q c d l).pair = s.pair := by simp [State.complete]
@[simp] theorem State.complete_chr (s : State) (m : Nat) (r : KReq) (q : Nat) (c : CN) (d : Dword) (l : List Byte) : (s.complete m r q c d l).chr = s.chr := by simp [State.complete]

/-! ### effectNotice -/

@[simp] theorem State.effectNotice_pending (s : State) (w : Waiting) (c : CN) : (s.effectNotice w c).pending = s.pending := by simp [State.effectNotice]
@[simp] theorem State.effectNotice_freeCtr (s : State) (w : Waiting) (c : CN) : (s.effectNotice w c).freeCtr = s.freeCtr := by simp [State.effectNotice]
@[simp] theorem State.effectNotice_cn (s : State) (w : Waiting) (c : CN) : (s.effectNotice w c).cn = s.cn := by simp [State.effectNotice]
@[simp] theorem State.effectNotice_tick (s : State) (w : Waiting) (c : CN) : (s.effectNotice w c).tick = s.tick := by simp [State.effectNotice]
@[simp] theorem State.effectNotice_dev (s : State) (w : Waiting) (c : CN) : (s.effectNotice w c).dev = s.dev := by simp [State.effectNotice]
@[simp] theorem State.effectNotice_clk (s : State) (w : Waiting) (c : CN) : (s.effectNotice w c).clk = s.clk := by simp [State.effectNotice]
@[simp] theorem State.effectNotice_pwr (s : State) (w : Waiting) (c : CN) : (s.effectNotice w c).pwr = s.pwr := by simp [State.effectNotice]
@[simp] theorem State.effectNotice_boot (s : State) (w : Waiting) (c : CN) : (s.effectNotice w c).boot = s.boot := by simp [State.effectNotice]
@[simp] theorem State.effectNotice_pkg (s : State) (w : Waiting) (c : CN) : (s.effectNotice w c).pkg = s.pkg := by simp [State.effectNotice]
@[simp] theorem State.effectNotice_cig (s : State) (w : Waiting) (c : CN) : (s.effectNotice w c).cig = s.cig := by simp [State.effectNotice]
@[simp] theorem State.effectNotice_evts (s : State) (w : Waiting) (c : CN) : (s.effectNotice w c).evts = s.evts := by simp [State.effectNotice]
@[simp] theorem State.effectNotice_ctrs (s : State) (w : Waiting) (c : CN) : (s.effectNotice w c).ctrs = s.ctrs := by simp [State.effectNotice]
@[simp] theorem State.effectNotice_flags (s : State) (w : Waiting) (c : CN) : (s.effectNotice w c).flags = s.flags := by simp [State.effectNotice]
@[simp] theorem State.effectNotice_kly (s : State) (w : Waiting) (c : CN) : (s.effectNotice w c).kly = s.kly := by simp [State.effectNotice]
@[simp] theorem State.effectNotice_log (s : State) (w : Waiting) (c : CN) : (s.effectNotice w c).log = s.log := by simp [State.effectNotice]
@[simp] theorem State.effectNotice_run (s : State) (w : Waiting) (c : CN) : (s.effectNotice w c).run = s.run := by simp [State.effectNotice]
@[simp] theorem State.effectNotice_planes (s : State) (w : Waiting) (c : CN) : (s.effectNotice w c).planes = s.planes := by simp [State.effectNotice]
@[simp] theorem State.effectNotice_arr (s : State) (w : Waiting) (c : CN) : (s.effectNotice w c).arr = s.arr := by simp [State.effectNotice]
@[simp] theorem State.effectNotice_wgm (s : State) (w : Waiting) (c : CN) : (s.effectNotice w c).wgm = s.wgm := by simp [State.effectNotice]
@[simp] theorem State.effectNotice_alm (s : State) (w : Waiting) (c : CN) : (s.effectNotice w c).alm = s.alm := by simp [State.effectNotice]
@[simp] theorem State.effectNotice_chan (s : State) (w : Waiting) (c : CN) : (s.effectNotice w c).chan = s.chan := by simp [State.effectNotice]
@[simp] theorem State.effectNotice_cap (s : State) (w : Waiting) (c : CN) : (s.effectNotice w c).cap = s.cap := by simp [State.effectNotice]
@[simp] theorem State.effectNotice_mem (s : State) (w : Waiting) (c : CN) : (s.effectNotice w c).mem = s.mem := by simp [State.effectNotice]
@[simp] theorem State.effectNotice_sram (s : State) (w : Waiting) (c : CN) : (s.effectNotice w c).sram = s.sram := by simp [State.effectNotice]
@[simp] theorem State.effectNotice_lanes (s : State) (w : Waiting) (c : CN) : (s.effectNotice w c).lanes = s.lanes := by simp [State.effectNotice]
@[simp] theorem State.effectNotice_sext (s : State) (w : Waiting) (c : CN) : (s.effectNotice w c).sext = s.sext := by simp [State.effectNotice]
@[simp] theorem State.effectNotice_hub (s : State) (w : Waiting) (c : CN) : (s.effectNotice w c).hub = s.hub := by simp [State.effectNotice]
@[simp] theorem State.effectNotice_out (s : State) (w : Waiting) (c : CN) : (s.effectNotice w c).out = s.out := by simp [State.effectNotice]
@[simp] theorem State.effectNotice_pair (s : State) (w : Waiting) (c : CN) : (s.effectNotice w c).pair = s.pair := by simp [State.effectNotice]
@[simp] theorem State.effectNotice_chr (s : State) (w : Waiting) (c : CN) : (s.effectNotice w c).chr = s.chr := by simp [State.effectNotice]

/-! ### voidNotice -/

@[simp] theorem State.voidNotice_pending (s : State) (w : Waiting) (st : JSt) (c : Nat) : (s.voidNotice w st c).pending = s.pending := by simp [State.voidNotice]
@[simp] theorem State.voidNotice_freeCtr (s : State) (w : Waiting) (st : JSt) (c : Nat) : (s.voidNotice w st c).freeCtr = s.freeCtr := by simp [State.voidNotice]
@[simp] theorem State.voidNotice_cn (s : State) (w : Waiting) (st : JSt) (c : Nat) : (s.voidNotice w st c).cn = s.cn := by simp [State.voidNotice]
@[simp] theorem State.voidNotice_tick (s : State) (w : Waiting) (st : JSt) (c : Nat) : (s.voidNotice w st c).tick = s.tick := by simp [State.voidNotice]
@[simp] theorem State.voidNotice_dev (s : State) (w : Waiting) (st : JSt) (c : Nat) : (s.voidNotice w st c).dev = s.dev := by simp [State.voidNotice]
@[simp] theorem State.voidNotice_clk (s : State) (w : Waiting) (st : JSt) (c : Nat) : (s.voidNotice w st c).clk = s.clk := by simp [State.voidNotice]
@[simp] theorem State.voidNotice_pwr (s : State) (w : Waiting) (st : JSt) (c : Nat) : (s.voidNotice w st c).pwr = s.pwr := by simp [State.voidNotice]
@[simp] theorem State.voidNotice_boot (s : State) (w : Waiting) (st : JSt) (c : Nat) : (s.voidNotice w st c).boot = s.boot := by simp [State.voidNotice]
@[simp] theorem State.voidNotice_pkg (s : State) (w : Waiting) (st : JSt) (c : Nat) : (s.voidNotice w st c).pkg = s.pkg := by simp [State.voidNotice]
@[simp] theorem State.voidNotice_cig (s : State) (w : Waiting) (st : JSt) (c : Nat) : (s.voidNotice w st c).cig = s.cig := by simp [State.voidNotice]
@[simp] theorem State.voidNotice_evts (s : State) (w : Waiting) (st : JSt) (c : Nat) : (s.voidNotice w st c).evts = s.evts := by simp [State.voidNotice]
@[simp] theorem State.voidNotice_ctrs (s : State) (w : Waiting) (st : JSt) (c : Nat) : (s.voidNotice w st c).ctrs = s.ctrs := by simp [State.voidNotice]
@[simp] theorem State.voidNotice_flags (s : State) (w : Waiting) (st : JSt) (c : Nat) : (s.voidNotice w st c).flags = s.flags := by simp [State.voidNotice]
@[simp] theorem State.voidNotice_kly (s : State) (w : Waiting) (st : JSt) (c : Nat) : (s.voidNotice w st c).kly = s.kly := by simp [State.voidNotice]
@[simp] theorem State.voidNotice_log (s : State) (w : Waiting) (st : JSt) (c : Nat) : (s.voidNotice w st c).log = s.log := by simp [State.voidNotice]
@[simp] theorem State.voidNotice_run (s : State) (w : Waiting) (st : JSt) (c : Nat) : (s.voidNotice w st c).run = s.run := by simp [State.voidNotice]
@[simp] theorem State.voidNotice_planes (s : State) (w : Waiting) (st : JSt) (c : Nat) : (s.voidNotice w st c).planes = s.planes := by simp [State.voidNotice]
@[simp] theorem State.voidNotice_arr (s : State) (w : Waiting) (st : JSt) (c : Nat) : (s.voidNotice w st c).arr = s.arr := by simp [State.voidNotice]
@[simp] theorem State.voidNotice_wgm (s : State) (w : Waiting) (st : JSt) (c : Nat) : (s.voidNotice w st c).wgm = s.wgm := by simp [State.voidNotice]
@[simp] theorem State.voidNotice_alm (s : State) (w : Waiting) (st : JSt) (c : Nat) : (s.voidNotice w st c).alm = s.alm := by simp [State.voidNotice]
@[simp] theorem State.voidNotice_chan (s : State) (w : Waiting) (st : JSt) (c : Nat) : (s.voidNotice w st c).chan = s.chan := by simp [State.voidNotice]
@[simp] theorem State.voidNotice_cap (s : State) (w : Waiting) (st : JSt) (c : Nat) : (s.voidNotice w st c).cap = s.cap := by simp [State.voidNotice]
@[simp] theorem State.voidNotice_mem (s : State) (w : Waiting) (st : JSt) (c : Nat) : (s.voidNotice w st c).mem = s.mem := by simp [State.voidNotice]
@[simp] theorem State.voidNotice_sram (s : State) (w : Waiting) (st : JSt) (c : Nat) : (s.voidNotice w st c).sram = s.sram := by simp [State.voidNotice]
@[simp] theorem State.voidNotice_lanes (s : State) (w : Waiting) (st : JSt) (c : Nat) : (s.voidNotice w st c).lanes = s.lanes := by simp [State.voidNotice]
@[simp] theorem State.voidNotice_sext (s : State) (w : Waiting) (st : JSt) (c : Nat) : (s.voidNotice w st c).sext = s.sext := by simp [State.voidNotice]
@[simp] theorem State.voidNotice_hub (s : State) (w : Waiting) (st : JSt) (c : Nat) : (s.voidNotice w st c).hub = s.hub := by simp [State.voidNotice]
@[simp] theorem State.voidNotice_out (s : State) (w : Waiting) (st : JSt) (c : Nat) : (s.voidNotice w st c).out = s.out := by simp [State.voidNotice]
@[simp] theorem State.voidNotice_pair (s : State) (w : Waiting) (st : JSt) (c : Nat) : (s.voidNotice w st c).pair = s.pair := by simp [State.voidNotice]
@[simp] theorem State.voidNotice_chr (s : State) (w : Waiting) (st : JSt) (c : Nat) : (s.voidNotice w st c).chr = s.chr := by simp [State.voidNotice]

/-! ### abortLong -/

@[simp] theorem State.abortLong_pending (s : State) (w : Waiting) (f : Refuse) : (s.abortLong w f).pending = s.pending := by simp [State.abortLong]
@[simp] theorem State.abortLong_freeCtr (s : State) (w : Waiting) (f : Refuse) : (s.abortLong w f).freeCtr = s.freeCtr := by simp [State.abortLong]
@[simp] theorem State.abortLong_cn (s : State) (w : Waiting) (f : Refuse) : (s.abortLong w f).cn = s.cn := by simp [State.abortLong]
@[simp] theorem State.abortLong_tick (s : State) (w : Waiting) (f : Refuse) : (s.abortLong w f).tick = s.tick := by simp [State.abortLong]
@[simp] theorem State.abortLong_dev (s : State) (w : Waiting) (f : Refuse) : (s.abortLong w f).dev = s.dev := by simp [State.abortLong]
@[simp] theorem State.abortLong_clk (s : State) (w : Waiting) (f : Refuse) : (s.abortLong w f).clk = s.clk := by simp [State.abortLong]
@[simp] theorem State.abortLong_pwr (s : State) (w : Waiting) (f : Refuse) : (s.abortLong w f).pwr = s.pwr := by simp [State.abortLong]
@[simp] theorem State.abortLong_boot (s : State) (w : Waiting) (f : Refuse) : (s.abortLong w f).boot = s.boot := by simp [State.abortLong]
@[simp] theorem State.abortLong_pkg (s : State) (w : Waiting) (f : Refuse) : (s.abortLong w f).pkg = s.pkg := by simp [State.abortLong]
@[simp] theorem State.abortLong_cig (s : State) (w : Waiting) (f : Refuse) : (s.abortLong w f).cig = s.cig := by simp [State.abortLong]
@[simp] theorem State.abortLong_evts (s : State) (w : Waiting) (f : Refuse) : (s.abortLong w f).evts = s.evts := by simp [State.abortLong]
@[simp] theorem State.abortLong_ctrs (s : State) (w : Waiting) (f : Refuse) : (s.abortLong w f).ctrs = s.ctrs := by simp [State.abortLong]
@[simp] theorem State.abortLong_flags (s : State) (w : Waiting) (f : Refuse) : (s.abortLong w f).flags = s.flags := by simp [State.abortLong]
@[simp] theorem State.abortLong_kly (s : State) (w : Waiting) (f : Refuse) : (s.abortLong w f).kly = s.kly := by simp [State.abortLong]
@[simp] theorem State.abortLong_log (s : State) (w : Waiting) (f : Refuse) : (s.abortLong w f).log = s.log := by simp [State.abortLong]
@[simp] theorem State.abortLong_run (s : State) (w : Waiting) (f : Refuse) : (s.abortLong w f).run = s.run := by simp [State.abortLong]
@[simp] theorem State.abortLong_planes (s : State) (w : Waiting) (f : Refuse) : (s.abortLong w f).planes = s.planes := by simp [State.abortLong]
@[simp] theorem State.abortLong_arr (s : State) (w : Waiting) (f : Refuse) : (s.abortLong w f).arr = s.arr := by simp [State.abortLong]
@[simp] theorem State.abortLong_wgm (s : State) (w : Waiting) (f : Refuse) : (s.abortLong w f).wgm = s.wgm := by simp [State.abortLong]
@[simp] theorem State.abortLong_alm (s : State) (w : Waiting) (f : Refuse) : (s.abortLong w f).alm = s.alm := by simp [State.abortLong]
@[simp] theorem State.abortLong_chan (s : State) (w : Waiting) (f : Refuse) : (s.abortLong w f).chan = s.chan := by simp [State.abortLong]
@[simp] theorem State.abortLong_cap (s : State) (w : Waiting) (f : Refuse) : (s.abortLong w f).cap = s.cap := by simp [State.abortLong]
@[simp] theorem State.abortLong_mem (s : State) (w : Waiting) (f : Refuse) : (s.abortLong w f).mem = s.mem := by simp [State.abortLong]
@[simp] theorem State.abortLong_sram (s : State) (w : Waiting) (f : Refuse) : (s.abortLong w f).sram = s.sram := by simp [State.abortLong]
@[simp] theorem State.abortLong_lanes (s : State) (w : Waiting) (f : Refuse) : (s.abortLong w f).lanes = s.lanes := by simp [State.abortLong]
@[simp] theorem State.abortLong_sext (s : State) (w : Waiting) (f : Refuse) : (s.abortLong w f).sext = s.sext := by simp [State.abortLong]
@[simp] theorem State.abortLong_hub (s : State) (w : Waiting) (f : Refuse) : (s.abortLong w f).hub = s.hub := by simp [State.abortLong]
@[simp] theorem State.abortLong_out (s : State) (w : Waiting) (f : Refuse) : (s.abortLong w f).out = s.out := by simp [State.abortLong]
@[simp] theorem State.abortLong_chr (s : State) (w : Waiting) (f : Refuse) : (s.abortLong w f).chr = s.chr := by simp [State.abortLong]

/-! ### endLong -/

@[simp] theorem State.endLong_pending (s : State) (w : Waiting) (r : Dword) (l : List Byte) : (s.endLong w r l).pending = s.pending := by unfold State.endLong; simp only; split <;> simp
@[simp] theorem State.endLong_freeCtr (s : State) (w : Waiting) (r : Dword) (l : List Byte) : (s.endLong w r l).freeCtr = s.freeCtr := by unfold State.endLong; simp only; split <;> simp
@[simp] theorem State.endLong_cn (s : State) (w : Waiting) (r : Dword) (l : List Byte) : (s.endLong w r l).cn = s.cn := by unfold State.endLong; simp only; split <;> simp
@[simp] theorem State.endLong_tick (s : State) (w : Waiting) (r : Dword) (l : List Byte) : (s.endLong w r l).tick = s.tick := by unfold State.endLong; simp only; split <;> simp
@[simp] theorem State.endLong_dev (s : State) (w : Waiting) (r : Dword) (l : List Byte) : (s.endLong w r l).dev = s.dev := by unfold State.endLong; simp only; split <;> simp
@[simp] theorem State.endLong_clk (s : State) (w : Waiting) (r : Dword) (l : List Byte) : (s.endLong w r l).clk = s.clk := by unfold State.endLong; simp only; split <;> simp
@[simp] theorem State.endLong_pwr (s : State) (w : Waiting) (r : Dword) (l : List Byte) : (s.endLong w r l).pwr = s.pwr := by unfold State.endLong; simp only; split <;> simp
@[simp] theorem State.endLong_boot (s : State) (w : Waiting) (r : Dword) (l : List Byte) : (s.endLong w r l).boot = s.boot := by unfold State.endLong; simp only; split <;> simp
@[simp] theorem State.endLong_pkg (s : State) (w : Waiting) (r : Dword) (l : List Byte) : (s.endLong w r l).pkg = s.pkg := by unfold State.endLong; simp only; split <;> simp
@[simp] theorem State.endLong_cig (s : State) (w : Waiting) (r : Dword) (l : List Byte) : (s.endLong w r l).cig = s.cig := by unfold State.endLong; simp only; split <;> simp
@[simp] theorem State.endLong_evts (s : State) (w : Waiting) (r : Dword) (l : List Byte) : (s.endLong w r l).evts = s.evts := by unfold State.endLong; simp only; split <;> simp
@[simp] theorem State.endLong_ctrs (s : State) (w : Waiting) (r : Dword) (l : List Byte) : (s.endLong w r l).ctrs = s.ctrs := by unfold State.endLong; simp only; split <;> simp
@[simp] theorem State.endLong_flags (s : State) (w : Waiting) (r : Dword) (l : List Byte) : (s.endLong w r l).flags = s.flags := by unfold State.endLong; simp only; split <;> simp
@[simp] theorem State.endLong_kly (s : State) (w : Waiting) (r : Dword) (l : List Byte) : (s.endLong w r l).kly = s.kly := by unfold State.endLong; simp only; split <;> simp
@[simp] theorem State.endLong_log (s : State) (w : Waiting) (r : Dword) (l : List Byte) : (s.endLong w r l).log = s.log := by unfold State.endLong; simp only; split <;> simp
@[simp] theorem State.endLong_run (s : State) (w : Waiting) (r : Dword) (l : List Byte) : (s.endLong w r l).run = s.run := by unfold State.endLong; simp only; split <;> simp
@[simp] theorem State.endLong_planes (s : State) (w : Waiting) (r : Dword) (l : List Byte) : (s.endLong w r l).planes = s.planes := by unfold State.endLong; simp only; split <;> simp
@[simp] theorem State.endLong_arr (s : State) (w : Waiting) (r : Dword) (l : List Byte) : (s.endLong w r l).arr = s.arr := by unfold State.endLong; simp only; split <;> simp
@[simp] theorem State.endLong_wgm (s : State) (w : Waiting) (r : Dword) (l : List Byte) : (s.endLong w r l).wgm = s.wgm := by unfold State.endLong; simp only; split <;> simp
@[simp] theorem State.endLong_alm (s : State) (w : Waiting) (r : Dword) (l : List Byte) : (s.endLong w r l).alm = s.alm := by unfold State.endLong; simp only; split <;> simp
@[simp] theorem State.endLong_chan (s : State) (w : Waiting) (r : Dword) (l : List Byte) : (s.endLong w r l).chan = s.chan := by unfold State.endLong; simp only; split <;> simp
@[simp] theorem State.endLong_cap (s : State) (w : Waiting) (r : Dword) (l : List Byte) : (s.endLong w r l).cap = s.cap := by unfold State.endLong; simp only; split <;> simp
@[simp] theorem State.endLong_mem (s : State) (w : Waiting) (r : Dword) (l : List Byte) : (s.endLong w r l).mem = s.mem := by unfold State.endLong; simp only; split <;> simp
@[simp] theorem State.endLong_sram (s : State) (w : Waiting) (r : Dword) (l : List Byte) : (s.endLong w r l).sram = s.sram := by unfold State.endLong; simp only; split <;> simp
@[simp] theorem State.endLong_lanes (s : State) (w : Waiting) (r : Dword) (l : List Byte) : (s.endLong w r l).lanes = s.lanes := by unfold State.endLong; simp only; split <;> simp
@[simp] theorem State.endLong_sext (s : State) (w : Waiting) (r : Dword) (l : List Byte) : (s.endLong w r l).sext = s.sext := by unfold State.endLong; simp only; split <;> simp
@[simp] theorem State.endLong_hub (s : State) (w : Waiting) (r : Dword) (l : List Byte) : (s.endLong w r l).hub = s.hub := by unfold State.endLong; simp only; split <;> simp
@[simp] theorem State.endLong_out (s : State) (w : Waiting) (r : Dword) (l : List Byte) : (s.endLong w r l).out = s.out := by unfold State.endLong; simp only; split <;> simp
@[simp] theorem State.endLong_chr (s : State) (w : Waiting) (r : Dword) (l : List Byte) : (s.endLong w r l).chr = s.chr := by unfold State.endLong; simp only; split <;> simp

/-! ### logEvent -/

@[simp] theorem State.logEvent_pending (s : State) (e : LogEvt) : (s.logEvent e).pending = s.pending := by unfold State.logEvent; split <;> (try split) <;> simp
@[simp] theorem State.logEvent_freeCtr (s : State) (e : LogEvt) : (s.logEvent e).freeCtr = s.freeCtr := by unfold State.logEvent; split <;> (try split) <;> simp
@[simp] theorem State.logEvent_cn (s : State) (e : LogEvt) : (s.logEvent e).cn = s.cn := by unfold State.logEvent; split <;> (try split) <;> simp
@[simp] theorem State.logEvent_tick (s : State) (e : LogEvt) : (s.logEvent e).tick = s.tick := by unfold State.logEvent; split <;> (try split) <;> simp
@[simp] theorem State.logEvent_dev (s : State) (e : LogEvt) : (s.logEvent e).dev = s.dev := by unfold State.logEvent; split <;> (try split) <;> simp
@[simp] theorem State.logEvent_clk (s : State) (e : LogEvt) : (s.logEvent e).clk = s.clk := by unfold State.logEvent; split <;> (try split) <;> simp
@[simp] theorem State.logEvent_pwr (s : State) (e : LogEvt) : (s.logEvent e).pwr = s.pwr := by unfold State.logEvent; split <;> (try split) <;> simp
@[simp] theorem State.logEvent_boot (s : State) (e : LogEvt) : (s.logEvent e).boot = s.boot := by unfold State.logEvent; split <;> (try split) <;> simp
@[simp] theorem State.logEvent_pkg (s : State) (e : LogEvt) : (s.logEvent e).pkg = s.pkg := by unfold State.logEvent; split <;> (try split) <;> simp
@[simp] theorem State.logEvent_host (s : State) (e : LogEvt) : (s.logEvent e).host = s.host := by unfold State.logEvent; split <;> (try split) <;> simp
@[simp] theorem State.logEvent_cig (s : State) (e : LogEvt) : (s.logEvent e).cig = s.cig := by unfold State.logEvent; split <;> (try split) <;> simp
@[simp] theorem State.logEvent_evts (s : State) (e : LogEvt) : (s.logEvent e).evts = s.evts := by unfold State.logEvent; split <;> (try split) <;> simp
@[simp] theorem State.logEvent_ctrs (s : State) (e : LogEvt) : (s.logEvent e).ctrs = s.ctrs := by unfold State.logEvent; split <;> (try split) <;> simp
@[simp] theorem State.logEvent_flags (s : State) (e : LogEvt) : (s.logEvent e).flags = s.flags := by unfold State.logEvent; split <;> (try split) <;> simp
@[simp] theorem State.logEvent_mbx (s : State) (e : LogEvt) : (s.logEvent e).mbx = s.mbx := by unfold State.logEvent; split <;> (try split) <;> simp
@[simp] theorem State.logEvent_jnl (s : State) (e : LogEvt) : (s.logEvent e).jnl = s.jnl := by unfold State.logEvent; split <;> (try split) <;> simp
@[simp] theorem State.logEvent_kly (s : State) (e : LogEvt) : (s.logEvent e).kly = s.kly := by unfold State.logEvent; split <;> (try split) <;> simp
@[simp] theorem State.logEvent_run (s : State) (e : LogEvt) : (s.logEvent e).run = s.run := by unfold State.logEvent; split <;> (try split) <;> simp
@[simp] theorem State.logEvent_planes (s : State) (e : LogEvt) : (s.logEvent e).planes = s.planes := by unfold State.logEvent; split <;> (try split) <;> simp
@[simp] theorem State.logEvent_arr (s : State) (e : LogEvt) : (s.logEvent e).arr = s.arr := by unfold State.logEvent; split <;> (try split) <;> simp
@[simp] theorem State.logEvent_wgm (s : State) (e : LogEvt) : (s.logEvent e).wgm = s.wgm := by unfold State.logEvent; split <;> (try split) <;> simp
@[simp] theorem State.logEvent_alm (s : State) (e : LogEvt) : (s.logEvent e).alm = s.alm := by unfold State.logEvent; split <;> (try split) <;> simp
@[simp] theorem State.logEvent_chan (s : State) (e : LogEvt) : (s.logEvent e).chan = s.chan := by unfold State.logEvent; split <;> (try split) <;> simp
@[simp] theorem State.logEvent_cap (s : State) (e : LogEvt) : (s.logEvent e).cap = s.cap := by unfold State.logEvent; split <;> (try split) <;> simp
@[simp] theorem State.logEvent_mem (s : State) (e : LogEvt) : (s.logEvent e).mem = s.mem := by unfold State.logEvent; split <;> (try split) <;> simp
@[simp] theorem State.logEvent_sram (s : State) (e : LogEvt) : (s.logEvent e).sram = s.sram := by unfold State.logEvent; split <;> (try split) <;> simp
@[simp] theorem State.logEvent_lanes (s : State) (e : LogEvt) : (s.logEvent e).lanes = s.lanes := by unfold State.logEvent; split <;> (try split) <;> simp
@[simp] theorem State.logEvent_sext (s : State) (e : LogEvt) : (s.logEvent e).sext = s.sext := by unfold State.logEvent; split <;> (try split) <;> simp
@[simp] theorem State.logEvent_hub (s : State) (e : LogEvt) : (s.logEvent e).hub = s.hub := by unfold State.logEvent; split <;> (try split) <;> simp
@[simp] theorem State.logEvent_out (s : State) (e : LogEvt) : (s.logEvent e).out = s.out := by unfold State.logEvent; split <;> (try split) <;> simp
@[simp] theorem State.logEvent_pair (s : State) (e : LogEvt) : (s.logEvent e).pair = s.pair := by unfold State.logEvent; split <;> (try split) <;> simp
@[simp] theorem State.logEvent_chr (s : State) (e : LogEvt) : (s.logEvent e).chr = s.chr := by unfold State.logEvent; split <;> (try split) <;> simp

/-! ### covered -/

@[simp] theorem State.covered_pending (s : State) (o : State) (b : Bool) : (s.covered o b).pending = s.pending := by unfold State.covered; split <;> simp
@[simp] theorem State.covered_freeCtr (s : State) (o : State) (b : Bool) : (s.covered o b).freeCtr = s.freeCtr := by unfold State.covered; split <;> simp
@[simp] theorem State.covered_cn (s : State) (o : State) (b : Bool) : (s.covered o b).cn = s.cn := by unfold State.covered; split <;> simp
@[simp] theorem State.covered_tick (s : State) (o : State) (b : Bool) : (s.covered o b).tick = s.tick := by unfold State.covered; split <;> simp
@[simp] theorem State.covered_dev (s : State) (o : State) (b : Bool) : (s.covered o b).dev = s.dev := by unfold State.covered; split <;> simp
@[simp] theorem State.covered_clk (s : State) (o : State) (b : Bool) : (s.covered o b).clk = s.clk := by unfold State.covered; split <;> simp
@[simp] theorem State.covered_pwr (s : State) (o : State) (b : Bool) : (s.covered o b).pwr = s.pwr := by unfold State.covered; split <;> simp
@[simp] theorem State.covered_boot (s : State) (o : State) (b : Bool) : (s.covered o b).boot = s.boot := by unfold State.covered; split <;> simp
@[simp] theorem State.covered_pkg (s : State) (o : State) (b : Bool) : (s.covered o b).pkg = s.pkg := by unfold State.covered; split <;> simp
@[simp] theorem State.covered_host (s : State) (o : State) (b : Bool) : (s.covered o b).host = s.host := by unfold State.covered; split <;> simp
@[simp] theorem State.covered_evts (s : State) (o : State) (b : Bool) : (s.covered o b).evts = s.evts := by unfold State.covered; split <;> simp
@[simp] theorem State.covered_ctrs (s : State) (o : State) (b : Bool) : (s.covered o b).ctrs = s.ctrs := by unfold State.covered; split <;> simp
@[simp] theorem State.covered_flags (s : State) (o : State) (b : Bool) : (s.covered o b).flags = s.flags := by unfold State.covered; split <;> simp
@[simp] theorem State.covered_mbx (s : State) (o : State) (b : Bool) : (s.covered o b).mbx = s.mbx := by unfold State.covered; split <;> simp
@[simp] theorem State.covered_jnl (s : State) (o : State) (b : Bool) : (s.covered o b).jnl = s.jnl := by unfold State.covered; split <;> simp
@[simp] theorem State.covered_kly (s : State) (o : State) (b : Bool) : (s.covered o b).kly = s.kly := by unfold State.covered; split <;> simp
@[simp] theorem State.covered_log (s : State) (o : State) (b : Bool) : (s.covered o b).log = s.log := by unfold State.covered; split <;> simp
@[simp] theorem State.covered_run (s : State) (o : State) (b : Bool) : (s.covered o b).run = s.run := by unfold State.covered; split <;> simp
@[simp] theorem State.covered_planes (s : State) (o : State) (b : Bool) : (s.covered o b).planes = s.planes := by unfold State.covered; split <;> simp
@[simp] theorem State.covered_arr (s : State) (o : State) (b : Bool) : (s.covered o b).arr = s.arr := by unfold State.covered; split <;> simp
@[simp] theorem State.covered_wgm (s : State) (o : State) (b : Bool) : (s.covered o b).wgm = s.wgm := by unfold State.covered; split <;> simp
@[simp] theorem State.covered_alm (s : State) (o : State) (b : Bool) : (s.covered o b).alm = s.alm := by unfold State.covered; split <;> simp
@[simp] theorem State.covered_chan (s : State) (o : State) (b : Bool) : (s.covered o b).chan = s.chan := by unfold State.covered; split <;> simp
@[simp] theorem State.covered_cap (s : State) (o : State) (b : Bool) : (s.covered o b).cap = s.cap := by unfold State.covered; split <;> simp
@[simp] theorem State.covered_mem (s : State) (o : State) (b : Bool) : (s.covered o b).mem = s.mem := by unfold State.covered; split <;> simp
@[simp] theorem State.covered_sram (s : State) (o : State) (b : Bool) : (s.covered o b).sram = s.sram := by unfold State.covered; split <;> simp
@[simp] theorem State.covered_lanes (s : State) (o : State) (b : Bool) : (s.covered o b).lanes = s.lanes := by unfold State.covered; split <;> simp
@[simp] theorem State.covered_sext (s : State) (o : State) (b : Bool) : (s.covered o b).sext = s.sext := by unfold State.covered; split <;> simp
@[simp] theorem State.covered_hub (s : State) (o : State) (b : Bool) : (s.covered o b).hub = s.hub := by unfold State.covered; split <;> simp
@[simp] theorem State.covered_out (s : State) (o : State) (b : Bool) : (s.covered o b).out = s.out := by unfold State.covered; split <;> simp
@[simp] theorem State.covered_pair (s : State) (o : State) (b : Bool) : (s.covered o b).pair = s.pair := by unfold State.covered; split <;> simp
@[simp] theorem State.covered_chr (s : State) (o : State) (b : Bool) : (s.covered o b).chr = s.chr := by unfold State.covered; split <;> simp

/-! ### sideQueue -/

@[simp] theorem State.sideQueue_pending (s : State) (l : Nat) (p : Pkt) : (s.sideQueue l p).pending = s.pending := by unfold State.sideQueue; simp only; split <;> simp
@[simp] theorem State.sideQueue_freeCtr (s : State) (l : Nat) (p : Pkt) : (s.sideQueue l p).freeCtr = s.freeCtr := by unfold State.sideQueue; simp only; split <;> simp
@[simp] theorem State.sideQueue_cn (s : State) (l : Nat) (p : Pkt) : (s.sideQueue l p).cn = s.cn := by unfold State.sideQueue; simp only; split <;> simp
@[simp] theorem State.sideQueue_tick (s : State) (l : Nat) (p : Pkt) : (s.sideQueue l p).tick = s.tick := by unfold State.sideQueue; simp only; split <;> simp
@[simp] theorem State.sideQueue_dev (s : State) (l : Nat) (p : Pkt) : (s.sideQueue l p).dev = s.dev := by unfold State.sideQueue; simp only; split <;> simp
@[simp] theorem State.sideQueue_clk (s : State) (l : Nat) (p : Pkt) : (s.sideQueue l p).clk = s.clk := by unfold State.sideQueue; simp only; split <;> simp
@[simp] theorem State.sideQueue_pwr (s : State) (l : Nat) (p : Pkt) : (s.sideQueue l p).pwr = s.pwr := by unfold State.sideQueue; simp only; split <;> simp
@[simp] theorem State.sideQueue_boot (s : State) (l : Nat) (p : Pkt) : (s.sideQueue l p).boot = s.boot := by unfold State.sideQueue; simp only; split <;> simp
@[simp] theorem State.sideQueue_pkg (s : State) (l : Nat) (p : Pkt) : (s.sideQueue l p).pkg = s.pkg := by unfold State.sideQueue; simp only; split <;> simp
@[simp] theorem State.sideQueue_cig (s : State) (l : Nat) (p : Pkt) : (s.sideQueue l p).cig = s.cig := by unfold State.sideQueue; simp only; split <;> simp
@[simp] theorem State.sideQueue_flags (s : State) (l : Nat) (p : Pkt) : (s.sideQueue l p).flags = s.flags := by unfold State.sideQueue; simp only; split <;> simp
@[simp] theorem State.sideQueue_mbx (s : State) (l : Nat) (p : Pkt) : (s.sideQueue l p).mbx = s.mbx := by unfold State.sideQueue; simp only; split <;> simp
@[simp] theorem State.sideQueue_jnl (s : State) (l : Nat) (p : Pkt) : (s.sideQueue l p).jnl = s.jnl := by unfold State.sideQueue; simp only; split <;> simp
@[simp] theorem State.sideQueue_kly (s : State) (l : Nat) (p : Pkt) : (s.sideQueue l p).kly = s.kly := by unfold State.sideQueue; simp only; split <;> simp
@[simp] theorem State.sideQueue_log (s : State) (l : Nat) (p : Pkt) : (s.sideQueue l p).log = s.log := by unfold State.sideQueue; simp only; split <;> simp
@[simp] theorem State.sideQueue_run (s : State) (l : Nat) (p : Pkt) : (s.sideQueue l p).run = s.run := by unfold State.sideQueue; simp only; split <;> simp
@[simp] theorem State.sideQueue_planes (s : State) (l : Nat) (p : Pkt) : (s.sideQueue l p).planes = s.planes := by unfold State.sideQueue; simp only; split <;> simp
@[simp] theorem State.sideQueue_arr (s : State) (l : Nat) (p : Pkt) : (s.sideQueue l p).arr = s.arr := by unfold State.sideQueue; simp only; split <;> simp
@[simp] theorem State.sideQueue_wgm (s : State) (l : Nat) (p : Pkt) : (s.sideQueue l p).wgm = s.wgm := by unfold State.sideQueue; simp only; split <;> simp
@[simp] theorem State.sideQueue_alm (s : State) (l : Nat) (p : Pkt) : (s.sideQueue l p).alm = s.alm := by unfold State.sideQueue; simp only; split <;> simp
@[simp] theorem State.sideQueue_chan (s : State) (l : Nat) (p : Pkt) : (s.sideQueue l p).chan = s.chan := by unfold State.sideQueue; simp only; split <;> simp
@[simp] theorem State.sideQueue_cap (s : State) (l : Nat) (p : Pkt) : (s.sideQueue l p).cap = s.cap := by unfold State.sideQueue; simp only; split <;> simp
@[simp] theorem State.sideQueue_mem (s : State) (l : Nat) (p : Pkt) : (s.sideQueue l p).mem = s.mem := by unfold State.sideQueue; simp only; split <;> simp
@[simp] theorem State.sideQueue_sram (s : State) (l : Nat) (p : Pkt) : (s.sideQueue l p).sram = s.sram := by unfold State.sideQueue; simp only; split <;> simp
@[simp] theorem State.sideQueue_lanes (s : State) (l : Nat) (p : Pkt) : (s.sideQueue l p).lanes = s.lanes := by unfold State.sideQueue; simp only; split <;> simp
@[simp] theorem State.sideQueue_sext (s : State) (l : Nat) (p : Pkt) : (s.sideQueue l p).sext = s.sext := by unfold State.sideQueue; simp only; split <;> simp
@[simp] theorem State.sideQueue_out (s : State) (l : Nat) (p : Pkt) : (s.sideQueue l p).out = s.out := by unfold State.sideQueue; simp only; split <;> simp
@[simp] theorem State.sideQueue_pair (s : State) (l : Nat) (p : Pkt) : (s.sideQueue l p).pair = s.pair := by unfold State.sideQueue; simp only; split <;> simp
@[simp] theorem State.sideQueue_chr (s : State) (l : Nat) (p : Pkt) : (s.sideQueue l p).chr = s.chr := by unfold State.sideQueue; simp only; split <;> simp

/-! ### healthAdd -/

@[simp] theorem State.healthAdd_pending (s : State) (k i : Nat) (l : List Byte) : (s.healthAdd k i l).pending = s.pending := by unfold State.healthAdd; simp only; split <;> simp
@[simp] theorem State.healthAdd_freeCtr (s : State) (k i : Nat) (l : List Byte) : (s.healthAdd k i l).freeCtr = s.freeCtr := by unfold State.healthAdd; simp only; split <;> simp
@[simp] theorem State.healthAdd_cn (s : State) (k i : Nat) (l : List Byte) : (s.healthAdd k i l).cn = s.cn := by unfold State.healthAdd; simp only; split <;> simp
@[simp] theorem State.healthAdd_tick (s : State) (k i : Nat) (l : List Byte) : (s.healthAdd k i l).tick = s.tick := by unfold State.healthAdd; simp only; split <;> simp
@[simp] theorem State.healthAdd_dev (s : State) (k i : Nat) (l : List Byte) : (s.healthAdd k i l).dev = s.dev := by unfold State.healthAdd; simp only; split <;> simp
@[simp] theorem State.healthAdd_clk (s : State) (k i : Nat) (l : List Byte) : (s.healthAdd k i l).clk = s.clk := by unfold State.healthAdd; simp only; split <;> simp
@[simp] theorem State.healthAdd_pwr (s : State) (k i : Nat) (l : List Byte) : (s.healthAdd k i l).pwr = s.pwr := by unfold State.healthAdd; simp only; split <;> simp
@[simp] theorem State.healthAdd_boot (s : State) (k i : Nat) (l : List Byte) : (s.healthAdd k i l).boot = s.boot := by unfold State.healthAdd; simp only; split <;> simp
@[simp] theorem State.healthAdd_pkg (s : State) (k i : Nat) (l : List Byte) : (s.healthAdd k i l).pkg = s.pkg := by unfold State.healthAdd; simp only; split <;> simp
@[simp] theorem State.healthAdd_cig (s : State) (k i : Nat) (l : List Byte) : (s.healthAdd k i l).cig = s.cig := by unfold State.healthAdd; simp only; split <;> simp
@[simp] theorem State.healthAdd_flags (s : State) (k i : Nat) (l : List Byte) : (s.healthAdd k i l).flags = s.flags := by unfold State.healthAdd; simp only; split <;> simp
@[simp] theorem State.healthAdd_mbx (s : State) (k i : Nat) (l : List Byte) : (s.healthAdd k i l).mbx = s.mbx := by unfold State.healthAdd; simp only; split <;> simp
@[simp] theorem State.healthAdd_jnl (s : State) (k i : Nat) (l : List Byte) : (s.healthAdd k i l).jnl = s.jnl := by unfold State.healthAdd; simp only; split <;> simp
@[simp] theorem State.healthAdd_log (s : State) (k i : Nat) (l : List Byte) : (s.healthAdd k i l).log = s.log := by unfold State.healthAdd; simp only; split <;> simp
@[simp] theorem State.healthAdd_run (s : State) (k i : Nat) (l : List Byte) : (s.healthAdd k i l).run = s.run := by unfold State.healthAdd; simp only; split <;> simp
@[simp] theorem State.healthAdd_planes (s : State) (k i : Nat) (l : List Byte) : (s.healthAdd k i l).planes = s.planes := by unfold State.healthAdd; simp only; split <;> simp
@[simp] theorem State.healthAdd_arr (s : State) (k i : Nat) (l : List Byte) : (s.healthAdd k i l).arr = s.arr := by unfold State.healthAdd; simp only; split <;> simp
@[simp] theorem State.healthAdd_wgm (s : State) (k i : Nat) (l : List Byte) : (s.healthAdd k i l).wgm = s.wgm := by unfold State.healthAdd; simp only; split <;> simp
@[simp] theorem State.healthAdd_alm (s : State) (k i : Nat) (l : List Byte) : (s.healthAdd k i l).alm = s.alm := by unfold State.healthAdd; simp only; split <;> simp
@[simp] theorem State.healthAdd_chan (s : State) (k i : Nat) (l : List Byte) : (s.healthAdd k i l).chan = s.chan := by unfold State.healthAdd; simp only; split <;> simp
@[simp] theorem State.healthAdd_cap (s : State) (k i : Nat) (l : List Byte) : (s.healthAdd k i l).cap = s.cap := by unfold State.healthAdd; simp only; split <;> simp
@[simp] theorem State.healthAdd_mem (s : State) (k i : Nat) (l : List Byte) : (s.healthAdd k i l).mem = s.mem := by unfold State.healthAdd; simp only; split <;> simp
@[simp] theorem State.healthAdd_sram (s : State) (k i : Nat) (l : List Byte) : (s.healthAdd k i l).sram = s.sram := by unfold State.healthAdd; simp only; split <;> simp
@[simp] theorem State.healthAdd_lanes (s : State) (k i : Nat) (l : List Byte) : (s.healthAdd k i l).lanes = s.lanes := by unfold State.healthAdd; simp only; split <;> simp
@[simp] theorem State.healthAdd_sext (s : State) (k i : Nat) (l : List Byte) : (s.healthAdd k i l).sext = s.sext := by unfold State.healthAdd; simp only; split <;> simp
@[simp] theorem State.healthAdd_out (s : State) (k i : Nat) (l : List Byte) : (s.healthAdd k i l).out = s.out := by unfold State.healthAdd; simp only; split <;> simp
@[simp] theorem State.healthAdd_pair (s : State) (k i : Nat) (l : List Byte) : (s.healthAdd k i l).pair = s.pair := by unfold State.healthAdd; simp only; split <;> simp
@[simp] theorem State.healthAdd_chr (s : State) (k i : Nat) (l : List Byte) : (s.healthAdd k i l).chr = s.chr := by unfold State.healthAdd; simp only; split <;> simp

/-! ### fault -/

@[simp] theorem State.fault_pending (s : State) (c : BitVec 8) (i : Nat) : (s.fault c i).pending = s.pending := by unfold State.fault; simp only; split <;> (try split) <;> simp
@[simp] theorem State.fault_freeCtr (s : State) (c : BitVec 8) (i : Nat) : (s.fault c i).freeCtr = s.freeCtr := by unfold State.fault; simp only; split <;> (try split) <;> simp
@[simp] theorem State.fault_cn (s : State) (c : BitVec 8) (i : Nat) : (s.fault c i).cn = s.cn := by unfold State.fault; simp only; split <;> (try split) <;> simp
@[simp] theorem State.fault_tick (s : State) (c : BitVec 8) (i : Nat) : (s.fault c i).tick = s.tick := by unfold State.fault; simp only; split <;> (try split) <;> simp
@[simp] theorem State.fault_dev (s : State) (c : BitVec 8) (i : Nat) : (s.fault c i).dev = s.dev := by unfold State.fault; simp only; split <;> (try split) <;> simp
@[simp] theorem State.fault_clk (s : State) (c : BitVec 8) (i : Nat) : (s.fault c i).clk = s.clk := by unfold State.fault; simp only; split <;> (try split) <;> simp
@[simp] theorem State.fault_pwr (s : State) (c : BitVec 8) (i : Nat) : (s.fault c i).pwr = s.pwr := by unfold State.fault; simp only; split <;> (try split) <;> simp
@[simp] theorem State.fault_boot (s : State) (c : BitVec 8) (i : Nat) : (s.fault c i).boot = s.boot := by unfold State.fault; simp only; split <;> (try split) <;> simp
@[simp] theorem State.fault_pkg (s : State) (c : BitVec 8) (i : Nat) : (s.fault c i).pkg = s.pkg := by unfold State.fault; simp only; split <;> (try split) <;> simp
@[simp] theorem State.fault_cig (s : State) (c : BitVec 8) (i : Nat) : (s.fault c i).cig = s.cig := by unfold State.fault; simp only; split <;> (try split) <;> simp
@[simp] theorem State.fault_flags (s : State) (c : BitVec 8) (i : Nat) : (s.fault c i).flags = s.flags := by unfold State.fault; simp only; split <;> (try split) <;> simp
@[simp] theorem State.fault_mbx (s : State) (c : BitVec 8) (i : Nat) : (s.fault c i).mbx = s.mbx := by unfold State.fault; simp only; split <;> (try split) <;> simp
@[simp] theorem State.fault_jnl (s : State) (c : BitVec 8) (i : Nat) : (s.fault c i).jnl = s.jnl := by unfold State.fault; simp only; split <;> (try split) <;> simp
@[simp] theorem State.fault_log (s : State) (c : BitVec 8) (i : Nat) : (s.fault c i).log = s.log := by unfold State.fault; simp only; split <;> (try split) <;> simp
@[simp] theorem State.fault_planes (s : State) (c : BitVec 8) (i : Nat) : (s.fault c i).planes = s.planes := by unfold State.fault; simp only; split <;> (try split) <;> simp
@[simp] theorem State.fault_arr (s : State) (c : BitVec 8) (i : Nat) : (s.fault c i).arr = s.arr := by unfold State.fault; simp only; split <;> (try split) <;> simp
@[simp] theorem State.fault_wgm (s : State) (c : BitVec 8) (i : Nat) : (s.fault c i).wgm = s.wgm := by unfold State.fault; simp only; split <;> (try split) <;> simp
@[simp] theorem State.fault_alm (s : State) (c : BitVec 8) (i : Nat) : (s.fault c i).alm = s.alm := by unfold State.fault; simp only; split <;> (try split) <;> simp
@[simp] theorem State.fault_chan (s : State) (c : BitVec 8) (i : Nat) : (s.fault c i).chan = s.chan := by unfold State.fault; simp only; split <;> (try split) <;> simp
@[simp] theorem State.fault_cap (s : State) (c : BitVec 8) (i : Nat) : (s.fault c i).cap = s.cap := by unfold State.fault; simp only; split <;> (try split) <;> simp
@[simp] theorem State.fault_mem (s : State) (c : BitVec 8) (i : Nat) : (s.fault c i).mem = s.mem := by unfold State.fault; simp only; split <;> (try split) <;> simp
@[simp] theorem State.fault_sram (s : State) (c : BitVec 8) (i : Nat) : (s.fault c i).sram = s.sram := by unfold State.fault; simp only; split <;> (try split) <;> simp
@[simp] theorem State.fault_lanes (s : State) (c : BitVec 8) (i : Nat) : (s.fault c i).lanes = s.lanes := by unfold State.fault; simp only; split <;> (try split) <;> simp
@[simp] theorem State.fault_sext (s : State) (c : BitVec 8) (i : Nat) : (s.fault c i).sext = s.sext := by unfold State.fault; simp only; split <;> (try split) <;> simp
@[simp] theorem State.fault_chr (s : State) (c : BitVec 8) (i : Nat) : (s.fault c i).chr = s.chr := by unfold State.fault; simp only; split <;> (try split) <;> simp

end Sys2Proof.Machine
end

