-- ==== Sys2Proof/Laws/Tbl.lean ====
section
/-! SUPPORT. The laws of the sparse tables: what a lookup finds after a write, and that writes keep the canonical form. -/

namespace Sys2Proof.Machine

variable {α : Type}

@[simp] theorem tfind_nil (k : Nat) : tfind ([] : Tbl α) k = none := rfl
@[simp] theorem tget_nil (d : α) (k : Nat) : tget d [] k = d := rfl

/-- A key just listed is found. -/
@[simp] theorem tfind_tset_same (t : Tbl α) (k : Nat) (v : α) : tfind (tset t k v) k = some v := by
  induction t with
  | nil => simp [tset, tfind]
  | cons p r ih =>
    obtain ⟨j, w⟩ := p
    simp only [tset]
    split
    · simp [tfind]
    · split
      · simp [tfind]
      · rename_i h1 h2
        simp [tfind, h2, ih]

/-- Listing a key leaves every other key alone. -/
theorem tfind_tset_ne (t : Tbl α) {i k : Nat} (v : α) (h : i ≠ k) : tfind (tset t k v) i = tfind t i := by
  induction t with
  | nil => simp [tset, tfind, Ne.symm h]
  | cons p r ih =>
    obtain ⟨j, w⟩ := p
    simp only [tset]
    split
    · simp [tfind, Ne.symm h]
    · split
      · rename_i h1 h2
        subst h2
        simp [tfind, Ne.symm h]
      · by_cases hj : j = i
        · simp [tfind, hj]
        · simp [tfind, hj, ih]

@[simp] theorem tget_tset_same (d : α) (t : Tbl α) (k : Nat) (v : α) : tget d (tset t k v) k = v := by
  simp [tget]

theorem tget_tset_ne (d : α) (t : Tbl α) {i k : Nat} (v : α) (h : i ≠ k) : tget d (tset t k v) i = tget d t i := by
  simp [tget, tfind_tset_ne t v h]

/-- The value at a key after another has been listed. -/
theorem tget_tset (d : α) (t : Tbl α) (i k : Nat) (v : α) : tget d (tset t k v) i = if i = k then v else tget d t i := by
  split
  · rename_i h; subst h; simp
  · rename_i h; exact tget_tset_ne d t v h

@[simp] theorem tfind_tdel_same (t : Tbl α) (k : Nat) : tfind (tdel t k) k = none := by
  induction t with
  | nil => rfl
  | cons p r ih =>
    obtain ⟨j, w⟩ := p
    simp only [tdel]
    split
    · exact ih
    · rename_i h; simp [tfind, h, ih]

theorem tfind_tdel_ne (t : Tbl α) {i k : Nat} (h : i ≠ k) : tfind (tdel t k) i = tfind t i := by
  induction t with
  | nil => rfl
  | cons p r ih =>
    obtain ⟨j, w⟩ := p
    simp only [tdel]
    split
    · rename_i hj; subst hj; simp [tfind, Ne.symm h, ih]
    · by_cases hi : j = i
      · simp [tfind, hi]
      · simp [tfind, hi, ih]

variable [DecidableEq α]

/-- The value at a key after a write that keeps the canonical form. -/
theorem tget_tput (d : α) (t : Tbl α) (i k : Nat) (v : α) : tget d (tput d t k v) i = if i = k then v else tget d t i := by
  unfold tput
  split
  · rename_i h
    split
    · rename_i hi; subst hi; simp [tget, h]
    · rename_i hi; simp [tget, tfind_tdel_ne t hi]
  · exact tget_tset d t i k v

@[simp] theorem tget_tput_same (d : α) (t : Tbl α) (k : Nat) (v : α) : tget d (tput d t k v) k = v := by
  simp [tget_tput]

theorem tget_tput_ne (d : α) (t : Tbl α) {i k : Nat} (v : α) (h : i ≠ k) : tget d (tput d t k v) i = tget d t i := by
  simp [tget_tput, h]

/-! ### The canonical form -/

/-- Every key of the table is above k. -/
def tabove {α : Type} (k : Nat) (t : Tbl α) : Prop := ∀ p ∈ t, k < p.1

omit [DecidableEq α] in
theorem tsorted_cons {j : Nat} {v : α} {r : Tbl α} : tsorted ((j, v) :: r) = true ↔ tabove j r ∧ tsorted r = true := by
  induction r generalizing j v with
  | nil => simp [tsorted, tabove]
  | cons p q ih =>
    obtain ⟨i, w⟩ := p
    rw [tsorted, Bool.and_eq_true, decide_eq_true_eq, ih]
    constructor
    · rintro ⟨h, ha, hs⟩
      refine ⟨?_, ha, hs⟩
      intro x hx
      rcases List.mem_cons.1 hx with rfl | hx
      · exact h
      · exact Nat.lt_trans h (ha x hx)
    · rintro ⟨ha, hb, hs⟩
      exact ⟨ha (i, w) (by simp), hb, hs⟩

omit [DecidableEq α] in
theorem tabove_tset {k j : Nat} {v : α} {t : Tbl α} (h : tabove j t) (hk : j < k) : tabove j (tset t k v) := by
  induction t with
  | nil => intro p hp; simp [tset] at hp; subst hp; exact hk
  | cons q r ih =>
    obtain ⟨i, w⟩ := q
    have hi : j < i := h (i, w) (by simp)
    have hr : tabove j r := fun p hp => h p (by simp [hp])
    simp only [tset]
    split
    · intro p hp
      rcases List.mem_cons.1 hp with rfl | hp
      · exact hk
      · exact h p hp
    · split
      · intro p hp
        rcases List.mem_cons.1 hp with rfl | hp
        · exact hk
        · exact hr p hp
      · intro p hp
        rcases List.mem_cons.1 hp with rfl | hp
        · exact hi
        · exact ih hr p hp

omit [DecidableEq α] in
theorem tsorted_tset {t : Tbl α} (h : tsorted t = true) (k : Nat) (v : α) : tsorted (tset t k v) = true := by
  induction t with
  | nil => rfl
  | cons q r ih =>
    obtain ⟨i, w⟩ := q
    obtain ⟨ha, hs⟩ := tsorted_cons.1 h
    simp only [tset]
    split
    · rename_i hk
      refine tsorted_cons.2 ⟨?_, h⟩
      intro p hp
      rcases List.mem_cons.1 hp with rfl | hp
      · exact hk
      · exact Nat.lt_trans hk (ha p hp)
    · split
      · rename_i hk; subst hk; exact tsorted_cons.2 ⟨ha, hs⟩
      · rename_i h1 h2
        exact tsorted_cons.2 ⟨tabove_tset ha (by omega), ih hs⟩

omit [DecidableEq α] in
theorem mem_tdel {t : Tbl α} {k : Nat} {p : Nat × α} (h : p ∈ tdel t k) : p ∈ t := by
  induction t with
  | nil => simp [tdel] at h
  | cons q r ih =>
    obtain ⟨i, w⟩ := q
    simp only [tdel] at h
    split at h
    · exact List.mem_cons_of_mem _ (ih h)
    · rcases List.mem_cons.1 h with rfl | h
      · simp
      · exact List.mem_cons_of_mem _ (ih h)

omit [DecidableEq α] in
theorem tsorted_tdel {t : Tbl α} (h : tsorted t = true) (k : Nat) : tsorted (tdel t k) = true := by
  induction t with
  | nil => rfl
  | cons q r ih =>
    obtain ⟨i, w⟩ := q
    obtain ⟨ha, hs⟩ := tsorted_cons.1 h
    simp only [tdel]
    split
    · exact ih hs
    · exact tsorted_cons.2 ⟨fun p hp => ha p (mem_tdel hp), ih hs⟩

omit [DecidableEq α] in
theorem mem_tset {t : Tbl α} {k : Nat} {v : α} {p : Nat × α} (h : p ∈ tset t k v) : p = (k, v) ∨ p ∈ t := by
  induction t with
  | nil => simpa [tset] using h
  | cons q r ih =>
    obtain ⟨i, w⟩ := q
    simp only [tset] at h
    split at h
    · rcases List.mem_cons.1 h with h | h
      · exact Or.inl h
      · exact Or.inr h
    · split at h
      · rcases List.mem_cons.1 h with h | h
        · exact Or.inl h
        · exact Or.inr (List.mem_cons_of_mem _ h)
      · rcases List.mem_cons.1 h with h | h
        · exact Or.inr (by simp [h])
        · rcases ih h with h | h
          · exact Or.inl h
          · exact Or.inr (List.mem_cons_of_mem _ h)

/-- A write keeps the canonical form. -/
theorem twf_tput {d : α} {t : Tbl α} (h : twf d t = true) (k : Nat) (v : α) : twf d (tput d t k v) = true := by
  unfold twf at *
  rw [Bool.and_eq_true] at *
  obtain ⟨hs, ha⟩ := h
  rw [List.all_eq_true] at *
  unfold tput
  split
  · exact ⟨tsorted_tdel hs k, fun p hp => ha p (mem_tdel hp)⟩
  · rename_i hv
    refine ⟨tsorted_tset hs k v, fun p hp => ?_⟩
    rcases mem_tset hp with rfl | hp
    · simpa using hv
    · exact ha p hp

/-- A write of consecutive values keeps the canonical form. -/
theorem twf_tputs {d : α} (l : List α) : ∀ {t : Tbl α} (k : Nat), twf d t = true → twf d (tputs d t k l) = true := by
  induction l with
  | nil => intro t k h; exact h
  | cons v r ih => intro t k h; exact ih (k + 1) (twf_tput h k v)

@[simp] theorem twf_nil (d : α) : twf d ([] : Tbl α) = true := rfl

/-- Every key outside the places written reads as before. -/
theorem tget_tputs_outside (d : α) (l : List α) : ∀ (t : Tbl α) (k i : Nat), i < k ∨ k + l.length ≤ i →
    tget d (tputs d t k l) i = tget d t i := by
  induction l with
  | nil => intro t k i _; rfl
  | cons v r ih =>
    intro t k i h
    have hl : (v :: r).length = r.length + 1 := rfl
    rw [hl] at h
    show tget d (tputs d (tput d t k v) (k + 1) r) i = _
    rw [ih _ _ _ (by omega), tget_tput_ne d t v (by omega)]

/-- A key among the places written reads the value given for it. -/
theorem tget_tputs_inside (d : α) (l : List α) : ∀ (t : Tbl α) (k j : Nat) (h : j < l.length),
    tget d (tputs d t k l) (k + j) = l[j] := by
  induction l with
  | nil => intro t k j h; simp at h
  | cons v r ih =>
    intro t k j h
    show tget d (tputs d (tput d t k v) (k + 1) r) (k + j) = _
    cases j with
    | zero => rw [tget_tputs_outside d r _ _ _ (by omega)]; simp
    | succ j =>
      have := ih (tput d t k v) (k + 1) j (by simpa using h)
      rw [show k + 1 + j = k + (j + 1) by omega] at this
      simpa using this

end Sys2Proof.Machine
end

