-- ==== Sys2Proof/Laws/Ops.lean ====
section
/-! SUPPORT. What a store reads as after one of its named updates, and one lemma for each shared operation that says everything
it can do. -/

namespace Sys2Proof.Machine

/-! ### Stores -/

@[simp] theorem State.cellAt_setCell (s : State) (k : Nat) (c : Cell) : (s.setCell k c).cellAt k = c := by
  simp [State.cellAt, State.setCell]
theorem State.cellAt_setCell_ne (s : State) {i k : Nat} (c : Cell) (h : i ≠ k) : (s.setCell k c).cellAt i = s.cellAt i := by
  simp [State.cellAt, State.setCell, tget_tset_ne _ _ _ h]
@[simp] theorem State.lane_setLane (s : State) (l : Nat) (x : Lane) : (s.setLane l x).lane l = x := by
  simp [State.lane, State.setLane]
theorem State.lane_setLane_ne (s : State) {i l : Nat} (x : Lane) (h : i ≠ l) : (s.setLane l x).lane i = s.lane i := by
  simp [State.lane, State.setLane, tget_tset_ne _ _ _ h]
@[simp] theorem State.sextOf_setSext (s : State) (l : Nat) (x : Sext) : (s.setSext l x).sextOf l = x := by
  simp [State.sextOf, State.setSext]
@[simp] theorem State.hubOf_setHub (s : State) (l : Nat) (x : HubLane) : (s.setHub l x).hubOf l = x := by
  simp [State.hubOf, State.setHub]
@[simp] theorem State.ctxOf_setCtx (s : State) (x : Nat) (c : Ctx) : (s.setCtx x c).ctxOf x = c := by
  simp [State.ctxOf, State.setCtx]
theorem State.ctxOf_setCtx_ne (s : State) {i x : Nat} (c : Ctx) (h : i ≠ x) : (s.setCtx x c).ctxOf i = s.ctxOf i := by
  simp [State.ctxOf, State.setCtx, tget_tput_ne _ _ _ h]
@[simp] theorem State.tensor_setTensor (s : State) (k : Nat) (t : Tensor) : (s.setTensor k t).tensor k = t := by
  simp [State.tensor, State.setTensor]
@[simp] theorem State.mbxOf_setMbx (s : State) (m : Nat) (x : Mbx) : (s.setMbx m x).mbxOf m = x := by
  simp [State.mbxOf, State.setMbx]
theorem State.mbxOf_setMbx_ne (s : State) {i m : Nat} (x : Mbx) (h : i ≠ m) : (s.setMbx m x).mbxOf i = s.mbxOf i := by
  simp [State.mbxOf, State.setMbx, tget_tset_ne _ _ _ h]
@[simp] theorem State.tab_setTab (s : State) (t : Nat) (x : AlmTab) : (s.setTab t x).tab t = x := by
  simp [State.tab, State.setTab]
@[simp] theorem State.beacon_setBeacon (s : State) (b : Nat) (x : Beacon) : (s.setBeacon b x).beacon b = x := by
  simp [State.beacon, State.setBeacon]
@[simp] theorem State.pulse_setPulse (s : State) (p : Nat) (x : Pulse) : (s.setPulse p x).pulse p = x := by
  simp [State.pulse, State.setPulse]

/-! ### Counters (16 R438) -/

@[simp] theorem State.ctr_count (s : State) (i : CtrId) (k : Nat) : (s.count i k).ctr i = satAdd (s.ctr i) k := by
  simp [State.ctr, State.count]

/-! ### Mailboxes (15 R400, R401) -/

@[simp] theorem State.mbxOf_signal (s : State) (v m : Nat) : (s.signal v).mbxOf m = s.mbxOf m := by
  simp [State.mbxOf]
@[simp] theorem State.mbxOf_jEnd (s : State) (q : Nat) (st : JSt) (c : BitVec 16) (r : Dword) (m : Nat) :
    (s.jEnd q st c r).mbxOf m = s.mbxOf m := by simp [State.mbxOf]
@[simp] theorem State.mbxOf_jEffect (s : State) (q : Nat) (c : CN) (m : Nat) : (s.jEffect q c).mbxOf m = s.mbxOf m := by
  simp [State.mbxOf]
@[simp] theorem State.mbxOf_jAdd (s : State) (e : JEnt) (m : Nat) : (s.jAdd e).mbxOf m = s.mbxOf m := by simp [State.mbxOf]
@[simp] theorem State.mbxOf_logEvent (s : State) (e : LogEvt) (m : Nat) : (s.logEvent e).mbxOf m = s.mbxOf m := by
  simp [State.mbxOf]

/-- An entry posted to a mailbox whose ring has room and that holds nothing back is in the ring (15 R401). -/
theorem State.post_room {s : State} {m : Nat} (e : RingEntry) (hm : m < 16) (hu : (s.mbxOf m).used < 64) (hh : (s.mbxOf m).held = []) :
    s.post m e = (s.setMbx m ((s.mbxOf m).push e)).signal m := by
  simp [State.post, hm, hu, hh]

@[simp] theorem Mbx.push_busy (b : Mbx) (e : RingEntry) : (b.push e).busy = (b.busy && decide (e.kind ≠ .completion)) := rfl
@[simp] theorem Mbx.push_cmd (b : Mbx) (e : RingEntry) : (b.push e).cmd = b.cmd := rfl
@[simp] theorem Mbx.push_held (b : Mbx) (e : RingEntry) : (b.push e).held = b.held := rfl
@[simp] theorem Mbx.push_used (b : Mbx) (e : RingEntry) : (b.push e).used = b.used + 1 := rfl
@[simp] theorem Mbx.push_prod (b : Mbx) (e : RingEntry) : (b.push e).prod = b.prod + 1 := rfl
@[simp] theorem Mbx.push_buf (b : Mbx) (e : RingEntry) : (b.push e).buf = b.buf := rfl
@[simp] theorem Mbx.push_ring (b : Mbx) (e : RingEntry) : (b.push e).ring = tset b.ring b.prod.toNat { e with phase := b.phase } := rfl

end Sys2Proof.Machine
end

