-- ==== Sys2Proof/Laws/Cells.lean ====
section
/-! SUPPORT. One issue of a cell, said once: what the issuing cell becomes, and that no other cell changes (02 R57). -/

namespace Sys2Proof.Machine

/-- The cells, the epoch of cells that are not listed (what cellAt reads) and the pops of the present tick. -/
def State.sameCells (s t : State) : Prop :=
  t.arr.cells = s.arr.cells ∧ t.arr.baseEp = s.arr.baseEp ∧ t.arr.pops = s.arr.pops

theorem State.sameCells.cellAt {s t : State} (h : s.sameCells t) (k : Nat) : t.cellAt k = s.cellAt k := by
  simp [State.cellAt, h.1, h.2.1]

theorem State.sameCells.trans {s t u : State} (h : s.sameCells t) (g : t.sameCells u) : s.sameCells u :=
  ⟨g.1.trans h.1, g.2.1.trans h.2.1, g.2.2.trans h.2.2⟩

theorem State.sameCells.refl (s : State) : s.sameCells s := ⟨rfl, rfl, rfl⟩

theorem send_sameCells (s : State) (x y : Nat) (l : List (Nat × Token)) : s.sameCells (s.send x y l) := ⟨rfl, rfl, rfl⟩

theorem noteUnf_sameCells (s : State) (x y : Nat) (c : Cell) (e : MInstr) : s.sameCells (s.noteUnf x y c e) := by
  unfold State.noteUnf
  split
  · exact .refl s
  · split <;> exact ⟨rfl, rfl, rfl⟩

theorem wgmReport_sameCells (s : State) (k m : Nat) : s.sameCells (s.wgmReport k m) := by
  unfold State.wgmReport
  simp only
  split <;> exact ⟨rfl, rfl, rfl⟩

theorem wgmSat_sameCells (s : State) (k : Nat) : s.sameCells (s.wgmSat k) := by
  unfold State.wgmSat
  simp only
  split
  · split <;> exact ⟨rfl, rfl, rfl⟩
  · exact .refl s

/-- A fold of updates that leave the cells alone leaves them alone. -/
theorem foldl_sameCells {α : Type} (f : State → α → State) (h : ∀ (s : State) (a : α), s.sameCells (f s a)) :
    ∀ (l : List α) (s : State), s.sameCells (l.foldl f s) := by
  intro l
  induction l with
  | nil => intro s; exact .refl s
  | cons a r ih => intro s; exact (h s a).trans (ih (f s a))

theorem reportAll_sameCells (s : State) (x y : Nat) (c : Cell) (e : MInstr) (o : Option OpOut) :
    s.sameCells (s.reportAll x y c e o) := by
  unfold State.reportAll
  split
  · exact .refl s
  · simp only
    refine State.sameCells.trans ?_ (foldl_sameCells _ ?_ _ _)
    · split
      · exact wgmReport_sameCells s _ _
      · exact .refl s
    · intro t j
      split
      · exact wgmSat_sameCells t _
      · exact .refl t

/-- The state with the issuing cell written and its pops noted. -/
def State.issued (s : State) (x y : Nat) (c : Cell) (e : MInstr) (op : OpIn → OpOut) : State :=
  let u := s.setCell (y * 1024 + x) (c.write e (s.opOut x y c e op))
  { u with arr := { u.arr with pops := s.arr.pops ++ (c.popped e).map fun p => (y * 1024 + x, p) } }

theorem issueEffect_sameCells (s : State) (x y : Nat) (c : Cell) (e : MInstr) (op : OpIn → OpOut) :
    (s.issued x y c e op).sameCells (issueEffect s x y c e op) := by
  unfold issueEffect
  refine State.sameCells.trans ?_ (reportAll_sameCells _ _ _ _ _ _)
  have h : (s.setCell (y * 1024 + x) (c.write e (s.opOut x y c e op))).sameCells
      (((s.setCell (y * 1024 + x) (c.write e (s.opOut x y c e op))).send x y (s.driven c e (s.opOut x y c e op))).noteUnf x y c e) :=
    (send_sameCells _ _ _ _).trans (noteUnf_sameCells _ _ _ _ _)
  exact ⟨h.1, h.2.1, congrArg (· ++ (c.popped e).map fun p => (y * 1024 + x, p)) h.2.2⟩

/-- Everything an issue does to the cells: the issuing cell takes the writes, every other stays; its heads stay until the tick's end. -/
theorem issueEffect_cellAt (s : State) (x y : Nat) (c : Cell) (e : MInstr) (op : OpIn → OpOut) (k : Nat) :
    (issueEffect s x y c e op).cellAt k = if k = y * 1024 + x then c.write e (s.opOut x y c e op) else s.cellAt k := by
  rw [(issueEffect_sameCells s x y c e op).cellAt]
  split
  · rename_i hk; rw [hk]; exact State.cellAt_setCell s _ _
  · rename_i hk; exact State.cellAt_setCell_ne s _ hk

/-- The heads that an issue pops are noted for the tick's end (02 R57). -/
theorem issueEffect_pops (s : State) (x y : Nat) (c : Cell) (e : MInstr) (op : OpIn → OpOut) :
    (issueEffect s x y c e op).arr.pops = s.arr.pops ++ (c.popped e).map fun p => (y * 1024 + x, p) :=
  (issueEffect_sameCells s x y c e op).2.2

/-- An issue command whose entry is due issues it. -/
theorem issueOp_due {s : State} {x y opc : Nat} {e : MInstr} (op : OpIn → OpOut) (h : issues s x y opc e = true) :
    issueOp opc op x y s = .next (issueEffect s x y (s.cellXY x y) e op) := by
  simp only [issues, Bool.and_eq_true, decide_eq_true_eq] at h
  simp [issueOp, h.1, h.2, State.cellXY]

/-- The issuing cell after an issue command. -/
theorem issueEffect_cellXY (s : State) (x y : Nat) (e : MInstr) (op : OpIn → OpOut) :
    (issueEffect s x y (s.cellXY x y) e op).cellXY x y = (s.cellXY x y).write e (s.opOut x y (s.cellXY x y) e op) := by
  simp [State.cellXY, issueEffect_cellAt]

end Sys2Proof.Machine
end

