-- ==== Sys2Proof/Laws/Commands.lean ====
section
/-! SUPPORT. How Klowyn takes a command, said once: what the body of a request holds, and what a command that the general checks
pass leads to, by the answer of its owning chapter. -/

namespace Sys2Proof.Machine

/-! ### Bodies (15 R403) -/

@[simp] theorem leBytes_length (n v : Nat) : (leBytes n v).length = n := by
  induction n generalizing v with
  | zero => rfl
  | succ n ih => simp [leBytes, ih]

theorem leNat_leBytes (n v : Nat) : leNat (leBytes n v) = v % 256 ^ n := by
  induction n generalizing v with
  | zero => simp [leBytes, leNat, Nat.mod_one]
  | succ n ih =>
    simp only [leBytes, leNat, ih, BitVec.toNat_ofNat]
    have h : 256 ^ (n + 1) = 256 * 256 ^ n := by ring
    rw [h, Nat.mod_mul]

theorem bytesAt_append (a b : List Byte) : bytesAt (a ++ b) 0 a.length = a := by
  apply List.ext_getElem
  · simp [bytesAt]
  · intro i h1 h2
    simp [bytesAt, List.getElem?_append_left h2, List.getElem?_eq_getElem h2]

theorem bytesAt_append_right (a b : List Byte) (i n : Nat) : bytesAt (a ++ b) (a.length + i) n = bytesAt b i n := by
  have h : (a ++ b).drop (a.length + i) = b.drop i := by rw [← List.drop_drop, List.drop_left]
  simp [bytesAt, h]

theorem leAt_dword (d : Dword) (rest : List Byte) : leAt (leBytes 8 d.toNat ++ rest) 0 8 = d.toNat := by
  have h := bytesAt_append (leBytes 8 d.toNat) rest
  rw [leBytes_length] at h
  rw [leAt, h, leNat_leBytes, Nat.mod_eq_of_lt]
  simpa using d.isLt

theorem leAt_past (d : Dword) (rest : List Byte) (i n : Nat) : leAt (leBytes 8 d.toNat ++ rest) (8 + i) n = leAt rest i n := by
  have h := bytesAt_append_right (leBytes 8 d.toNat) rest i n
  rw [leBytes_length] at h
  rw [leAt, leAt, h]

/-- Operand k of a request is the k-th operand given (15 R403). -/
theorem opd_mkReq (op : Nat) (h : CmdHdr) (ops : List Dword) (lst : List Byte) (k : Nat) (hk : k < ops.length) :
    (mkReq op h ops lst).opd k = ops[k] := by
  have key : ∀ (ops : List Dword) (k : Nat) (hk : k < ops.length),
      leAt (ops.flatMap (fun d => leBytes 8 d.toNat) ++ lst) (8 * k) 8 = (ops[k]).toNat := by
    intro ops
    induction ops with
    | nil => intro k hk; simp at hk
    | cons d r ih =>
      intro k hk
      rw [List.flatMap_cons, List.append_assoc]
      cases k with
      | zero => exact leAt_dword d _
      | succ k =>
        rw [show 8 * (k + 1) = 8 + 8 * k by ring, leAt_past]
        simpa using ih k (by simpa using hk)
  simp [KReq.opd, mkReq, key ops k hk]

@[simp] theorem opd_mkReq0 (op : Nat) (h : CmdHdr) (a : Dword) (r : List Dword) (lst : List Byte) :
    (mkReq op h (a :: r) lst).opd 0 = a := opd_mkReq op h _ lst 0 (by simp)
@[simp] theorem opd_mkReq1 (op : Nat) (h : CmdHdr) (a b : Dword) (r : List Dword) (lst : List Byte) :
    (mkReq op h (a :: b :: r) lst).opd 1 = b := opd_mkReq op h _ lst 1 (by simp)
@[simp] theorem opd_mkReq2 (op : Nat) (h : CmdHdr) (a b c : Dword) (r : List Dword) (lst : List Byte) :
    (mkReq op h (a :: b :: c :: r) lst).opd 2 = c := opd_mkReq op h _ lst 2 (by simp)
@[simp] theorem opd_mkReq3 (op : Nat) (h : CmdHdr) (a b c d : Dword) (r : List Dword) (lst : List Byte) :
    (mkReq op h (a :: b :: c :: d :: r) lst).opd 3 = d := opd_mkReq op h _ lst 3 (by simp)
@[simp] theorem opd_mkReq4 (op : Nat) (h : CmdHdr) (a b c d e : Dword) (r : List Dword) (lst : List Byte) :
    (mkReq op h (a :: b :: c :: d :: e :: r) lst).opd 4 = e := opd_mkReq op h _ lst 4 (by simp)
@[simp] theorem opd_mkReq5 (op : Nat) (h : CmdHdr) (a b c d e f : Dword) (r : List Dword) (lst : List Byte) :
    (mkReq op h (a :: b :: c :: d :: e :: f :: r) lst).opd 5 = f := opd_mkReq op h _ lst 5 (by simp)

theorem flatMap_dword_length (ops : List Dword) : (ops.flatMap fun d => leBytes 8 d.toNat).length = 8 * ops.length := by
  induction ops with
  | nil => rfl
  | cons d r ih => simp only [List.flatMap_cons, List.length_append, leBytes_length, ih, List.length_cons]; ring

@[simp] theorem mkReq_body_length (op : Nat) (h : CmdHdr) (ops : List Dword) (lst : List Byte) :
    (mkReq op h ops lst).body.length = 8 * ops.length + lst.length := by
  simp only [mkReq, List.length_append, flatMap_dword_length]

@[simp] theorem mkReq_hdr (op : Nat) (h : CmdHdr) (ops : List Dword) (lst : List Byte) : (mkReq op h ops lst).hdr = h := rfl
@[simp] theorem mkReq_op (op : Nat) (h : CmdHdr) (ops : List Dword) (lst : List Byte) :
    (mkReq op h ops lst).op = BitVec.ofNat 16 op := rfl

/-- The list of a request is the list given (15 R403). -/
theorem list_mkReq (op : Nat) (h : CmdHdr) (ops : List Dword) (lst : List Byte) : (mkReq op h ops lst).list ops.length = lst := by
  rw [KReq.list, mkReq]
  have h := flatMap_dword_length ops
  rw [← h]
  exact List.drop_left

/-! ### Taking a command (15 R400 to R410) -/

/-- The state in which Klowyn begins with a command of mailbox m: the mailbox is BUSY with it. -/
def State.submitted (s : State) (r : KReq) : State := s.setMbx r.hdr.mbx ((s.mbxOf r.hdr.mbx).submit r)

/-- A command that Klowyn takes at once runs in the submitted state. -/
theorem kSubmit_takes {c : KCmd} {r : KReq} {s : State} (h : s.takes r.hdr.mbx = true) :
    kSubmit c r s = .next { kRun c r.hdr.mbx r (s.submitted r) with
      kly := { (kRun c r.hdr.mbx r (s.submitted r)).kly with lastMbx := r.hdr.mbx } } := by
  simp only [State.takes, Bool.and_eq_true, decide_eq_true_eq, Bool.not_eq_true'] at h
  obtain ⟨⟨⟨⟨⟨hm, hb⟩, hc⟩, hh⟩, hu⟩, hr⟩ := h
  have h1 : ¬ 16 ≤ r.hdr.mbx := by omega
  have h2 : (s.submitted r).canTake r.hdr.mbx = true := by
    simpa [State.submitted, State.canTake, Mbx.submit, Mbx.accept, Mbx.write, hu] using hr
  unfold kSubmit
  simp only [h1, if_false, hb, Bool.false_eq_true]
  rw [← State.submitted, if_pos h2]

/-- A refused command posts its record and frees its mailbox (15 R405). -/
theorem kRun_refused {c : KCmd} {m : Nat} {r : KReq} {s : State} {f : Refuse} (h : kCheck c.spec m r s = some f) :
    kRun c m r s = s.refuse m r f := by simp [kRun, h]

/-- What `takes` says, taken apart. -/
theorem State.takes_iff {s : State} {m : Nat} : s.takes m = true ↔
    m < 16 ∧ (s.mbxOf m).busy = false ∧ (s.mbxOf m).cmd = none ∧ (s.mbxOf m).held = [] ∧ s.kly.up = true ∧ (s.mbxOf m).used ≤ 62 := by
  simp [State.takes, and_assoc]

/-- The checks of R405 pass when the device is open and the command's own row is met. -/
theorem kCheck_open {c : CmdSpec} {m : Nat} {r : KReq} {s : State} (ho : s.isOpen = true) (hl : c.lenOk r = true)
    (hb : c.badOp r = none) (hr : r.hdr.rsvd = false) (ha : r.hdr.at_ = c.cross (c.opds r)) (hz : c.zeroOp r = none)
    (hn : c.runCode s = 0) (ht : c.late s r = false) : kCheck c m r s = none := by
  simp only [State.isOpen, State.isAwake, Bool.and_eq_true, decide_eq_true_eq, Bool.not_eq_true'] at ho
  obtain ⟨⟨⟨⟨o1, o3⟩, o4⟩, o5⟩, o2⟩ := ho
  have h1 : c.sleepOk s = true := by simp [CmdSpec.sleepOk, o1]
  have h2 : c.pairCode s = 0 := by simp [CmdSpec.pairCode, o2]
  have h3 : c.policyBars s m = false := by simp [CmdSpec.policyBars, o3, o4, o5]
  simp [kCheck, hl, hb, hr, ha, hz, hn, ht, h1, h2, h3]

/-- A device that is open is no member of a formed pair, so nothing is mirrored. -/
theorem mirrors_alone {s : State} (c : CmdSpec) (h : s.pairMode = false) : s.mirrors c = false := by simp [State.mirrors, h]

/-- The mailbox with the results of a completion in its command buffer (R400). -/
def Mbx.filled (b : Mbx) (l : List Byte) : Mbx := if l = [] then b else b.write 64 l

@[simp] theorem Mbx.filled_used (b : Mbx) (l : List Byte) : (b.filled l).used = b.used := by unfold Mbx.filled; split <;> rfl
@[simp] theorem Mbx.filled_held (b : Mbx) (l : List Byte) : (b.filled l).held = b.held := by unfold Mbx.filled; split <;> rfl
@[simp] theorem Mbx.filled_prod (b : Mbx) (l : List Byte) : (b.filled l).prod = b.prod := by unfold Mbx.filled; split <;> rfl
@[simp] theorem Mbx.filled_ring (b : Mbx) (l : List Byte) : (b.filled l).ring = b.ring := by unfold Mbx.filled; split <;> rfl

theorem State.mbxOf_setBuf {s : State} {m : Nat} (l : List Byte) (hm : m < 16) : (s.setBuf m l).mbxOf m = (s.mbxOf m).filled l := by
  unfold State.setBuf Mbx.filled
  by_cases hl : l = [] <;> simp [hl, hm]

/-- The mailbox after a success completion where its ring has room. -/
theorem State.mbxOf_complete {s : State} {m : Nat} {r : KReq} {q : Nat} {cn : CN} {d : Dword} {l : List Byte} (hm : m < 16)
    (hu : (s.mbxOf m).used < 64) (hh : (s.mbxOf m).held = []) :
    (s.complete m r q cn d l).mbxOf m =
      { (((s.mbxOf m).filled l).push (ringEntry s r .completion 0 q cn 0 (resultRec d))) with busy := false, cmd := none } := by
  have e : ringEntry (s.setBuf m l) r .completion 0 q cn 0 (resultRec d) = ringEntry s r .completion 0 q cn 0 (resultRec d) := by
    simp [ringEntry]
  have hb := s.mbxOf_setBuf l hm
  have hp : ∀ x, (s.setBuf m l).post m x = ((s.setBuf m l).setMbx m (((s.setBuf m l).mbxOf m).push x)).signal m :=
    fun x => State.post_room x hm (by rw [hb]; simpa using hu) (by rw [hb]; simpa using hh)
  simp [State.complete, hp, hb, State.unbusy, hm, Mbx.push, ringEntry]

/-- The mailbox after a notice of effect where its ring has room. -/
theorem State.mbxOf_effectNotice {s : State} {w : Waiting} {c : CN} (hm : w.mbx < 16) (hu : (s.mbxOf w.mbx).used < 64)
    (hh : (s.mbxOf w.mbx).held = []) :
    (s.effectNotice w c).mbxOf w.mbx =
      (s.mbxOf w.mbx).push (ringEntry (s.jEffect w.jseq c) w.req .effect 0 w.jseq w.cnAcc c (List.replicate 32 0)) := by
  have hp : ∀ x, (s.jEffect w.jseq c).post w.mbx x =
      ((s.jEffect w.jseq c).setMbx w.mbx (((s.jEffect w.jseq c).mbxOf w.mbx).push x)).signal w.mbx :=
    fun x => State.post_room x hm (by simpa using hu) (by simpa using hh)
  simp only [State.effectNotice, hp, State.mbxOf_signal, State.mbxOf_setMbx, State.mbxOf_jEffect]

/-- The waiting command that a submitted command becomes. -/
def KCmd.entry (c : KCmd) (r : KReq) (s : State) : Waiting := (s.submitted r).mkWaiting c.spec r.hdr.mbx r

/-- The state in which the owning chapter is asked: journaled where the row says so. -/
def KCmd.asked (c : KCmd) (r : KReq) (s : State) : State :=
  if c.spec.jrn then (s.submitted r).jAdd ((s.submitted r).jEntry c.spec r.hdr.mbx r 0) else s.submitted r

/-- A state that has every field of another but the mailboxes, the interrupts, the journal and the log is that state with those. -/
theorem State.answer_of {s u : State} (h_pending : u.pending = s.pending) (h_freeCtr : u.freeCtr = s.freeCtr) (h_cn : u.cn = s.cn) (h_tick : u.tick = s.tick) (h_dev : u.dev = s.dev) (h_clk : u.clk = s.clk) (h_pwr : u.pwr = s.pwr) (h_boot : u.boot = s.boot) (h_pkg : u.pkg = s.pkg) (h_cig : u.cig = s.cig) (h_evts : u.evts = s.evts) (h_ctrs : u.ctrs = s.ctrs) (h_flags : u.flags = s.flags) (h_kly : u.kly = s.kly) (h_run : u.run = s.run) (h_planes : u.planes = s.planes) (h_arr : u.arr = s.arr) (h_wgm : u.wgm = s.wgm) (h_alm : u.alm = s.alm) (h_chan : u.chan = s.chan) (h_cap : u.cap = s.cap) (h_mem : u.mem = s.mem) (h_sram : u.sram = s.sram) (h_lanes : u.lanes = s.lanes) (h_sext : u.sext = s.sext) (h_hub : u.hub = s.hub) (h_out : u.out = s.out) (h_pair : u.pair = s.pair) (h_chr : u.chr = s.chr) :
    u = { s with mbx := u.mbx, host := u.host, jnl := u.jnl, log := u.log } := by
  cases s; cases u; simp_all

/-- What follows an accepted command that is not long, before its effect: the journal entry ends unless it waits, the completion is
posted, and a command marked M enters a recording (R400, R404, R413, 14 R392). -/
def KCmd.note (c : KCmd) (w : Waiting) (u : State) : State := if c.spec.mir then u.logEvent (.cmd w) else u

/-- The state after the answer of an accepted command that is not long. -/
def KCmd.answered (c : KCmd) (s1 : State) (w : Waiting) (d : Dword) (l : List Byte) : State := c.note w (kFinish c.spec s1 w d l)

/-- An answer changes nothing but mailboxes, interrupts, journal and log. -/
theorem KCmd.answered_eq (c : KCmd) {s1 : State} (w : Waiting) (d : Dword) (l : List Byte) (h : s1.mirrors c.spec = false) :
    c.answered s1 w d l = { s1 with mbx := (c.answered s1 w d l).mbx, host := (c.answered s1 w d l).host
                                    jnl := (c.answered s1 w d l).jnl, log := (c.answered s1 w d l).log } := by
  refine State.answer_of ?_ ?_ ?_ ?_ ?_ ?_ ?_ ?_ ?_ ?_ ?_ ?_ ?_ ?_ ?_ ?_ ?_ ?_ ?_ ?_ ?_ ?_ ?_ ?_ ?_ ?_ ?_ ?_ ?_ <;>
    (unfold KCmd.answered KCmd.note kFinish; simp only [h, Bool.false_eq_true, if_false]; split <;> split <;> split <;> simp)

/-- The mailbox after an answer. -/
theorem KCmd.answered_mbx (c : KCmd) {s1 : State} (w : Waiting) (d : Dword) (l : List Byte) (h : s1.mirrors c.spec = false)
    (hm : w.mbx < 16) (hu : (s1.mbxOf w.mbx).used < 64) (hh : (s1.mbxOf w.mbx).held = []) :
    ((c.answered s1 w d l).mbxOf w.mbx).busy = false ∧ ((c.answered s1 w d l).mbxOf w.mbx).cmd = none ∧
    ((c.answered s1 w d l).mbxOf w.mbx).held = [] ∧ ((c.answered s1 w d l).mbxOf w.mbx).used = (s1.mbxOf w.mbx).used + 1 ∧
    ((c.answered s1 w d l).mbxOf w.mbx).prod = (s1.mbxOf w.mbx).prod + 1 ∧
    ((c.answered s1 w d l).mbxOf w.mbx).buf = ((s1.mbxOf w.mbx).filled l).buf ∧
    ∃ e, ((c.answered s1 w d l).mbxOf w.mbx).ring = tset (s1.mbxOf w.mbx).ring (s1.mbxOf w.mbx).prod.toNat e ∧
      e.tag = w.req.hdr.tag ∧ e.op = w.req.op ∧ e.status = 0 ∧ e.kind = .completion ∧ e.record = resultRec d := by
  have key : ∀ s2 : State, s2.mbxOf w.mbx = s1.mbxOf w.mbx →
      ∀ u : State, u = (if w.mbx < 16 then s2.complete w.mbx w.req w.jseq w.cnAcc d l else s2) → 
      (c.note w u).mbxOf w.mbx = { (((s1.mbxOf w.mbx).filled l).push
        (ringEntry s2 w.req .completion 0 w.jseq w.cnAcc 0 (resultRec d))) with busy := false, cmd := none } := by
    intro s2 h2 u hu2
    rw [if_pos hm] at hu2
    have h3 : (c.note w u).mbxOf w.mbx = u.mbxOf w.mbx := by unfold KCmd.note; split <;> simp
    rw [h3, hu2, State.mbxOf_complete hm (by rw [h2]; exact hu) (by rw [h2]; exact hh), h2]
  have hf : ∃ s2 : State, s2.mbxOf w.mbx = s1.mbxOf w.mbx ∧
      kFinish c.spec s1 w d l = (if w.mbx < 16 then s2.complete w.mbx w.req w.jseq w.cnAcc d l else s2) := by
    unfold kFinish
    simp only [h, Bool.false_eq_true, if_false]
    exact ⟨if c.spec.cross (c.spec.opds w.req) then s1 else s1.jEnd w.jseq .done 0 d, by split <;> simp, rfl⟩
  obtain ⟨s2, h2, hf⟩ := hf
  have := key s2 h2 _ hf
  unfold KCmd.answered
  rw [this]
  refine ⟨rfl, rfl, by simpa using hh, by simp, by simp, rfl,
    { ringEntry s2 w.req .completion 0 w.jseq w.cnAcc 0 (resultRec d) with phase := ((s1.mbxOf w.mbx).filled l).phase }, ?_,
    rfl, rfl, rfl, rfl, rfl⟩
  simp [Mbx.push]

/-- The mailbox whose command was taken last (15 R400). -/
def State.served (s : State) (m : Nat) : State := { s with kly := { s.kly with lastMbx := m } }

@[simp] theorem State.mbxOf_served (s : State) (m i : Nat) : (s.served m).mbxOf i = s.mbxOf i := rfl

@[simp] theorem KCmd.entry_mbx (c : KCmd) (r : KReq) (s : State) : (c.entry r s).mbx = r.hdr.mbx := rfl
@[simp] theorem KCmd.entry_req (c : KCmd) (r : KReq) (s : State) : (c.entry r s).req = r := rfl

/-- An accepted command with no crossing: answered, and in force. -/
theorem kSubmit_now {c : KCmd} {r : KReq} {s s1 : State} {d : Dword} {l : List Byte} (ht : s.takes r.hdr.mbx = true)
    (hk : kCheck c.spec r.hdr.mbx r (s.submitted r) = none) (ho : c.own (c.asked r s) (c.entry r s) = .now s1 d l)
    (hx : c.spec.cross (c.spec.opds r) = false) :
    kSubmit c r s = .next ((c.act (c.answered s1 (c.entry r s) d l) (c.entry r s)).served r.hdr.mbx) := by
  rw [kSubmit_takes ht]
  unfold kRun
  simp only [hk]
  unfold KCmd.asked KCmd.entry at ho
  simp only [ho, hx, Bool.not_false, if_true]
  rfl

/-- An accepted command whose crossing is the present one because no run is armed: answered, in force, and noticed (R407, R410). -/
theorem kSubmit_atOnce {c : KCmd} {r : KReq} {s s1 : State} {d : Dword} {l : List Byte} (ht : s.takes r.hdr.mbx = true)
    (hk : kCheck c.spec r.hdr.mbx r (s.submitted r) = none) (ho : c.own (c.asked r s) (c.entry r s) = .now s1 d l)
    (hx : c.spec.cross (c.spec.opds r) = true) (ha : c.spec.atOnce (s.submitted r) r = true) :
    kSubmit c r s = .next (((c.act (c.answered s1 (c.entry r s) d l) (c.entry r s)).effectNotice (c.entry r s) s.cn).served r.hdr.mbx) := by
  rw [kSubmit_takes ht]
  unfold kRun
  simp only [hk]
  unfold KCmd.asked KCmd.entry at ho
  simp only [ho, hx, Bool.not_true, Bool.false_eq_true, if_false, ha, if_true]
  rfl

/-- An accepted command that waits for its crossing: answered, and among those that wait (R406, R409). -/
theorem kSubmit_waits {c : KCmd} {r : KReq} {s s1 : State} {d : Dword} {l : List Byte} (ht : s.takes r.hdr.mbx = true)
    (hk : kCheck c.spec r.hdr.mbx r (s.submitted r) = none) (ho : c.own (c.asked r s) (c.entry r s) = .now s1 d l)
    (hx : c.spec.cross (c.spec.opds r) = true) (ha : c.spec.atOnce (s.submitted r) r = false) :
    kSubmit c r s = .next (((c.answered s1 (c.entry r s) d l).await (c.entry r s)).served r.hdr.mbx) := by
  rw [kSubmit_takes ht]
  unfold kRun
  simp only [hk]
  unfold KCmd.asked KCmd.entry at ho
  simp only [ho, hx, Bool.not_true, Bool.false_eq_true, if_false, ha]
  rfl

/-- An accepted long command: Klowyn works on it. -/
theorem kSubmit_long {c : KCmd} {r : KReq} {s s1 : State} (ht : s.takes r.hdr.mbx = true)
    (hk : kCheck c.spec r.hdr.mbx r (s.submitted r) = none) (ho : c.own (c.asked r s) (c.entry r s) = .long s1)
    (hp : s1.mirrors c.spec = false) :
    kSubmit c r s = .next (((c.note (c.entry r s) s1).awaitLong (c.entry r s)).served r.hdr.mbx) := by
  rw [kSubmit_takes ht]
  unfold kRun
  simp only [hk]
  unfold KCmd.asked KCmd.entry at ho
  simp only [ho, hp, Bool.false_eq_true, if_false]
  rfl

/-- The completion of an answered command, in every state whose mailbox is as the answer left it. -/
theorem completes_answered {c : KCmd} {r : KReq} {s s1 t : State} {d : Dword} {l : List Byte} {op : Nat} (ht : s.takes r.hdr.mbx = true)
    (hp : s1.mirrors c.spec = false) (hb : s1.mbxOf r.hdr.mbx = (s.submitted r).mbxOf r.hdr.mbx) (hop : r.op = BitVec.ofNat 16 op)
    (hm : t.mbxOf r.hdr.mbx = (c.answered s1 (c.entry r s) d l).mbxOf r.hdr.mbx) : Completes s t r.hdr op d := by
  obtain ⟨h1, h2, h3, h4, h5, h6⟩ := State.takes_iff.1 ht
  have hsub : (s.submitted r).mbxOf r.hdr.mbx = (s.mbxOf r.hdr.mbx).submit r := by simp [State.submitted]
  rw [hsub] at hb
  have hu : (s1.mbxOf r.hdr.mbx).used < 64 := by rw [hb]; show (s.mbxOf r.hdr.mbx).used < 64; omega
  have hh : (s1.mbxOf r.hdr.mbx).held = [] := by rw [hb]; exact h4
  obtain ⟨a1, a2, a3, a4, a5, a6, e, a7, a8, a9, a10, a11, a12⟩ := c.answered_mbx (c.entry r s) d l hp h1 hu hh
  refine ⟨by rw [hm]; exact a1, e, ?_, a8, by rw [a9]; exact hop, a10, a11, a12⟩
  rw [hm]
  simp only [KCmd.entry_mbx] at a7
  rw [a7, hb]
  exact tfind_tset_same _ _ _

end Sys2Proof.Machine
end

