-- ==== Sys2Proof/Laws/Memory.lean ====
section
/-! SUPPORT. The two operations that write a memory tier, and the canonical form of both tiers (DESIGN CHOICE, log entry 2): a line write
(07 R210, R229) and one line of a BAR4 write (16 R431, R432). -/

namespace Sys2Proof.Machine

/-- The canonical form speaks of the two tiers alone. -/
theorem State.memWf_congr {s t : State} (hm : t.mem = s.mem) (hs : t.sram = s.sram) : t.memWf = s.memWf := by
  simp [State.memWf, hm, hs]

/-- A line write keeps the canonical form. -/
theorem State.writeLine_memWf {s : State} (r : LineRef) (d : List Byte) (h : s.memWf = true) : (s.writeLine r d).memWf = true := by
  simp only [State.memWf, Memory.wf, Bool.and_eq_true] at h ⊢
  cases r with
  | sram q b l => exact ⟨h.1, twf_tputs _ _ h.2⟩
  | dram u k b l => exact ⟨twf_tputs _ _ h.1, h.2⟩

/-- Bytes put into LPDDR6 keep the canonical form. -/
theorem State.putPiece_memWf {s : State} (p : Piece) (l : List Byte) (k : Bool) (h : s.memWf = true) :
    (s.putPiece p l k).memWf = true := by
  unfold State.putPiece
  split
  · exact h
  · simp only [State.memWf, Memory.wf, Bool.and_eq_true] at h ⊢
    exact ⟨twf_tputs _ _ h.1, h.2⟩

/-- One line of a BAR4 write keeps the canonical form. -/
theorem State.writePiece_memWf {s : State} (p : Piece) (l : List Byte) (h : s.memWf = true) : (s.writePiece p l).memWf = true :=
  s.putPiece_memWf p l _ h

/-- A line write changes nothing of a state but the two tiers. -/
theorem State.writeLine_frame (s : State) (r : LineRef) (d : List Byte) :
    s.writeLine r d = { s with mem := (s.writeLine r d).mem, sram := (s.writeLine r d).sram } := by
  cases r <;> rfl

/-- Bytes put into LPDDR6 change nothing else. -/
theorem State.putPiece_frame (s : State) (p : Piece) (l : List Byte) (k : Bool) :
    s.putPiece p l k = { s with mem := (s.putPiece p l k).mem } := by
  unfold State.putPiece
  split <;> rfl

/-- One line of a BAR4 write changes nothing but LPDDR6. -/
theorem State.writePiece_frame (s : State) (p : Piece) (l : List Byte) :
    s.writePiece p l = { s with mem := (s.writePiece p l).mem } := s.putPiece_frame p l _

/-- The bytes outside a line read as before its write. -/
theorem State.writeLine_outside (s : State) (u k b l i : Nat) (d : List Byte)
    (h : i < dramAddr u k b l ∨ dramAddr u k b l + (d.take 32).length ≤ i) :
    tget 0 (s.writeLine (.dram u k b l) d).mem i = tget 0 s.mem i :=
  tget_tputs_outside 0 _ _ _ _ h

/-- A line that has been written in full reads what was written. -/
theorem State.lineData_writeLine (s : State) (r : LineRef) (d : List Byte) (h : d.length = 32) :
    (s.writeLine r d).lineData r = d := by
  have ht : d.take 32 = d := List.take_of_length_le (by omega)
  cases r <;>
    (simp only [State.writeLine, State.lineData, tgets, ht]
     refine List.ext_getElem (by simp [h]) fun i h1 h2 => ?_
     simp only [List.getElem_map, List.getElem_range]
     exact tget_tputs_inside 0 d _ _ i h2)

end Sys2Proof.Machine
end

