-- ==== Sys2Proof/Tests/Slice0.lean ====
section
/-! SUPPORT. Tests: ill-formed commands are refused, worked examples of the spec come out, and every hypothesis of a statement is met by a
state and operands written here. -/

namespace Sys2Proof.Tests

open Sys2Proof Sys2Proof.Machine

set_option Elab.async false

/-! ### States -/

/-- A command header for mailbox 0, TAG 7. -/
def hdr0 (len : Nat) (at_ : Bool) : CmdHdr := { mbx := 0, tag := 7, len := len, acn := 1000, at_ := at_, rel := false, rsvd := false }

def H (n : Nat) : CmdHdr := hdr0 n false
def HA (n : Nat) : CmdHdr := hdr0 n true

/-- An owned, booted device. -/
def ready : State :=
  { State.reset with
    boot := { BootState.reset with owned := true, brdOk := true, powered := true, pufOk := true, stage := 8, link := true }
    kly := { Klowyn.reset with up := true }
    pwr := { PwrState.reset with railok := 0xFF }
    clk := { ClkState.reset with mclkOk := true, lrefOk := true, xtalOk := true, freq := 4007900, mclk := 4007900, gate := 0x3FFFFFFF
                                 ben := 0b11111 } }

/-- An image with a hub lane at 64.0 Gb/s. -/
def img0 : Image :=
  { Image.none with
    hdr := { Hdr.none with n := 28, rofs := 3, a := 20, t := 6 }
    lane := [{ role := 4, rate := 0, blk := 0, rofs := 0, explid := 0 }] }

/-- Image i stands in slot 0. -/
def withImg (s : State) (i : Image) : State :=
  { s with kly := { s.kly with lib := [(0, { Slot.reset with used := true, img := i, meas := [1], frame := [2] })] } }

def s0 : State := withImg ready img0

/-- A run of image i in phase p, in crossing 500. -/
def runOf (p : RunPhase) (i : Image) : State :=
  { withImg ready i with cn := 500, run := { RunState.reset with phase := p, first := 100, mclkArm := 4007900 } }

def sR : State := runOf .running img0

/-- An entry of opcode opc: route of the result to E. -/
def entry (opc fmt srcA srcB acc dst addrD : Nat) : MInstr :=
  BitVec.ofNat 96 opc <<< 90 ||| BitVec.ofNat 96 fmt <<< 87 ||| BitVec.ofNat 96 srcA <<< 83 ||| BitVec.ofNat 96 srcB <<< 79 |||
  BitVec.ofNat 96 acc <<< 60 ||| BitVec.ofNat 96 dst <<< 57 ||| BitVec.ofNat 96 addrD <<< 49 ||| BitVec.ofNat 96 9 <<< 33 ||| (8 : BitVec 96)

/-- A running device whose cell (1023, 1023) issues e now. -/
def issuing (e : MInstr) : State :=
  let c : Cell :=
    { Cell.blank 0 with
      progA := [e]
      ws := [(0, 0x7FFFFFFF), (1, 0xFFFFFFFB)]
      acc := [(1, 0x7FFFFFF0)]
      hold := [(0, { data := 0x80FF017F, tag := 2 }), (1, { data := 0x00030005, tag := 0 })]
      queues := [(0, [{ tag := 1, epoch := 0, data := 0xFFFFFF85 }])]
      wgtA := [(0, 0x80017FFF), (32, 0x01020304)] }
  { sR with arr := { ArrState.reset with cells := [(1023 * 1024 + 1023, c)] } }

/-- The same with the entry of opcode opc, on hold registers 0 and 1. -/
def due (opc dst : Nat) : State := issuing (entry opc 1 0xA 0xB 1 dst 2)

/-- Opcode opc acts in that state. -/
def dueActs (opc dst : Nat) : Bool := acts (due opc dst) 1023 1023 opc (entry opc 1 0xA 0xB 1 dst 2)

/-! ### Ill-formed commands (each check of WellFormed) -/

/-- Ill-formed terms, one or more for each check of WellFormed. -/
def illFormed : List Instr :=
  [.evict { hdr0 8 false with mbx := 16 } 0, .nop 1024 0, .seam 0 1024, .swapEffect 4096, .lockLoss 64,
   .codewordReceive 64 (List.replicate 173 0), .codewordReceive 0 (List.replicate 172 0), .almanacLookupSlot 32 0 0,
   .almanacLookupSlot 0 8 0, .writeClassSlot 32 8, .writeClassSlot 0 7, .retrainingStep 0 10 0 0, .refreshSlot 32, .sramRead 8192 0 0,
   .sramRead 0 16 0, .almanacResult 8192, .averagingBlockComplete 65536, .mirrorLaneDrop 4, .pulseEdge 8, .pulseCommit .host 8,
   .stagedWrite .host 0x18 0, .clearAliasWrite 0x18 ⟨.host, 0⟩, .lowWordRead .host ⟨3, 1⟩, .lowWordRead .host ⟨0x18, 17⟩, .registerWrite .host 2 [0] true,
   .registerWrite .host 0xFFC [0, 0] true, .bitAliasWrite 0x7FFFFC ⟨.host, 0⟩,
   .bar4Read (2 ^ 34) 1 [], .bar4Write (2 ^ 34 - 1) [0, 0], .configRequest 1024 none, .railTimeout 8, .railTelemetry 13 0 false,
   .temperatureRead [], .thermalCheck (List.replicate 22 0)]

/-- Each is refused by the check. -/
theorem test_ill_formed_refused : (illFormed.all fun c => !c.wf) = true := by decide +kernel

/-- Each stops with the one fault. -/
theorem test_ill_formed_faults :
    (illFormed.all fun c => match exec c s0 with | .fault .noSuchUnit => true | _ => false) = true := by decide +kernel

/-- A cell of the upper quarter is no unit of an NC-12F-A1 (00 R1). -/
theorem test_missing_cell_faults :
    (match exec (.nop 0 768) { s0 with dev := { s0.dev with nc12 := true } } with
      | .fault .noSuchUnit => true
      | _ => false) = true := by decide +kernel

/-! ### Worked examples of the spec -/

/-- The requantiser's table (03 R100). -/
theorem test_requantise_table :
    [requantise 0 8 (-5) 1 1 0, requantise 1 8 (-5) 1 1 0, requantise 0 8 (-7) 1 1 0, requantise 0 8 45213 23405 24 0,
      requantise 1 8 45213 23405 24 0, requantise 2 8 45213 23405 24 0x123456, requantise 2 8 45213 23405 24 0xF30A11,
      requantise 0 8 45213 23405 20 0, requantise 2 16 (-2000000000) 30000 0 5] =
    [(-2, false), (-3, false), (-4, false), (63, false), (63, false), (63, false), (64, false), (127, true), (-32768, true)] := by
  decide +kernel

/-- M and S of the ranges in the Weighmaster's example, with t = 63 (04 R127). -/
theorem test_scale_table :
    [3000, 40000, 30000, 22500, 16875, 12657].map (fun r => scaleOf r 63) =
    [(22020, 20), (26424, 24), (17616, 23), (23488, 23), (31317, 23), (20877, 22)] := by decide +kernel

/-- Cell (0, 0) with hold registers h0 to h3 and weight word 0, and entry e. -/
def held (e : MInstr) (h : List Word) (w : Word) : State :=
  let c : Cell :=
    { Cell.blank 0 with progA := [e], hold := (List.range 4).zip (h.map fun v => { data := v, tag := 1 }), wgtA := [(0, w)] }
  { sR with arr := { ArrState.reset with cells := [(0, c)] } }

/-- The cell after a command, with what left it. -/
def after (o : Out) : Cell × List Token :=
  match o with
  | .next t => (t.cellXY 0 0, t.arr.flight.map Flight.tok)
  | _ => (Cell.blank 0, [])

/-- The ternary MACDZ of 03 R90: H0 to H3 and B give 5 in ACC0, and the result 5 on the east link. -/
theorem test_ternary_macdz :
    let r := after (exec (.macdz 0 0) (held (entry 0x02 3 0xA 0xF 0 1 0) [0x0007FD0A, 0x0505807F, 0x04030201, 0xFCFDFEFF] 0xC4F5354D))
    (r.1.accAt 0, r.2.map Token.data) = (5, [5]) := by decide +kernel

/-- CX of a with b, then of c with d: the lower goes on, the higher lands in H2, F tells the exchange (03 R112). -/
theorem test_cx_orders :
    (let r := after (exec (.cx 0 0) (held (entry 0x27 4 0xA 0xB 0 3 2) [0x019CFFFC, 0x03D1FFF8, 0, 0] 0))
     ((r.1.holdAt 2).data, r.2.map Token.data, r.1.flag) = (0x03D1FFF8, [0x019CFFFC], false)) ∧
    (let r := after (exec (.cx 0 0) (held (entry 0x27 4 0xA 0xB 0 3 2) [0x019CFFFE, 0xFFECFFFA, 0, 0] 0))
     ((r.1.holdAt 2).data, r.2.map Token.data, r.1.flag) = (0x019CFFFE, [0xFFECFFFA], true)) := by decide +kernel

/-- The word of the INT8 MACD of 03 R50: every field reads as the example states it. -/
theorem test_entry_fields :
    let e : MInstr := 0x04A780028200200800000000#96
    (e.opc, fmtOf e.fmt, e.srcA, e.srcB, e.addrW) = (1, some .int8, 4, 15, 5) ∧
    (e.acc, e.dst, e.pops 3, e.routes.filter fun r => r.2 != 0) = (0, 1, true, [(1, 4)]) := by decide +kernel

/-- The byte address of the staged row (16 R432): subchannel 13, rank 1, bank 4, line 1,000,000; base 30. -/
theorem test_bar4_address :
    lineOf (({ s0 with host := { s0.host with wbase := 30 } } : State).bar4Addr 0x212025A0) = .dram 13 1 4 1000000 := by decide +kernel

/-- The calorimeter sample (08 R254): 1,650 gives 5,994 after gain and the word 93 at level 13. -/
theorem test_channel_word :
    let r := scaleOf 8191 127
    (rqRound 0 ((1650 - 410) * 19800) 12 0, r, (requantise 0 8 5994 r.1.toNat r.2.toNat 0).1) = (5994, (32515, 21), 93) := by
  decide +kernel

/-- STOP by command frees the output and leaves no command waiting (00 R13). -/
theorem test_stop_now :
    (match exec .runStopEffect { sR with run := { sR.run with stopAt := some 500 } } with
      | .next t => !t.armed && t.run.reason == .command && t.kly.waiting.isEmpty
      | _ => false) = true := by decide +kernel

/-! ### Hypotheses met: the block and the cells -/

/-- LREFCLK runs, nothing is commanded: the time advances. -/
theorem test_hyp_IdleStepAdvancesTheTime :
    s0.pending = [] ∧ s0.timeRuns = true ∧ s0.chr.cal = false ∧ s0.armed = false := by decide +kernel

theorem test_hyp_StepKeepsMemoryCanonical :
    s0.memWf = true ∧ (match step { s0 with pending := [.wake] } with | .next _ => true | _ => false) = true := by decide +kernel

theorem test_hyp_CommandsLeaveTheQueue :
    (match exec .wake s0 with | .next _ => true | _ => false) = true := by decide +kernel

theorem test_hyp_DeviceStateChangesOnlyByItsCommands :
    (match exec .wake s0 with | .next _ => true | _ => false) = true ∧ mayWriteMemory .wake = false ∧
    mayCount .wake = false ∧ mayMoveTime .wake = false ∧ mayWriteFlags .wake = false ∧
    mayWriteFlash .wake = false := by decide +kernel

theorem test_hyp_CommandsStopOnlyOnMissingUnits :
    runnable (.nop 1023 1023) s0 = true ∧ runnable (.nop 1024 1023) s0 = false := by decide +kernel

theorem test_hyp_LogicShiftsAndCounts :
    ([0x30, 0x31, 0x32, 0x33, 0x34, 0x35, 0x36, 0x37].all fun o => dueActs o 3) = true ∧
    acts (issuing (entry 0x37 1 0xA 0 1 3 2)) 1023 1023 0x37 (entry 0x37 1 0xA 0 1 3 2) = true := by decide +kernel

theorem test_hyp_ComparisonsAndSelections :
    ([0x20, 0x21, 0x22, 0x23, 0x24, 0x25, 0x26, 0x27, 0x2B].all fun o => dueActs o 3) = true := by decide +kernel

theorem test_hyp_AccumulatorOperationsSaturate :
    ([5, 6, 7, 8, 9, 10].all fun o => dueActs o 1) = true := by decide +kernel

theorem test_hyp_ProductsAccumulate :
    ([1, 2, 3, 4].all fun o => dueActs o 1) = true ∧ fmtOf (entry 1 1 0xA 0xB 1 1 2).fmt = some .int8 ∧ Fmt.int8 ≠ .word ∧
    Fmt.int8 ≠ .ternary := by decide +kernel

theorem test_hyp_RequantisersGiveTheirLanes : ([0x10, 0x11, 0x12].all fun o => dueActs o 3) = true := by decide +kernel

theorem test_hyp_RequantiserRoundsAsSpecified : (1 ≤ 16) ∧ (1 ≤ 47) ∧ (47 ≤ 47) := by decide

theorem test_hyp_LookupsReadTheWeightPlane : ([0x18, 0x19, 0x1A, 0x1B].all fun o => dueActs o 3) = true := by decide +kernel

theorem test_hyp_LaneOperationsAndMoves :
    ([0x28, 0x29, 0x2A, 0x38, 0x39, 0x3A].all fun o => dueActs o 3) = true ∧ fmtOf (entry 0x28 1 0xA 0xB 1 3 2).fmt = some .int8 := by
  decide +kernel

/-- Entry MOV, on the condition that F is 1, in a cell whose F is 0. -/
def notMet : MInstr := entry 0x38 1 0xA 0xB 1 3 2 ||| (1 : BitVec 96)

theorem test_hyp_NopAndFailedConditionsWriteNothing :
    issues (issuing (entry 0 4 0 0 0 0 0)) 1023 1023 0 (entry 0 4 0 0 0 0 0) = true ∧
    issues (issuing notMet) 1023 1023 0x38 notMet = true ∧ condMet (issuing notMet) 1023 1023 notMet = false := by decide +kernel

/-- MOV is an issue of its opcode and operation. -/
theorem test_hyp_mov_issues : ∀ u, exec (.mov 1023 1023) u = issueOp 0x38 opMov 1023 1023 u := fun _ => rfl

theorem test_hyp_IssueFrame :
    cellOf? (.mov 1023 1023) = some (1023, 1023) ∧ Instr.mov 1023 1023 ≠ .waypointArrival 1023 1023 ∧
    Instr.mov 1023 1023 ≠ .seam 1023 1023 ∧ (match exec (.mov 1023 1023) (due 0x38 3) with | .next _ => true | _ => false) = true ∧
    s0.hasCell 1023 1023 = true ∧ (s0.issueDue 1023 1023 0x38).isNone = true := by decide +kernel

theorem test_hyp_IssuePopsAndRoutes : issues (due 0x38 3) 1023 1023 0x38 (entry 0x38 1 0xA 0xB 1 3 2) = true := by decide +kernel

/-- A cell of the tree with a waypoint at the head of its input, or with a seam that has run out. -/
def treeCell (seam : Option Nat) : State :=
  let c : Cell :=
    { Cell.blank 0 with onTree := true, win := 0, wtauN := 0, dly := 5, wout := 0b10, seam := seam
                        queues := [(0, [{ tag := 3, epoch := 1, data := 0 }])] }
  { sR with arr := { ArrState.reset with cells := [(1023 * 1024 + 1023, c)] } }

theorem test_hyp_WaypointSwitchesTheCell :
    (let s := treeCell (some 0); s.hasCell 1023 1023 = true ∧ s.live = true ∧ s.cellRuns (1023 * 1024 + 1023) = true ∧ (s.cellXY 1023 1023).seam = some 0) ∧
    (let s := treeCell none
     s.hasCell 1023 1023 = true ∧ s.live = true ∧ s.arr.wpDone.contains (1023 * 1024 + 1023) = false ∧
     s.wpQualifies (s.cellXY 1023 1023) = true) := by decide +kernel

/-! ### Hypotheses met: commands that answer at once -/

/-- Two orbit captures. -/
def sT : State := { s0 with chr := { s0.chr with captures := [(200, 0x20000000000), (100, 0x10000000000)] } }

theorem test_hyp_QueriesAnswer :
    asks (H 8) 8 false s0 = true ∧ asks (H 16) 16 false s0 = true ∧ (s0.libSlot 0).used = true ∧
    (s0.libSlot 0).meas ++ (s0.libSlot 0).frame ≠ [] ∧ ([] : List Byte) = (s0.healthFrom 0).flatMap HEnt.bytes ∧
    (1 ≤ 500) ∧ (65036 + 500 ≤ 65536) ∧ asks (H 8) 8 false sT = true ∧ (sT.chr.mapCn 300).isSome = true ∧ s0.boot.pufOk = true := by
  decide +kernel

theorem test_hyp_QueryFrame : s0.takes 15 = true ∧ (match exec (.health (H 8) 0) s0 with | .next _ => true | _ => false) = true := by
  decide +kernel

def sFilling : State := { sR with planes := { Planes.reset with sh := .filling } }
def sLogging : State := { sR with log := { LogState.reset with active := true, mode := 1 } }

theorem test_hyp_ServiceCommandsComplete :
    asks (H 8) 8 false s0 = true ∧ (s0.libSlot 0).used = true ∧ s0.slotInUse 0 = false ∧
    asks (H 24) 24 false s0 = true ∧ (1 : Dword).toNat ≤ 1 ∧ (255 : Dword).toNat ≤ 255 ∧
    asks (H 0) 0 false sLogging = true ∧ sLogging.armed = true ∧ (sLogging.log.active || sLogging.log.atArm) = true ∧
    asks (H 0) 0 false sFilling = true ∧ sFilling.armed = true ∧ sFilling.planes.sh = .filling := by decide +kernel

/-- The image with a waypoint tree of one root. -/
def imgW : Image := { img0 with wpt := [.root 3 0 112] }
def sRW : State := runOf .running imgW

theorem test_hyp_FillBegins :
    asks (H 8) 8 false sRW = true ∧ sRW.armed = true ∧ sRW.run.phase ≠ .paused ∧ sRW.planes.sh = .empty ∧ (sRW.libSlot 0).used = true ∧
    sRW.run.mclkArm ≤ 4060000 ∧
    (fillBad sRW.run.debug 0 (sRW.imgAt sRW.planes.actSlot) (sRW.imgAt 0) (sRW.libSlot sRW.planes.actSlot).frame
      (sRW.libSlot 0).frame).isNone = true := by decide +kernel

def sCap (k : CapStateK) (c : Word) : State := { s0 with cap := { CapState.reset with st := k, cfg := c, frames := [(0, [])] } }

theorem test_hyp_CapreleaseEndsTheCapture :
    asks (H 0) 0 false (sCap .prefill 0) = true ∧ (sCap .prefill 0).cap.st = .prefill ∧
    asks (H 0) 0 false (sCap .frozen 0x80000000) = true ∧ (sCap .frozen 0x80000000).cap.st = .frozen := by decide +kernel

/-- Lane 63 in role r, locked. -/
def sLane (r : Nat) : State := { s0 with lanes := [(63, { Lane.reset with cfg := BitVec.ofNat 32 (r * 2 ^ 29), lock := true, eirx := false })] }

/-- The enabled mapped contexts of a run. -/
def deskewOf (s : State) : List CmapEnt :=
  s.img.cmap.filter fun e => s.armed && decide ((0 : Dword).toNat ≤ e.ctx ∧ e.ctx < (0 : Dword).toNat + (65536 : Dword).toNat) && (s.ctxOf e.ctx).en

/-- One channel on north port 0, tick 0. -/
def cmap0 : CmapEnt := { ctx := 65535, width := 1, slot := 0, tick := 0, edge := 3072, sgn := false, bw := 8, bofs := 0, lane := 0 }
/-- A run in which that channel is enabled and its lane is an input lane. -/
def sDeskew : State :=
  { runOf .running { img0 with cmap := [cmap0] } with
    chan := { sR.chan with ctx := [(65535, { (sR.ctxOf 65535) with ctl := 0x80000000 })] }
    lanes := [(48, { Lane.reset with cfg := BitVec.ofNat 32 (2 ^ 29) })] }

theorem test_hyp_LaneServicesComplete :
    asksPair (H 16) 16 false (sLane 1) = true ∧ (sLane 1).pairMode = false ∧ (sLane 1).armed = false ∧ (sLane 1).clk.safe = false ∧
    ((sLane 1).lane 63).role ≠ 3 ∧ ((sLane 4).lane 63).role ≠ 1 ∧ ((sLane 4).lane 63).eitx = true ∧ ((sLane 3).lane 63).role = 3 ∧
    asks (H 8) 8 false (sLane 1) = true ∧ ((sLane 1).lane 63).role ≠ 0 ∧
    asks (H 2040) 2040 false (sLane 4) = true ∧ (List.replicate 2032 (5 : Byte)).length ≤ 2032 ∧ ((sLane 4).lane 63).role = 4 ∧
    ((sLane 4).hubOf 63).room (mgmtPkt 0x10 (List.replicate 2032 5)) = true ∧
    (let s := s0
     asks (H 32) 32 false s = true ∧ (65536 : Dword).toNat ≠ 0 ∧ (0 + 65536 ≤ 65536) ∧
     (deskewOf s).isEmpty = true ∧ (2 : Dword).toNat ≤ capDepth (s.inputLanes (cmapLanes (deskewOf s))) ∧ s.cap.st = .idle ∧ s.logHolds = false) ∧
    (let s := sDeskew
     asks (H 32) 32 false s = true ∧ (deskewOf s).isEmpty = false ∧ (2 : Dword).toNat ≤ capDepth (s.inputLanes (cmapLanes (deskewOf s))) ∧
     s.cap.st = .idle ∧ s.logHolds = false ∧ s.inputLanes (cmapLanes (deskewOf s)) ≠ 0 ∧
     s.lead 0x0601 48 ≤ (cnSub 1000000 1 - s.cn).toNat ∧ s.lead 0x0602 0 ≤ (1000000 - s.cn).toNat ∧
     (1000000 - s.cn).toNat ≤ 2 ^ 47 - 1) := by decide +kernel

/-- A member of a pair that runs. -/
def sPair (st : PairSt) : State :=
  { sR with pair := { PairState.reset with cfg := 0x4C000001, st := st, auth := true, role := 1, pst := 2 } }
def sForming : State := { s0 with pair := { PairState.reset with cfg := 0x4C000001, st := .forming } }

theorem test_hyp_PairCommandsComplete :
    asksPair (H 40) 40 false s0 = true ∧ s0.pairMode = false ∧ s0.armed = false ∧ (1 : Dword).toNat ≤ 1 ∧ (65535 : Dword).toNat < 65536 ∧ 4 ≤ (10 : Dword).toNat ∧
    (10 : Dword).toNat ≤ 10 ∧ (65535 : Dword) ≠ 0 ∧
    asksPair (H 0) 0 false (sPair .joined) = true ∧ (sPair .joined).armed = true ∧ (sPair .joined).paired = true ∧
    (sPair .joined).pair.yieldCause = none ∧
    asksPair (H 0) 0 false (sPair .lost) = true ∧ (sPair .lost).pairMode = true ∧ (sPair .lost).paired = false ∧
    (sPair .lost).pair.pend = none ∧
    asks (H 0) 0 false sR = true ∧ sR.armed = true ∧
    asksPair (H 40) 40 false sForming = true ∧ sForming.pair.st ≠ .lost ∧
    asksPair (H 8) 8 false sForming = true ∧ sForming.armed = false ∧ sForming.pairMode = true ∧ sForming.pair.st = .forming ∧
    sForming.pair.rejoin = none := by decide +kernel

/-- A flash directory that lists the regions given (18 R483). -/
def dirOf (ids : List Nat) : List Byte :=
  [0x4E, 0x59, 0x52, 0x44] ++ leBytes 2 1 ++ leBytes 2 ids.length ++ leBytes 8 0 ++ ids.flatMap fun k => leBytes 2 k ++ List.replicate 14 0

/-- A vendor key, and an envelope that it signs: r and s by the standard's signature computed outside the model. -/
def vendKey : List Byte :=
  0x04 :: (beBytes 48 0x60834AD00048C9255E9D79D2DD2044F87EE0C504FF12C2FD2C942B06CACF1CACE7BB493BC44C8D7FE225EF420C78964C ++
    beBytes 48 0x76493BFC0B6C6FC6A65F34D4BF19CFC827383C8AA57685D03D0C7CA1B202C732F3A55473EAA7BD5E915CCE5ABF75E752)
def signedEnv (typ ver : Nat) (pay : List Byte) (r s : Nat) : List Byte :=
  leBytes 4 0x4753594E ++ leBytes 4 typ ++ leBytes 4 ver ++ leBytes 4 pay.length ++ List.replicate 48 0 ++ vendKey ++ List.replicate 31 0 ++ pay ++
    beBytes 48 r ++ beBytes 48 s
/-- FACTORY (region 1), a Klowyn copy of version 5 (region 2) and an owner certificate of serial 1 (region 4). -/
def facEnv : List Byte := signedEnv 1 1 [1]
  0x8006BD275C2B75D3B0FD3D4D3B0AEF88CA14EAA2AF469E87FF1DAC0D92B564A35B58D3F98A17FBE8728F40F586CCC69A
  0x1D3A179CE6CD16E1223BEE5BD253E4DE5A7C497A6BF9D194A3C57C207B8D30924FDF2912FAD8B2FEC8B94D4FFD2F1B57
def klyEnv : List Byte := signedEnv 2 5 [2]
  0x16D4A9B0A2A7A7F4619B3BB9E592DE90F84A99F09373A75BDA6A19FED1FE7CCB169B2F509DD154C6537D7398753B952C
  0x8678C558269D1AB390850FCA20807BED700B1361F00C8330E8235525FA1644A54B1C14AB45258F46BA05CA750FC5B40C
def certEnv : List Byte := signedEnv 4 1 (leBytes 64 1 ++ vendKey ++ List.replicate 31 0)
  0x609EEDE96B6C4A5631F0A0B33E18351F185B42D0BA5296A249770B2A36C5078AECE16AFBC6DE30AD7B088C6404D09C71
  0x37AB92A633C21DCBD5CDB8B38454253FC5A50D484BB4B943DD92AE747E26D5AC3786CAC20D4820AFA3B499F5A1353A8B
/-- A flash whose directory lists STATE and these three regions. -/
def signedFlash (f : Flash) : Flash :=
  { f with dir := dirOf [1, 2, 4, 9], regions := [(1, facEnv), (2, klyEnv), (4, certEnv)] }
/-- An unowned device whose host has staged the certificate. -/
def sOffers : State :=
  { s0 with
    mem := (certEnv.zipIdx.filter fun p => decide (p.1 ≠ 0)).map fun p => (p.2, p.1)
    boot := { s0.boot with root0 := sha384 vendKey, flash := signedFlash s0.boot.flash } }

theorem test_hyp_OwnerUpdateStoresTheCertificate :
    (asks (H 16) 16 false sOffers = true ∧ sOffers.armed = false ∧ (480 : Dword).toNat ≠ 0 ∧ sOffers.bar4Addr 0 + 480 ≤ 2 ^ 38 ∧
     (sOffers.certStaged (tgets 0 sOffers.mem (sOffers.bar4Addr 0) 480)).isSome = true) ∧
    asks (H 16) 16 false s0 = true ∧ s0.armed = false ∧ (10 : Dword).toNat ≠ 0 ∧ s0.bar4Addr 0 + 10 ≤ 2 ^ 38 ∧
    (s0.certStaged (tgets 0 s0.mem 0 10)).isNone = true := by decide +kernel

theorem test_hyp_UnlistedOpcodesAreRefused : s0.takes 0 = true ∧ (kFind 0x1234).isNone = true := by decide +kernel

/-! ### Hypotheses met: commands that name a crossing, long commands -/

/-- A header that announces the first crossing with the lead of opcode op. -/
def aH (s : State) (op len : Nat) : CmdHdr := { hdr0 len true with acn := s.cn + BitVec.ofNat 48 (s.lead op len) }

/-- A recording of slot 0, outside a run. -/
def sRecorded : State := { s0 with log := { LogState.reset with slots := [(0, [1], [2])], mode := 1, p0 := 40 } }

/-- A paused run. -/
def sPaused : State :=
  let s := runOf .paused img0
  { s with
    run := { s.run with pcn := 420, pausedAt := 450 }
    kly := { s.kly with
      pause := some
        { p := 420, delta := 0, slot := 0, ep := 0, meas := [1], frame := [2], tensors := [], ctxs := [], valid := true
          shadow := { st := .empty, slot := 0, pos := 0, by_ := 0 }, whole := false, tailed := true } } }

def hResume : CmdHdr := { aH sPaused 0x204 0 with acn := 420 + 32 * 10000 }

def sReady : State := { sRW with planes := { Planes.reset with sh := .ready } }

/-- Table 4095, in the SRAM tier or in LPDDR6, in two faces. -/
def tab0 : TblDesc := { tid := 4095, kind := 4, kw := 0, salt := 0, rows := 2, words := 1, shape := 1, d := 2, copy0 := 0, ncopy := 1 }
def copy0 : CopyRec := { tid := 4095, place := 0, bank := 0, base := 0 }
def imgT : Image := { img0 with almt := { tables := [tab0], copies := [copy0], reqs := [] } }
def sTab : State := runOf .running imgT

theorem test_hyp_RunCommandsWaitForTheirCrossing :
    (let h := aH s0 0x201 40
     asks h 40 true s0 = true ∧ s0.armed = false ∧ s0.keepsLead h 0x0201 = true ∧ (s0.armBad 0 0 false).isNone = true) ∧
    (let s := sRecorded
     let h := aH s 0x703 32
     asks h 32 true s = true ∧ s.armed = false ∧ s.keepsLead h 0x0703 = true ∧ s.log.active = false ∧ s.log.slots ≠ [] ∧
     s.imagesMatch 0 = true ∧ (s.armBad 0 (min s.pwr.pl 2) false).isNone = true ∧ s.framesLost = false ∧ s.log.broken = none ∧
     (s.imgAt 0).readLanes.all s.log.has = true ∧ s.log.mode ≠ 2 ∧ s.allStaged (s.imgAt 0) (s.bar4Addr 0) = true) ∧
    (asks (aH sR 0x202 0) 0 true sR = true ∧ sR.armed = true ∧ sR.keepsLead (aH sR 0x202 0) 0x0202 = true) ∧
    (sR.keepsLead (aH sR 0x203 0) 0x0203 = true ∧ sR.pauseMeets (sR.target (aH sR 0x203 0)) = false) ∧
    (let s := sPaused
     let h := hResume
     asks h 0 true s = true ∧ s.keepsLead h 0x0204 = true ∧ s.run.phase = .paused ∧ s.run.resumeQ = none ∧
     (s.target h - s.run.pcn).toNat % 32 = 0 ∧ 15 ≤ (s.target h - s.run.pausedAt).toNat ∧
     (s.target h - s.run.pausedAt).toNat < 2 ^ 47 ∧ s.resumeDiffers = false) ∧
    (let s := sReady
     asks (aH s 0x303 0) 0 true s = true ∧ s.keepsLead (aH s 0x303 0) 0x0303 = true ∧ s.run.phase ≠ .draining ∧ s.run.phase ≠ .paused ∧
     s.planes.swW = none ∧ s.run.pauseAt = none ∧ s.transferring = false ∧ s.planes.sh = .ready) ∧
    (let s := sTab
     asks (aH s 0x403 8) 8 true s = true ∧ s.armed = true ∧ s.keepsLead (aH s 0x403 8) 0x0403 = true ∧
     (s.img.table 4095 == some tab0) = true ∧ tab0.faces ≠ 1 ∧ s.transferring = false ∧ s.swapping 4095 = false ∧
     (s.alm.writes ++ s.alm.catchUp).any (fun b => b.tid == 4095) = false ∧ s.run.pauseAt = none) := by decide +kernel

/-- Rows staged at address 0: row 2 for face B. -/
def sStaged : State := { sTab with mem := tputs 0 [] 0 (leBytes 8 2 ++ leBytes 8 1) }

def launchPkt : List Byte := [24, 0, 2, 0, 0, 0, 0, 0] ++ List.replicate 16 0

theorem test_hyp_LongCommandsAreTakenUp :
    (let s := withImg ready imgT
     asks (H 32) 32 false s = true ∧ s.armed = false ∧ (s.loadDesc 4095).isSome = true ∧ tab0.faces ≠ 1 ∧
     (BitVec.ofNat 64 (loadLen tab0 3)) ≠ (0 : Dword) ∧ s.bar4Addr 0 + loadLen tab0 3 ≤ 2 ^ 38) ∧
    (let s := sStaged
     asks (H 24) 24 false s = true ∧ s.armed = true ∧ (s.img.table 4095 == some tab0) = true ∧ tab0.faces ≠ 1 ∧ s.bar4Addr 0 = 0 ∧
     (∀ i, i < 1 → (stagedRow s 0 i).1 ≤ tab0.rows ∧ (stagedRow s 0 i).2.1 = if s.idleFace 4095 then 1 else 0)) ∧
    (asks (H 16) 16 false sR = true ∧ sR.armed = true ∧ histoTargetOk 0 = true) ∧
    (let s := sCap .frozen 0
     asks (H 16) 16 false s = true ∧ s.cap.st = .frozen ∧ s.log.active = false) ∧
    (let s := sLane 1
     asks (H 32) 32 false s = true ∧ 16 ≤ (31 : Dword).toNat ∧ (31 : Dword).toNat ≤ 31 ∧ (127 : Dword).toNat ≤ 127 ∧
     (s.sextOf 63).busy = false ∧ (s.lane 63).role ≠ 0 ∧ (s.lane 63).lock = true) ∧
    (asks (H 0) 0 false sR = true ∧ sR.armed = true) ∧
    (asks (H 8) 8 false s0 = true ∧ s0.armed = false ∧ (3 : Dword).toNat ≤ 3 ∧ (s0.pwr.busy == .none) = true ∧ (2 : Nat) ≠ s0.pwr.pl ∧
     0 = s0.pwr.pl) ∧
    (let s := sLane 4
     asks (H (24 + launchPkt.length)) (24 + launchPkt.length) false s = true ∧ launchPktOk launchPkt = true ∧ (s.lane 63).role = 4 ∧
     s.chr.now ≤ ((s.chr.units ((0 : Dword) ++ (1 : Dword)) : Nat) : Int) + 65536000 ∧ s.chr.launches.length < 64 ∧
     (s.kly.longs.all fun w => w.req.op.toNat != 0x0902 || s.chr.launches.any fun q => q.jseq == w.jseq) = true) := by decide +kernel

/-- WGMCOMMIT, CTXCOMMIT, BCNLOAD and ENVLOAD entries at the ends of their ranges. -/
def wgmEnt : List Byte := leBytes 8 (15 + 256 * 63) ++ leBytes 4 0x80000000 ++ leBytes 4 5
def ctxEnt : List Byte := leBytes 8 65535 ++ leBytes 4 0 ++ leBytes 4 0 ++ leBytes 4 3 ++ leBytes 4 0 ++ leBytes 8 0
def bcnLst : List Byte := List.replicate 512 0x55 ++ List.replicate 512 0xFF
def envEnt : List Byte := leBytes 4 0xFFFFFFF0 ++ leBytes 4 100

/-- Tensor 63 of virtual Field 15 is enabled. -/
def withTensor (s : State) : State :=
  { s with wgm := { s.wgm with tensors := [(1023, { Tensor.reset with cfg := 0x80000000, m := [(1, 7)], seen := true, rNow := 9 })] } }

theorem test_hyp_AnnouncedCommandsActAtOnceOutsideARun :
    (asks (HA 32) (16 + wgmEnt.length) true (withTensor s0) = true ∧ (withTensor s0).armed = false ∧
     wgmcommitOk 1 1 wgmEnt (withTensor s0) = true) ∧
    (asks (HA 40) (8 + ctxEnt.length) true s0 = true ∧ s0.armed = false ∧ ctxcommitOk 1 ctxEnt s0 = true) ∧
    (asks (HA 24) 24 true s0 = true ∧ lanecommitOk 63 0xFFFFFF 1024 = true) ∧
    (asks (HA 48) 48 true s0 = true ∧ caparmOk 0 1 1 65535 0 15 s0 = true) ∧
    asks (HA 0) 0 true s0 = true ∧
    (asks (HA 1064) 1064 true s0 = true ∧ bcnloadOk 15 61440 4096 4096 3 bcnLst = true) ∧
    (asks (HA 32) (24 + envEnt.length) true s0 = true ∧ envloadOk 3 4095 1 envEnt = true) ∧
    (asks (HA 25) 25 true s0 = true ∧ logstartOk 1 1 [0] s0 = true ∧ asks (H 25) 25 false s0 = true) := by decide +kernel

theorem test_hyp_AnnouncedCommandsWaitInARun :
    (let s := withTensor sR
     asks (aH s 0x501 32) 32 true s = true ∧ s.armed = true ∧ s.keepsLead (aH s 0x501 32) 0x501 = true ∧ wgmcommitOk 1 1 wgmEnt s = true) ∧
    (asks (aH sR 0x502 40) 40 true sR = true ∧ sR.keepsLead (aH sR 0x502 40) 0x502 = true ∧ ctxcommitOk 1 ctxEnt sR = true) ∧
    (asks (aH sR 0x503 24) 24 true sR = true ∧ sR.keepsLead (aH sR 0x503 24) 0x503 = true) ∧
    (asks (aH sR 0x601 48) 48 true sR = true ∧ sR.keepsLead (aH sR 0x601 48) 0x601 = true ∧ caparmOk 0 1 1 65535 0 15 sR = true) ∧
    (asks (aH sR 0x602 0) 0 true sR = true ∧ sR.keepsLead (aH sR 0x602 0) 0x602 = true) ∧
    (asks (aH sR 0x605 1064) 1064 true sR = true ∧ sR.keepsLead (aH sR 0x605 1064) 0x605 = true) ∧
    (asks (aH sR 0x606 32) 32 true sR = true ∧ sR.keepsLead (aH sR 0x606 32) 0x606 = true) ∧
    (asks (aH sR 0x701 25) 25 true sR = true ∧ sR.keepsLead (aH sR 0x701 25) 0x701 = true ∧ logstartOk 1 1 [0] sR = true) := by
  decide +kernel

/-! ### Hypotheses met: runs, pauses, planes, tables -/

/-- Command op with its body waits for crossing at_. -/
def mkW (op : Nat) (body : List Byte) (at_ : CN) : Waiting :=
  { jseq := 3, mbx := 2, req := { op := BitVec.ofNat 16 op, hdr := { hdr0 body.length true with mbx := 2, tag := 9 }, body := body }
    cnAcc := 1, at_ := at_, long := false, base := 0 }
def withWait (s : State) (w : Waiting) : State := { s with kly := { s.kly with waiting := [w] } }
def withLong (s : State) (w : Waiting) : State := { s with kly := { s.kly with longs := [w] } }

/-- A run that starts now. -/
def sStart : State :=
  let s := withWait (runOf .armed img0) (mkW 0x201 (List.replicate 40 0) 500)
  { s with run := { s.run with first := 500 }, alm := { s.alm with trained := true } }

theorem test_hyp_RunStartsFillsAndStops :
    (sStart.startDue = true ∧ sStart.run.replay = false ∧ sStart.pair.rejoin = none ∧
     dueOnly sStart 0x0201 500 (mkW 0x201 (List.replicate 40 0) 500) = true) ∧
    (let s := { sR with run := { sR.run with stopAt := some 500 } }
     s.armed = true ∧ s.run.faultAt ≠ some s.cn ∧ s.run.stopAt = some s.cn ∧ s.alm.hostQ.isEmpty = true ∧ s.alm.catchUp.isEmpty = true ∧
     s.alm.writes.isEmpty = true ∧ s.alm.swaps.isEmpty = true ∧ s.alm.fixes.isEmpty = true) ∧
    (let s := { sR with run := { sR.run with faultAt := some 500 } }
     s.armed = true ∧ s.run.faultAt = some s.cn) ∧
    (let s := { sR with run := { sR.run with filling := true, fillEnd := 500 } }
     s.live = true ∧ s.run.filling = true ∧ cnLe s.run.fillEnd s.cn = true) ∧
    (runOf .armed img0).alm.trained = false ∧ (runOf .armed img0).run.phase = .armed := by decide +kernel

def lat0 : Latch :=
  { p := 420, delta := 0, slot := 0, ep := 1, meas := [1], frame := [2], tensors := [], ctxs := [], valid := true
    shadow := { st := .empty, slot := 0, pos := 0, by_ := 0 }, whole := false, tailed := true }
def sResumes : State :=
  let s := withWait (runOf .paused img0) (mkW 0x204 [] 500)
  { s with run := { s.run with pcn := 420, pausedAt := 450, resumeQ := some 500 }, kly := { s.kly with pause := some lat0 }
           alm := { s.alm with trained := true } }
def sDraining : State :=
  let s := withWait (runOf .draining img0) (mkW 0x203 [] 476)
  { s with run := { s.run with pcn := 476, pauseAt := some 476 } }
/-- Stopped by a fault, in solo mode with AR. -/
def sFaulted : State :=
  { withImg ready img0 with
    cn := 500, run := { RunState.reset with reason := .fault, slot := 0 }, pair := { PairState.reset with cfg := 0x0D000000 } }

theorem test_hyp_PauseResumeAndRestart :
    (let s := { sR with run := { sR.run with pauseAt := some 497 } }
     s.run.phase = .running ∧ s.run.pauseAt = some 497 ∧ s.cn = cnAdd 497 s.hdr.rofs) ∧
    (sDraining.run.phase = .draining ∧ cnLe (cnAdd sDraining.run.pcn (sDraining.hdr.rofs + sDraining.hdr.a + 1)) sDraining.cn = true ∧
     dueOnly sDraining 0x0203 476 (mkW 0x203 [] 476) = true) ∧
    (sResumes.run.resumeQ = some sResumes.cn ∧ sResumes.alm.trained = true ∧ dueOnly sResumes 0x0204 500 (mkW 0x204 [] 500) = true ∧
     (sResumes.kly.pause == some lat0) = true ∧ sResumes.atBoundary = true ∧ (sResumes.dueNow 0x0501 500).isEmpty = true ∧
     (sResumes.dueNow 0x0502 500).isEmpty = true) ∧
    (sFaulted.restartDue = true ∧ sFaulted.pairMode = false ∧ sFaulted.pwr.sst = 0 ∧ sFaulted.boot.owned = true ∧
     sFaulted.boot.brdOk = true ∧ sFaulted.run.slot < 64 ∧ sFaulted.run.pl ≤ 2 ∧
     (sFaulted.armBad sFaulted.run.slot sFaulted.run.pl sFaulted.run.debug).isNone = true) := by decide +kernel

def sFilled : State := { sR with planes := { Planes.reset with sh := .filling, fillPos := sR.fillBytes } }
def sSwitches : State :=
  let s := withWait (runOf .running imgW) (mkW 0x303 [] 475)
  { s with planes := { Planes.reset with sh := .switching, swW := some 475, wpSent := true, shSlot := 1 } }

theorem test_hyp_PlanesFillAndSwitch :
    sFilled.fillDue = true ∧
    (let s := { sRW with planes := { Planes.reset with sh := .switching, swW := some 497 } }
     s.run.phase = .running ∧ s.planes.wpSent = false ∧ s.planes.swW = some 497 ∧ 497 = cnSub s.cn s.hdr.rofs) ∧
    (let s := sSwitches
     s.live = true ∧ s.planes.wpSent = true ∧ s.planes.swW = some 475 ∧ s.cn = cnAdd 475 (s.hdr.rofs + s.hdr.a + 2) ∧
     dueOnly s 0x0303 475 (mkW 0x303 [] 475) = true) := by decide +kernel

def loadW : Waiting := mkW 0x401 (leBytes 8 4095 ++ leBytes 8 1 ++ leBytes 8 64 ++ leBytes 8 96) 0
def sLoads : State := withLong (withImg ready imgT) loadW
/-- The table is loaded, tide on. -/
def sLoaded : State :=
  { sTab with alm := { sTab.alm with tideOn := true
                                     tabs := [(4095, { desc := some (tab0, [copy0]), loaded := 3, active := false, upd := [(2, List.replicate 32 9)] })] } }
def writeW : Waiting := mkW 0x402 (leBytes 8 4095 ++ leBytes 8 0 ++ leBytes 8 1) 0
def burst0 : WBurst := { jseq := 3, tid := 4095, copy := 0, face := true, row := 2, data := List.replicate 32 8 }
def sWrites : State := let s := withLong sLoaded writeW; { s with alm := { s.alm with writes := [burst0] } }
def swapW : Waiting := mkW 0x403 (leBytes 8 4095) 496
def sSwaps : State := let s := withWait sLoaded swapW; { s with alm := { s.alm with swaps := [{ tid := 4095, a := 496, jseq := 3, done := false }] } }
def swap0 : Swap := { tid := 4095, a := 450, jseq := 3, done := true }
def sCatches : State := { sLoaded with alm := { sLoaded.alm with swaps := [swap0] } }

theorem test_hyp_TablesLoadWriteAndSwap :
    ((sLoads.longFor 0x0401 4095 == some loadW) = true ∧ (sLoads.loadDesc 4095 == some (tab0, [copy0])) = true ∧ sLoads.copiesRun (tab0, [copy0]) = true ∧ tab0.lpddr = false ∧
     loadW.req.opd 1 = 1) ∧
    ((sWrites.longFor 0x0402 4095 == some writeW) = true ∧ sWrites.writeWaits 4095 = false ∧ (sWrites.tab 4095).lpddr = false ∧
     ((sWrites.alm.writes.filter fun b => b.jseq == writeW.jseq) == [burst0]) = true ∧ (sWrites.burstRef burst0).isSome = true) ∧
    (sSwaps.live = true ∧ (sSwaps.swapDue 4095 == some swapW) = true ∧ (swapW.req.opd 0).toNat = 4095) ∧
    (sCatches.live = true ∧ (sCatches.alm.swaps == [swap0]) = true ∧ swap0.done = true ∧
     cnLt (cnAdd swap0.a (sCatches.hdr.rofs + sCatches.hdr.a + 16)) sCatches.cn = true) := by decide +kernel

/-- The table in LPDDR6 on subchannel 31, with a tide table of lookup, write and retraining slots in phase 20. -/
def imgL (bank : BitVec 4) : Image :=
  { img0 with
    almt := { tables := [{ tab0 with kind := 5 }], copies := [{ tid := 4095, place := 63, bank := bank.toNat, base := 8 }]
              reqs := [{ tid := 4095, edge := 0, par := .every, tau0 := 112, keys := [0] }] }
    tide := [((31 * 32 + 20) * 11 + 7, BitVec.ofNat 32 (15 * 2 ^ 26)), ((31 * 32 + 20) * 11 + 8, 0x80000000),
             ((31 * 32 + 20) * 11 + 9, 0xC0000000)] }
def sTide (bank : BitVec 4) : State :=
  let s := runOf .running (imgL bank)
  { s with alm := { s.alm with tideOn := true, margin := [(3 * 16 + 14, 0x50506060)]
                               tabs := [(4095, { desc := some ({ tab0 with kind := 5 }, [{ tid := 4095, place := 63, bank := bank.toNat, base := 8 }])
                                                 loaded := 3, active := false, upd := [] })] } }
/-- The endpoint answers. -/
def sHost : State := { s0 with host := { s0.host with idLoaded := true }, pwr := { s0.pwr with railok := 0xFF } }
/-- A run with tide and no tide table. -/
def sVia : State := { sHost with cn := 7, run := (runOf .running img0).run, alm := { sHost.alm with tideOn := true } }
/-- A host write of a whole line, or a read, that waits for refresh slots. -/
def hostB (read : Bool) (left : Nat) : HostBurst :=
  { id := 1, read := read, addr := 0, len := 32, ofs := 0, data := List.replicate 32 3, noise := 0, left := left, told := false }
def sHostQ (b : HostBurst) : State := { sVia with alm := { sVia.alm with hostQ := [b] } }
/-- A stream replay of lane 0 that now reads its staged packet at address 1024. -/
def sReplays : State :=
  { sVia with run := { sVia.run with replay := true }, log := { LogState.reset with mode := 2, lanes := 1, stage := 864 } }
def sBursts : State := { sTide 7 with alm := { (sTide 7).alm with writes := [burst0] } }
def sCatchUps : State := { sTide 7 with alm := { (sTide 7).alm with catchUp := [burst0] } }

theorem test_hyp_TideSlotsDoTheirWork :
    (let s := { sBursts with planes := { Planes.reset with sh := .filling } }
     s.slotsRun 31 = true ∧ tideClass (s.img.tideAt 31 (s.cn.toNat % 32) 8) = 2 ∧ s.planes.sh = .filling) ∧
    (let s := sBursts
     s.planes.sh ≠ .filling ∧ (s.pickBurst 31 8 (s.alm.writes.filter fun b => !s.writeWaits b.tid)).isSome = true) ∧
    (let s := sCatchUps
     (s.pickBurst 31 8 (s.alm.writes.filter fun b => !s.writeWaits b.tid)).isNone = true ∧ (s.pickBurst 31 8 s.alm.catchUp).isSome = true) ∧
    (let b := hostB false 1
     let s := sHostQ b
     s.slotsRun 0 = true ∧ s.run.replay = false ∧ s.alm.hostQ = [b] ∧ b.bank 0 = some 0 ∧ s.bankFree 0 0 10 = true ∧ b.left < 2 ∧
     s.memOn b.addr = true ∧ sReplays.slotsRun 0 = true ∧ sReplays.replaySlot 0 = true ∧
     s.wprot b.addr = false ∧ (sHostQ (hostB false 2)).bankFree 0 0 10 = true ∧ (∀ x ∈ sVia.alm.hostQ, (x.bank 0).isNone = true)) ∧
    (let s := sTide 15
     s.slotsRun 31 = true ∧ tideClass (s.img.tideAt 31 (s.cn.toNat % 32) 9) = 3 ∧ (tfind s.alm.margin (3 * 16 + 14)).isSome = true ∧
     (0x20 : BitVec 8).toNat < ((tget 0x241A281C s.alm.mlimit 3).extractLsb' 24 8).toNat) := by decide +kernel

/-- Key 1 of request 0, unread. -/
def key0 : KeySt := { kind := .key, key := 1, epoch := 0, read := false, row := none }
def poolOf (c : CN) (k : KeySt) : Pool := { sent := false, req := 0, c := c, keys := [(0, k)] }
def req0 : ReqRec := { tid := 4095, edge := 0, par := .every, tau0 := 112, keys := [0] }
def sLookup : State :=
  let s := sTide 15
  { s with alm := { s.alm with pools := [poolOf (s.lookupInput req0 (BitVec.ofNat 32 (15 * 2 ^ 26))) key0] } }
def imgS : Image := { img0 with almt := { tables := [tab0], copies := [copy0], reqs := [req0] } }
def sRead : State := let s := runOf .running imgS; { s with tick := 0, alm := { s.alm with pools := [poolOf 496 key0] } }
def sResult : State :=
  { sRead with cn := 497, tick := 25, alm := { sRead.alm with pools := [poolOf 492 { key0 with read := true, row := some [5] }] } }

theorem test_hyp_AlmanacServesKeysAndAnswers :
    (let s := sLookup
     let w := s.img.tideAt 31 (s.cn.toNat % 32) 7
     let c := s.lookupInput req0 w
     s.slotsRun 31 = true ∧ tideClass w = 0 ∧ (s.img.almt.reqs[tideReq w]? == some req0) = true ∧
     (s.img.table 4095 == some { tab0 with kind := 5 }) = true ∧
     ((s.img.copiesOf { tab0 with kind := 5 }).find? fun c => c.1.bank == tideBank w && (c.1.place.extractLsb' 0 5).toNat == 31 &&
       c.1.place.getLsbD 5 == decide (7 % 2 = 1)).isSome = true ∧
     (((s.pool (tideReq w) c).bind fun p => tfind p.keys (tideKey w)) == some key0) = true ∧ key0.read = false ∧ key0.kind = .key) ∧
    (let s := sRead
     s.live = true ∧ (s.img.almt.reqs[0]? == some req0) = true ∧ (s.img.table 4095 == some tab0) = true ∧ req0.keys[0]? = some 0 ∧
     (s.img.almt.copies[0]? == some copy0) = true ∧ req0.inputOf s.hdr.n (req0.tau0 + 0 + keyRead 0) s.cn s.tick = some 496 ∧
     tab0.lpddr = false ∧ s.quayRuns (copy0.lineRef false 0).quay = true ∧ (((s.pool 0 496).bind fun p => tfind p.keys 0) == some key0) = true) ∧
    (let s := sResult
     s.portRuns req0.edge = true ∧ req0.inputOf s.hdr.n (req0.tau0 + tab0.d * s.hdr.n - 3) s.cn s.tick = some 492 ∧
     ((s.pool 0 492).map Pool.sent) = some false) := by decide +kernel

/-! ### Hypotheses met: an image that every check of R161 admits -/

/-- Pads a section to 64 bytes. -/
def padded (b : List Byte) : List Byte := b ++ List.replicate ((64 - b.length % 64) % 64) 0

/-- A container of the seventeen sections (06 R178). -/
def container (secs : List (List Byte)) : List Byte :=
  let offs := (List.range 17).map fun k => 384 + ((secs.take k).map fun s => (padded s).length).sum
  let body := secs.flatMap padded
  let dir := ((List.range 17).zip (secs.zip offs)).flatMap fun e =>
    leBytes 2 (e.1 + 1) ++ leBytes 2 0 ++ leBytes 4 e.2.1.length ++ leBytes 8 e.2.2
  [0x4C, 0x4F, 0x4D, 0x51] ++ leBytes 2 1 ++ leBytes 2 17 ++ leBytes 8 (384 + body.length) ++ List.replicate 48 0 ++ dir ++
    List.replicate 48 0 ++ body

/-- One cell that passes a sample from west port 0 on to north port 0, which feeds FDEC[0]. -/
def passImage : List Byte :=
  let nop := 4 * 2 ^ 87
  container
    [leBytes 2 1 ++ [14, 2, 1, 0, 0, 0] ++ leBytes 8 0,
     leBytes 4 0 ++ leBytes 4 14 ++ ([nop, nop, nop, nop + 2 ^ 45 + 4 * 2 ^ 37] ++ List.replicate 9 nop ++ [nop + 8]).flatMap (leBytes 12),
     [], [], [],
     leBytes 4 (2 ^ 23 + 3 * 2 ^ 20),
     leBytes 4 1 ++ [1, 0, 0, 0] ++ leBytes 4 3072 ++ leBytes 2 42 ++ leBytes 2 1 ++ leBytes 4 3 ++ leBytes 4 45 ++ [0x13, 0, 0, 0] ++
       leBytes 4 2 ++ [2, 0, 0, 0] ++ leBytes 4 16 ++ leBytes 2 45 ++ leBytes 2 1 ++ leBytes 4 32 ++ leBytes 4 48 ++ [0x03, 0, 0, 0],
     leBytes 4 0 ++ leBytes 2 45 ++ leBytes 2 1 ++ leBytes 4 1 ++ [3, 0, 0, 0],
     leBytes 8 1 ++ leBytes 8 (48 * 2 ^ 12), [],
     leBytes 8 1 ++ leBytes 8 (2 ^ 54 + 3072 * 2 ^ 34 + 7 * 2 ^ 29) ++ [0, 0],
     [], [], [], [],
     [1, 0, 1, 2, 0, 0, 0, 0] ++ List.replicate 112 0 ++ [4, 0, 0, 0, 0, 0, 0, 0] ++ List.replicate 384 0,
     []]

def admBoard : List Byte := (List.range 64).flatMap fun _ => 0x1F :: List.replicate 15 0

/-- Its bytes stand in the IMAGES region of flash. -/
def sAd : State :=
  { ready with boot := { ready.boot with board := admBoard, flash := { ready.boot.flash with dir := dirOf [8], regions := [(8, passImage)] } } }

theorem test_hyp_admit_asks :
    asks (H 32) 32 false sAd = true ∧ sAd.slotInUse 0 = false ∧ sAd.sourceBad 1 0 passImage.length = false ∧
    (0 < passImage.length ∧ passImage.length < 2 ^ 32) ∧ sAd.libHeld 0 + granules passImage.length ≤ sAd.kly.cfg.libg := by decide +kernel

theorem bytesAt_all (l : List Byte) : bytesAt l 0 l.length = l := by
  apply List.ext_getElem
  · simp [bytesAt]
  · intro i h k
    simp [bytesAt, List.getD_eq_getElem?_getD, k]

theorem test_hyp_admit_bytes : sAd.imageBytes 1 0 passImage.length = passImage := bytesAt_all passImage

theorem test_hyp_admit_signature : sAd.sigBad passImage = false := by decide +kernel

theorem test_admit_start : (firstOf (loadStart false passImage passImage.length)).isNone = true := by decide +kernel

theorem test_admit_paths : (firstOf (loadPaths none passImage)).isNone = true := by decide +kernel

theorem test_admit_ends : (firstOf (loadEnds 512 admBoard passImage)).isNone = true := by decide +kernel

theorem firstOf_append (a b : List (Option Refuse)) (h : firstOf a = none) (k : firstOf b = none) : firstOf (a ++ b) = none := by
  induction a with
  | nil => exact k
  | cons x l ih =>
    cases x with
    | none => exact ih h
    | some r => cases h

theorem test_hyp_admit_checks :
    admitBad sAd.dev.nc12 (if sAd.dev.nc12 then sAd.dev.dis else none) sAd.kly.cfg.libg sAd.boot.board passImage passImage.length =
      none :=
  firstOf_append _ _ (firstOf_append _ _ (Option.isNone_iff_eq_none.1 test_admit_start) (Option.isNone_iff_eq_none.1 test_admit_paths))
    (Option.isNone_iff_eq_none.1 test_admit_ends)

/-! ### Hypotheses met: announced effects, lanes, channels -/

def wgmW : Waiting := mkW 0x501 (leBytes 8 1 ++ leBytes 8 1 ++ wgmEnt) 500
def ctxW : Waiting := mkW 0x502 (leBytes 8 1 ++ ctxEnt) 500
def laneW : Waiting := mkW 0x503 (leBytes 8 63 ++ leBytes 8 5 ++ leBytes 8 1024) 500
def armW : Waiting := mkW 0x601 (leBytes 8 0 ++ leBytes 8 1 ++ leBytes 8 1 ++ leBytes 8 0x8000 ++ leBytes 8 0 ++ leBytes 8 15) 497
def bcnW : Waiting := mkW 0x605 (leBytes 8 15 ++ leBytes 8 61440 ++ leBytes 8 4096 ++ leBytes 8 4096 ++ leBytes 8 3 ++ bcnLst) 497
def envW : Waiting := mkW 0x606 (leBytes 8 3 ++ leBytes 8 4095 ++ leBytes 8 1 ++ envEnt) 497
def logW : Waiting := mkW 0x701 (leBytes 8 1 ++ leBytes 8 1 ++ leBytes 8 0 ++ [0]) 497

theorem test_hyp_AnnouncedEffectsApply :
    (let s := withWait (withTensor sR) wgmW
     dueOnly s 0x0501 s.cn wgmW = true ∧ s.run.resumeQ = none) ∧
    dueOnly (withWait sR ctxW) 0x0502 500 ctxW = true ∧
    ((((withWait sR laneW).dueNow 0x0503 500).filter fun w => w.req.opd 0 == BitVec.ofNat 64 63) == [laneW]) = true ∧
    (dueOnly (withWait sR armW) 0x0601 (cnSub 500 sR.hdr.rofs) armW = true ∧ (withWait sR armW).cap.st = .idle ∧
     ((withWait sR armW).dueNow 0x0605 (cnSub 500 sR.hdr.rofs)).isEmpty = true) ∧
    dueOnly (withWait sR (mkW 0x602 [] 497)) 0x0602 497 (mkW 0x602 [] 497) = true ∧
    (dueOnly (withWait sR bcnW) 0x0605 497 bcnW = true ∧ ((withWait sR bcnW).dueNow 0x0601 497).isEmpty = true) ∧
    dueOnly (withWait sR envW) 0x0606 497 envW = true ∧
    (let s := { withWait sR logW with log := { LogState.reset with active := true, mode := 1, lanes := 1 } }
     s.armLogDue = false ∧ s.log.active = true ∧ s.log.atArm = false ∧ s.live = true ∧ dueOnly s 0x0701 497 logW = true ∧
     logW.req.opd 2 = 0) ∧
    (let s := { sR with run := { sR.run with first := 500 }, log := { LogState.reset with active := true, atArm := true, mode := 1 } }
     s.log.active = true ∧ s.log.atArm = true ∧ s.live = true ∧ s.cn = s.run.first) := by decide +kernel

def adm0 : Admission := { w := mkW 0x101 [] 0, slot := 63, img := img0, meas := [1], frame := [2], bytes := 64, raw := [] }
def sAdmits : State :=
  let s := withLong ready adm0.w
  { s with kly := { s.kly with admits := [adm0], lib := [(63, { Slot.reset with gen := 1023 })] } }

theorem test_hyp_AdmissionFillsItsSlot :
    (sAdmits.kly.admits == adm0 :: []) = true ∧ sAdmits.slotInUse 63 = false ∧
    (let s := { sAdmits with run := { RunState.reset with phase := .armed, slot := 63 }, planes := { Planes.reset with actSlot := 63 } }
     (s.kly.admits == adm0 :: []) = true ∧ s.slotInUse 63 = true) := by decide +kernel

theorem test_hyp_CrossingStartCounts :
    sR.clk.mclkOk = true ∧ sR.run.replay = false ∧ ({ sR with clk := { sR.clk with mclkOk := false } } : State).clk.mclkOk = false := by
  decide +kernel

/-- Lane 63 as x, in a run. -/
def onLane (x : Lane) : State := { sR with lanes := [(63, x)] }
/-- An input lane of two-block frames at ROFS 3. -/
def lnIn : Lane := { Lane.reset with cfg := BitVec.ofNat 32 (2 ^ 29 + 2 * 2 ^ 21 + 3 * 2 ^ 13), lock := true, anchor := true }
/-- An alignment marker: number m, LID, CNX. -/
def marker (m lid cnx : Nat) : Dword := BitVec.ofNat 64 (0xF628B4 + m * 2 ^ 24 + lid * 2 ^ 32 + cnx * 2 ^ 40)
def lnFrame : Lane := { lnIn with nextX := 490, blocks := [(493, 3, .ok 3 77), (493, 4, .ok 1 88)].take lnIn.blen }

/-- A codeword of zeros decodes, also with one symbol wrong; 173 different symbols do not. -/
theorem test_hyp_codewords :
    gfLane.decode 8 ((5 :: List.replicate 172 0).map (· % 1024)) = some (List.replicate 173 0) ∧
    gfLane.decode 8 ((List.range 173).map (· % 1024)) = none := by decide +kernel

theorem test_hyp_LanesLockAndReceive :
    ((5 :: List.replicate 172 0 : List Nat).length = 173 ∧ ((onLane lnIn).lane 63).lock = true) ∧
    (let x := ((onLane { Lane.reset with burst := true }).lane 63)
     (marker 24 200 7).extractLsb' 0 24 = 0xF628B4#24 ∧ x.lock = false ∧ x.burst = true ∧ 66 * 31 ≤ 2048 * x.ui ∧ x.explid = 0) ∧
    (let x := ((onLane { Lane.reset with cand := some 24, cfg := 5 }).lane 63)
     x.lock = false ∧ x.cand = some 24 ∧ ((marker 0 200 0xFFFFFF).extractLsb' 24 5).toNat = (24 + 1) % 25 ∧ x.explid ≠ 0 ∧
     (marker 0 200 0xFFFFFF).extractLsb' 32 8 ≠ x.explid) ∧
    (let x := ((onLane Lane.reset).lane 63)
     x.lock = false ∧ x.burst = false ∧ x.cand = none) ∧
    (((onLane lnIn).lane 63).wake = false ∧ ((onLane { Lane.reset with wake := true }).lane 63).wake = true ∧
     (onLane { Lane.reset with wake := true }).clk.safe = false) ∧
    (3 ≤ ((onLane { lnIn with missed := 3 }).lane 63).missed ∧ 8 ≤ ((onLane { lnIn with ueRun := 8 }).lane 63).ueRun) ∧
    (let s := onLane lnFrame
     let x := s.lane 63
     x.lock = true ∧ x.anchor = true ∧ x.dmg = false ∧ x.role = 1 ∧ x.blocks.length = x.blen ∧ 2 ≤ x.blen ∧
     (x.blocks.head?.map RxBlk.isMark) = some true ∧ (x.blocks.tail.all RxBlk.isData) = true ∧
     ((tget [] s.chan.ring 63).head?.map fun e => cnLe x.nextX e.x).getD false = false ∧
     cnLt 493 (cnSub (cnAdd x.nextX x.rofs) 8) = false ∧ (x.buf.any fun g => decide (g.x = x.nextX)) = false) := by decide +kernel

def rxFr : RxFrame := { x := 497, pay := 0x55, mask := 0, cn := 499, tick := 5 }

theorem test_hyp_LaneReleasesAndMargins :
    (let s := onLane { lnIn with nextX := 498, buf := [rxFr] }
     (s.lane 63).role = 1 ∧ s.releaseDue 63 = true ∧ s.run.replay = false ∧
     (((s.lane 63).buf.find? fun f => decide (f.x = cnSub s.cn (s.lane 63).rofs)) == some rxFr) = true ∧ rxFr.mask = 0) ∧
    (let s := onLane { lnIn with nextX := 497 }
     s.releaseDue 63 = true ∧ ((s.lane 63).buf.find? fun f => decide (f.x = cnSub s.cn (s.lane 63).rofs)).isNone = true ∧
     (s.lane 63).lock = true ∧ (s.lane 63).anchor = true ∧ cnLe (s.lane 63).nextX (cnSub s.cn (s.lane 63).rofs) = true) ∧
    (let s := { onLane lnIn with sext := [(63, { Sext.reset with margin := 0x20203030, seen := true, streak := 1 })] }
     s.armed = true ∧ (s.lane 63).role ≠ 0 ∧ (s.sextOf 63).seen = true ∧ (9 : BitVec 8).toNat < (s.sextOf 63).wwarn ∧
     (9 : BitVec 8).toNat < (s.sextOf 63).whard ∧ (s.sextOf 63).streak ≠ 0 ∧ (s.sextOf 63).whard ≤ (10 : BitVec 8).toNat ∧
     (s.sextOf 63).hhard ≤ (5 : BitVec 8).toNat) := by decide +kernel

def sStage : State := runOf .running { img0 with cmap := [cmap0] }

theorem test_hyp_ChannelStageAndAveraging :
    (let s := sStage
     s.chan.stageAt ≠ some s.cn ∧ s.run.phase = .running ∧ cnLe s.run.first (cnSub s.cn s.hdr.rofs) = true ∧
     ((s.imgAt (s.epochOf (cnSub s.cn s.hdr.rofs)).slot).cmap == [cmap0]) = true ∧ s.quayRuns (cmap0.ctx / 16384) = true) ∧
    (let s := { s0 with cn := 500, cap := { CapState.reset with st := .prefill, lanes := 0x8000000000000001, a0 := 497 }
                        lanes := [(63, { Lane.reset with cfg := BitVec.ofNat 32 (2 ^ 29) })] }
     s.chan.stageAt ≠ some s.cn ∧ s.run.phase = .idle ∧ s.cap.st.writes = true ∧ s.cap.a0Pend = false ∧
     cnLe s.cap.a0 (cnSub s.cn s.hdr.rofs) = true ∧ s.cap.stopFr = none ∧ lanesIn (s.inputLanes s.cap.lanes) 3 ≠ []) ∧
    ({ s0 with chan := { s0.chan with avgDue := [65535] } } : State).chan.avgDue.contains 65535 = true := by decide +kernel

def trig0 : Trig := { t := 497, src := 8 }
def drainW : Waiting := mkW 0x603 (leBytes 8 1 ++ leBytes 8 4096) 0
def sDrains : State :=
  let s := withLong ready drainW
  { s with cap := { CapState.reset with st := .draining, cfg := 0x80000000 } }

/-- A calibration of contexts none of which is mapped, its capture at its end. -/
def deskewW : Waiting := mkW 0xA01 (leBytes 8 0 ++ leBytes 8 1 ++ leBytes 8 499 ++ leBytes 8 2) 0
def sDeskews : State :=
  let s := withLong sR deskewW
  { s with cap := { CapState.reset with st := .post, stopFr := some 500 } }

theorem test_hyp_WakeBufferTriggersAndDrains :
    (let s := { sR with cap := { CapState.reset with st := .post, stopFr := some 500 } }
     s.cap.cands = [] ∧ s.freezeDue = true ∧ (s.longOf 0x0A01).isNone = true) ∧
    (let s := { sR with cap := { CapState.reset with st := .armed, a0 := 400, win := 0x00010000, cands := [trig0] } }
     s.cap.cands = [trig0] ∧ s.cap.st = .armed ∧ trig0.src ≠ 1 ∧ s.cap.a0Pend = false ∧ cnLe (cnAdd s.cap.a0 s.capPre) trig0.t = true ∧
     (s.longOf 0x0A01).isNone = true) ∧
    (let s := { sR with cap := { CapState.reset with st := .post, a0 := 400, win := 0x00010000, cands := [trig0] } }
     s.cap.cands = [trig0] ∧ s.cap.st = .post ∧ s.trigReady trig0 = true) ∧
    (let s := sDeskews
     s.cap.cands = [] ∧ s.freezeDue = true ∧ (s.longOf 0x0A01 == some deskewW) = true ∧ s.pairMode = false ∧
     (s.deskewCtxs deskewW).isEmpty = true) ∧
    (sDrains.cap.st = .draining ∧ (sDrains.longOf 0x0603 == some drainW) = true ∧ drainW.req.opd 0 = 1) ∧
    sR.run.replay = false := by decide +kernel

/-! ### Hypotheses met: Weighmaster, output, hub, pair -/

def tens0 : Tensor := { Tensor.reset with cfg := 0x84001000, m := [(497, 50), (499, 70)], rNow := 100, seen := true }
def withTens (t : Tensor) : State := { sR with wgm := { s0.wgm with tensors := [(65, t)] } }
def sScales : State :=
  let s := withTens { tens0 with next := some (1000, 5, 7) }
  { s with arr := { s.arr with cells := [(256, { Cell.blank 0 with rq := [(3, 0x0000020C), (4, 0x0000020B)] })] } }

theorem test_hyp_ScalesAreDerivedAndApplied :
    (let s := withTens tens0
     s.derivable = true ∧ tsorted s.wgm.tensors = true ∧ (tfind s.wgm.tensors 65 == some tens0) = true ∧ tcEnable tens0.cfg = true ∧
     tcLink tens0.cfg = 0 ∧ tcFaThr tens0.cfg = 0 ∧ s.kly.histo.isEmpty = true ∧ tens0.windowMax s.pcn ≠ 0 ∧ tens0.seen = true ∧
     tcDrop tens0.cfg ≠ 0) ∧
    ({ tens0 with m := [] } : Tensor).windowMax sR.pcn = 0 ∧
    (let s := sScales
     s.atBoundary = true ∧ tsorted s.wgm.tensors = true ∧ ((tfind s.wgm.tensors 65).bind Tensor.next) = some (1000, 5, 7) ∧
     4 * (256 / 1024 / 256) + 256 % 1024 / 256 = 65 / 64 ∧ rqWgm 0x0000020C = true ∧ rqTensor 0x0000020C = 65 % 64) := by decide +kernel

def imgO : Image :=
  { img0 with osch := { plen := 0, ht := 0, ents := [{ kind := .fdec 15, edge := 0, stau := 150, par := .every },
                                                     { kind := .record 0, edge := 0, stau := 151, par := .every }] } }
def outRec (c : CN) (asm : Bool) : OutRec :=
  { c := c, slot := 0, epoch := 0, flags := 0, inA := [], idig := 0, odig := 0, fdec := 0xABCD, pay := [], chain := [], asm := asm, sent := false
    auth := false, ictr := 0 }
def sAssembles : State := let s := runOf .running imgO; { s with out := { OutState.reset with recs := [outRec 476 false] } }
def sDrives (auth : Bool) : State :=
  let s := runOf .running imgO
  { s with tick := 6, out := { OutState.reset with recs := [outRec (cnSub 500 25) true] }
           pair := { PairState.reset with cfg := if auth then 0x0C000000 else 0x4C000001, st := if auth then .off else .joined, auth := auth } }

theorem test_hyp_OutputAssemblyAndDecision :
    ((sAssembles.out.recs.find? fun r => !r.asm && decide (sAssembles.asmAt r.c = sAssembles.cn)) == some (outRec 476 false)) = true ∧
    (let s := sDrives true
     s.live = true ∧ s.tick = s.hdr.t ∧ s.hasAuth = true ∧
     (s.out.recs.find? fun r => r.asm && decide (cnAdd r.c s.latL = s.cn)).isSome = true) ∧
    (let s := sDrives false
     s.live = true ∧ s.tick = s.hdr.t ∧ s.hasAuth = false) := by decide +kernel

/-- A lane in role r with Q 22 and four-block frames. -/
def lnRole (r : Nat) : Lane :=
  { Lane.reset with cfg := BitVec.ofNat 32 (r * 2 ^ 29 + 4 * 2 ^ 21 + 22 * 2 ^ 16 + 3 * 2 ^ 13), lock := true, anchor := true }
def loop0 : Loop := { lane := 63, recv := false, nf0 := 1, nf1 := 2, bound := 8, hold := 0, frofs := 2, fill := 0, upl := 0 }
def sChain (i : Image) : State := { runOf .running i with lanes := [(63, lnRole 2)] }

theorem test_hyp_HubAndChainFramesAreSent :
    (let s := { onLane (lnRole 4) with run := { sR.run with phase := .idle } }
     (s.lane 63).role = 4 ∧ s.sentNow 63 = false ∧ s.armed = false ∧ 2 ≤ (s.lane 63).qblk ∧
     (s.out.recs.find? fun r => r.asm && decide (r.c = cnSub s.cn (s.latL + 3))).isNone = true) ∧
    (let s := { onLane (lnRole 4) with out := { OutState.reset with recs := [outRec (cnSub 500 28) true], ictr := 0xFFFFFFFF } }
     s.sentNow 63 = false ∧ s.tick = s.hubTick (cnSub s.cn (s.latL + 3)) ∧ s.hubLanes = [63] ∧
     ((s.out.recs.find? fun r => r.asm && decide (r.c = cnSub s.cn (s.latL + 3))).map OutRec.sent) = some false) ∧
    (let s := sChain img0
     s.live = true ∧ s.tick = 0 ∧ (s.lane 63).role = 2 ∧ s.sentNow 63 = false ∧ (s.img.sendLoop 63).isNone = true ∧
     (s.img.recvLoop 63).isNone = true) ∧
    ((sChain { img0 with cred := { stage := 0, origin := 0, loops := [loop0], maps := [] } }).img.sendLoop 63).isSome = true := by
  decide +kernel

def mgmt0 : List Byte := leBytes 2 20 ++ [3, 0, 0, 0, 0, 0] ++ [0x10, 0, 0, 0, 0, 0, 0, 0] ++ [1, 2, 3, 4]
/-- A Sync that names output lanes dst, and Klowyn where kl is 1. -/
def timing0 (dst kl : Byte) : List Byte :=
  leBytes 2 58 ++ [1, 0, 0, 0, 0, 0] ++ [dst, kl] ++ leBytes 2 0xBEEF ++ [0, 0, 0, 0] ++ List.replicate 42 0
def sHubs : State := { sR with lanes := [(5, lnRole 4), (63, lnRole 4)] }
def launch0 : Launch := { lane := 63, time := 0, body := List.replicate 16 1, mbx := 2, jseq := 3, tag := 9 }
def sLaunch : State :=
  let s := withLong sHubs (mkW 0x902 [] 0)
  { s with chr := { s.chr with launches := [launch0] } }

theorem test_hyp_HubPacketsAndLaunches :
    (sHubs.lane 63).role = 4 ∧
    (8 ≤ mgmt0.length ∧ leAt mgmt0 0 2 = mgmt0.length ∧ leAt mgmt0 2 1 % 16 = 3 ∧ (mgmt0.drop 8).headD 0 = 0x10 ∧
     (sHubs.kly.hostMgmt.map List.length).sum + (mgmt0.drop 16).length ≤ 65536) ∧
    (let b := timing0 0 1
     leAt b 0 2 = b.length ∧ leAt b 2 1 % 16 = 1 ∧ 50 ≤ b.length ∧ (b.getD 16 0).toNat % 16 = 0 ∧ sHubs.kly.up = true ∧
     (b.getD 9 0).getLsbD 0 = true ∧ b.getD 8 0 = 0) ∧
    (let b := timing0 1 0
     (b.getD 9 0).getLsbD 0 = false ∧ (sHubs.hubLanes.zipIdx.filter fun e => (b.getD 8 0).getLsbD e.2 && e.1 != 63) = [(5, 0)] ∧
     (sHubs.hubOf 5).room { typ := 1, body := b.drop 8, ingress := some ((sHubs.ingress 63 3 : Int) - sHubs.chr.steps), launch := none } = true) ∧
    (let s := sLaunch
     s.clk.lrefOk = true ∧ (s.launchDue 63 == some launch0) = true ∧
     let p : Pkt := { typ := 2, body := launch0.body, ingress := none, launch := some launch0.jseq }
     (s.hubOf 63).room p = true ∧ p.sameLaunch { p with launch := none } = false) ∧
    (let p : Pkt := { typ := 2, body := launch0.body, ingress := none, launch := some launch0.jseq }
     let s := { sLaunch with hub := [(63, { sLaunch.hubOf 63 with side := List.replicate 3000 p })] }
     (s.hubOf 63).room p = false) ∧
    (mgmt0.length ≤ 2048 ∧ ({ sHubs with kly := { sHubs.kly with up := false } } : State).kly.up = false ∧ (sHubs.hubOf 63).rx = []) ∧
    (let p : Pkt := { typ := 2, body := launch0.body, ingress := none, launch := some 3 }
     let t := withLong { s0 with lanes := [(63, lnRole 4)] } (mkW 0x902 [] 0)
     let s := { t with hub := [(63, { t.hubOf 63 with side := [p] })] }
     (s.lane 63).role = 4 ∧ s.sentNow 63 = false ∧ s.armed = false ∧
     (s.out.recs.find? fun r => r.asm && decide (r.c = cnSub s.cn (s.latL + 3))).isNone = true ∧ 3 ≤ (s.lane 63).qblk ∧
     (s.hubOf 63).side = [p] ∧ (s.hubOf 63).sidePos = 0 ∧
     ((s.kly.longs.find? fun w => w.jseq == 3) == some (mkW 0x902 [] 0)) = true) := by decide +kernel

def lnMir : Lane := { Lane.reset with cfg := BitVec.ofNat 32 (3 * 2 ^ 29 + 22 * 2 ^ 16), lock := true, anchor := true }
/-- A member of a pair with a mirror lane 7. -/
def sMir (st : PairSt) (pst : BitVec 3) : State :=
  { sR with pair := { PairState.reset with cfg := 0x4C000001, st := st, role := 1, auth := true, pst := pst, mlanes := 1 }, lanes := [(7, lnMir)] }

theorem test_hyp_MirrorFramesCarryStatus :
    (let s := sMir .joined 2
     s.mirrorDue = true ∧ s.pair.rejoin = none ∧ s.pair.latchJ0 = none ∧ s.mirrorLanes = [7]) ∧
    (let s := { sMir .joined 2 with pair := { (sMir .joined 2).pair with rxMiss := 1 } }
     s.mirrorRelDue = true ∧ s.pair.rejoin = none ∧ (s.mirrorLanes.all fun l => (s.lane l).buf.isEmpty) = true ∧ s.pair.rxMiss = 1 ∧
     s.paired = true ∧ s.pair.pend = none ∧ (s.sentAt s.mirrorY).isNone = true) ∧
    (let s0 := sMir .joined 2
     let s := { s0 with pair := { s0.pair with sent := [(s0.mirrorY, { statusOf 0 with yield := true, cause := 5 })] } }
     s.mirrorRelDue = true ∧ s.pair.rejoin = none ∧ (s.mirrorLanes.all fun l => (s.lane l).buf.isEmpty) = true ∧ s.pair.rxMiss = 0 ∧
     s.paired = true ∧ s.pair.pend = none ∧ ((s.sentAt s.mirrorY).map MStatus.yield) = some true) ∧
    (let f : RxFrame := { x := (sMir .joined 2).mirrorY, pay := 0x1234, mask := 0, cn := 497, tick := 0 }
     let s := { sMir .joined 2 with lanes := [(7, { lnMir with buf := [f] })] }
     s.mirrorRelDue = true ∧ s.mirrorLanes = [7] ∧ (((s.lane 7).buf.find? fun f => decide (f.x = s.mirrorY)) == some f) = true ∧
     f.pay.extractLsb' 256 1728 = 0 ∧ s.pair.rxBuf.isEmpty = true) := by decide +kernel

def pend0 (mine both loss : Bool) : PendK := { k := 500, cause := 2, mine := mine, both := both, lossOfPeer := loss }
def sPend (auth : Bool) (p : PendK) : State :=
  let s := sMir .joined 2
  { s with pair := { s.pair with auth := auth, role := if auth then 1 else 2, pend := some p, yieldCause := none } }
def rebW : Waiting := mkW 0x804 (List.replicate 8 0) 497
def sRebase : State :=
  let s := withWait (sMir .probation 1) rebW
  { s with pair := { s.pair with rebaseJ := some 497, latch := some lat0 } }
def joinW : Waiting := mkW 0x803 (leBytes 8 0) 0

theorem test_hyp_AuthorityChangesAndRejoins :
    ((sPend false (pend0 false false true)).pair.pend = some (pend0 false false true) ∧
     (sPend false (pend0 false false true)).cn = (pend0 false false true).k ∧ (sPend false (pend0 false false true)).pair.auth = false) ∧
    ((sPend true (pend0 true false false)).pair.pend = some (pend0 true false false) ∧ (sPend true (pend0 true false false)).armed = true) ∧
    (sPend false (pend0 false true false)).pair.pend = some (pend0 false true false) ∧
    (let s := sPend true (pend0 false false true)
     s.pair.pend = some (pend0 false false true) ∧ s.pair.auth = true ∧ s.pair.yieldCause = none ∧ s.pair.st ≠ .probation) ∧
    (let s := sPend false (pend0 false false true)
     let u := { s with pair := { s.pair with st := .probation } }
     u.pair.st = .probation ∧ u.armed = true) ∧
    (let s := sPend false (pend0 false false false)
     let u := { s with pair := { s.pair with yieldCause := some 2 } }
     u.pair.auth = false ∧ u.armed = true ∧ u.pair.yieldCause = some 2) ∧
    ((sPend false (pend0 false false false)).pair.pend = some (pend0 false false false) ∧
     (sPend false (pend0 false false false)).pair.yieldCause = none) ∧
    ((sPend true (pend0 false false false)).pair.pend = some (pend0 false false false) ∧ (sPend true (pend0 false false false)).pair.auth = true ∧
     (sPend true (pend0 false false false)).pair.yieldCause = none) ∧
    (let s := sMir .joined 2
     let u := { s with pair := { s.pair with mlanes := 0b1011, laneMiss := [(3, 1024)] } }
     u.pair.mlanes.getLsbD 3 = true ∧ 1024 ≤ tget 0 u.pair.laneMiss 3) ∧
    (let s := sMir .joined 2
     let u := { s with pair := { s.pair with latchJ0 := some 497 } }
     u.pair.latchJ0 = some 497 ∧ u.live = true ∧ u.pair.latch.isNone = true ∧ u.cn = cnAdd 497 u.hdr.rofs) ∧
    (let s := sRebase
     s.pair.rebaseJ = some 497 ∧ s.live = true ∧ s.pair.rejoin = none ∧ (s.pair.latch == some lat0) = true ∧ s.cn = cnAdd 497 s.hdr.rofs ∧
     dueOnly s 0x0804 497 rebW = true ∧ rebW.at_ = 497) ∧
    (let s := { sRebase with cn := 501 }
     s.cn = cnAdd 497 (s.hdr.rofs + 1) ∧ s.atBoundary = true) ∧
    (let s := { sRebase with pair := { sRebase.pair with rejoin := some (0, true) } }
     s.pair.rejoin ≠ none ∧ s.latchAll = false) ∧
    (let got : List Byte := List.replicate 9 0 ++ leBytes 8 1 ++ List.replicate 12 0
     let s := { sRebase with pair := { sRebase.pair with rejoin := some (0, true), xferGot := [(0, got), (1, got)] } }
     s.pair.rejoin ≠ none ∧ s.latchAll = true ∧ dueOnly s 0x0804 497 rebW = true) ∧
    (let s := withLong (sMir .probation 2) joinW
     let u := { s with pair := { s.pair with probation := 64 } }
     u.pair.st = .probation ∧ 64 ≤ u.pair.probation ∧ (u.longOf 0x0803 == some joinW) = true) := by decide +kernel

/-! ### Hypotheses met: the Chronometer, the host, the boot, power -/

theorem test_hyp_CcmdWordsAct :
    sR.run.replay = false ∧ s0.run.replay = false ∧ s0.armed = false ∧ sR.armed = true ∧
    ((0x5B : Byte) ≠ 0x00 ∧ (0x5B : Byte) ≠ 0x3C ∧ (0x5B : Byte) ≠ 0xC3 ∧ (0x5B : Byte) ≠ 0x5A) := by decide +kernel

/-- Pulse generator 7 as p, the time at 10 µs. -/
def sPulse (p : Pulse) : State := { s0 with chr := { s0.chr with c := 10000 * 65536, pulses := [(7, p)] } }
def pulse0 : Pulse := { Pulse.reset with en := true, per := 10, wid := 5, start := (0 : BitVec 128) }
/-- One second, PPS_OUT and PPS_IN enabled. -/
def sPps : State := { s0 with chr := { s0.chr with c := BitVec.ofNat 96 (1000000000 * 65536), pps := 0xC6400000 } }

theorem test_hyp_PulsesAndPps :
    (let s := sPulse pulse0
     (s.pulse 7).live = true ∧ (s.pulse 7).high = false ∧ s.chr.edgeAt (s.pulse 7) ≤ s.chr.now ∧ s.pulsesHeld = false) ∧
    ({ sPulse pulse0 with clk := { s0.clk with lrefOk := false } } : State).pulsesHeld = true ∧
    (let s := sPulse { pulse0 with high := true, endAt := 5 }
     (s.pulse 7).high = true ∧ ((s.pulse 7).endAt : Int) ≤ s.chr.free ∧ (s.pulse 7).defer = none) ∧
    (sPulse { pulse0 with high := true, endAt := 5, defer := some (1, 2, 1) }).pulse 7 ≠ (sPulse pulse0).pulse 7 ∧
    (sPps.chr.pps.getLsbD 31 = true ∧ sPps.chr.ppsLast < sPps.chr.wholeSec ∧ sPps.pulsesHeld = false ∧ sPps.chr.ppsWidth ≠ 0 ∧ sPps.chr.drove sPps.chr.wholeSec = false ∧
     sPps.chr.pps.getLsbD 30 = true) ∧
    (let s := { sPps with chr := { sPps.chr with ppsHigh := true, ppsEnd := 5 } }
     s.chr.ppsHigh = true ∧ (s.chr.ppsEnd : Int) ≤ s.chr.free) := by decide +kernel

/-- A staged step of d units in state st. -/
def sStep (d : Int) (st : ChrSt) : State := { sPps with chr := { sPps.chr with st := st, stStep := BitVec.ofInt 96 d } }
def sRate (n : Nat) : State := { sPps with chr := { sPps.chr with stInc := BitVec.ofNat 42 n } }

theorem test_hyp_ChronometerCommits :
    (sHost.answers .host = true ∧ sHost.answers .binnacle = true ∧ decide (Requester.host = .binnacle) = s0.kly.timeEn ∧ decide (Requester.binnacle = .binnacle) ≠ s0.kly.timeEn) ∧
    (let s := sStep (1000 * 65536) .locked
     let d := s.chr.stStep.toInt
     s.kly.timeEn = false ∧ s.chr.cal = false ∧ 0 ≤ s.chr.now + d ∧ s.chr.sthr ≠ 0 ∧ d.natAbs ≤ s.chr.sthr * 65536) ∧
    (let s := sStep (1000 * 65536 + 1) .locked
     s.chr.st = .locked ∧ s.chr.sthr * 65536 < s.chr.stStep.toInt.natAbs) ∧
    (let s := sRate (2 ^ 40 + 2 ^ 31)
     s.chr.cal = false ∧ 2 ^ 40 - 2 ^ 31 ≤ s.chr.stInc.toNat ∧ s.chr.stInc.toNat ≤ 2 ^ 40 + 2 ^ 31) ∧
    2 ^ 40 + 2 ^ 31 < (sRate (2 ^ 40 + 2 ^ 31 + 1)).chr.stInc.toNat ∧
    ((0x80000123 : Word).getLsbD 31 ≠ s0.chr.cal ∧ (0x12345678 : Word).getLsbD 31 = s0.chr.cal) ∧
    (let s := sPulse { pulse0 with stPer := 4, stWid := 3 }
     (s.pulse 7).stBad = false ∧ (s.pulse 7).high = false) ∧
    ((sPulse { pulse0 with stPer := 4, stWid := 3, high := true }).pulse 7).high = true ∧
    ((sPulse { pulse0 with stPer := 4, stWid := 4 }).pulse 7).stBad = true := by decide +kernel

theorem test_hyp_RegisterAccessesActAsSpecified :
    sHost.answers .host = true ∧ sHost.answers .binnacle = true ∧ sHost.chrOwner .host = true ∧ sHost.chrOwner .binnacle = false ∧
    sHost.cigOwner .host = true ∧ sHost.cigOwner .binnacle = false ∧
    (barWord 0x18 = true ∧ ((sHost.regAt 0x18).map fun p => p.1.kind == .latched) = some false) ∧
    (barWord 0x40060 = true ∧ ((sHost.regAt 0x40060).map fun p => (p.1.kind == .latched, p.2)) = some (true, 0)) ∧
    ((sHost.regAt 0x40064).map fun p => (p.1.kind == .latched, p.2)) = some (true, 1) ∧ barReq 0x40060 2 = true ∧
    ((sHost.regAt 0x40060).map fun p => decide (2 ≤ p.1.words)) = some true ∧ barReq 0xFC0 16 = true ∧ barReq 0xFC4 16 = false ∧
    (s0.answers .host = false ∧ barReq 0x18 1 = true ∧ stagedOff 0x40020 = true ∧ aliasOff 0x2C = true ∧ bitOff 0x800000 = true) := by
  decide +kernel

/-- Both events of HST_EVT stand, SEQ 9. -/
def sEvts : State := { sHost with evts := [(EvtId.hst.code, { bits := 3, seq := 9, last := [(0, 5), (1, 9)] })] }
theorem test_hyp_FlagsAliases :
    (bitOff 0xFFFFFC = true ∧ 1024 ≤ (0xFFFFFC - 0x800000) / 4 / 32) ∧ (bitOff 0x800000 = true ∧ 0 / 32 < 1024) ∧
    (bitOff (0x800000 + 4 * 1024 * 32) = true ∧ 1024 ≤ (4 * 1024 * 32) / 4 / 32) ∧ sHost.answers .host = true ∧
    (aliasOff 0x2C = true ∧ (sEvts.aliasOf 0x2C).isSome = true ∧ ((sEvts.evt .hst).seq - 9).toNat < 2 ^ 31 ∧
     2 ^ 31 ≤ ((sEvts.evt .hst).seq - 10).toNat) ∧
    (sHost.cigOwner .host = true ∧ sHost.cigOwner .binnacle = false) := by decide +kernel

/-- A word outside the CIG block does not depend on what that block holds. -/
theorem block_cig (s : State) (c : CigState) (o : Nat) (h : o < 0xC0000 ∨ 0x100000 ≤ o) :
    ({ s with cig := c } : State).block o = s.block o := by
  unfold State.block
  iterate 6 refine ite_congr rfl (fun _ => rfl) (fun _ => ?_)
  rename_i h7
  refine ite_congr rfl (fun _ => rfl) (fun h7 => ?_)
  refine ite_congr rfl (fun h8 => ?_) (fun _ => rfl)
  omega

theorem cigWord_cig (s : State) (c : CigState) (o : Nat) (ho : o < 0x600000) (h : o < 0xC0000 ∨ 0x100000 ≤ o) :
    ({ s with cig := c } : State).cigWord o = s.cigWord o := by
  unfold State.cigWord State.wordInForce State.wordAt State.regAt
  rw [block_cig s c o h, if_neg (show ¬ 0x800000 ≤ o by omega), if_neg (show ¬ 0x600000 ≤ o by omega),
    if_neg (show ¬ 0x800000 ≤ o by omega), if_neg (show ¬ 0x600000 ≤ o by omega)]
  refine ite_congr rfl (fun _ => ?_) (fun _ => rfl)
  refine ite_congr rfl (fun _ => rfl) (fun _ => ?_)
  refine ite_congr rfl (fun _ => rfl) (fun _ => ?_)
  exact ite_congr rfl (fun _ => rfl) (fun _ => rfl)

/-- Some reference differs from the pass's result. -/
theorem cigCrc_differs (s : State) (hr : s.cig.rgn = []) : ∃ r, let t : State := { s with cig := { s.cig with ref := r } }; t.cigCrc ≠ t.cig.ref := by
  have hall : (cigFixed.all fun o => decide (o < 0x600000 ∧ (o < 0xC0000 ∨ 0x100000 ≤ o))) = true := by decide +kernel
  have hc : ∀ r, ({ s with cig := { s.cig with ref := r } } : State).cigBytes = s.cigBytes := by
    intro r
    have h1 : ({ s with cig := { s.cig with ref := r } } : State).cigRegions = [] := by
      show List.flatMap _ s.cig.rgn = []
      rw [hr]
      rfl
    have h2 : s.cigRegions = [] := by
      show List.flatMap _ s.cig.rgn = []
      rw [hr]
      rfl
    unfold State.cigBytes
    rw [h1, h2, List.append_nil]
    unfold List.flatMap
    refine congrArg List.flatten (List.map_congr_left fun o ho => ?_)
    have hm := of_decide_eq_true (List.all_eq_true.mp hall o ho)
    rw [cigWord_cig s _ o hm.1 hm.2]
  by_cases h : s.cigCrc = 0
  · refine ⟨1, fun h1 => ?_⟩
    unfold State.cigCrc at h h1
    rw [hc 1, h] at h1
    exact absurd h1 (show ¬(0 : Word) = 1 by decide)
  · refine ⟨0, fun h1 => h ?_⟩
    unfold State.cigCrc at h1 ⊢
    rw [hc 0] at h1
    exact h1

/-- The engine on, with reference ref. -/
def sCig (learn stale : Bool) (ref : Word) : State :=
  { sR with cig := { sR.cig with en := true, learn := learn, learning := learn, stale := stale, ref := ref, take := true } }

theorem test_hyp_cig_compare :
    ∃ r, let s := sCig false false r
      s.cig.en = true ∧ s.cig.learn = false ∧ s.cig.stale = false ∧ s.cigCrc ≠ s.cig.ref ∧ s.cig.take = true ∧ s.armed = true ∧
      s.paired = false := by
  obtain ⟨r, h⟩ := cigCrc_differs (sCig false false 0) rfl
  have hp : sR.paired = false := by decide +kernel
  exact ⟨r, rfl, rfl, rfl, h, rfl, rfl, hp⟩

theorem test_hyp_FlagsIntegrity :
    ((sCig true true 0).cig.en = true ∧ (sCig true true 0).cig.learning = true) ∧
    (sCig false true 0).cig.stale = true ∧
    ({ sR with clk := { sR.clk with gate := 0x3FFFFFFF } } : State).gateRefused 0 ≠ [] := by decide +kernel

def sMem : State := { sHost with mem := [(100, 7), (101, 9), (127, 3)] }

theorem test_hyp_Bar4ReadsAndWrites :
    (bar4Ok 100 28 = true ∧ sMem.answers .host = true ∧ sMem.viaSlots = false ∧ sMem.bar4Addr 100 % 32 + 28 ≤ 32 ∧ sMem.memOn (sMem.bar4Addr 100) = true ∧
     sMem.inLibrary (sMem.bar4Addr 100) = false ∧ (sMem.readLine (lineOf (sMem.bar4Addr 100)) 0).data.isSome = true ∧
     (sMem.readLine (lineOf (sMem.bar4Addr 100)) 0x1FFFF).data.isNone = true) ∧
    (bar4Ok 90 70 = true ∧ sVia.answers .host = true ∧ sVia.viaSlots = true) ∧
    (bar4Ok 90 70 = true ∧ ((pieces (sMem.bar4Addr 90) 70).all fun p => sMem.memOn p.addr && !sMem.wprot p.addr) = true) ∧
    (let s := { sMem with host := { sMem.host with wbase := 240 } }
     bar4Ok (2 ^ 34 - 3) 3 = true ∧ ((pieces (s.bar4Addr (2 ^ 34 - 3)) 3).any fun p => s.wprot p.addr) = true) := by decide +kernel

/-- Powered, the oscillator's delay running, or the crystal good and the boot ready. -/
def sPowered : State :=
  { State.reset with boot := { BootState.reset with powered := true }, clk := { ClkState.reset with oscRun := true } }
def sBoots (signed : Bool) : State :=
  { sPowered with
    clk := { ClkState.reset with xtalOk := true, ben := 0b10001 }
    boot := { sPowered.boot with root0 := sha384 vendKey, flash := if signed then signedFlash sPowered.boot.flash else sPowered.boot.flash } }
def sSigned : State := sBoots true

/-- The boot runs to its end and finds the device owned (18 R485, R486, R491). -/
theorem test_boot_completes :
    (match exec (.bootRomStart none []) sSigned with
     | .next t => !t.boot.stopped && t.kly.up && t.boot.owned && t.boot.ksel == 1 && t.host.idFw == 5
     | _ => false) = true := by decide +kernel
/-- The hottest sensor at k degrees. -/
def hot (k : Int) : List Int := List.replicate 20 40 ++ [k]
def sPwr (st : BitVec 2) (b : PwrBusy) : State := { s0 with pwr := { s0.pwr with busy := b, sst := st } }
/-- A manifest of body stands in flash and runs from byte 0. -/
def sManifest (body : List Byte) : State :=
  { s0 with
    kly := { s0.kly with manPos := some 0, cfg := { s0.kly.cfg with manOff := 0, manLen := body.length, standalone := true } }
    boot := { s0.boot with
      flash := { s0.boot.flash with
        dir := dirOf [7]
        regions := [(7, [1, 0, 0, 0, 0, 0, 0, 0, 0, 0, 0, 0] ++ leBytes 4 body.length ++ List.replicate 176 0 ++ body ++ List.replicate 96 0)] } } }
def manRec (op : Nat) : List Byte :=
  leBytes 4 9 ++ leBytes 2 op ++ leBytes 2 8 ++ List.replicate 56 0 ++ leBytes 8 1 ++ List.replicate 56 0

theorem test_hyp_EndpointResetsAndBoots :
    (let s := { s0 with boot := { s0.boot with stopped := true, link := false } }
     s.boot.stopped = true ∧ s.boot.link = false) ∧
    (s0.boot.stopped = false ∧ s0.host.idLoaded = false ∧ sHost.host.idLoaded = true ∧ (cfgFind 4).isSome = true ∧ (cfgFind 1023).isNone = true ∧
     sHost.host.cfgw.isEmpty = true ∧ sHost.host.d3 = false ∧ (0x8003 : Word).getLsbD 15 = true ∧ (0x8003 : Word).extractLsb' 0 2 = 3 ∧
     (0x8004 : Word).extractLsb' 0 2 = 0) ∧
    State.reset.boot.powered = false ∧ (sPowered.boot.powered = true ∧ sPowered.clk.oscRun = true) ∧
    ((sBoots true).bootReady = true ∧ (sBoots true).mbx.isEmpty = true ∧ (sBoots false).bootReady = true ∧
     dirOk (sBoots false).boot.flash.dir = false ∧ sSigned.bootReady = true ∧ dirOk sSigned.boot.flash.dir = true ∧ sSigned.vendorRegion 1 = true) ∧
    (let s := { s0 with kly := { s0.kly with up := false } }
     s.rebootDue = true ∧ s.mbx.isEmpty = true) ∧
    ((sPwr 3 .wake).bootReady = false ∧ (sPwr 3 .wake).cooled = false ∧ ((sPwr 3 .wake).pwr.busy == .wake) = true ∧ (sPwr 3 .wake).pwr.sst = 3) ∧
    (let s := { s0 with pkg := { s0.pkg with cool := true, temps := hot 84 } }
     s.bootReady = false ∧ s.cooled = true) ∧
    (sR.kly.up = true ∧ sR.armed = true ∧ sR.paired = false) := by decide +kernel

theorem test_hyp_manifest :
    (let s := sManifest []
     s.kly.up = true ∧ s.kly.manPos = some 0 ∧ s.manifest.length ≤ 0) ∧
    (let s := sManifest (manRec 0xFFFF)
     0 < s.manifest.length ∧ s.inWork 254 = false ∧ (s.manifestBad (manifestReq s.manifest 0)).isSome = true) ∧
    (let s := sManifest (manRec 0x0A08)
     0 < s.manifest.length ∧ (s.manifestBad (manifestReq s.manifest 0)).isNone = true ∧ 64 ≤ s.manifest.length ∧
     s.manifest.length ≤ 0 + recordLen (manifestReq s.manifest 0)) := by decide +kernel

def sleepW : Waiting := { mkW 0xB01 (leBytes 8 1) 0 with long := true }
def eyeW : Waiting := { mkW 0xA04 (leBytes 8 63 ++ leBytes 8 16 ++ leBytes 8 0 ++ leBytes 8 4096) 0 with long := true }

theorem test_hyp_ClocksPowerAndHeat :
    (sR.clk.mclkOk = true ∧ sR.clk.lrefOk = true ∧ sR.clk.xtalOk = true ∧ State.reset.clk.lrefOk = false ∧
     (sPair .joined).armed = true ∧ (sPair .joined).paired = true ∧ (sPair .joined).clk.mclkOk = true) ∧
    ((({ s0 with clk := { s0.clk with safe := true, wait := [.mclk] } } : State).clk.wait == [.mclk]) = true ∧ mclkInWindow 2940000 = true ∧
     mclkInWindow 6120000 = true ∧ mclkInWindow 6120001 = false) ∧
    (let s := withLong (sPwr 0 (.sleep 3 (some sleepW))) sleepW
     (s.pwr.busy == .sleep 3 (some sleepW)) = true ∧ s.clk.wait.isEmpty = true ∧ s.pwr.wakeReq = false) ∧
    (sHost.answers .host = true ∧ ((sPwr 1 .none).pwr.busy == .none) = true ∧ (sPwr 3 .wake).clk.wait.isEmpty = true ∧ (sPwr 1 .none).pwr.sst ≠ 0 ∧ ((sPwr 3 .wake).pwr.busy == .wake) = true) ∧
    (let s := withLong (sPwr 0 (.level 2 (some sleepW))) sleepW
     (s.pwr.busy == .level 2 (some sleepW)) = true ∧ s.clk.wait.isEmpty = true) ∧
    (sHost.pwr.railok.getLsbD (railBit 12) = true ∧ sHost.periph 2 = true ∧ offTarget 65535 (sHost.railTarget 12) = true ∧
     offTarget (sHost.railTarget 12) (sHost.railTarget 12) = false) ∧
    ((hot 104).length = 21 ∧ (∀ x ∈ hot 104, x < 105) ∧ sR.pkg.emerg = false ∧ (∃ x ∈ hot 105, 105 ≤ x) ∧ (∀ x ∈ hot 114, x < 115) ∧
     (∃ x ∈ hot 114, 105 ≤ x) ∧ (∃ x ∈ hot 115, 115 ≤ x) ∧ sR.armed = true ∧ sR.paired = false ∧ s0.armed = false ∧ s0.kly.up = true ∧
     s0.pkg.cool = false) ∧
    ({ s0 with pkg := { s0.pkg with emerg := true, cool := true, temps := hot 84 } } : State).cooled = true ∧
    (let s := withLong s0 eyeW
     ((s.kly.longs.find? fun w => w.req.op.toNat == 0x0A04 && w.req.opd 0 == BitVec.ofNat 64 63) == some eyeW) = true) := by decide +kernel

end Sys2Proof.Tests
end

section
/-! PROOFS. Which of the memories, CN, the time, the flag space and configuration flash an operation keeps: one lemma per operation of the model, in the
model's order, each from the lemmas of the operations it calls. A scope says which of the five an operation may write; a lemma without a hypothesis on the
scope says that its operation writes none of them. -/

namespace Sys2Proof.Machine

/-- A fold keeps what each of its steps keeps. -/
theorem foldl_same {α β γ : Type} (g : β → γ) (f : β → α → β) (h : ∀ b a, g (f b a) = g b) (l : List α) (b : β) : g (l.foldl f b) = g b :=
  List.foldlRecOn (motive := fun c => g c = g b) l f rfl fun c hc a _ => (h c a).trans hc

/-- The parts of the device state that an operation may write. -/
structure Scope where
  memory : Bool
  count  : Bool
  time   : Bool
  flags  : Bool
  flash  : Bool

/-- What an operation of a scope keeps: the queue of commands, and each part outside its scope. -/
structure Kept where
  pending : List Instr
  memory  : Option (Tbl Byte × Tbl Byte)
  count   : Option CN
  time    : Option (Word × BitVec 96 × Int × BitVec 96 × Dword × Nat × BitVec 40 × BitVec 42 × Int)
  flags   : Option (Tbl Word)
  flash   : Option Flash

/-- The same of the fields themselves. The time is given by those fields of the chronometer from which now, free and inc are read. -/
def keptOf (σ : Scope) (pending : List Instr) (mem sram : Tbl Byte) (cn : CN) (cfg : Word) (c : BitVec 96) (ofs : Int) (a : BitVec 96)
    (sec : Dword) (ns : Nat) (sub : BitVec 40) (inc : BitVec 42) (steps : Int) (flags : Tbl Word) (flash : Flash) : Kept :=
  { pending := pending
    memory := if σ.memory then none else some (mem, sram)
    count := if σ.count then none else some cn
    time := if σ.time then none else some (cfg, c, ofs, a, sec, ns, sub, inc, steps)
    flags := if σ.flags then none else some flags
    flash := if σ.flash then none else some flash }

def State.kept (σ : Scope) (s : State) : Kept :=
  keptOf σ s.pending s.mem s.sram s.cn s.chr.cfg s.chr.c s.chr.ofs s.chr.a s.chr.sec s.chr.ns s.chr.sub s.chr.inc s.chr.steps s.flags
    s.boot.flash

section
variable {σ : Scope}

/-! The two rules that carry a record update through `kept`: a write to any other field vanishes. They are proved by `(rfl)`, not `rfl`, so that
simp takes them as rewriting steps and the kernel never compares two states by unfolding them. -/

@[simp] theorem State.kept_mk (pending freeCtr cn tick dev clk pwr boot pkg host cig evts ctrs flags mbx jnl kly log run planes arr wgm alm chan
    cap mem sram lanes sext hub out pair chr) :
    State.kept σ (State.mk pending freeCtr cn tick dev clk pwr boot pkg host cig evts ctrs flags mbx jnl kly log run planes arr wgm alm chan cap
      mem sram lanes sext hub out pair chr) =
    keptOf σ pending mem sram cn chr.cfg chr.c chr.ofs chr.a chr.sec chr.ns chr.sub chr.inc chr.steps flags boot.flash := (rfl)

@[simp] theorem State.keptOf_fold (s : State) :
    keptOf σ s.pending s.mem s.sram s.cn s.chr.cfg s.chr.c s.chr.ofs s.chr.a s.chr.sec s.chr.ns s.chr.sub s.chr.inc s.chr.steps s.flags
      s.boot.flash = s.kept σ := (rfl)

theorem State.keptOf_memory (h : σ.memory = true) (s : State) (m r : Tbl Byte) :
    keptOf σ s.pending m r s.cn s.chr.cfg s.chr.c s.chr.ofs s.chr.a s.chr.sec s.chr.ns s.chr.sub s.chr.inc s.chr.steps s.flags
      s.boot.flash = s.kept σ := by
  simp [State.kept, keptOf, h]

theorem State.keptOf_count (h : σ.count = true) (s : State) (n : CN) :
    keptOf σ s.pending s.mem s.sram n s.chr.cfg s.chr.c s.chr.ofs s.chr.a s.chr.sec s.chr.ns s.chr.sub s.chr.inc s.chr.steps s.flags
      s.boot.flash = s.kept σ := by
  simp [State.kept, keptOf, h]

theorem State.keptOf_time (h : σ.time = true) (s : State) (cfg c ofs a sec ns sub inc steps) :
    keptOf σ s.pending s.mem s.sram s.cn cfg c ofs a sec ns sub inc steps s.flags s.boot.flash = s.kept σ := by
  simp [State.kept, keptOf, h]

theorem State.keptOf_flags (h : σ.flags = true) (s : State) (f : Tbl Word) :
    keptOf σ s.pending s.mem s.sram s.cn s.chr.cfg s.chr.c s.chr.ofs s.chr.a s.chr.sec s.chr.ns s.chr.sub s.chr.inc s.chr.steps f
      s.boot.flash = s.kept σ := by
  simp [State.kept, keptOf, h]

theorem State.keptOf_flash (h : σ.flash = true) (s : State) (f : Flash) :
    keptOf σ s.pending s.mem s.sram s.cn s.chr.cfg s.chr.c s.chr.ofs s.chr.a s.chr.sec s.chr.ns s.chr.sub s.chr.inc s.chr.steps s.flags
      f = s.kept σ := by
  simp [State.kept, keptOf, h]

@[simp] theorem State.kept_ite (c : Prop) [Decidable c] (s t : State) :
    State.kept σ (if c then s else t) = if c then s.kept σ else t.kept σ := by
  split <;> rfl

/-- A fold whose every step keeps the state that it carries keeps it. -/
theorem foldl_kept_of {α β : Type} (g : β → State) (f : β → α → β) (h : ∀ b a, (g (f b a)).kept σ = (g b).kept σ) (l : List α) (b : β) :
    (g (l.foldl f b)).kept σ = (g b).kept σ :=
  foldl_same (fun b => (g b).kept σ) f h l b

@[simp] theorem foldl_kept {α : Type} (f : State → α → State) (h : ∀ s a, (f s a).kept σ = s.kept σ) (l : List α) (s : State) :
    (l.foldl f s).kept σ = s.kept σ :=
  foldl_kept_of id f h l s

/-- The outcome is a next state that keeps what the scope says. -/
def Keeps (σ : Scope) (s : State) (o : Out) : Prop := GoesTo o fun t => t.kept σ = s.kept σ

@[simp] theorem keeps_next (s t : State) : Keeps σ s (.next t) ↔ t.kept σ = s.kept σ := by
  constructor
  · rintro ⟨u, h, hu⟩
    cases h
    exact hu
  · exact fun h => ⟨t, rfl, h⟩

@[simp] theorem keeps_ite {s : State} (c : Prop) [Decidable c] (a b : Out) :
    Keeps σ s (if c then a else b) ↔ (c → Keeps σ s a) ∧ (¬c → Keeps σ s b) := by
  split <;> simp_all

/-- The owning chapter's answer to a command keeps what the scope says. (Inductive, so that no unification unfolds an owner's checks.) -/
inductive KAns.Keeps (σ : Scope) (s : State) : KAns → Prop
  | refuse (f : Refuse) : Keeps σ s (.refuse f)
  | now {t : State} (d : Dword) (l : List Byte) : t.kept σ = s.kept σ → Keeps σ s (.now t d l)
  | long {t : State} : t.kept σ = s.kept σ → Keeps σ s (.long t)

@[simp] theorem KAns.keeps_refuse (s : State) (f : Refuse) : (KAns.refuse f).Keeps σ s := .refuse f

@[simp] theorem KAns.keeps_now (s t : State) (d : Dword) (l : List Byte) : (KAns.now t d l).Keeps σ s ↔ t.kept σ = s.kept σ :=
  ⟨fun h => by cases h; assumption, .now d l⟩

@[simp] theorem KAns.keeps_long (s t : State) : (KAns.long t).Keeps σ s ↔ t.kept σ = s.kept σ :=
  ⟨fun h => by cases h; assumption, .long⟩

@[simp] theorem KAns.keeps_ite {s : State} (c : Prop) [Decidable c] (a b : KAns) :
    (if c then a else b).Keeps σ s ↔ (c → a.Keeps σ s) ∧ (¬c → b.Keeps σ s) := by
  split <;> simp_all

/-- The command keeps what the scope says, where it is accepted and where it takes effect. -/
def KCmd.Keeps (σ : Scope) (c : KCmd) : Prop := ∀ s w, (c.own s w).Keeps σ s ∧ (c.act s w).kept σ = s.kept σ

end

section
variable {σ : Scope} (s : State)

/-! ### Registers, events, counters and cells -/

@[simp] theorem State.bumpFree_kept : s.bumpFree.kept σ = s.kept σ := by simp [State.bumpFree]
@[simp] theorem State.signal_kept (v : Nat) : (s.signal v).kept σ = s.kept σ := by simp [State.signal]
@[simp] theorem State.raise_kept (i : EvtId) (m : Word) : (s.raise i m).kept σ = s.kept σ := by simp [State.raise]
@[simp] theorem State.raiseBit_kept (i : EvtId) (b : Nat) : (s.raiseBit i b).kept σ = s.kept σ := by simp [State.raiseBit]
@[simp] theorem State.clearAlias_kept (i : EvtId) (q : Word) : (s.clearAlias i q).kept σ = s.kept σ := by simp [State.clearAlias]
@[simp] theorem State.count_kept (i : CtrId) (k : Nat) : (s.count i k).kept σ = s.kept σ := by simp [State.count]
@[simp] theorem State.clearCtr_kept (i : CtrId) : (s.clearCtr i).kept σ = s.kept σ := by simp [State.clearCtr]
@[simp] theorem State.setCell_kept (k : Nat) (c : Cell) : (s.setCell k c).kept σ = s.kept σ := by simp [State.setCell]
@[simp] theorem State.setLane_kept (l : Nat) (x : Lane) : (s.setLane l x).kept σ = s.kept σ := by simp [State.setLane]
@[simp] theorem State.setSext_kept (l : Nat) (x : Sext) : (s.setSext l x).kept σ = s.kept σ := by simp [State.setSext]
@[simp] theorem State.setHub_kept (l : Nat) (x : HubLane) : (s.setHub l x).kept σ = s.kept σ := by simp [State.setHub]
@[simp] theorem State.setCtx_kept (x : Nat) (c : Ctx) : (s.setCtx x c).kept σ = s.kept σ := by simp [State.setCtx]
@[simp] theorem State.setTensor_kept (k : Nat) (t : Tensor) : (s.setTensor k t).kept σ = s.kept σ := by simp [State.setTensor]
@[simp] theorem State.setMbx_kept (m : Nat) (x : Mbx) : (s.setMbx m x).kept σ = s.kept σ := by simp [State.setMbx]
@[simp] theorem State.setTab_kept (t : Nat) (x : AlmTab) : (s.setTab t x).kept σ = s.kept σ := by simp [State.setTab]
@[simp] theorem State.setBeacon_kept (b : Nat) (x : Beacon) : (s.setBeacon b x).kept σ = s.kept σ := by simp [State.setBeacon]
@[simp] theorem State.flagWindow_kept (b : BitVec 13) : (s.flagWindow b).kept σ = s.kept σ := by simp [State.flagWindow]

/-! ### Klowyn and its mailboxes -/

@[simp] theorem State.post_kept (m : Nat) (e : RingEntry) : (s.post m e).kept σ = s.kept σ := by simp [State.post]

@[simp] theorem State.drainHeld_kept (m n : Nat) : (s.drainHeld m n).kept σ = s.kept σ := by
  induction n generalizing s with
  | zero => rfl
  | succ k ih =>
    unfold State.drainHeld
    split
    · rfl
    · split <;> simp [ih]

@[simp] theorem State.consWrite_kept (m : Nat) (i : BitVec 6) : (s.consWrite m i).kept σ = s.kept σ := by simp [State.consWrite]
@[simp] theorem State.jAdd_kept (e : JEnt) : (s.jAdd e).kept σ = s.kept σ := by simp [State.jAdd]

@[simp] theorem State.jEnd_kept (q : Nat) (st : JSt) (status : BitVec 16) (result : Dword) :
    (s.jEnd q st status result).kept σ = s.kept σ := by
  simp [State.jEnd]

@[simp] theorem State.unbusy_kept (m : Nat) : (s.unbusy m).kept σ = s.kept σ := by simp [State.unbusy]
@[simp] theorem State.setBuf_kept (m : Nat) (l : List Byte) : (s.setBuf m l).kept σ = s.kept σ := by simp [State.setBuf]
@[simp] theorem State.refuse_kept (m : Nat) (r : KReq) (f : Refuse) : (s.refuse m r f).kept σ = s.kept σ := by simp [State.refuse]

@[simp] theorem State.complete_kept (m : Nat) (r : KReq) (q : Nat) (cnAcc : CN) (result : Dword) (buf : List Byte) :
    (s.complete m r q cnAcc result buf).kept σ = s.kept σ := by
  simp [State.complete]

@[simp] theorem State.abortLong_kept (w : Waiting) (f : Refuse) : (s.abortLong w f).kept σ = s.kept σ := by simp [State.abortLong]

@[simp] theorem State.endLong_kept (w : Waiting) (result : Dword) (buf : List Byte) : (s.endLong w result buf).kept σ = s.kept σ := by
  simp [State.endLong]

@[simp] theorem State.jEffect_kept (q : Nat) (cnEff : CN) : (s.jEffect q cnEff).kept σ = s.kept σ := by simp [State.jEffect]

@[simp] theorem State.effectNotice_kept (w : Waiting) (cnEff : CN) : (s.effectNotice w cnEff).kept σ = s.kept σ := by
  simp [State.effectNotice]

@[simp] theorem State.voidNotice_kept (w : Waiting) (st : JSt) (status : Nat) : (s.voidNotice w st status).kept σ = s.kept σ := by
  simp [State.voidNotice]

@[simp] theorem State.dropWaiting_kept (q : Nat) : (s.dropWaiting q).kept σ = s.kept σ := by simp [State.dropWaiting]
@[simp] theorem State.dropLong_kept (w : Waiting) : (s.dropLong w).kept σ = s.kept σ := by simp [State.dropLong]
@[simp] theorem State.sideQueue_kept (l : Nat) (p : Pkt) : (s.sideQueue l p).kept σ = s.kept σ := by simp [State.sideQueue]

@[simp] theorem State.healthAdd_kept (kind src : Nat) (regs : List Byte) : (s.healthAdd kind src regs).kept σ = s.kept σ := by
  unfold State.healthAdd
  simp only
  split <;> simp

@[simp] theorem State.breakLog_kept : s.breakLog.kept σ = s.kept σ := by simp [State.breakLog]
@[simp] theorem State.logEvent_kept (e : LogEvt) : (s.logEvent e).kept σ = s.kept σ := by simp [State.logEvent]
@[simp] theorem State.logLoss_kept (e : LogEvt) : (s.logLoss e).kept σ = s.kept σ := by simp [State.logLoss]
@[simp] theorem State.drainLosses_kept : s.drainLosses.kept σ = s.kept σ := by simp [State.drainLosses]

@[simp] theorem State.flushCrossing_kept (reset peer n : Nat) : (s.flushCrossing reset peer n).kept σ = s.kept σ := by
  simp [State.flushCrossing]

@[simp] theorem State.peerReset_kept (reset peer : Nat) : (s.peerReset reset peer).kept σ = s.kept σ := by simp [State.peerReset]
@[simp] theorem State.coverChange_kept (learn : Bool) : (s.coverChange learn).kept σ = s.kept σ := by simp [State.coverChange]
@[simp] theorem State.covered_kept (s old : State) (learn : Bool) : (s.covered old learn).kept σ = s.kept σ := by simp [State.covered]
@[simp] theorem State.histoTake_kept (target : Nat) (mag : Nat) : (s.histoTake target mag).kept σ = s.kept σ := by simp [State.histoTake]
@[simp] theorem State.fault_kept (cause : BitVec 8) (src : Nat) : (s.fault cause src).kept σ = s.kept σ := by simp [State.fault]
@[simp] theorem State.driveEdge_kept (e extra : Nat) (t : Token) : (s.driveEdge e extra t).kept σ = s.kept σ := by simp [State.driveEdge]

/-! ### Issues of cells -/

@[simp] theorem State.wgmReport_kept (k mag : Nat) : (s.wgmReport k mag).kept σ = s.kept σ := by simp [State.wgmReport]
@[simp] theorem State.wgmSat_kept (k : Nat) : (s.wgmSat k).kept σ = s.kept σ := by simp [State.wgmSat]

@[simp] theorem State.reportAll_kept (x y : Nat) (c : Cell) (e : MInstr) (o : Option OpOut) :
    (s.reportAll x y c e o).kept σ = s.kept σ := by
  unfold State.reportAll
  split <;> simp

@[simp] theorem State.send_kept (x y : Nat) (l : List (Nat × Token)) : (s.send x y l).kept σ = s.kept σ := by simp [State.send]
@[simp] theorem State.noteUnf_kept (x y : Nat) (c : Cell) (e : MInstr) : (s.noteUnf x y c e).kept σ = s.kept σ := by simp [State.noteUnf]

@[simp] theorem issueEffect_kept (x y : Nat) (c : Cell) (e : MInstr) (op : OpIn → OpOut) :
    (issueEffect s x y c e op).kept σ = s.kept σ := by
  simp [issueEffect]

@[simp] theorem issueOp_keeps (opc : Nat) (op : OpIn → OpOut) (x y : Nat) (h : s.hasCell x y = true) :
    Keeps σ s (issueOp opc op x y s) := by
  unfold issueOp
  rw [if_pos h]
  split <;> simp

/-! ### Clock lines and their edges -/

@[simp] theorem State.writeLine_kept (r : LineRef) (d : List Byte) (hm : σ.memory = true) : (s.writeLine r d).kept σ = s.kept σ := by
  cases r <;> simp [State.writeLine, State.keptOf_memory hm]

@[simp] theorem State.freeBytes_kept (n : Nat) : (s.freeBytes n).2.kept σ = s.kept σ := by simp [State.freeBytes]
@[simp] theorem State.gives_kept (l : List Byte) : (s.gives l).kept σ = s.kept σ := by simp [State.gives]

@[simp] theorem State.readPiece_kept (p : Piece) (noise : BitVec 288) : (s.readPiece p noise).kept σ = s.kept σ := by
  unfold State.readPiece
  split <;> (try split) <;> simp

@[simp] theorem State.putPiece_kept (p : Piece) (l : List Byte) (keepOut : Bool) (hm : σ.memory = true) :
    (s.putPiece p l keepOut).kept σ = s.kept σ := by
  simp [State.putPiece, State.keptOf_memory hm]

@[simp] theorem State.tellBursts_kept (b : HostBurst) : (s.tellBursts b).kept σ = s.kept σ := by simp [State.tellBursts]
@[simp] theorem State.readBurst_kept (b : HostBurst) : (s.readBurst b).kept σ = s.kept σ := by simp [State.readBurst]

@[simp] theorem State.writeHost_kept (b : HostBurst) (keepOut : Bool) (hm : σ.memory = true) :
    (s.writeHost b keepOut).kept σ = s.kept σ := by
  simp [State.writeHost, hm]

@[simp] theorem State.carryBurst_kept (b : HostBurst) (keepOut : Bool) (hm : σ.memory = true) :
    (s.carryBurst b keepOut).kept σ = s.kept σ := by
  simp [State.carryBurst, hm]

@[simp] theorem State.drainHost_kept (hm : σ.memory = true) : s.drainHost.kept σ = s.kept σ := by simp [State.drainHost, hm]

@[simp] theorem State.writeBurst_kept (w : WBurst) (hm : σ.memory = true) : (s.writeBurst w).kept σ = s.kept σ := by
  unfold State.writeBurst
  split <;> simp [hm]

@[simp] theorem State.rewriteLine_kept (w : WBurst) (hm : σ.memory = true) : (s.rewriteLine w).kept σ = s.kept σ := by
  unfold State.rewriteLine
  split <;> (try split) <;> simp [hm]

@[simp] theorem State.rewriteFixed_kept (tid : Nat) (face : Bool) (hm : σ.memory = true) : (s.rewriteFixed tid face).kept σ = s.kept σ := by
  simp [State.rewriteFixed, hm]

@[simp] theorem State.rewriteAll_kept (hm : σ.memory = true) : s.rewriteAll.kept σ = s.kept σ := by simp [State.rewriteAll, hm]

@[simp] theorem State.queueCatchUp_kept (tid : Nat) (hm : σ.memory = true) : (s.queueCatchUp tid).kept σ = s.kept σ := by
  simp [State.queueCatchUp, hm]

/-! ### The end of a run -/

@[simp] theorem State.voidWaiting_kept : s.voidWaiting.kept σ = s.kept σ := by simp [State.voidWaiting]
@[simp] theorem State.settleSwaps_kept (hm : σ.memory = true) : s.settleSwaps.kept σ = s.kept σ := by simp [State.settleSwaps, hm]
@[simp] theorem State.quietArray_kept : s.quietArray.kept σ = s.kept σ := by simp [State.quietArray]

@[simp] theorem State.stopRun_kept (why : StopReason) (hm : σ.memory = true) : (s.stopRun why).kept σ = s.kept σ := by
  simp [State.stopRun, hm]

/-! ### What accepting, running and waking commands share -/

@[simp] theorem State.setMtx_kept (i : Nat) (t : MTx) : (s.setMtx i t).kept σ = s.kept σ := by simp [State.setMtx]
@[simp] theorem State.sendCmd_kept (p : List Byte) : (s.sendCmd p).kept σ = s.kept σ := by simp [State.sendCmd]

@[simp] theorem State.mirror_kept (w : Waiting) (result : Dword) (buf : List Byte) : (s.mirror w result buf).kept σ = s.kept σ := by
  simp [State.mirror]

@[simp] theorem kFinish_kept (c : CmdSpec) (w : Waiting) (result : Dword) (buf : List Byte) :
    (kFinish c s w result buf).kept σ = s.kept σ := by
  simp [kFinish]

@[simp] theorem State.await_kept (w : Waiting) : (s.await w).kept σ = s.kept σ := by simp [State.await]
@[simp] theorem State.awaitLong_kept (w : Waiting) : (s.awaitLong w).kept σ = s.kept σ := by simp [State.awaitLong]

@[simp] theorem kRun_kept (c : KCmd) (m : Nat) (r : KReq) (hc : c.Keeps σ) : (kRun c m r s).kept σ = s.kept σ := by
  have ha : ∀ t w, (c.act t w).kept σ = t.kept σ := fun t w => (hc t w).2
  unfold kRun
  split
  · simp
  · simp only
    split
    · simp
    case h_2 s1 ho =>
      have h1 : (KAns.long s1).Keeps σ _ := ho ▸ (hc _ _).1
      simp at h1
      simp [h1]
    case h_3 s1 d l ho =>
      have h1 : (KAns.now s1 d l).Keeps σ _ := ho ▸ (hc _ _).1
      simp at h1
      simp [h1, ha]

theorem kSubmit_keeps_of_run {c : KCmd} {r : KReq} (hm : r.hdr.mbx < 16) (hc : ∀ u : State, (kRun c r.hdr.mbx r u).kept σ = u.kept σ) :
    Keeps σ s (kSubmit c r s) := by
  unfold kSubmit
  simp [hm, hc]

theorem kSubmit_keeps {c : KCmd} {r : KReq} (hm : r.hdr.mbx < 16) (hc : c.Keeps σ) : Keeps σ s (kSubmit c r s) :=
  kSubmit_keeps_of_run s hm fun u => kRun_kept u c _ r hc

@[simp] theorem State.applyDue_kept (c : KCmd) (t e : CN) (hc : c.Keeps σ) : (s.applyDue c t e).kept σ = s.kept σ := by
  have ha : ∀ t w, (c.act t w).kept σ = t.kept σ := fun t w => (hc t w).2
  simp [State.applyDue, ha]

@[simp] theorem State.applyGroup_kept (cs : List KCmd) (op : Nat) (t e : CN) (hc : ∀ c ∈ cs, c.Keeps σ) :
    (s.applyGroup cs op t e).kept σ = s.kept σ := by
  unfold State.applyGroup
  refine foldl_kept _ (fun u w => ?_) _ _
  split
  · rename_i c hf
    simp [(hc c (List.mem_of_find?_eq_some hf) _ _).2]
  · rfl

@[simp] theorem noAct_kept (w : Waiting) : (noAct s w).kept σ = s.kept σ := by simp [noAct]

/-! ### The Weighmaster -/

@[simp] theorem State.deriveTensor_kept (g : List Tensor) (k : Nat) (c : CN) : (s.deriveTensor g k c).kept σ = s.kept σ := by
  simp [State.deriveTensor]

@[simp] theorem State.deriveCtx_kept (e : Nat × Nat × Bool) : (s.deriveCtx e).kept σ = s.kept σ := by simp [State.deriveCtx]
@[simp] theorem State.deriveAll_kept : s.deriveAll.kept σ = s.kept σ := by simp [State.deriveAll]
@[simp] theorem State.histoTensor_kept (c : CN) : (s.histoTensor c).kept σ = s.kept σ := by simp [State.histoTensor]
@[simp] theorem State.takeLatches_kept : s.takeLatches.kept σ = s.kept σ := by simp [State.takeLatches]
@[simp] theorem execWgmDerivation_keeps : Keeps σ s (execWgmDerivation s) := by simp [execWgmDerivation]
@[simp] theorem State.pushScale_kept (k : Nat) : (s.pushScale k).kept σ = s.kept σ := by simp [State.pushScale]

@[simp] theorem State.applyScale_kept (k : Nat) : (s.applyScale k).kept σ = s.kept σ := by
  unfold State.applyScale
  simp only
  split <;> simp

@[simp] theorem execScaleApply_keeps : Keeps σ s (execScaleApply s) := by simp [execScaleApply]

@[simp] theorem State.commitTensor_kept (clear : Bool) (e : WgmEnt) : (State.commitTensor clear s e).kept σ = s.kept σ := by
  simp [State.commitTensor]

@[simp] theorem ownWgmcommit_keeps (w : Waiting) : (ownWgmcommit s w).Keeps σ s := by
  unfold ownWgmcommit
  split <;> simp

@[simp] theorem actWgmcommit_kept (w : Waiting) : (actWgmcommit s w).kept σ = s.kept σ := by simp [actWgmcommit]

@[simp] theorem cmdWgmcommit_keeps : KCmd.Keeps σ cmdWgmcommit := fun s w => by
  simp [cmdWgmcommit]

@[simp] theorem State.pushAllScales_kept : s.pushAllScales.kept σ = s.kept σ := by simp [State.pushAllScales]
@[simp] theorem State.restoreTensor_kept (l : TensorLatch) : (s.restoreTensor l).kept σ = s.kept σ := by simp [State.restoreTensor]

@[simp] theorem State.sendFrame_kept (l : Nat) (num : CN) (blocks : List Dword) : (s.sendFrame l num blocks).kept σ = s.kept σ := by
  simp [State.sendFrame]

/-! ### The array -/

@[simp] theorem State.forwardWp_kept (x y : Nat) (c : Cell) (t : Token) : (s.forwardWp x y c t).kept σ = s.kept σ := by
  simp [State.forwardWp]

@[simp] theorem State.wpArrive_kept (x y : Nat) : (s.wpArrive x y).kept σ = s.kept σ := by simp [State.wpArrive]

@[simp] theorem execWaypointArrival_keeps (x y : Nat) (h : s.hasCell x y = true) : Keeps σ s (execWaypointArrival x y s) := by
  unfold execWaypointArrival
  rw [if_pos h]
  simp

@[simp] theorem execSeam_keeps (x y : Nat) (h : s.hasCell x y = true) : Keeps σ s (execSeam x y s) := by
  unfold execSeam
  rw [if_pos h]
  simp

/-! ### The image library -/

@[simp] theorem ownAdmit_keeps (w : Waiting) : (ownAdmit s w).Keeps σ s := by
  unfold ownAdmit
  simp only [KAns.keeps_ite, KAns.keeps_refuse, implies_true, true_and]
  intros
  split <;> simp

@[simp] theorem cmdAdmit_keeps : KCmd.Keeps σ cmdAdmit := fun s w => by
  simp [cmdAdmit]

@[simp] theorem State.admitDone_kept (a : Admission) (rest : List Admission) : (s.admitDone a rest).kept σ = s.kept σ := by
  simp [State.admitDone]

@[simp] theorem execAdmissionComplete_keeps : Keeps σ s (execAdmissionComplete s) := by
  unfold execAdmissionComplete
  split <;> simp

@[simp] theorem ownEvict_keeps (w : Waiting) : (ownEvict s w).Keeps σ s := by simp [ownEvict]

@[simp] theorem cmdEvict_keeps : KCmd.Keeps σ cmdEvict := fun s w => by
  simp [cmdEvict]

@[simp] theorem ownLibquery_keeps (w : Waiting) : (ownLibquery s w).Keeps σ s := by simp [ownLibquery]

@[simp] theorem cmdLibquery_keeps : KCmd.Keeps σ cmdLibquery := fun s w => by
  simp [cmdLibquery]

/-! ### Arming -/

@[simp] theorem State.armLanes_kept (i : Image) (m : Nat) : (s.armLanes i m).kept σ = s.kept σ := by simp [State.armLanes]
@[simp] theorem State.fieldRails_kept (pl : Nat) : (s.fieldRails pl).kept σ = s.kept σ := by simp [State.fieldRails]
@[simp] theorem State.levelBias_kept (pl : Nat) : (s.levelBias pl).kept σ = s.kept σ := by simp [State.levelBias]
@[simp] theorem State.startLevel_kept (pl : Nat) (w : Option Waiting) : (s.startLevel pl w).kept σ = s.kept σ := by simp [State.startLevel]
@[simp] theorem State.endLevel_kept (pl : Nat) : (s.endLevel pl).kept σ = s.kept σ := by simp [State.endLevel]

@[simp] theorem State.levelDone_kept : s.levelDone.kept σ = s.kept σ := by
  unfold State.levelDone
  split <;> simp

@[simp] theorem State.clearForRun_kept : s.clearForRun.kept σ = s.kept σ := by simp [State.clearForRun]

@[simp] theorem State.armRun_kept (slot pl : Nat) (seed : Dword) (debug : Bool) (first : CN) :
    (s.armRun slot pl seed debug first).kept σ = s.kept σ := by
  simp [State.armRun]

@[simp] theorem ownArm_keeps (w : Waiting) : (ownArm s w).Keeps σ s := by
  unfold ownArm
  simp only
  split <;> simp

@[simp] theorem State.loadArray_kept (ep : BitVec 2) : (s.loadArray ep).kept σ = s.kept σ := by simp [State.loadArray]
@[simp] theorem actArm_kept (w : Waiting) : (actArm s w).kept σ = s.kept σ := by simp [actArm]

@[simp] theorem cmdArm_keeps : KCmd.Keeps σ cmdArm := fun s w => by
  simp [cmdArm]

@[simp] theorem execRunFillEnd_keeps : Keeps σ s (execRunFillEnd s) := by simp [execRunFillEnd]
@[simp] theorem execLoadedTrainingComplete_keeps : Keeps σ s (execLoadedTrainingComplete s) := by simp [execLoadedTrainingComplete]

/-! ### Planes, waypoints and seams -/

@[simp] theorem ownFill_keeps (w : Waiting) : (ownFill s w).Keeps σ s := by
  unfold ownFill
  simp only [KAns.keeps_ite, KAns.keeps_refuse, implies_true, true_and]
  intros
  split <;> simp

@[simp] theorem cmdFill_keeps : KCmd.Keeps σ cmdFill := fun s w => by
  simp [cmdFill]

@[simp] theorem State.fillShadow_kept (i : Image) : (s.fillShadow i).kept σ = s.kept σ := by simp [State.fillShadow]
@[simp] theorem execFillComplete_keeps : Keeps σ s (execFillComplete s) := by simp [execFillComplete]
@[simp] theorem ownCancel_keeps (w : Waiting) : (ownCancel s w).Keeps σ s := by simp [ownCancel]

@[simp] theorem cmdCancel_keeps : KCmd.Keeps σ cmdCancel := fun s w => by
  simp [cmdCancel]

@[simp] theorem ownSwitch_keeps (w : Waiting) : (ownSwitch s w).Keeps σ s := by simp [ownSwitch]
@[simp] theorem State.endSwitch_kept (w : CN) : (s.endSwitch w).kept σ = s.kept σ := by simp [State.endSwitch]
@[simp] theorem actSwitch_kept (w : Waiting) : (actSwitch s w).kept σ = s.kept σ := by simp [actSwitch]

@[simp] theorem cmdSwitch_keeps : KCmd.Keeps σ cmdSwitch := fun s w => by
  simp [cmdSwitch]

@[simp] theorem State.injectWps_kept : s.injectWps.kept σ = s.kept σ := by simp [State.injectWps]
@[simp] theorem execWaypointInjection_keeps : Keeps σ s (execWaypointInjection s) := by simp [execWaypointInjection]

@[simp] theorem execSwitchComplete_keeps : Keeps σ s (execSwitchComplete s) := by
  unfold execSwitchComplete
  split <;> simp

/-! ### Pauses -/

@[simp] theorem ownStop_keeps (w : Waiting) : (ownStop s w).Keeps σ s := by simp [ownStop]

@[simp] theorem cmdStop_keeps : KCmd.Keeps σ cmdStop := fun s w => by
  simp [cmdStop]

@[simp] theorem execRunStopEffect_keeps (hm : σ.memory = true) : Keeps σ s (execRunStopEffect s) := by simp [execRunStopEffect, hm]
@[simp] theorem ownPause_keeps (w : Waiting) : (ownPause s w).Keeps σ s := by simp [ownPause]

@[simp] theorem cmdPause_keeps : KCmd.Keeps σ cmdPause := fun s w => by
  simp [cmdPause]

@[simp] theorem execPauseStart_keeps : Keeps σ s (execPauseStart s) := by
  unfold execPauseStart
  split <;> simp

@[simp] theorem execPaused_keeps : Keeps σ s (execPaused s) := by simp [execPaused]
@[simp] theorem ownResume_keeps (w : Waiting) : (ownResume s w).Keeps σ s := by simp [ownResume]
@[simp] theorem State.restoreCtxs_kept (l : Latch) : (s.restoreCtxs l).kept σ = s.kept σ := by simp [State.restoreCtxs]
@[simp] theorem State.restoreLatch_kept (l : Latch) : (s.restoreLatch l).kept σ = s.kept σ := by simp [State.restoreLatch]

@[simp] theorem actResume_kept (w : Waiting) : (actResume s w).kept σ = s.kept σ := by
  unfold actResume
  split <;> simp

@[simp] theorem cmdResume_keeps : KCmd.Keeps σ cmdResume := fun s w => by
  simp [cmdResume]

@[simp] theorem State.voidResume_kept (q : CN) : (s.voidResume q).kept σ = s.kept σ := by simp [State.voidResume]
@[simp] theorem execAutoRestart_keeps : Keeps σ s (execAutoRestart s) := by simp [execAutoRestart]

/-! ### Almanac reads and slots -/

@[simp] theorem State.recordUe_kept (f : Found) : (s.recordUe f).kept σ = s.kept σ := by simp [State.recordUe]
@[simp] theorem State.flagRec_kept (c : CN) (b : BitVec 13) : (s.flagRec c b).kept σ = s.kept σ := by simp [State.flagRec]
@[simp] theorem State.report_kept (f : Found) : (s.report f).kept σ = s.kept σ := by simp [State.report]
@[simp] theorem State.reportFound_kept : s.reportFound.kept σ = s.kept σ := by simp [State.reportFound]
@[simp] theorem State.setKey_kept (r : Nat) (c : CN) (k : Nat) (x : KeySt) : (s.setKey r c k x).kept σ = s.kept σ := by simp [State.setKey]
@[simp] theorem State.noteFix_kept (f : WBurst) : (s.noteFix f).kept σ = s.kept σ := by simp [State.noteFix]

@[simp] theorem State.serve_kept (i k : Nat) (c : CN) (t : TblDesc) (cp : CopyRec) (noise : BitVec 288) :
    (s.serve i k c t cp noise).kept σ = s.kept σ := by
  unfold State.serve
  split <;> simp

@[simp] theorem State.addAct_kept (a : Act) : (s.addAct a).kept σ = s.kept σ := by simp [State.addAct]

@[simp] theorem execAlmanacLookupSlot_keeps (sub pos : Nat) (noise : BitVec 288) (h : sub < 32 ∧ pos < 8) :
    Keeps σ s (execAlmanacLookupSlot sub pos noise s) := by
  unfold execAlmanacLookupSlot
  rw [if_neg (by omega)]
  simp only
  split <;> (try split) <;> (try split) <;> simp

@[simp] theorem execSramRead_keeps (req key : Nat) (noise : BitVec 288) (h : req < 8192 ∧ key < 16) :
    Keeps σ s (execSramRead req key noise s) := by
  unfold execSramRead
  rw [if_neg (by omega)]
  split
  · simp
  split
  · simp
  split
  · split
    · split <;> simp
    · simp
  · simp

@[simp] theorem State.sendResult_kept (e : Nat) (l : List Token) : (s.sendResult e l).kept σ = s.kept σ := by simp [State.sendResult]

@[simp] theorem execAlmanacResult_keeps (req : Nat) (h : req < 8192) : Keeps σ s (execAlmanacResult req s) := by
  unfold execAlmanacResult
  rw [if_neg (by omega)]
  split
  · simp
  split
  · simp
  split
  · simp
  split
  · simp
  · simp

@[simp] theorem State.prunePools_kept : s.prunePools.kept σ = s.kept σ := by simp [State.prunePools]

/-! ### Table loads, writes and swaps -/

@[simp] theorem ownTload_keeps (w : Waiting) : (ownTload s w).Keeps σ s := by
  unfold ownTload
  simp only
  split <;> simp

@[simp] theorem cmdTload_keeps : KCmd.Keeps σ cmdTload := fun s w => by
  simp [cmdTload]

@[simp] theorem State.loadFace_kept (d : TblDesc × List CopyRec) (face : Bool) (src : Nat) (hm : σ.memory = true) :
    (s.loadFace d face src).kept σ = s.kept σ := by
  unfold State.loadFace
  refine foldl_kept _ (fun u j => ?_) _ _
  simp [hm]

@[simp] theorem State.loadTable_kept (tid f off : Nat) (d : TblDesc × List CopyRec) (hm : σ.memory = true) :
    (s.loadTable tid f off d).kept σ = s.kept σ := by
  simp [State.loadTable, hm]

@[simp] theorem execTableLoadComplete_keeps (tid : Nat) (hm : σ.memory = true) (h : tid < 4096) :
    Keeps σ s (execTableLoadComplete tid s) := by
  unfold execTableLoadComplete
  rw [if_neg (by omega)]
  split <;> (try split) <;> simp [hm]

@[simp] theorem ownTwrite_keeps (w : Waiting) : (ownTwrite s w).Keeps σ s := by
  unfold ownTwrite
  simp only
  split
  · simp
  simp only [KAns.keeps_ite, KAns.keeps_refuse, implies_true, true_and]
  intros
  split <;> simp

@[simp] theorem cmdTwrite_keeps : KCmd.Keeps σ cmdTwrite := fun s w => by
  simp [cmdTwrite]

@[simp] theorem execTableWriteComplete_keeps (tid : Nat) (hm : σ.memory = true) (h : tid < 4096) :
    Keeps σ s (execTableWriteComplete tid s) := by
  unfold execTableWriteComplete
  rw [if_neg (by omega)]
  split <;> simp [hm]

@[simp] theorem ownTswap_keeps (w : Waiting) : (ownTswap s w).Keeps σ s := by
  unfold ownTswap
  simp only
  split <;> simp

@[simp] theorem actTswap_kept (w : Waiting) : (actTswap s w).kept σ = s.kept σ := by simp [actTswap]

@[simp] theorem cmdTswap_keeps : KCmd.Keeps σ cmdTswap := fun s w => by
  simp [cmdTswap]

@[simp] theorem execSwapEffect_keeps (tid : Nat) (h : tid < 4096) : Keeps σ s (execSwapEffect tid s) := by
  unfold execSwapEffect
  rw [if_neg (by omega)]
  split <;> (try split) <;> simp

@[simp] theorem execCatchUp_keeps (tid : Nat) (hm : σ.memory = true) (h : tid < 4096) : Keeps σ s (execCatchUp tid s) := by
  unfold execCatchUp
  rw [if_neg (by omega)]
  simp [hm]

@[simp] theorem State.slotBurst_kept (sub pos : Nat) (hm : σ.memory = true) : (s.slotBurst sub pos).kept σ = s.kept σ := by
  unfold State.slotBurst
  split <;> (try split) <;> simp [hm]

@[simp] theorem State.fillBurst_kept (sub pos : Nat) : (s.fillBurst sub pos).kept σ = s.kept σ := by
  unfold State.fillBurst
  split <;> simp

@[simp] theorem execWriteClassSlot_keeps (sub pos : Nat) (hm : σ.memory = true) (h : sub < 32 ∧ (pos = 8 ∨ pos = 9)) :
    Keeps σ s (execWriteClassSlot sub pos s) := by
  unfold execWriteClassSlot
  rw [if_neg (by omega)]
  simp [hm]

@[simp] theorem State.hostSlot_kept (sub : Nat) (hm : σ.memory = true) : (s.hostSlot sub).kept σ = s.kept σ := by
  unfold State.hostSlot
  split <;> simp [hm]

@[simp] theorem execRefreshSlot_keeps (sub : Nat) (hm : σ.memory = true) (h : sub < 32) : Keeps σ s (execRefreshSlot sub s) := by
  unfold execRefreshSlot
  rw [if_neg (by omega)]
  simp [hm]

@[simp] theorem State.measureMargin_kept (q i : Nat) (width height : BitVec 8) : (s.measureMargin q i width height).kept σ = s.kept σ := by
  simp [State.measureMargin]

@[simp] theorem execRetrainingStep_keeps (sub pos : Nat) (width height : BitVec 8) (h : sub < 32 ∧ (pos = 8 ∨ pos = 9)) :
    Keeps σ s (execRetrainingStep sub pos width height s) := by
  unfold execRetrainingStep
  rw [if_neg (by omega)]
  simp

/-! ### Channels -/

@[simp] theorem execAveragingBlockComplete_keeps (ctx : Nat) (h : ctx < 65536) : Keeps σ s (execAveragingBlockComplete ctx s) := by
  unfold execAveragingBlockComplete
  rw [if_neg (by omega)]
  simp

@[simp] theorem State.driveChannels_kept (ep : BitVec 2) (ws : List (CmapEnt × Int)) : (s.driveChannels ep ws).kept σ = s.kept σ := by
  simp [State.driveChannels]

@[simp] theorem State.chanSats_kept (l : List Nat) (q : Nat) : (s.chanSats l q).kept σ = s.kept σ := by simp [State.chanSats]
@[simp] theorem State.trigger_kept (t : CN) (src : BitVec 4) : (s.trigger t src).kept σ = s.kept σ := by simp [State.trigger]

@[simp] theorem State.stageBeacon_kept (cc : CN) (hits : List Nat) (b : Nat) : (State.stageBeacon cc hits s b).kept σ = s.kept σ := by
  simp [State.stageBeacon]

@[simp] theorem State.maskViol_kept (cc : CN) (l : List (Nat × Bool)) : (s.maskViol cc l).kept σ = s.kept σ := by
  unfold State.maskViol
  split <;> simp

@[simp] theorem State.writeFrame_kept (bcn : BitVec 16) (mtv : Bool) : (s.writeFrame bcn mtv).kept σ = s.kept σ := by
  simp [State.writeFrame]

@[simp] theorem stageCtx_kept (cc : CN) (a : StageAcc) (e : CmapEnt) : (stageCtx cc a e).s.kept σ = a.s.kept σ := by
  unfold stageCtx
  simp only
  split <;> simp [stageEnabled]

@[simp] theorem State.stageInput_kept (cc : CN) : (s.stageInput cc).1.kept σ = s.kept σ := by
  simp [State.stageInput, foldl_kept_of StageAcc.s (stageCtx cc) (stageCtx_kept cc)]

@[simp] theorem execChannelStage_keeps : Keeps σ s (execChannelStage s) := by
  unfold execChannelStage
  split <;> (try split) <;> simp

@[simp] theorem ownCtxcommit_keeps (w : Waiting) : (ownCtxcommit s w).Keeps σ s := by
  unfold ownCtxcommit
  simp only
  split <;> (try split) <;> simp

@[simp] theorem actCtxcommit_kept (w : Waiting) : (actCtxcommit s w).kept σ = s.kept σ := by simp [actCtxcommit]

@[simp] theorem cmdCtxcommit_keeps : KCmd.Keeps σ cmdCtxcommit := fun s w => by
  simp [cmdCtxcommit]

@[simp] theorem execWgmCommitApply_keeps : Keeps σ s (execWgmCommitApply s) := by simp [execWgmCommitApply]
@[simp] theorem execContextCommitApply_keeps : Keeps σ s (execContextCommitApply s) := by simp [execContextCommitApply]

@[simp] theorem execResumeEffect_keeps (ready : Bool) : Keeps σ s (execResumeEffect ready s) := by
  unfold execResumeEffect
  simp [resumeCmds]

@[simp] theorem ownEnvload_keeps (w : Waiting) : (ownEnvload s w).Keeps σ s := by simp [ownEnvload]
@[simp] theorem actEnvload_kept (w : Waiting) : (actEnvload s w).kept σ = s.kept σ := by simp [actEnvload]

@[simp] theorem cmdEnvload_keeps : KCmd.Keeps σ cmdEnvload := fun s w => by
  simp [cmdEnvload]

@[simp] theorem execEnvelopeLoadApply_keeps : Keeps σ s (execEnvelopeLoadApply s) := by simp [execEnvelopeLoadApply]
@[simp] theorem ownPedestal_keeps (w : Waiting) : (ownPedestal s w).Keeps σ s := by simp [ownPedestal]

@[simp] theorem cmdPedestal_keeps : KCmd.Keeps σ cmdPedestal := fun s w => by
  simp [cmdPedestal]

@[simp] theorem State.ownCommit_kept (es : List (List Byte)) : (s.ownCommit es).kept σ = s.kept σ := by simp [State.ownCommit]
@[simp] theorem ownHisto_keeps (w : Waiting) : (ownHisto s w).Keeps σ s := by simp [ownHisto]

@[simp] theorem cmdHisto_keeps : KCmd.Keeps σ cmdHisto := fun s w => by
  simp [cmdHisto]

/-! ### Capture, beacons and envelopes -/

@[simp] theorem ownCaparm_keeps (w : Waiting) : (ownCaparm s w).Keeps σ s := by simp [ownCaparm]
@[simp] theorem State.armBeacons_kept (en : BitVec 16) : (s.armBeacons en).kept σ = s.kept σ := by simp [State.armBeacons]
@[simp] theorem State.clearCap_kept : s.clearCap.kept σ = s.kept σ := by simp [State.clearCap]
@[simp] theorem actCaparm_kept (w : Waiting) : (actCaparm s w).kept σ = s.kept σ := by simp [actCaparm]

@[simp] theorem cmdCaparm_keeps : KCmd.Keeps σ cmdCaparm := fun s w => by
  simp [cmdCaparm]

@[simp] theorem actCaptrig_kept (w : Waiting) : (actCaptrig s w).kept σ = s.kept σ := by simp [actCaptrig]

@[simp] theorem cmdCaptrig_keeps : KCmd.Keeps σ cmdCaptrig := fun s w => by
  simp [cmdCaptrig]

@[simp] theorem execKlowynTrigger_keeps : Keeps σ s (execKlowynTrigger s) := by simp [execKlowynTrigger]
@[simp] theorem State.ccmdWord_kept (w : Byte) : (s.ccmdWord w).kept σ = s.kept σ := by simp [State.ccmdWord]
@[simp] theorem State.externalAccept_kept : s.externalAccept.kept σ = s.kept σ := by simp [State.externalAccept]
@[simp] theorem execExternalAccept_keeps : Keeps σ s (execExternalAccept s) := by simp [execExternalAccept]

@[simp] theorem State.ignoreTrig_kept (c : Option CtrId) : (s.ignoreTrig c).kept σ = s.kept σ := by
  unfold State.ignoreTrig
  split <;> simp

@[simp] theorem State.acceptTrig_kept (t : CN) (src : BitVec 4) : (s.acceptTrig t src).kept σ = s.kept σ := by simp [State.acceptTrig]

@[simp] theorem State.settleTriggers_kept : s.settleTriggers.kept σ = s.kept σ := by
  unfold State.settleTriggers
  simp only
  split <;> simp

@[simp] theorem State.deskewEnd_kept (w : Waiting) : (s.deskewEnd w).kept σ = s.kept σ := by
  unfold State.deskewEnd
  simp only
  split <;> (try split) <;> simp

@[simp] theorem ownDeskew_keeps (w : Waiting) : (ownDeskew s w).Keeps σ s := by
  unfold ownDeskew
  simp only [KAns.keeps_ite, KAns.keeps_refuse, implies_true, true_and]
  refine fun _ _ _ => ⟨fun _ => by simp, fun _ => ?_⟩
  split <;> simp

@[simp] theorem cmdDeskew_keeps : KCmd.Keeps σ cmdDeskew := fun s w => by
  simp [cmdDeskew]

@[simp] theorem execWakeBufferFreeze_keeps : Keeps σ s (execWakeBufferFreeze s) := by
  unfold execWakeBufferFreeze
  simp only
  split <;> (try split) <;> simp

@[simp] theorem State.drained_kept : s.drained.kept σ = s.kept σ := by
  unfold State.drained
  simp only
  split <;> simp

@[simp] theorem ownCapdrain_keeps (w : Waiting) : (ownCapdrain s w).Keeps σ s := by simp [ownCapdrain]

@[simp] theorem cmdCapdrain_keeps : KCmd.Keeps σ cmdCapdrain := fun s w => by
  simp [cmdCapdrain]

@[simp] theorem State.hostWrite_kept (a : Nat) (l : List Byte) : (s.hostWrite a l).kept σ = s.kept σ := by simp [State.hostWrite]
@[simp] theorem State.sendPacket_kept (p : Nat × List Dword) : (s.sendPacket p).kept σ = s.kept σ := by simp [State.sendPacket]

@[simp] theorem execDrainComplete_keeps : Keeps σ s (execDrainComplete s) := by
  unfold execDrainComplete
  split <;> (try split) <;> simp

@[simp] theorem State.deskewAbort_kept : s.deskewAbort.kept σ = s.kept σ := by
  unfold State.deskewAbort
  split <;> simp

@[simp] theorem ownCaprelease_keeps (w : Waiting) : (ownCaprelease s w).Keeps σ s := by
  unfold ownCaprelease
  simp only
  split <;> simp

@[simp] theorem cmdCaprelease_keeps : KCmd.Keeps σ cmdCaprelease := fun s w => by
  simp [cmdCaprelease]

@[simp] theorem ownBcnload_keeps (w : Waiting) : (ownBcnload s w).Keeps σ s := by simp [ownBcnload]
@[simp] theorem actBcnload_kept (w : Waiting) : (actBcnload s w).kept σ = s.kept σ := by simp [actBcnload]

@[simp] theorem cmdBcnload_keeps : KCmd.Keeps σ cmdBcnload := fun s w => by
  simp [cmdBcnload]

@[simp] theorem execCaptureArmApply_keeps : Keeps σ s (execCaptureArmApply s) := by simp [execCaptureArmApply, trigCmds]
@[simp] theorem execBeaconLoadApply_keeps : Keeps σ s (execBeaconLoadApply s) := by simp [execBeaconLoadApply, trigCmds]

/-! ### Lane receivers -/

@[simp] theorem State.lnkCount_kept (l k n : Nat) : (s.lnkCount l k n).kept σ = s.kept σ := by simp [State.lnkCount]
@[simp] theorem State.lnkEvt_kept (l b : Nat) : (s.lnkEvt l b).kept σ = s.kept σ := by simp [State.lnkEvt]

@[simp] theorem State.rxCodeword_kept (l : Nat) (syms : List Nat) : (s.rxCodeword l syms).kept σ = s.kept σ := by
  unfold State.rxCodeword
  simp only
  split <;> simp

@[simp] theorem execCodewordReceive_keeps (lane : Nat) (syms : List Nat) (h : lane < 64 ∧ syms.length = 173) :
    Keeps σ s (execCodewordReceive lane syms s) := by
  unfold execCodewordReceive
  rw [if_neg (by omega)]
  simp

@[simp] theorem State.slip_kept (l : Nat) : (s.slip l).kept σ = s.kept σ := by simp [State.slip]
@[simp] theorem State.anchor_kept (l : Nat) (p : Dword) : (s.anchor l p).kept σ = s.kept σ := by simp [State.anchor]
@[simp] theorem State.takeMarker_kept (l : Nat) (p : Dword) : (s.takeMarker l p).kept σ = s.kept σ := by simp [State.takeMarker]

@[simp] theorem execAlignmentMarker_keeps (lane : Nat) (payload : Dword) (gap : Nat) (h : lane < 64) :
    Keeps σ s (execAlignmentMarker lane payload gap s) := by
  unfold execAlignmentMarker
  rw [if_neg (by omega)]
  simp

@[simp] theorem State.abortOnLane_kept (l : Nat) : (s.abortOnLane l).kept σ = s.kept σ := by simp [State.abortOnLane]

@[simp] theorem execLockLoss_keeps (lane : Nat) (h : lane < 64) : Keeps σ s (execLockLoss lane s) := by
  unfold execLockLoss
  rw [if_neg (by omega)]
  simp

@[simp] theorem execTrainingBurst_keeps (lane : Nat) (h : lane < 64) : Keeps σ s (execTrainingBurst lane s) := by
  unfold execTrainingBurst
  rw [if_neg (by omega)]
  simp

@[simp] theorem State.lateInput_kept (n : CN) : (s.lateInput n).kept σ = s.kept σ := by simp [State.lateInput]
@[simp] theorem State.countLate_kept (l : Nat) (n : CN) : (s.countLate l n).kept σ = s.kept σ := by simp [State.countLate]

@[simp] theorem State.holdFrame_kept (l : Nat) (first : CN) (f : RxFrame) : (s.holdFrame l first f).kept σ = s.kept σ := by
  simp [State.holdFrame]

@[simp] theorem State.countOdd_kept (l : Nat) : (s.countOdd l).kept σ = s.kept σ := by simp [State.countOdd]
@[simp] theorem State.dropExcess_kept (l k : Nat) : (s.dropExcess l k).kept σ = s.kept σ := by simp [State.dropExcess]

@[simp] theorem State.tailFrame_kept (l : Nat) (n : CN) (pre : List RxBlk) : (s.tailFrame l n pre).kept σ = s.kept σ := by
  unfold State.tailFrame
  simp only
  split <;> simp

@[simp] theorem State.frameAt_kept (l : Nat) (pre : List RxBlk) (m : RxBlk) (body rest : List RxBlk) :
    (s.frameAt l pre m body rest).kept σ = s.kept σ := by
  unfold State.frameAt
  simp only
  split <;> simp

@[simp] theorem State.rxFrame_kept (l : Nat) : (s.rxFrame l).kept σ = s.kept σ := by
  unfold State.rxFrame
  simp only
  split <;> simp

@[simp] theorem execCrossingFrameReceive_keeps (lane : Nat) (h : lane < 64) : Keeps σ s (execCrossingFrameReceive lane s) := by
  unfold execCrossingFrameReceive
  rw [if_neg (by omega)]
  simp

/-! ### Lane services -/

@[simp] theorem State.alignSlack_kept (k : Nat) : (s.alignSlack k).kept σ = s.kept σ := by simp [State.alignSlack]
@[simp] theorem State.noteSlack_kept (l k : Nat) : (s.noteSlack l k).kept σ = s.kept σ := by simp [State.noteSlack]

@[simp] theorem State.takeHeld_kept (l : Nat) (n : CN) : (s.takeHeld l n).1.kept σ = s.kept σ := by
  unfold State.takeHeld
  simp only
  split <;> (try split) <;> simp

@[simp] theorem State.putFrame_kept (l : Nat) (n : CN) (r : Released) : (s.putFrame l n r).kept σ = s.kept σ := by simp [State.putFrame]

@[simp] theorem State.recordFrame_kept (l : Nat) (n : CN) (r : Released) : (s.recordFrame l n r).kept σ = s.kept σ := by
  simp [State.recordFrame]

@[simp] theorem State.laneFault_kept (l : Nat) : (s.laneFault l).kept σ = s.kept σ := by simp [State.laneFault]
@[simp] theorem State.noteSubst_kept (l : Nat) (n : CN) (r : Released) : (s.noteSubst l n r).kept σ = s.kept σ := by simp [State.noteSubst]

@[simp] theorem State.driveChain_kept (n : CN) (r : Released) (fill : Word) (bad : Bool) (e : ChainMap × Nat) :
    (State.driveChain n r fill bad s e).kept σ = s.kept σ := by
  simp [State.driveChain]

@[simp] theorem State.chainRelease_kept (l : Nat) (lp : Loop) (n : CN) (r : Released) : (s.chainRelease l lp n r).kept σ = s.kept σ := by
  simp [State.chainRelease]

@[simp] theorem State.takeCredit_kept (l : Nat) (r : Released) : (s.takeCredit l r).kept σ = s.kept σ := by simp [State.takeCredit]

@[simp] theorem State.chainSide_kept (l : Nat) (n : CN) (r : Released) : (s.chainSide l n r).kept σ = s.kept σ := by
  unfold State.chainSide
  simp only
  split <;> (try split) <;> (try split) <;> simp

@[simp] theorem State.ringPush_kept (l : Nat) (n : CN) (p : Payload) : (s.ringPush l n p).kept σ = s.kept σ := by simp [State.ringPush]

@[simp] theorem State.release_kept (l : Nat) (n : CN) : (s.release l n).kept σ = s.kept σ := by
  unfold State.release
  split <;> simp

@[simp] theorem execFrameRelease_keeps (lane : Nat) (h : lane < 64) : Keeps σ s (execFrameRelease lane s) := by
  unfold execFrameRelease
  rw [if_neg (by omega)]
  simp

@[simp] theorem actLanecommit_kept (w : Waiting) : (actLanecommit s w).kept σ = s.kept σ := by simp [actLanecommit]

@[simp] theorem cmdLanecommit_keeps : KCmd.Keeps σ cmdLanecommit := fun s w => by
  simp [cmdLanecommit]

@[simp] theorem execCnofsApply_keeps (lane : Nat) (h : lane < 64) : Keeps σ s (execCnofsApply lane s) := by
  unfold execCnofsApply
  rw [if_neg (by omega)]
  simp

@[simp] theorem ownLaneidle_keeps (w : Waiting) : (ownLaneidle s w).Keeps σ s := by simp [ownLaneidle]

@[simp] theorem cmdLaneidle_keeps : KCmd.Keeps σ cmdLaneidle := fun s w => by
  simp [cmdLaneidle]

@[simp] theorem ownLanetune_keeps (w : Waiting) : (ownLanetune s w).Keeps σ s := by simp [ownLanetune]

@[simp] theorem cmdLanetune_keeps : KCmd.Keeps σ cmdLanetune := fun s w => by
  simp [cmdLanetune]

@[simp] theorem ownLanealign_keeps (w : Waiting) : (ownLanealign s w).Keeps σ s := by simp [ownLanealign]

@[simp] theorem cmdLanealign_keeps : KCmd.Keeps σ cmdLanealign := fun s w => by
  simp [cmdLanealign]

@[simp] theorem State.alignCrossing_kept : s.alignCrossing.kept σ = s.kept σ := by simp [State.alignCrossing]
@[simp] theorem State.measure_kept (l : Nat) (w h : BitVec 8) : (s.measure l w h).kept σ = s.kept σ := by simp [State.measure]

@[simp] theorem execSextantMeasurement_keeps (lane : Nat) (width height : BitVec 8) (h : lane < 64) :
    Keeps σ s (execSextantMeasurement lane width height s) := by
  unfold execSextantMeasurement
  rw [if_neg (by omega)]
  simp

@[simp] theorem ownEyescan_keeps (w : Waiting) : (ownEyescan s w).Keeps σ s := by simp [ownEyescan]

@[simp] theorem cmdEyescan_keeps : KCmd.Keeps σ cmdEyescan := fun s w => by
  simp [cmdEyescan]

@[simp] theorem State.measureScan_kept (l : Nat) (counts : List (BitVec 32)) : (s.measureScan l counts).kept σ = s.kept σ := by
  simp [State.measureScan]

@[simp] theorem execEyescanComplete_keeps (lane : Nat) (counts : List (BitVec 32)) (h : lane < 64) :
    Keeps σ s (execEyescanComplete lane counts s) := by
  unfold execEyescanComplete
  rw [if_neg (by omega)]
  split <;> simp

/-! ### Output -/

@[simp] theorem State.deviate_kept (c : CN) (l : List Nat) : (s.deviate c l).kept σ = s.kept σ := by simp [State.deviate]
@[simp] theorem State.assemble_kept (r : OutRec) : (s.assemble r).kept σ = s.kept σ := by simp [State.assemble]

@[simp] theorem execOutputAssembly_keeps : Keeps σ s (execOutputAssembly s) := by
  unfold execOutputAssembly
  split <;> simp

@[simp] theorem execFdecDrive_keeps : Keeps σ s (execFdecDrive s) := by simp [execFdecDrive]
@[simp] theorem State.emitRec_kept (r : OutRec) : (s.emitRec r).1.kept σ = s.kept σ := by simp [State.emitRec]

@[simp] theorem State.checkCredit_kept (l : Nat) (lp : Loop) (c : CN) : (s.checkCredit l lp c).kept σ = s.kept σ := by
  simp [State.checkCredit]

@[simp] theorem State.chainSend_kept (l : Nat) (c : CN) : (s.chainSend l c).kept σ = s.kept σ := by simp [State.chainSend]

@[simp] theorem State.handOver_kept : s.handOver.kept σ = s.kept σ := by
  unfold State.handOver
  split
  · refine foldl_kept _ (fun u l => ?_) _ _
    split <;> simp
  · rfl

@[simp] theorem execChainFrameTransmit_keeps (lane : Nat) (h : lane < 64) : Keeps σ s (execChainFrameTransmit lane s) := by
  unfold execChainFrameTransmit
  rw [if_neg (by omega)]
  simp

/-! ### The chronometer -/

@[simp] theorem State.setPulse_kept (p : Nat) (x : Pulse) : (s.setPulse p x).kept σ = s.kept σ := by simp [State.setPulse]

@[simp] theorem State.skipEdges_kept (p n : Nat) : (s.skipEdges p n).1.kept σ = s.kept σ := by
  unfold State.skipEdges
  split <;> simp

@[simp] theorem chrEvents_kept (r : State × Word) : (chrEvents r).kept σ = r.1.kept σ := by simp [chrEvents]

@[simp] theorem State.stepPulses_kept (d : Int) : (s.stepPulses d).1.kept σ = s.kept σ := by
  refine foldl_kept_of Prod.fst _ (fun a p => ?_) (List.range 8) (s, 0)
  simp only
  split
  · simp
  · split <;> simp

@[simp] theorem execPulseEdge_keeps (p : Nat) (h : p < 8) : Keeps σ s (execPulseEdge p s) := by
  unfold execPulseEdge
  rw [if_neg (by omega)]
  simp

@[simp] theorem State.applyPulse_kept (p : Nat) (c : Schedule) : (s.applyPulse p c).1.kept σ = s.kept σ := by simp [State.applyPulse]
@[simp] theorem State.coverPulse_kept (p : Nat) (old : Pulse) : (s.coverPulse p old).kept σ = s.kept σ := by simp [State.coverPulse]

@[simp] theorem State.pulseLow_kept (p : Nat) : (s.pulseLow p).kept σ = s.kept σ := by
  unfold State.pulseLow
  simp only
  split <;> simp

@[simp] theorem State.pulsesLow_kept : s.pulsesLow.kept σ = s.kept σ := by simp [State.pulsesLow]

@[simp] theorem execPulseWidthEnd_keeps (p : Nat) (h : p < 8) : Keeps σ s (execPulseWidthEnd p s) := by
  unfold execPulseWidthEnd
  rw [if_neg (by omega)]
  simp

@[simp] theorem State.notOwner_kept : s.notOwner.kept σ = s.kept σ := by simp [State.notOwner]

@[simp] theorem State.commitPulse_kept (p : Nat) : (s.commitPulse p).1.kept σ = s.kept σ := by
  unfold State.commitPulse
  simp only
  split <;> (try split) <;> simp

@[simp] theorem State.writePulseEn_kept (p : Nat) (en : Bool) : (s.writePulseEn p en).1.kept σ = s.kept σ := by
  unfold State.writePulseEn
  simp only
  split <;> simp

@[simp] theorem State.writePctl_kept (host : Bool) (p : Nat) (v : Word) : (s.writePctl host p v).kept σ = s.kept σ := by
  unfold State.writePctl
  split <;> (try split) <;> simp

@[simp] theorem execPpsOutEdge_keeps : Keeps σ s (execPpsOutEdge s) := by simp [execPpsOutEdge]
@[simp] theorem execPpsOutWidthEnd_keeps : Keeps σ s (execPpsOutWidthEnd s) := by simp [execPpsOutWidthEnd]
@[simp] theorem execPpsIn_keeps (phase : BitVec 4) : Keeps σ s (execPpsIn phase s) := by simp [execPpsIn]
@[simp] theorem State.writePps_kept (v : Word) : (s.writePps v).kept σ = s.kept σ := by simp [State.writePps]
@[simp] theorem State.chrArm_kept : s.chrArm.kept σ = s.kept σ := by simp [State.chrArm]

@[simp] theorem State.commitStep_kept (ht : σ.time = true) : s.commitStep.1.kept σ = s.kept σ := by
  unfold State.commitStep
  simp only
  split <;> simp [State.keptOf_time ht]

@[simp] theorem State.commitRate_kept (ht : σ.time = true) : s.commitRate.1.kept σ = s.kept σ := by
  unfold State.commitRate
  simp only
  split
  · simp
  · split <;> simp [State.keptOf_time ht]

@[simp] theorem State.writeChrCmd_kept (owner : Bool) (v : Word) (ht : σ.time = true) : (s.writeChrCmd owner v).kept σ = s.kept σ := by
  unfold State.writeChrCmd
  simp only
  split
  · split <;> simp
  split
  · split <;> simp
  simp only [chrEvents_kept]
  split <;> split <;> split <;> simp [ht]

@[simp] theorem State.dropLaunches_kept : s.dropLaunches.kept σ = s.kept σ := by simp [State.dropLaunches]

@[simp] theorem State.changeMode_kept (v : Word) (ht : σ.time = true) : (s.changeMode v).kept σ = s.kept σ := by
  simp [State.changeMode, State.keptOf_time ht]

@[simp] theorem State.writeChrCfg_kept (v : Word) (ht : σ.time = true) : (s.writeChrCfg v).kept σ = s.kept σ := by
  simp [State.writeChrCfg, State.keptOf_time ht, ht]

@[simp] theorem State.orbit_kept (phase : BitVec 4) : (s.orbit phase).kept σ = s.kept σ := by simp [State.orbit]
@[simp] theorem execOrbitMarker_keeps (phase : BitVec 4) : Keeps σ s (execOrbitMarker phase s) := by simp [execOrbitMarker]

@[simp] theorem State.orbitZero_kept (phase : BitVec 4) (hc : σ.count = true) : (s.orbitZero phase).kept σ = s.kept σ := by
  simp [State.orbitZero, State.keptOf_count hc]

@[simp] theorem execOrbitZero_keeps (phase : BitVec 4) (hc : σ.count = true) : Keeps σ s (execOrbitZero phase s) := by
  simp [execOrbitZero, hc]

@[simp] theorem execCcmdIdle_keeps : Keeps σ s (execCcmdIdle s) := by simp [execCcmdIdle]
@[simp] theorem execCcmdInvalid_keeps (word : Byte) : Keeps σ s (execCcmdInvalid word s) := by simp [execCcmdInvalid]

/-! ### Hub lanes and time services -/

@[simp] theorem State.hubRecord_kept (c : CN) : (s.hubRecord c).1.kept σ = s.kept σ := by
  unfold State.hubRecord
  split <;> (try split) <;> simp

@[simp] theorem State.stampTags_kept (d : Nat) (l : List (BitVec 16)) : (s.stampTags d l).kept σ = s.kept σ := by simp [State.stampTags]

@[simp] theorem State.launched_kept (d j : Nat) : (s.launched d j).kept σ = s.kept σ := by
  unfold State.launched
  split <;> simp

@[simp] theorem State.hubSend_kept (l : Nat) (c : CN) (phase : BitVec 4) : (s.hubSend l c phase).kept σ = s.kept σ := by
  simp [State.hubSend]

@[simp] theorem execHubFrameTransmit_keeps (lane : Nat) (phase : BitVec 4) (h : lane < 64) :
    Keeps σ s (execHubFrameTransmit lane phase s) := by
  unfold execHubFrameTransmit
  rw [if_neg (by omega)]
  simp

@[simp] theorem State.rxDrop_kept (l : Nat) : (s.rxDrop l).kept σ = s.kept σ := by simp [State.rxDrop]
@[simp] theorem State.forward_kept (l : Nat) (p : Pkt) : (s.forward l p).kept σ = s.kept σ := by simp [State.forward]
@[simp] theorem State.rxHold_kept (l : Nat) (p : Pkt) (t : BitVec 128) : (s.rxHold l p t).kept σ = s.kept σ := by simp [State.rxHold]
@[simp] theorem State.deliverPkt_kept (p : Pkt) (t : BitVec 128) : (s.deliverPkt p t).kept σ = s.kept σ := by simp [State.deliverPkt]

@[simp] theorem State.rxTiming_kept (l : Nat) (p : Pkt) (phase : BitVec 4) : (s.rxTiming l p phase).kept σ = s.kept σ := by
  simp [State.rxTiming]

@[simp] theorem State.rxMgmt_kept (l : Nat) (p : Pkt) : (s.rxMgmt l p).kept σ = s.kept σ := by simp [State.rxMgmt]
@[simp] theorem State.deliverLane_kept (l : Nat) : (s.deliverLane l).kept σ = s.kept σ := by simp [State.deliverLane]
@[simp] theorem State.deliverHeld_kept : s.deliverHeld.kept σ = s.kept σ := by simp [State.deliverHeld]

@[simp] theorem execHubPacketReceive_keeps (lane : Nat) (bytes : List Byte) (lost : Bool) (phase : BitVec 4) (h : lane < 64) :
    Keeps σ s (execHubPacketReceive lane bytes lost phase s) := by
  unfold execHubPacketReceive
  rw [if_neg (by omega)]
  simp

@[simp] theorem ownTlaunch_keeps (w : Waiting) : (ownTlaunch s w).Keeps σ s := by simp [ownTlaunch]

@[simp] theorem cmdTlaunch_keeps : KCmd.Keeps σ cmdTlaunch := fun s w => by
  simp [cmdTlaunch]

@[simp] theorem State.dropLate_kept : s.dropLate.kept σ = s.kept σ := by simp [State.dropLate]

@[simp] theorem execTimeLaunch_keeps (lane : Nat) (phase : BitVec 4) (h : lane < 64) : Keeps σ s (execTimeLaunch lane phase s) := by
  unfold execTimeLaunch
  rw [if_neg (by omega)]
  split <;> (try split) <;> simp

@[simp] theorem ownTimesvc_keeps (w : Waiting) : (ownTimesvc s w).Keeps σ s := by simp [ownTimesvc]

@[simp] theorem cmdTimesvc_keeps : KCmd.Keeps σ cmdTimesvc := fun s w => by
  simp [cmdTimesvc]

@[simp] theorem ownTmap_keeps (w : Waiting) : (ownTmap s w).Keeps σ s := by
  unfold ownTmap
  split <;> simp

@[simp] theorem cmdTmap_keeps : KCmd.Keeps σ cmdTmap := fun s w => by
  simp [cmdTmap]

@[simp] theorem ownMgmtsend_keeps (w : Waiting) : (ownMgmtsend s w).Keeps σ s := by simp [ownMgmtsend]

@[simp] theorem cmdMgmtsend_keeps : KCmd.Keeps σ cmdMgmtsend := fun s w => by
  simp [cmdMgmtsend]

/-! ### Pairs -/

@[simp] theorem State.openMirror_kept : s.openMirror.kept σ = s.kept σ := by simp [State.openMirror]
@[simp] theorem State.closeMirror_kept : s.closeMirror.kept σ = s.kept σ := by simp [State.closeMirror]
@[simp] theorem State.formAgain_kept : s.formAgain.kept σ = s.kept σ := by simp [State.formAgain]
@[simp] theorem ownPaircfg_keeps (w : Waiting) : (ownPaircfg s w).Keeps σ s := by simp [ownPaircfg]

@[simp] theorem cmdPaircfg_keeps : KCmd.Keeps σ cmdPaircfg := fun s w => by
  simp [cmdPaircfg]

@[simp] theorem ownYield_keeps (w : Waiting) : (ownYield s w).Keeps σ s := by simp [ownYield]

@[simp] theorem cmdYield_keeps : KCmd.Keeps σ cmdYield := fun s w => by
  simp [cmdYield]

@[simp] theorem State.sendMirror_kept (m : MStatus) (e : Nat × Nat) : (State.sendMirror m s e).kept σ = s.kept σ := by
  simp [State.sendMirror]

@[simp] theorem State.sendStatus_kept : s.sendStatus.kept σ = s.kept σ := by simp [State.sendStatus]

@[simp] theorem State.pendAt_kept (p : PendK) : (s.pendAt p).kept σ = s.kept σ := by
  unfold State.pendAt
  split <;> simp

@[simp] theorem State.mismatch_kept (c : CN) : (s.mismatch c).kept σ = s.kept σ := by simp [State.mismatch]
@[simp] theorem State.match_kept (c : CN) : (s.match_ c).kept σ = s.kept σ := by simp [State.match_]

@[simp] theorem State.compare_kept (y : CN) (a0 b : MStatus) : (s.compare y a0 b).kept σ = s.kept σ := by
  unfold State.compare
  simp only
  split <;> simp

@[simp] theorem State.release1_kept (c : MirCmd) : (s.release1 c).kept σ = s.kept σ := by simp [State.release1]
@[simp] theorem State.takeCack_kept (q : Word) : (s.takeCack q).kept σ = s.kept σ := by simp [State.takeCack]
@[simp] theorem State.form_kept (b : MStatus) (lanes : BitVec 4) : (s.form b lanes).kept σ = s.kept σ := by simp [State.form]
@[simp] theorem State.notePeer_kept (b : MStatus) : (s.notePeer b).kept σ = s.kept σ := by simp [State.notePeer]
@[simp] theorem State.noteLanes_kept (lanes : BitVec 4) : (s.noteLanes lanes).kept σ = s.kept σ := by simp [State.noteLanes]

@[simp] theorem State.rejoinFails_kept : s.rejoinFails.kept σ = s.kept σ := by
  unfold State.rejoinFails
  simp only
  split <;> simp

@[simp] theorem State.rejoinStop_kept (hm : σ.memory = true) : s.rejoinStop.kept σ = s.kept σ := by simp [State.rejoinStop, hm]

@[simp] theorem State.peerStatus_kept (y : CN) (b : MStatus) (lanes : BitVec 4) (hm : σ.memory = true) :
    (s.peerStatus y b lanes).kept σ = s.kept σ := by
  unfold State.peerStatus
  simp only
  split <;> (try split) <;> (try split) <;> simp [hm]

@[simp] theorem State.ownEvidence_kept (y : CN) : (s.ownEvidence y).kept σ = s.kept σ := by
  unfold State.ownEvidence
  split <;> simp

@[simp] theorem State.peerMissing_kept (y : CN) (hm : σ.memory = true) : (s.peerMissing y).kept σ = s.kept σ := by
  simp [State.peerMissing, hm]

@[simp] theorem State.reemit_kept (hs : List Nat) (e : OutRec × Nat) : (State.reemit hs s e).kept σ = s.kept σ := by simp [State.reemit]
@[simp] theorem State.take_kept (k : CN) : (s.take k).kept σ = s.kept σ := by simp [State.take]

@[simp] theorem State.yieldRun_kept (cause : BitVec 8) (hm : σ.memory = true) : (s.yieldRun cause).kept σ = s.kept σ := by
  simp [State.yieldRun, hm]

@[simp] theorem State.peerYields_kept (k : CN) (cause : BitVec 8) : (s.peerYields k cause).kept σ = s.kept σ := by simp [State.peerYields]
@[simp] theorem State.peerLost_kept (k : CN) (hm : σ.memory = true) : (s.peerLost k).kept σ = s.kept σ := by simp [State.peerLost, hm]
@[simp] theorem State.takeover_kept (p : PendK) (hm : σ.memory = true) : (s.takeover p).kept σ = s.kept σ := by simp [State.takeover, hm]

@[simp] theorem execTakeover_keeps (hm : σ.memory = true) : Keeps σ s (execTakeover s) := by
  unfold execTakeover
  split <;> simp [hm]

@[simp] theorem execMirrorLaneDrop_keeps (i : Nat) (h : i < 4) : Keeps σ s (execMirrorLaneDrop i s) := by
  unfold execMirrorLaneDrop
  rw [if_neg (by omega)]
  simp

@[simp] theorem execJoined_keeps : Keeps σ s (execJoined s) := by
  unfold execJoined
  simp only
  split <;> (try split) <;> simp

/-! ### The logbook -/

@[simp] theorem State.logWaiting_kept : s.logWaiting.kept σ = s.kept σ := by simp [State.logWaiting]
@[simp] theorem ownLogstart_keeps (w : Waiting) : (ownLogstart s w).Keeps σ s := by simp [ownLogstart]
@[simp] theorem State.logBegin_kept (p : CN) : (s.logBegin p).kept σ = s.kept σ := by simp [State.logBegin]
@[simp] theorem actLogstart_kept (w : Waiting) : (actLogstart s w).kept σ = s.kept σ := by simp [actLogstart]

@[simp] theorem cmdLogstart_keeps : KCmd.Keeps σ cmdLogstart := fun s w => by
  simp [cmdLogstart]

@[simp] theorem execLogbookStart_keeps : Keeps σ s (execLogbookStart s) := by simp [execLogbookStart]
@[simp] theorem ownLogstop_keeps (w : Waiting) : (ownLogstop s w).Keeps σ s := by simp [ownLogstop]

@[simp] theorem cmdLogstop_keeps : KCmd.Keeps σ cmdLogstop := fun s w => by
  simp [cmdLogstop]

@[simp] theorem State.endFullLog_kept : s.endFullLog.kept σ = s.kept σ := by simp [State.endFullLog]

@[simp] theorem ownReplay_keeps (w : Waiting) : (ownReplay s w).Keeps σ s := by
  unfold ownReplay
  simp only [KAns.keeps_ite, KAns.keeps_refuse, implies_true, true_and]
  intros
  split <;> simp

@[simp] theorem cmdReplay_keeps : KCmd.Keeps σ cmdReplay := fun s w => by
  simp [cmdReplay]

@[simp] theorem State.restoreShadow_kept (x : ShadowLatch) : (s.restoreShadow x).kept σ = s.kept σ := by simp [State.restoreShadow]
@[simp] theorem State.startFrom_kept (l : Latch) : (s.startFrom l).kept σ = s.kept σ := by simp [State.startFrom]

@[simp] theorem State.startReplay_kept (w : Waiting) : (s.startReplay w).kept σ = s.kept σ := by
  unfold State.startReplay
  split <;> simp

/-! ### Power, clocks and heat -/

@[simp] theorem State.fieldRailsOff_kept : s.fieldRailsOff.kept σ = s.kept σ := by simp [State.fieldRailsOff]
@[simp] theorem State.railsOn_kept : s.railsOn.kept σ = s.kept σ := by simp [State.railsOn]
@[simp] theorem State.darkLanes_kept : s.darkLanes.kept σ = s.kept σ := by simp [State.darkLanes]

@[simp] theorem State.loseQuay_kept (hm : σ.memory = true) : s.loseQuay.kept σ = s.kept σ := by
  simp [State.loseQuay, State.keptOf_memory hm]

@[simp] theorem State.railsOff_kept (hm : σ.memory = true) : s.railsOff.kept σ = s.kept σ := by simp [State.railsOff, hm]
@[simp] theorem State.startLanes_kept : s.startLanes.kept σ = s.kept σ := by simp [State.startLanes]
@[simp] theorem State.stepSix_kept : s.stepSix.kept σ = s.kept σ := by simp [State.stepSix]

@[simp] theorem execRailTelemetry_keeps (rail mv : Nat) (fault : Bool) (h : rail < 13) : Keeps σ s (execRailTelemetry rail mv fault s) := by
  unfold execRailTelemetry
  rw [if_neg (by omega)]
  simp

@[simp] theorem ownPerflevel_keeps (w : Waiting) : (ownPerflevel s w).Keeps σ s := by simp [ownPerflevel]

@[simp] theorem cmdPerflevel_keeps : KCmd.Keeps σ cmdPerflevel := fun s w => by
  simp [cmdPerflevel]

@[simp] theorem State.endOf_kept (w : Option Waiting) : (s.endOf w).kept σ = s.kept σ := by
  unfold State.endOf
  split <;> simp

@[simp] theorem State.reportFailure_kept : s.reportFailure.kept σ = s.kept σ := by simp [State.reportFailure]

@[simp] theorem execLevelChangeComplete_keeps : Keeps σ s (execLevelChangeComplete s) := by
  unfold execLevelChangeComplete
  split <;> simp

@[simp] theorem ownSleep_keeps (w : Waiting) : (ownSleep s w).Keeps σ s := by simp [ownSleep]

@[simp] theorem cmdSleep_keeps : KCmd.Keeps σ cmdSleep := fun s w => by
  simp [cmdSleep]

@[simp] theorem State.toS0_kept : s.toS0.kept σ = s.kept σ := by
  unfold State.toS0
  split <;> simp

@[simp] theorem State.toSleep_kept (st : Nat) (hm : σ.memory = true) : (s.toSleep st).kept σ = s.kept σ := by
  unfold State.toSleep
  split <;> simp [hm]

@[simp] theorem execSleepReached_keeps (hm : σ.memory = true) : Keeps σ s (execSleepReached s) := by
  unfold execSleepReached
  split <;> simp [hm]

@[simp] theorem State.wake_kept : s.wake.kept σ = s.kept σ := by
  unfold State.wake
  split <;> simp

@[simp] theorem execWoke_keeps : Keeps σ s (execWoke s) := by
  unfold execWoke
  split <;> simp

@[simp] theorem State.loseCommands_kept : s.loseCommands.kept σ = s.kept σ := by simp [State.loseCommands]
@[simp] theorem State.klowynDown_kept (hm : σ.memory = true) : s.klowynDown.kept σ = s.kept σ := by simp [State.klowynDown, hm]
@[simp] theorem State.clockStop_kept (hm : σ.memory = true) : s.clockStop.kept σ = s.kept σ := by simp [State.clockStop, hm]

@[simp] theorem State.clockSafe_kept (src : ClkSrc) (hm : σ.memory = true) : (s.clockSafe src).kept σ = s.kept σ := by
  simp [State.clockSafe, hm]

@[simp] theorem execMclkMonitorFail_keeps (hm : σ.memory = true) : Keeps σ s (execMclkMonitorFail s) := by simp [execMclkMonitorFail, hm]
@[simp] theorem State.timeSource_kept : s.timeSource.kept σ = s.kept σ := by simp [State.timeSource]

@[simp] theorem execLrefclkMonitorFail_keeps (hm : σ.memory = true) : Keeps σ s (execLrefclkMonitorFail s) := by
  simp [execLrefclkMonitorFail, hm]

@[simp] theorem execCrystalMonitorFail_keeps (hm : σ.memory = true) : Keeps σ s (execCrystalMonitorFail s) := by
  simp [execCrystalMonitorFail, hm]

@[simp] theorem State.sourceGood_kept (src : ClkSrc) (freq : Nat) : (s.sourceGood src freq).kept σ = s.kept σ := by
  unfold State.sourceGood
  split <;> simp

@[simp] theorem State.clocksReturn_kept : s.clocksReturn.kept σ = s.kept σ := by simp [State.clocksReturn]

@[simp] theorem execMonitorRecovery_keeps (src : ClkSrc) (freq : Nat) : Keeps σ s (execMonitorRecovery src freq s) := by
  simp [execMonitorRecovery]

@[simp] theorem State.writeGate_kept (val : Word) : (s.writeGate val).kept σ = s.kept σ := by
  unfold State.writeGate
  simp only
  split <;> simp

@[simp] theorem State.logTemp_kept (e : Int × Nat) : (s.logTemp e).kept σ = s.kept σ := by simp [State.logTemp]

@[simp] theorem execTemperatureRead_keeps (temps : List Int) (h : temps.length = 21) : Keeps σ s (execTemperatureRead temps s) := by
  unfold execTemperatureRead
  rw [if_neg (by omega)]
  simp

@[simp] theorem State.abandon_kept : s.abandon.kept σ = s.kept σ := by simp [State.abandon]
@[simp] theorem State.thermalOff_kept (hm : σ.memory = true) : s.thermalOff.kept σ = s.kept σ := by simp [State.thermalOff, hm]
@[simp] theorem State.emergency_kept (src : Nat) : (s.emergency src).kept σ = s.kept σ := by simp [State.emergency]

@[simp] theorem execThermalCheck_keeps (temps : List Int) (hm : σ.memory = true) (h : temps.length = 21) :
    Keeps σ s (execThermalCheck temps s) := by
  unfold execThermalCheck
  rw [if_neg (by omega)]
  simp only
  split <;> (try split) <;> simp [hm]

@[simp] theorem execThermalRecovery_keeps (hm : σ.memory = true) : Keeps σ s (execThermalRecovery s) := by simp [execThermalRecovery, hm]

/-! ### Boot and identity -/

@[simp] theorem State.loadFactory_kept : s.loadFactory.kept σ = s.kept σ := by simp [State.loadFactory]
@[simp] theorem State.bootStop_kept (stage code : Nat) : (s.bootStop stage code).kept σ = s.kept σ := by simp [State.bootStop]
@[simp] theorem State.atStage_kept (k : Nat) : (s.atStage k).kept σ = s.kept σ := by simp [State.atStage]

@[simp] theorem State.bootStep_kept (k : Nat) (err : Option Nat) (f : State → State) (hf : ∀ u, (f u).kept σ = u.kept σ) :
    (State.bootStep k err f s).kept σ = s.kept σ := by
  unfold State.bootStep
  split
  · rfl
  · split <;> simp [hf]

@[simp] theorem State.stepOwner_kept : s.stepOwner.kept σ = s.kept σ := by simp [State.stepOwner]

@[simp] theorem State.stepKlowyn_kept : s.stepKlowyn.kept σ = s.kept σ := by
  unfold State.stepKlowyn
  split <;> simp

@[simp] theorem State.stepBoard_kept : s.stepBoard.kept σ = s.kept σ := by simp [State.stepBoard]
@[simp] theorem State.logRejected_kept (id : Nat) : (s.logRejected id).kept σ = s.kept σ := by simp [State.logRejected]
@[simp] theorem State.newEpoch_kept (hb : σ.flash = true) : s.newEpoch.kept σ = s.kept σ := by simp [State.newEpoch, State.keptOf_flash hb]
@[simp] theorem State.stepStart_kept (hb : σ.flash = true) : s.stepStart.kept σ = s.kept σ := by simp [State.stepStart, hb]

@[simp] theorem State.bootLate_kept (err : Option Nat) (hb : σ.flash = true) : (s.bootLate err).kept σ = s.kept σ := by
  simp [State.bootLate, hb]

@[simp] theorem State.underReset_kept (good : Bool) (hm : σ.memory = true) (hc : σ.count = true) (ht : σ.time = true)
    (hf : σ.flags = true) :
    (s.underReset good).kept σ = s.kept σ := by
  simp [State.underReset, State.kept, keptOf, hm, hc, ht, hf]

@[simp] theorem execResetAssert_keeps (hm : σ.memory = true) (hc : σ.count = true) (ht : σ.time = true) (hf : σ.flags = true) :
    Keeps σ s (execResetAssert s) := by
  simp [execResetAssert, hm, hc, ht, hf]

@[simp] theorem execPwrGoodDeassert_keeps (hm : σ.memory = true) (hc : σ.count = true) (ht : σ.time = true) (hf : σ.flags = true) :
    Keeps σ s (execPwrGoodDeassert s) := by
  simp [execPwrGoodDeassert, hm, hc, ht, hf]

@[simp] theorem execPowerUp_keeps (oscDly : BitVec 2) : Keeps σ s (execPowerUp oscDly s) := by simp [execPowerUp]
@[simp] theorem State.romClocks_kept : s.romClocks.kept σ = s.kept σ := by simp [State.romClocks]
@[simp] theorem execOscDelayExpiry_keeps (xtalOk : Bool) : Keeps σ s (execOscDelayExpiry xtalOk s) := by simp [execOscDelayExpiry]
@[simp] theorem State.stepDir_kept : s.stepDir.kept σ = s.kept σ := by simp [State.stepDir]
@[simp] theorem State.stepFactory_kept : s.stepFactory.kept σ = s.kept σ := by simp [State.stepFactory]
@[simp] theorem State.bootEarly_kept (err : Option Nat) : (s.bootEarly err).kept σ = s.kept σ := by simp [State.bootEarly]
@[simp] theorem State.stepLink_kept : s.stepLink.kept σ = s.kept σ := by simp [State.stepLink]
@[simp] theorem State.stepIdentity_kept : s.stepIdentity.kept σ = s.kept σ := by simp [State.stepIdentity]

@[simp] theorem State.coldBoot_kept (err : Option Nat) (puf : List Byte) (hb : σ.flash = true) :
    (s.coldBoot err puf).kept σ = s.kept σ := by
  simp [State.coldBoot, hb]

@[simp] theorem State.railsUpTo_kept (rail : Nat) : (s.railsUpTo rail).kept σ = s.kept σ := by simp [State.railsUpTo]

@[simp] theorem execRailTimeout_keeps (rail : Nat) (hm : σ.memory = true) (h : rail < 8) : Keeps σ s (execRailTimeout rail s) := by
  unfold execRailTimeout
  rw [if_neg (by omega)]
  simp [hm]

@[simp] theorem execWatchdogExpiry_keeps (hm : σ.memory = true) : Keeps σ s (execWatchdogExpiry s) := by simp [execWatchdogExpiry, hm]
@[simp] theorem State.rebootFrom_kept (hm : σ.memory = true) : s.rebootFrom.kept σ = s.kept σ := by simp [State.rebootFrom, hm]

@[simp] theorem State.reboot_kept (err : Option Nat) (hm : σ.memory = true) (hb : σ.flash = true) : (s.reboot err).kept σ = s.kept σ := by
  simp [State.reboot, hm, hb]

@[simp] theorem ownHealth_keeps (w : Waiting) : (ownHealth s w).Keeps σ s := by simp [ownHealth]

@[simp] theorem cmdHealth_keeps : KCmd.Keeps σ cmdHealth := fun s w => by
  simp [cmdHealth]

@[simp] theorem ownAttest_keeps (w : Waiting) : (ownAttest s w).Keeps σ s := by simp [ownAttest]

@[simp] theorem cmdAttest_keeps : KCmd.Keeps σ cmdAttest := fun s w => by
  simp [cmdAttest]

@[simp] theorem ownOwnerupd_keeps (w : Waiting) (hb : σ.flash = true) : (ownOwnerupd s w).Keeps σ s := by
  unfold ownOwnerupd
  simp only [KAns.keeps_ite, KAns.keeps_refuse, implies_true, true_and]
  intros
  split <;> simp [State.keptOf_flash hb]

theorem State.klowynDown_kept_unarmed (h : s.run.phase ≠ .armed) : s.klowynDown.kept σ = s.kept σ := by simp [State.klowynDown, h]

theorem kCheck_none_unarmed {c : CmdSpec} {m : Nat} {r : KReq} {s : State} (hr : c.run = .no) (h : kCheck c m r s = none) :
    s.armed = false := by
  by_contra ha
  rw [Bool.not_eq_false] at ha
  unfold kCheck at h
  simp only [CmdSpec.runCode, hr, ha] at h
  split at h
  · cases h
  split at h
  · cases h
  split at h
  · cases h
  split at h
  · cases h
  simp at h

theorem ownOwnerupd_run {s t : State} {w : Waiting} {d : Dword} {l : List Byte} (h : ownOwnerupd s w = .now t d l) : t.run = s.run := by
  unfold ownOwnerupd at h
  simp only at h
  split at h
  · cases h
  · split at h <;> cases h
    rfl

theorem kFinish_run_unmirrored {c : CmdSpec} (h : c.mir = false) (w : Waiting) (d : Dword) (l : List Byte) :
    (kFinish c s w d l).run = s.run := by
  simp only [kFinish, State.mirrors, h, Bool.and_false, Bool.false_and, Bool.false_eq_true, if_false]
  split <;> split <;> simp

theorem kRun_kept_unarmed {c : KCmd} (hr : c.spec.run = .no) (hm : c.spec.mir = false) (ho : ∀ s w, (c.own s w).Keeps σ s)
    (hrun : ∀ {s w t d l}, c.own s w = .now t d l → t.run = s.run)
    (ha : ∀ s w, s.run.phase ≠ .armed → (c.act s w).kept σ = s.kept σ) (m : Nat) (r : KReq) :
    (kRun c m r s).kept σ = s.kept σ := by
  unfold kRun
  split
  · simp
  rename_i hk
  have hp : s.run.phase ≠ .armed := by
    have hi := kCheck_none_unarmed hr hk
    intro h
    simp [State.armed, h] at hi
  simp only [hm, Bool.false_eq_true, if_false]
  split
  · simp
  case h_2 s1 h =>
    have h1 : (KAns.long s1).Keeps σ _ := h ▸ ho _ _
    simp at h1
    simp [h1]
  case h_3 s1 d l h =>
    have h1 : (KAns.now s1 d l).Keeps σ _ := h ▸ ho _ _
    have h2 : (kFinish c.spec s1 (s.mkWaiting c.spec m r) d l).run.phase ≠ .armed := by
      rw [kFinish_run_unmirrored _ hm, hrun h]
      split <;> simpa using hp
    simp at h1
    simp [h1, ha _ _ h2]

@[simp] theorem kRun_ownerupd_kept (hb : σ.flash = true) (m : Nat) (r : KReq) : (kRun cmdOwnerupd m r s).kept σ = s.kept σ := by
  have ho : cmdOwnerupd.own = ownOwnerupd := by rw [cmdOwnerupd]
  have ha : cmdOwnerupd.act = actOwnerupd := by rw [cmdOwnerupd]
  refine kRun_kept_unarmed s (by rw [cmdOwnerupd]) (by rw [cmdOwnerupd]) ?_ ?_ ?_ m r
  · rw [ho]
    exact fun s w => ownOwnerupd_keeps s w hb
  · rw [ho]
    exact ownOwnerupd_run
  · rw [ha]
    exact fun s _ => s.klowynDown_kept_unarmed

@[simp] theorem State.cfgStore_kept (reg : Nat) (v : Word) : (s.cfgStore reg v).kept σ = s.kept σ := by
  unfold State.cfgStore
  split <;> simp

/-! ### Rejoining -/

@[simp] theorem State.sendXfer_kept (l : List (List Byte)) : (s.sendXfer l).kept σ = s.kept σ := by simp [State.sendXfer]

@[simp] theorem State.sendBatch_kept (l : List (List Byte)) (fresh : Bool) : (s.sendBatch l fresh).kept σ = s.kept σ := by
  simp [State.sendBatch]

@[simp] theorem State.serveTransfer_kept (src : Nat) : (s.serveTransfer src).kept σ = s.kept σ := by simp [State.serveTransfer]
@[simp] theorem State.sendRequest_kept (p : List Byte) : (s.sendRequest p).kept σ = s.kept σ := by simp [State.sendRequest]
@[simp] theorem State.stepEnds_kept : s.stepEnds.kept σ = s.kept σ := by simp [State.stepEnds]

@[simp] theorem State.takeRequest_kept (b : List Byte) : (s.takeRequest b).kept σ = s.kept σ := by
  unfold State.takeRequest
  simp only
  split
  · simp
  split
  · simp
  split
  · split <;> simp
  split
  · simp
  split <;> simp

@[simp] theorem State.takeXfer_kept (seq : Nat) (b : List Byte) : (s.takeXfer seq b).kept σ = s.kept σ := by
  unfold State.takeXfer
  split <;> simp

@[simp] theorem State.gainImage_kept (l : List (List Byte)) (h : List Byte) : (State.gainImage l s h).kept σ = s.kept σ := by
  simp [State.gainImage]

@[simp] theorem State.gainLine_kept (i : Image) (key : Nat) (d : List Byte) (hm : σ.memory = true) :
    (State.gainLine i s key d).kept σ = s.kept σ := by
  unfold State.gainLine
  split <;> simp [hm]

@[simp] theorem State.gainTable_kept (i : Image) (tid : Nat) (d : List Byte) : (State.gainTable i s tid d).kept σ = s.kept σ := by
  unfold State.gainTable
  split <;> simp

@[simp] theorem State.gain_kept (i : Image) (b : List Byte) (hm : σ.memory = true) : (State.gain i s b).kept σ = s.kept σ := by
  unfold State.gain
  split <;> simp [hm]

@[simp] theorem State.gainLog_kept (l : List (List Byte)) : (State.gainLog l s).kept σ = s.kept σ := by simp [State.gainLog]
@[simp] theorem State.gainAll_kept (hm : σ.memory = true) : s.gainAll.kept σ = s.kept σ := by simp [State.gainAll, hm]
@[simp] theorem State.setGen_kept (k g : Nat) : (s.setGen k g).kept σ = s.kept σ := by simp [State.setGen]
@[simp] theorem State.planGens_kept : s.planGens.kept σ = s.kept σ := by simp [State.planGens]
@[simp] theorem State.armRejoin_kept (src : Nat) : (s.armRejoin src).kept σ = s.kept σ := by simp [State.armRejoin]
@[simp] theorem State.rejoinStart_kept : s.rejoinStart.kept σ = s.kept σ := by simp [State.rejoinStart]
@[simp] theorem ownRejoin_keeps (w : Waiting) : (ownRejoin s w).Keeps σ s := by simp [ownRejoin]

@[simp] theorem cmdRejoin_keeps : KCmd.Keeps σ cmdRejoin := fun s w => by
  simp [cmdRejoin]

@[simp] theorem State.rebaseCtxs_kept (j : CN) : (s.rebaseCtxs j).kept σ = s.kept σ := by
  unfold State.rebaseCtxs
  simp only
  split <;> simp

@[simp] theorem State.rebaseTensors_kept (j : CN) : (s.rebaseTensors j).kept σ = s.kept σ := by
  unfold State.rebaseTensors
  split <;> simp

@[simp] theorem ownRebase_keeps (w : Waiting) : (ownRebase s w).Keeps σ s := by simp [ownRebase]
@[simp] theorem actRebase_kept (w : Waiting) : (actRebase s w).kept σ = s.kept σ := by simp [actRebase]

@[simp] theorem cmdRebase_keeps : KCmd.Keeps σ cmdRebase := fun s w => by
  simp [cmdRebase]

@[simp] theorem execRebaseLatch_keeps : Keeps σ s (execRebaseLatch s) := by
  unfold execRebaseLatch
  split <;> simp

@[simp] theorem State.announce_kept : s.announce.kept σ = s.kept σ := by
  unfold State.announce
  split <;> simp

@[simp] theorem execRebase_keeps (hm : σ.memory = true) : Keeps σ s (execRebase s) := by
  unfold execRebase
  split <;> simp [hm]

@[simp] theorem execRunStart_keeps : Keeps σ s (execRunStart s) := by
  unfold execRunStart
  simp only
  split <;> (try split) <;> (try split) <;> simp

theorem kRun_kTable_kept (hb : σ.flash = true) : ∀ c ∈ kTable, ∀ (m : Nat) (r : KReq) (s : State), (kRun c m r s).kept σ = s.kept σ := by
  simp [kTable, hb]

theorem kRun_kFind_kept (hb : σ.flash = true) {op : BitVec 16} {c : KCmd} (h : kFind op = some c) (m : Nat) (r : KReq) (s : State) :
    (kRun c m r s).kept σ = s.kept σ :=
  kRun_kTable_kept hb c (List.mem_of_find?_eq_some h) m r s

/-! ### Commands run by Klowyn -/

@[simp] theorem kTake_kept (m : Nat) (r : KReq) (hb : σ.flash = true) : (kTake m r s).kept σ = s.kept σ := by
  unfold kTake
  split
  · rename_i h
    simp [kRun_kFind_kept hb h]
  · simp

@[simp] theorem execUnlistedOpcodeCommand_keeps (h : CmdHdr) (opcode : BitVec 16) (lst : List Byte) (hb : σ.flash = true)
    (hm : h.mbx < 16) :
    Keeps σ s (execUnlistedOpcodeCommand h opcode lst s) := by
  unfold execUnlistedOpcodeCommand
  rw [if_neg (by omega)]
  simp [hb]

@[simp] theorem State.serveMbx_kept (m : Nat) (hb : σ.flash = true) : (s.serveMbx m).kept σ = s.kept σ := by
  unfold State.serveMbx
  split <;> simp [hb]

@[simp] theorem State.serveAll_kept (hb : σ.flash = true) : s.serveAll.kept σ = s.kept σ := by simp [State.serveAll, hb]

@[simp] theorem execBootRomStart_keeps (flashErr : Option Nat) (puf : List Byte) (hb : σ.flash = true) :
    Keeps σ s (execBootRomStart flashErr puf s) := by
  simp [execBootRomStart, hb]

@[simp] theorem execKlowynReboot_keeps (flashErr : Option Nat) (hm : σ.memory = true) (hb : σ.flash = true) :
    Keeps σ s (execKlowynReboot flashErr s) := by
  simp [execKlowynReboot, hm, hb]

@[simp] theorem State.manifestStop_kept (n status : Nat) : (s.manifestStop n status).kept σ = s.kept σ := by simp [State.manifestStop]

@[simp] theorem State.runManifest_kept (b : List Byte) (fuel : Nat) (i : Nat) (hb : σ.flash = true) :
    (State.runManifest b fuel i s).kept σ = s.kept σ := by
  induction fuel generalizing i s with
  | zero => rfl
  | succ k ih =>
    unfold State.runManifest
    split
    · rfl
    split
    · simp
    split
    · rfl
    simp only
    split
    · simp
    · simp [ih, hb]

@[simp] theorem State.manifestFrom_kept (p : Nat) (hb : σ.flash = true) : (s.manifestFrom p).kept σ = s.kept σ := by
  simp [State.manifestFrom, hb]

@[simp] theorem execManifestRun_keeps (hb : σ.flash = true) : Keeps σ s (execManifestRun s) := by
  unfold execManifestRun
  split <;> simp [hb]

/-! ### Mirror frames -/

@[simp] theorem State.sayReady_kept : s.sayReady.kept σ = s.kept σ := by
  unfold State.sayReady
  split <;> simp

@[simp] theorem execMirrorFrameSend_keeps : Keeps σ s (execMirrorFrameSend s) := by simp [execMirrorFrameSend]
@[simp] theorem State.releaseMirror_kept (y : CN) (l i : Nat) : (s.releaseMirror y l i).1.kept σ = s.kept σ := by simp [State.releaseMirror]

@[simp] theorem State.releaseAll_kept (y : CN) : (s.releaseAll y).1.kept σ = s.kept σ := by
  refine foldl_kept_of Prod.fst _ (fun a e => ?_) _ (s, [])
  simp

@[simp] theorem State.applyMirrored_kept (b : List Byte) (hb : σ.flash = true) : (s.applyMirrored b).kept σ = s.kept σ := by
  have hr : ∀ c m r u, mirFind (mirroredReq b).op = some c → (kRun c m r u).kept σ = u.kept σ := by
    intro c m r u h
    unfold mirFind at h
    split at h
    · cases h
      exact kRun_kept _ _ _ _ cmdRebase_keeps
    · exact kRun_kFind_kept hb h m r u
  unfold State.applyMirrored
  simp only
  split
  · rfl
  · rename_i h
    split <;> simp [hr _ _ _ _ h]

@[simp] theorem State.takeCommand_kept (seq : Nat) (b : List Byte) (hb : σ.flash = true) : (s.takeCommand seq b).kept σ = s.kept σ := by
  unfold State.takeCommand
  simp only
  split <;> (try split) <;> simp [hb]

@[simp] theorem State.endStepTwo_kept (src : Nat) (hm : σ.memory = true) (hb : σ.flash = true) : (s.endStepTwo src).kept σ = s.kept σ := by
  simp [State.endStepTwo, hm, hb]

@[simp] theorem State.checkStepTwo_kept (hm : σ.memory = true) (hb : σ.flash = true) : s.checkStepTwo.kept σ = s.kept σ := by
  unfold State.checkStepTwo
  split <;> simp [hm, hb]

@[simp] theorem State.takePacket_kept (p : List Byte) (hb : σ.flash = true) : (s.takePacket p).kept σ = s.kept σ := by
  unfold State.takePacket
  split <;> simp [hb]

@[simp] theorem State.askAgain_kept : s.askAgain.kept σ = s.kept σ := by
  unfold State.askAgain
  split <;> simp

@[simp] theorem State.mirrorRelease_kept (y : CN) (hm : σ.memory = true) (hb : σ.flash = true) : (s.mirrorRelease y).kept σ = s.kept σ := by
  unfold State.mirrorRelease
  simp only
  split <;> simp [hm, hb]

@[simp] theorem execMirrorFrameRelease_keeps (hm : σ.memory = true) (hb : σ.flash = true) : Keeps σ s (execMirrorFrameRelease s) := by
  simp [execMirrorFrameRelease, hm, hb]

@[simp] theorem State.putFlagBit_kept (w b : Nat) (v : Bool) (hf : σ.flags = true) : (s.putFlagBit w b v).kept σ = s.kept σ := by
  simp [State.putFlagBit, State.keptOf_flags hf]

/-! ### Host accesses and registers -/

@[simp] theorem State.access_keeps (req : Requester) (f : State → State) (hf : ∀ u, (f u).kept σ = u.kept σ) :
    Keeps σ s (s.access req f) := by
  simp [State.access, hf]

@[simp] theorem State.capture_kept (req : Requester) (off words : Nat) : (s.capture req off words).kept σ = s.kept σ := by
  simp [State.capture]

@[simp] theorem State.readWord_kept (req : Requester) (off : Nat) : (s.readWord req off).1.kept σ = s.kept σ := by
  unfold State.readWord
  split
  · split
    · split <;> simp
    · rfl
  · rfl

@[simp] theorem State.readWords_kept (req : Requester) (off : Nat) (n : Nat) : (State.readWords req off n s).1.kept σ = s.kept σ := by
  induction n generalizing off s with
  | zero => rfl
  | succ n ih => simp [State.readWords, ih]

@[simp] theorem State.readReq_kept (req : Requester) (off n : Nat) : (s.readReq req off n).kept σ = s.kept σ := by simp [State.readReq]

@[simp] theorem execLowWordRead_keeps (req : Requester) (at_ : RegSpan) (h : barReq at_.off at_.words = true) :
    Keeps σ s (execLowWordRead req at_ s) := by
  simp [execLowWordRead, h]

@[simp] theorem State.stageChr_kept (o : Nat) (v : Word) : (s.stageChr o v).kept σ = s.kept σ := by simp [State.stageChr]
@[simp] theorem State.stagePulse_kept (o : Nat) (v : Word) : (s.stagePulse o v).kept σ = s.kept σ := by simp [State.stagePulse]
@[simp] theorem State.stageCig_kept (o : Nat) (v : Word) : (s.stageCig o v).kept σ = s.kept σ := by simp [State.stageCig]

@[simp] theorem State.stageWord_kept (req : Requester) (o : Nat) (v : Word) : (s.stageWord req o v).kept σ = s.kept σ := by
  simp [State.stageWord]

@[simp] theorem execStagedWrite_keeps (req : Requester) (off : Nat) (val : Word) (h : stagedOff off = true) :
    Keeps σ s (execStagedWrite req off val s) := by
  simp [execStagedWrite, h]

@[simp] theorem State.noted_kept (s old : State) (ws : List Nat) : (s.noted old ws).kept σ = s.kept σ := by simp [State.noted]

@[simp] theorem State.writeClear_kept (o : Nat) (v : Word) : (s.writeClear o v).kept σ = s.kept σ := by
  unfold State.writeClear
  split <;> simp

@[simp] theorem execClearAliasWrite_keeps (off : Nat) (w : RegWrite) (h : aliasOff off = true) :
    Keeps σ s (execClearAliasWrite off w s) := by
  simp [execClearAliasWrite, h]

@[simp] theorem State.writeAlias_kept (o : Nat) (val : Word) (hf : σ.flags = true) : (s.writeAlias o val).kept σ = s.kept σ := by
  simp [State.writeAlias, hf]

@[simp] theorem State.writeBit_kept (o : Nat) (v : Word) (hf : σ.flags = true) : (s.writeBit o v).kept σ = s.kept σ := by
  simp [State.writeBit, hf]

@[simp] theorem execBitAliasWrite_keeps (off : Nat) (w : RegWrite) (hf : σ.flags = true) (h : bitOff off = true) :
    Keeps σ s (execBitAliasWrite off w s) := by
  simp [execBitAliasWrite, h, hf]

@[simp] theorem execChrArm_keeps : Keeps σ s (execChrArm s) := by simp [execChrArm]

@[simp] theorem State.commitChr_kept (req : Requester) (v : Word) (ht : σ.time = true) : (s.commitChr req v).kept σ = s.kept σ := by
  simp [State.commitChr, ht]

@[simp] theorem execChrStepCommit_keeps (req : Requester) (ht : σ.time = true) : Keeps σ s (execChrStepCommit req s) := by
  simp [execChrStepCommit, ht]

@[simp] theorem execChrRateCommit_keeps (req : Requester) (ht : σ.time = true) : Keeps σ s (execChrRateCommit req s) := by
  simp [execChrRateCommit, ht]

@[simp] theorem execChrModeChange_keeps (w : RegWrite) (ht : σ.time = true) : Keeps σ s (execChrModeChange w s) := by
  simp [execChrModeChange, ht]

@[simp] theorem execPulseCommit_keeps (req : Requester) (p : Nat) (h : p < 8) : Keeps σ s (execPulseCommit req p s) := by
  unfold execPulseCommit
  rw [if_neg (by omega)]
  simp

@[simp] theorem execClkGateWrite_keeps (w : RegWrite) : Keeps σ s (execClkGateWrite w s) := by simp [execClkGateWrite]
@[simp] theorem execWake_keeps : Keeps σ s (execWake s) := by simp [execWake]
@[simp] theorem State.cigLearn_kept : s.cigLearn.kept σ = s.kept σ := by simp [State.cigLearn]
@[simp] theorem State.cigApply_kept : s.cigApply.kept σ = s.kept σ := by simp [State.cigApply]
@[simp] theorem State.cigCommit_kept (req : Requester) : (s.cigCommit req).kept σ = s.kept σ := by simp [State.cigCommit]
@[simp] theorem State.cigRun_kept (on take : Bool) : (s.cigRun on take).kept σ = s.kept σ := by simp [State.cigRun]
@[simp] theorem State.writeCigCtl_kept (req : Requester) (v : Word) : (s.writeCigCtl req v).kept σ = s.kept σ := by simp [State.writeCigCtl]
@[simp] theorem State.unmask_kept (n : Nat) : (s.unmask n).kept σ = s.kept σ := by simp [State.unmask]
@[simp] theorem State.writeMsix_kept (k : Nat) (v : Word) : (s.writeMsix k v).kept σ = s.kept σ := by simp [State.writeMsix]
@[simp] theorem State.ringDoor_kept (m : Nat) (hb : σ.flash = true) : (s.ringDoor m).kept σ = s.kept σ := by simp [State.ringDoor, hb]

@[simp] theorem State.writeMbx_kept (m r : Nat) (v : Word) (hb : σ.flash = true) : (s.writeMbx m r v).kept σ = s.kept σ := by
  simp [State.writeMbx, hb]

@[simp] theorem State.writeReg_kept (req : Requester) (o : Nat) (v : Word) (ht : σ.time = true) (hf : σ.flags = true)
    (hb : σ.flash = true) :
    (s.writeReg req o v).kept σ = s.kept σ := by
  simp [State.writeReg, State.keptOf_flags hf, ht, hb]

@[simp] theorem State.writeWord_kept (req : Requester) (o : Nat) (v : Word) (ht : σ.time = true) (hf : σ.flags = true)
    (hb : σ.flash = true) :
    (s.writeWord req o v).kept σ = s.kept σ := by
  simp [State.writeWord, ht, hf, hb]

@[simp] theorem State.writeWords_kept (req : Requester) (off : Nat) (vals : List Word) (ht : σ.time = true) (hf : σ.flags = true)
    (hb : σ.flash = true) :
    (State.writeWords req off vals s).kept σ = s.kept σ := by
  induction vals generalizing off s with
  | nil => rfl
  | cons v r ih => simp [State.writeWords, ih, ht, hf, hb]

@[simp] theorem execRegisterWrite_keeps (req : Requester) (off : Nat) (vals : List Word) (whole : Bool) (ht : σ.time = true)
    (hf : σ.flags = true) (hb : σ.flash = true) (h : barReq off vals.length = true) :
    Keeps σ s (execRegisterWrite req off vals whole s) := by
  simp [execRegisterWrite, h, ht, hf, hb]

@[simp] theorem State.queueHost_kept (l : List HostBurst) : (s.queueHost l).kept σ = s.kept σ := by simp [State.queueHost]

@[simp] theorem execBar4Read_keeps (off len : Nat) (noise : List (BitVec 288)) (h : bar4Ok off len = true) :
    Keeps σ s (execBar4Read off len noise s) := by
  simp [execBar4Read, h]

@[simp] theorem State.writePiece_kept (p : Piece) (l : List Byte) (hm : σ.memory = true) : (s.writePiece p l).kept σ = s.kept σ := by
  simp [State.writePiece, hm]

@[simp] theorem execBar4Write_keeps (off : Nat) (bytes : List Byte) (hm : σ.memory = true) (h : bar4Ok off bytes.length = true) :
    Keeps σ s (execBar4Write off bytes s) := by
  simp [execBar4Write, h, hm]

@[simp] theorem State.endpointReset_kept (d3 : Bool) : (s.endpointReset d3).kept σ = s.kept σ := by simp [State.endpointReset]
@[simp] theorem State.cfgWrite_kept (reg : Nat) (v : Word) : (s.cfgWrite reg v).kept σ = s.kept σ := by simp [State.cfgWrite]

@[simp] theorem execConfigRequest_keeps (reg : Nat) (wr : Option Word) (h : reg < 1024) : Keeps σ s (execConfigRequest reg wr s) := by
  unfold execConfigRequest
  rw [if_neg (by omega)]
  split <;> (try split) <;> (try split) <;> simp

@[simp] theorem execPerstN_keeps : Keeps σ s (execPerstN s) := by simp [execPerstN]
@[simp] theorem execFunctionLevelReset_keeps : Keeps σ s (execFunctionLevelReset s) := by simp [execFunctionLevelReset]
@[simp] theorem execD3hotEntry_keeps : Keeps σ s (execD3hotEntry s) := by simp [execD3hotEntry]

/-! ### The integrity engine -/

@[simp] theorem State.cigLearned_kept (c : Word) : (s.cigLearned c).kept σ = s.kept σ := by simp [State.cigLearned]
@[simp] theorem State.cigCompare_kept (c : Word) : (s.cigCompare c).kept σ = s.kept σ := by simp [State.cigCompare]
@[simp] theorem State.cigNext_kept : s.cigNext.kept σ = s.kept σ := by simp [State.cigNext]
@[simp] theorem execCigPass_keeps : Keeps σ s (execCigPass s) := by simp [execCigPass]
@[simp] theorem execCigLearn_keeps (req : Requester) : Keeps σ s (execCigLearn req s) := by simp [execCigLearn]
@[simp] theorem execCigCommit_keeps (req : Requester) : Keeps σ s (execCigCommit req s) := by simp [execCigCommit]

/-! ### Crossings -/

@[simp] theorem State.keepRecs_kept : s.keepRecs.kept σ = s.kept σ := by simp [State.keepRecs]
@[simp] theorem State.crossingEnd_kept : s.crossingEnd.kept σ = s.kept σ := by simp [State.crossingEnd]

@[simp] theorem State.replayCmd_kept (w : Waiting) (hb : σ.flash = true) : (s.replayCmd w).kept σ = s.kept σ := by
  unfold State.replayCmd
  split
  · rename_i h
    simp [kRun_kFind_kept hb h]
  · rfl

@[simp] theorem State.replayCcmd_kept (word : Byte) (hc : σ.count = true) : (s.replayCcmd word).kept σ = s.kept σ := by
  simp [State.replayCcmd, hc]

@[simp] theorem State.replayPause_kept (p : CN) : (s.replayPause p).kept σ = s.kept σ := by simp [State.replayPause]

@[simp] theorem State.replayEvent_kept (e : LogEvt) (hc : σ.count = true) (hb : σ.flash = true) : (s.replayEvent e).kept σ = s.kept σ := by
  unfold State.replayEvent
  split <;> simp [hc, hb]

@[simp] theorem State.replayEvents_kept (hc : σ.count = true) (hb : σ.flash = true) : s.replayEvents.kept σ = s.kept σ := by
  simp [State.replayEvents, hc, hb]

@[simp] theorem execCrossingStart_keeps (hc : σ.count = true) (hb : σ.flash = true) : Keeps σ s (execCrossingStart s) := by
  simp [execCrossingStart, State.keptOf_count hc, hb, hc]

end

end Sys2Proof.Machine
end

section
/-! PROOFS. Every command keeps what its scope says where its operands name units of the device, and stops where they do not (00 R1). -/

namespace Sys2Proof.Machine

/-- The parts of the device state that the lists of O7 let command c write. -/
def scopeOf (c : Instr) : Scope := ⟨mayWriteMemory c, mayCount c, mayMoveTime c, mayWriteFlags c, mayWriteFlash c⟩

theorem of_runnable {b : Bool} (h : (b && true) = true) : b = true := by simpa using h

theorem holds_of_runnable {p : Prop} [Decidable p] (h : (decide p && true) = true) : p := by simpa using h

theorem both_of_runnable {p q : Prop} [Decidable p] [Decidable q] (h : ((decide p && decide q) && true) = true) : p ∧ q := by
  simpa using h

theorem CmdHdr.lt_of_runnable {h : CmdHdr} (hr : (h.wf && true) = true) : h.mbx < 16 := holds_of_runnable hr

theorem hasCell_of_runnable {s : State} {x y : Nat} (h : (cellOk x y && s.hasCell x y) = true) : s.hasCell x y = true :=
  (Bool.and_eq_true_iff.mp h).2

theorem execTlaunch_keeps {σ : Scope} (s : State) (h : CmdHdr) (lane timeLo timeHi : Dword) (lst : List Byte) (hm : h.mbx < 16) :
    Keeps σ s (execTlaunch h lane timeLo timeHi lst s) := by
  obtain ⟨t, ht, hk⟩ := kSubmit_keeps s (r := mkReq 0x0902 h [lane, timeLo, timeHi] lst) hm (cmdTlaunch_keeps (σ := σ))
  unfold execTlaunch
  rw [ht]
  simp [hk]

/-- A command whose operands name units of the device answers a next state that keeps what the command may not write. -/
theorem exec_keeps (c : Instr) (s : State) (hr : runnable c s = true) : Keeps (scopeOf c) s (exec c s) := by
  cases c with
  | admitImage h slot src offset length => exact kSubmit_keeps s (CmdHdr.lt_of_runnable hr) cmdAdmit_keeps
  | admissionComplete => exact execAdmissionComplete_keeps s
  | evict h slot => exact kSubmit_keeps s (CmdHdr.lt_of_runnable hr) cmdEvict_keeps
  | libquery h slot => exact kSubmit_keeps s (CmdHdr.lt_of_runnable hr) cmdLibquery_keeps
  | arm h slot pl seed seedv debug => exact kSubmit_keeps s (CmdHdr.lt_of_runnable hr) cmdArm_keeps
  | runStart => exact execRunStart_keeps s
  | stop h => exact kSubmit_keeps s (CmdHdr.lt_of_runnable hr) cmdStop_keeps
  | runStopEffect => exact execRunStopEffect_keeps s rfl
  | pause h => exact kSubmit_keeps s (CmdHdr.lt_of_runnable hr) cmdPause_keeps
  | pauseStart => exact execPauseStart_keeps s
  | paused => exact execPaused_keeps s
  | resume h => exact kSubmit_keeps s (CmdHdr.lt_of_runnable hr) cmdResume_keeps
  | resumeEffect ready => exact execResumeEffect_keeps s _
  | runFillEnd => exact execRunFillEnd_keeps s
  | loadedTrainingComplete => exact execLoadedTrainingComplete_keeps s
  | fill h slot => exact kSubmit_keeps s (CmdHdr.lt_of_runnable hr) cmdFill_keeps
  | fillComplete => exact execFillComplete_keeps s
  | cancel h => exact kSubmit_keeps s (CmdHdr.lt_of_runnable hr) cmdCancel_keeps
  | switch h => exact kSubmit_keeps s (CmdHdr.lt_of_runnable hr) cmdSwitch_keeps
  | waypointInjection => exact execWaypointInjection_keeps s
  | waypointArrival x y => exact execWaypointArrival_keeps s _ _ (hasCell_of_runnable hr)
  | seam x y => exact execSeam_keeps s _ _ (hasCell_of_runnable hr)
  | switchComplete => exact execSwitchComplete_keeps s
  | tload h tid faces offset length => exact kSubmit_keeps s (CmdHdr.lt_of_runnable hr) cmdTload_keeps
  | twrite h tid offset nrows => exact kSubmit_keeps s (CmdHdr.lt_of_runnable hr) cmdTwrite_keeps
  | tableWriteComplete tid => exact execTableWriteComplete_keeps s _ rfl (holds_of_runnable hr)
  | tswap h tid => exact kSubmit_keeps s (CmdHdr.lt_of_runnable hr) cmdTswap_keeps
  | swapEffect tid => exact execSwapEffect_keeps s _ (holds_of_runnable hr)
  | catchUp tid => exact execCatchUp_keeps s _ rfl (holds_of_runnable hr)
  | wgmcommit h clear count lst => exact kSubmit_keeps s (CmdHdr.lt_of_runnable hr) cmdWgmcommit_keeps
  | wgmCommitApply => exact execWgmCommitApply_keeps s
  | ctxcommit h count lst => exact kSubmit_keeps s (CmdHdr.lt_of_runnable hr) cmdCtxcommit_keeps
  | contextCommitApply => exact execContextCommitApply_keeps s
  | lanecommit h lane cnofs flim => exact kSubmit_keeps s (CmdHdr.lt_of_runnable hr) cmdLanecommit_keeps
  | cnofsApply lane => exact execCnofsApply_keeps s _ (holds_of_runnable hr)
  | caparm h pre post lanes bcnen acclat ctl => exact kSubmit_keeps s (CmdHdr.lt_of_runnable hr) cmdCaparm_keeps
  | captureArmApply => exact execCaptureArmApply_keeps s
  | captrig h => exact kSubmit_keeps s (CmdHdr.lt_of_runnable hr) cmdCaptrig_keeps
  | klowynTrigger => exact execKlowynTrigger_keeps s
  | capdrain h dest haddr => exact kSubmit_keeps s (CmdHdr.lt_of_runnable hr) cmdCapdrain_keeps
  | drainComplete => exact execDrainComplete_keeps s
  | caprelease h => exact kSubmit_keeps s (CmdHdr.lt_of_runnable hr) cmdCaprelease_keeps
  | bcnload h beacon base len min ctl lst => exact kSubmit_keeps s (CmdHdr.lt_of_runnable hr) cmdBcnload_keeps
  | beaconLoadApply => exact execBeaconLoadApply_keeps s
  | envload h quay first count lst => exact kSubmit_keeps s (CmdHdr.lt_of_runnable hr) cmdEnvload_keeps
  | envelopeLoadApply => exact execEnvelopeLoadApply_keeps s
  | logstart h mode lanes atArm lst => exact kSubmit_keeps s (CmdHdr.lt_of_runnable hr) cmdLogstart_keeps
  | logbookStart => exact execLogbookStart_keeps s
  | logstop h => exact kSubmit_keeps s (CmdHdr.lt_of_runnable hr) cmdLogstop_keeps
  | replay h slot offset partialR debug => exact kSubmit_keeps s (CmdHdr.lt_of_runnable hr) cmdReplay_keeps
  | paircfg h mode pairid pref mr autorst => exact kSubmit_keeps s (CmdHdr.lt_of_runnable hr) cmdPaircfg_keeps
  | yield h => exact kSubmit_keeps s (CmdHdr.lt_of_runnable hr) cmdYield_keeps
  | rejoin h src => exact kSubmit_keeps s (CmdHdr.lt_of_runnable hr) cmdRejoin_keeps
  | timesvc h enable domain hubmask => exact kSubmit_keeps s (CmdHdr.lt_of_runnable hr) cmdTimesvc_keeps
  | tlaunch h lane timeLo timeHi lst => exact execTlaunch_keeps s h _ _ _ _ (CmdHdr.lt_of_runnable hr)
  | timeLaunch lane phase => exact execTimeLaunch_keeps s lane phase (holds_of_runnable hr)
  | tmap h cn => exact kSubmit_keeps s (CmdHdr.lt_of_runnable hr) cmdTmap_keeps
  | deskew h first count ref window => exact kSubmit_keeps s (CmdHdr.lt_of_runnable hr) cmdDeskew_keeps
  | pedestal h first count => exact kSubmit_keeps s (CmdHdr.lt_of_runnable hr) cmdPedestal_keeps
  | histo h target samples => exact kSubmit_keeps s (CmdHdr.lt_of_runnable hr) cmdHisto_keeps
  | eyescan h lane dwell ethr haddr => exact kSubmit_keeps s (CmdHdr.lt_of_runnable hr) cmdEyescan_keeps
  | eyescanComplete lane counts => exact execEyescanComplete_keeps s _ _ (holds_of_runnable hr)
  | lanetune h lane => exact kSubmit_keeps s (CmdHdr.lt_of_runnable hr) cmdLanetune_keeps
  | lanealign h => exact kSubmit_keeps s (CmdHdr.lt_of_runnable hr) cmdLanealign_keeps
  | laneidle h lane enter => exact kSubmit_keeps s (CmdHdr.lt_of_runnable hr) cmdLaneidle_keeps
  | health h first => exact kSubmit_keeps s (CmdHdr.lt_of_runnable hr) cmdHealth_keeps
  | sleep h st => exact kSubmit_keeps s (CmdHdr.lt_of_runnable hr) cmdSleep_keeps
  | sleepReached => exact execSleepReached_keeps s rfl
  | wake => exact execWake_keeps s
  | woke => exact execWoke_keeps s
  | perflevel h pl => exact kSubmit_keeps s (CmdHdr.lt_of_runnable hr) cmdPerflevel_keeps
  | levelChangeComplete => exact execLevelChangeComplete_keeps s
  | attest h nonceLo nonceHi => exact kSubmit_keeps s (CmdHdr.lt_of_runnable hr) cmdAttest_keeps
  | ownerupd h offset length => exact kSubmit_keeps_of_run s (CmdHdr.lt_of_runnable hr) (fun u => kRun_ownerupd_kept u rfl _ _)
  | mgmtsend h lane lst => exact kSubmit_keeps s (CmdHdr.lt_of_runnable hr) cmdMgmtsend_keeps
  | manifestRun => exact execManifestRun_keeps s rfl
  | autoRestart => exact execAutoRestart_keeps s
  | almanacLookupSlot sub pos noise => exact execAlmanacLookupSlot_keeps s _ _ _ (both_of_runnable hr)
  | sramRead req key noise => exact execSramRead_keeps s _ _ _ (holds_of_runnable hr)
  | almanacResult req => exact execAlmanacResult_keeps s _ (holds_of_runnable hr)
  | writeClassSlot sub pos => exact execWriteClassSlot_keeps s _ _ rfl (both_of_runnable hr)
  | refreshSlot sub => exact execRefreshSlot_keeps s _ rfl (holds_of_runnable hr)
  | retrainingStep sub pos width height => exact execRetrainingStep_keeps s _ _ _ _ (both_of_runnable hr)
  | crossingStart => exact execCrossingStart_keeps s rfl rfl
  | codewordReceive lane syms => exact execCodewordReceive_keeps s _ _ (both_of_runnable hr)
  | alignmentMarker lane payload gap => exact execAlignmentMarker_keeps s _ _ _ (holds_of_runnable hr)
  | lockLoss lane => exact execLockLoss_keeps s _ (holds_of_runnable hr)
  | trainingBurst lane => exact execTrainingBurst_keeps s _ (holds_of_runnable hr)
  | crossingFrameReceive lane => exact execCrossingFrameReceive_keeps s _ (holds_of_runnable hr)
  | frameRelease lane => exact execFrameRelease_keeps s _ (holds_of_runnable hr)
  | sextantMeasurement lane width height => exact execSextantMeasurement_keeps s _ _ _ (holds_of_runnable hr)
  | channelStage => exact execChannelStage_keeps s
  | averagingBlockComplete ctx => exact execAveragingBlockComplete_keeps s _ (holds_of_runnable hr)
  | wakeBufferFreeze => exact execWakeBufferFreeze_keeps s
  | wgmDerivation => exact execWgmDerivation_keeps s
  | scaleApply => exact execScaleApply_keeps s
  | outputAssembly => exact execOutputAssembly_keeps s
  | fdecDrive => exact execFdecDrive_keeps s
  | hubFrameTransmit lane phase => exact execHubFrameTransmit_keeps s _ _ (holds_of_runnable hr)
  | chainFrameTransmit lane => exact execChainFrameTransmit_keeps s _ (holds_of_runnable hr)
  | hubPacketReceive lane bytes lost phase => exact execHubPacketReceive_keeps s _ _ _ _ (holds_of_runnable hr)
  | mirrorFrameSend => exact execMirrorFrameSend_keeps s
  | mirrorFrameRelease => exact execMirrorFrameRelease_keeps s rfl rfl
  | mirrorLaneDrop lane => exact execMirrorLaneDrop_keeps s _ (holds_of_runnable hr)
  | takeover => exact execTakeover_keeps s rfl
  | rebaseLatch => exact execRebaseLatch_keeps s
  | rebase => exact execRebase_keeps s rfl
  | joined => exact execJoined_keeps s
  | orbitMarker phase => exact execOrbitMarker_keeps s _
  | orbitZero phase => exact execOrbitZero_keeps s _ rfl
  | externalAccept => exact execExternalAccept_keeps s
  | ccmdIdle => exact execCcmdIdle_keeps s
  | ccmdInvalid word => exact execCcmdInvalid_keeps s _
  | ppsIn phase => exact execPpsIn_keeps s _
  | pulseEdge p => exact execPulseEdge_keeps s _ (holds_of_runnable hr)
  | pulseWidthEnd p => exact execPulseWidthEnd_keeps s _ (holds_of_runnable hr)
  | ppsOutEdge => exact execPpsOutEdge_keeps s
  | ppsOutWidthEnd => exact execPpsOutWidthEnd_keeps s
  | chrArm => exact execChrArm_keeps s
  | chrStepCommit req => exact execChrStepCommit_keeps s _ rfl
  | chrRateCommit req => exact execChrRateCommit_keeps s _ rfl
  | chrModeChange w => exact execChrModeChange_keeps s _ rfl
  | pulseCommit req p => exact execPulseCommit_keeps s _ _ (holds_of_runnable hr)
  | stagedWrite req off val => exact execStagedWrite_keeps s _ _ _ (of_runnable hr)
  | cigCommit req => exact execCigCommit_keeps s _
  | cigLearn req => exact execCigLearn_keeps s _
  | cigPass => exact execCigPass_keeps s
  | clkGateWrite w => exact execClkGateWrite_keeps s _
  | clearAliasWrite off w => exact execClearAliasWrite_keeps s _ _ (of_runnable hr)
  | lowWordRead req at_ => exact execLowWordRead_keeps s _ _ (of_runnable hr)
  | bitAliasWrite off w => exact execBitAliasWrite_keeps s _ _ rfl (of_runnable hr)
  | registerWrite req off vals whole => exact execRegisterWrite_keeps s _ _ _ _ rfl rfl rfl (of_runnable hr)
  | bar4Read off len noise => exact execBar4Read_keeps s _ _ _ (of_runnable hr)
  | bar4Write off bytes => exact execBar4Write_keeps s _ _ rfl (of_runnable hr)
  | configRequest reg wr => exact execConfigRequest_keeps s _ _ (holds_of_runnable hr)
  | perstN => exact execPerstN_keeps s
  | functionLevelReset => exact execFunctionLevelReset_keeps s
  | d3hotEntry => exact execD3hotEntry_keeps s
  | resetAssert => exact execResetAssert_keeps s rfl rfl rfl rfl
  | powerUp oscDly => exact execPowerUp_keeps s _
  | pwrGoodDeassert => exact execPwrGoodDeassert_keeps s rfl rfl rfl rfl
  | oscDelayExpiry xtalOk => exact execOscDelayExpiry_keeps s _
  | bootRomStart flashErr puf => exact execBootRomStart_keeps s _ _ rfl
  | railTimeout rail => exact execRailTimeout_keeps s _ rfl (holds_of_runnable hr)
  | klowynReboot flashErr => exact execKlowynReboot_keeps s _ rfl rfl
  | watchdogExpiry => exact execWatchdogExpiry_keeps s rfl
  | mclkMonitorFail => exact execMclkMonitorFail_keeps s rfl
  | lrefclkMonitorFail => exact execLrefclkMonitorFail_keeps s rfl
  | crystalMonitorFail => exact execCrystalMonitorFail_keeps s rfl
  | monitorRecovery src freq => exact execMonitorRecovery_keeps s _ _
  | railTelemetry rail mv fault => exact execRailTelemetry_keeps s _ _ _ (holds_of_runnable hr)
  | temperatureRead temps => exact execTemperatureRead_keeps s _ (holds_of_runnable hr)
  | thermalCheck temps => exact execThermalCheck_keeps s _ rfl (holds_of_runnable hr)
  | thermalRecovery => exact execThermalRecovery_keeps s rfl
  | tableLoadComplete tid => exact execTableLoadComplete_keeps s _ rfl (holds_of_runnable hr)
  | unlistedOpcodeCommand h opcode lst => exact execUnlistedOpcodeCommand_keeps s _ _ _ rfl (CmdHdr.lt_of_runnable hr)
  | nop x y | macd x y | macdz x y | macv x y | macvz x y | accadd x y | accsub x y | accld x y | accclr x y | accmax x y
    | accmin x y | rqs x y | rqv x y | rqvc x y | lutv8 x y | lutv4 x y | luts x y | luti x y | cmplt x y | cmple x y | cmpeq x y
    | cmpltu x y | sel x y | min_ x y | max_ x y | cx x y | vmax x y | vmin x y | hmax x y | abs_ x y | and_ x y | or_ x y
    | xor_ x y | andn x y | shl x y | shr x y | sar x y | popc x y | mov x y | bcast x y | unpk x y =>
    exact issueOp_keeps s _ _ _ _ (hasCell_of_runnable hr)

theorem not_of_not_runnable {b : Bool} (h : (b && true) = false) : (!b) = true := by simpa using h

theorem fails_of_not_runnable {p : Prop} [Decidable p] (h : (decide p && true) = false) : ¬p := by simpa using h

theorem not_both_of_not_runnable {p q : Prop} [Decidable p] [Decidable q] (h : ((decide p && decide q) && true) = false) : ¬(p ∧ q) := by
  simpa using h

theorem CmdHdr.le_of_not_runnable {h : CmdHdr} (hr : (h.wf && true) = false) : 16 ≤ h.mbx :=
  Nat.le_of_not_lt (fails_of_not_runnable hr)

theorem State.cellOk_of_hasCell {s : State} {x y : Nat} (h : s.hasCell x y = true) : cellOk x y = true := by
  simp only [State.hasCell, cellOk, decide_eq_true_eq] at h ⊢
  split at h <;> omega

theorem hasCell_of_not_runnable {s : State} {x y : Nat} (hr : (cellOk x y && s.hasCell x y) = false) : ¬s.hasCell x y = true := by
  intro h
  simp [h, State.cellOk_of_hasCell h] at hr

theorem kSubmit_stops {c : KCmd} {r : KReq} {s : State} (h : 16 ≤ r.hdr.mbx) : kSubmit c r s = .fault .noSuchUnit := if_pos h

theorem execTlaunch_stops (s : State) (h : CmdHdr) (lane timeLo timeHi : Dword) (lst : List Byte) (hm : 16 ≤ h.mbx) :
    execTlaunch h lane timeLo timeHi lst s = .fault .noSuchUnit := by
  simp [execTlaunch, kSubmit_stops (c := cmdTlaunch) (r := mkReq 0x0902 h [lane, timeLo, timeHi] lst) (s := s) hm]

/-- A command whose operands name a unit that the device has not stops (DESIGN CHOICE, log entry 6). -/
theorem exec_stops (c : Instr) (s : State) (hr : runnable c s = false) : exec c s = .fault .noSuchUnit := by
  cases c with
  | admitImage h slot src offset length | evict h slot | libquery h slot | arm h slot pl seed seedv debug | stop h | pause h
    | resume h | fill h slot | cancel h | switch h | tload h tid faces offset length | twrite h tid offset nrows | tswap h tid
    | wgmcommit h clear count lst | ctxcommit h count lst | lanecommit h lane cnofs flim | caparm h pre post lanes bcnen acclat ctl
    | captrig h | capdrain h dest haddr | caprelease h | bcnload h beacon base len min ctl lst | envload h quay first count lst
    | logstart h mode lanes atArm lst | logstop h | replay h slot offset partialR debug | paircfg h mode pairid pref mr autorst
    | yield h | rejoin h src | timesvc h enable domain hubmask | tmap h cn | deskew h first count ref window
    | pedestal h first count | histo h target samples | eyescan h lane dwell ethr haddr | lanetune h lane | lanealign h
    | laneidle h lane enter | health h first | sleep h st | perflevel h pl | attest h nonceLo nonceHi | ownerupd h offset length
    | mgmtsend h lane lst =>
    exact kSubmit_stops (CmdHdr.le_of_not_runnable hr)
  | tlaunch h lane timeLo timeHi lst =>
    exact execTlaunch_stops s h _ _ _ _ (CmdHdr.le_of_not_runnable hr)
  | unlistedOpcodeCommand h opcode lst =>
    exact if_pos (CmdHdr.le_of_not_runnable hr)
  | nop x y | macd x y | macdz x y | macv x y | macvz x y | accadd x y | accsub x y | accld x y | accclr x y | accmax x y
    | accmin x y | rqs x y | rqv x y | rqvc x y | lutv8 x y | lutv4 x y | luts x y | luti x y | cmplt x y | cmple x y | cmpeq x y
    | cmpltu x y | sel x y | min_ x y | max_ x y | cx x y | vmax x y | vmin x y | hmax x y | abs_ x y | and_ x y | or_ x y
    | xor_ x y | andn x y | shl x y | shr x y | sar x y | popc x y | mov x y | bcast x y | unpk x y =>
    exact if_neg (hasCell_of_not_runnable hr)
  | waypointArrival x y | seam x y =>
    exact if_neg (hasCell_of_not_runnable hr)
  | tableWriteComplete tid | swapEffect tid | catchUp tid | cnofsApply lane | timeLaunch lane phase | eyescanComplete lane counts
    | sramRead req key noise | almanacResult req | refreshSlot sub | alignmentMarker lane payload gap | lockLoss lane
    | trainingBurst lane | crossingFrameReceive lane | frameRelease lane | sextantMeasurement lane width height
    | averagingBlockComplete ctx | hubFrameTransmit lane phase | chainFrameTransmit lane | hubPacketReceive lane bytes lost phase
    | mirrorLaneDrop lane | pulseEdge p | pulseWidthEnd p | pulseCommit req p | configRequest reg wr | railTimeout rail
    | railTelemetry rail mv fault | temperatureRead temps | thermalCheck temps | tableLoadComplete tid =>
    exact if_pos (by have h := fails_of_not_runnable hr; omega)
  | almanacLookupSlot sub pos noise | writeClassSlot sub pos | retrainingStep sub pos width height | codewordReceive lane syms =>
    exact if_pos (by have h := not_both_of_not_runnable hr; omega)
  | stagedWrite req off val | clearAliasWrite off w | lowWordRead req at_ | bitAliasWrite off w | registerWrite req off vals whole
    | bar4Read off len noise | bar4Write off bytes =>
    exact if_pos (not_of_not_runnable hr)
  | admissionComplete | runStart | runStopEffect | pauseStart | paused | resumeEffect ready | runFillEnd | loadedTrainingComplete
    | fillComplete | waypointInjection | switchComplete | wgmCommitApply | contextCommitApply | captureArmApply | klowynTrigger
    | drainComplete | beaconLoadApply | envelopeLoadApply | logbookStart | sleepReached | wake | woke | levelChangeComplete
    | manifestRun | autoRestart | crossingStart | channelStage | wakeBufferFreeze | wgmDerivation | scaleApply | outputAssembly
    | fdecDrive | mirrorFrameSend | mirrorFrameRelease | takeover | rebaseLatch | rebase | joined | orbitMarker phase
    | orbitZero phase | externalAccept | ccmdIdle | ccmdInvalid word | ppsIn phase | ppsOutEdge | ppsOutWidthEnd | chrArm
    | chrStepCommit req | chrRateCommit req | chrModeChange w | cigCommit req | cigLearn req | cigPass | clkGateWrite w | perstN
    | functionLevelReset | d3hotEntry | resetAssert | powerUp oscDly | pwrGoodDeassert | oscDelayExpiry xtalOk
    | bootRomStart flashErr puf | klowynReboot flashErr | watchdogExpiry | mclkMonitorFail | lrefclkMonitorFail
    | crystalMonitorFail | monitorRecovery src freq | thermalRecovery =>
    exact absurd hr Bool.noConfusion

/-- A command that answers a next state names units that the device has. -/
theorem runnable_of_next {c : Instr} {s t : State} (h : exec c s = .next t) : runnable c s = true := by
  by_contra hr
  rw [exec_stops c s (by simpa using hr)] at h
  cases h

/-- What a command keeps: its scope's complement. -/
theorem exec_kept {c : Instr} {s t : State} (h : exec c s = .next t) : t.kept (scopeOf c) = s.kept (scopeOf c) := by
  have hk := exec_keeps c s (runnable_of_next h)
  rwa [h, keeps_next] at hk

section
variable {σ : Scope} {s t : State}

theorem State.kept_memory (h : t.kept σ = s.kept σ) (hm : σ.memory = false) : t.mem = s.mem ∧ t.sram = s.sram := by
  simpa [State.kept, keptOf, hm] using congrArg Kept.memory h

theorem State.kept_count (h : t.kept σ = s.kept σ) (hc : σ.count = false) : t.cn = s.cn := by
  simpa [State.kept, keptOf, hc] using congrArg Kept.count h

theorem State.kept_flags (h : t.kept σ = s.kept σ) (hf : σ.flags = false) : t.flags = s.flags := by
  simpa [State.kept, keptOf, hf] using congrArg Kept.flags h

theorem State.kept_flash (h : t.kept σ = s.kept σ) (hb : σ.flash = false) : t.boot.flash = s.boot.flash := by
  simpa [State.kept, keptOf, hb] using congrArg Kept.flash h

theorem State.kept_time (h : t.kept σ = s.kept σ) (ht : σ.time = false) :
    t.chr.now = s.chr.now ∧ t.chr.free = s.chr.free ∧ t.chr.inc = s.chr.inc := by
  have hk : (t.chr.cfg, t.chr.c, t.chr.ofs, t.chr.a, t.chr.sec, t.chr.ns, t.chr.sub, t.chr.inc, t.chr.steps) =
      (s.chr.cfg, s.chr.c, s.chr.ofs, s.chr.a, s.chr.sec, s.chr.ns, s.chr.sub, s.chr.inc, s.chr.steps) := by
    simpa [State.kept, keptOf, ht] using congrArg Kept.time h
  simp only [Prod.mk.injEq] at hk
  obtain ⟨hcfg, hc, hofs, ha, hsec, hns, hsub, hinc, hsteps⟩ := hk
  have hcal : t.chr.cal = s.chr.cal := by rw [Chrono.cal, Chrono.cal, hcfg]
  have hdrift : t.chr.drift = s.chr.drift := by rw [Chrono.drift, Chrono.drift, hc, ha, hinc]
  have hnow : t.chr.now = s.chr.now := by rw [Chrono.now, Chrono.now, hcal, hdrift, hc, hofs, hsec, hns, hsub]
  exact ⟨hnow, by rw [Chrono.free, Chrono.free, hnow, hsteps], hinc⟩

end

end Sys2Proof.Machine

open Sys2Proof Sys2Proof.Machine

/-- Settles O8: a command whose operands name units of the device answers a next state (exec_keeps), another stops (exec_stops). -/
theorem commandsStopOnlyOnMissingUnits : Obligations.CommandsStopOnlyOnMissingUnits := by
  refine fun c s => ⟨fun hr => ?_, exec_stops c s⟩
  obtain ⟨t, ht, -⟩ := exec_keeps c s hr
  exact ⟨t, ht⟩

/-- Settles O7: a command that answers a next state keeps all that is outside its scope (exec_kept), and its scope is what the statement's
lists let it write. -/
theorem deviceStateChangesOnlyByItsCommands : Obligations.DeviceStateChangesOnlyByItsCommands := by
  intro c s t h
  have hk := exec_kept h
  exact ⟨State.kept_memory hk, State.kept_count hk, State.kept_time hk, State.kept_flags hk, State.kept_flash hk⟩

end

section
/-! PROOFS. The words of CCMD (13 R366, 00 R11, 19 R512). -/

namespace Sys2Proof.Machine

section
variable (s : State) (w : Byte) (phase : BitVec 4)

/-! A CCMD word is noted as the last one and recorded in a stream log (14 R394). -/

@[simp] theorem State.ccmdWord_pkg : (s.ccmdWord w).pkg = { s.pkg with lastCmd := w } := by simp [State.ccmdWord]
@[simp] theorem State.ccmdWord_cn : (s.ccmdWord w).cn = s.cn := by simp [State.ccmdWord]
@[simp] theorem State.ccmdWord_arr : (s.ccmdWord w).arr = s.arr := by simp [State.ccmdWord]
@[simp] theorem State.ccmdWord_chr : (s.ccmdWord w).chr = s.chr := by simp [State.ccmdWord]
@[simp] theorem State.ccmdWord_run : (s.ccmdWord w).run = s.run := by simp [State.ccmdWord]
@[simp] theorem State.ccmdWord_ctrs : (s.ccmdWord w).ctrs = s.ctrs := by simp [State.ccmdWord]

/-! An orbit marker captures CN and the time (13 R366). -/

@[simp] theorem State.orbit_orbCn : (s.orbit phase).chr.orbCn = s.cn := rfl
@[simp] theorem State.orbit_orbTime : (s.orbit phase).chr.orbTime = s.chr.layout (s.chr.stamp phase) := rfl
@[simp] theorem State.orbit_cn : (s.orbit phase).cn = s.cn := rfl
@[simp] theorem State.orbit_pkg : (s.orbit phase).pkg = s.pkg := rfl
@[simp] theorem State.orbit_arr : (s.orbit phase).arr = s.arr := rfl
@[simp] theorem State.orbit_ctrs : (s.orbit phase).ctrs = s.ctrs := rfl

/-- Outside a run an orbit-zero resets CN, in one it is counted (00 R11). -/
theorem State.orbitZero_of_idle (h : s.armed = false) : s.orbitZero phase = ({ s with cn := 0 } : State).orbit phase := by
  simp [State.orbitZero, h]

theorem State.orbitZero_of_armed (h : s.armed = true) :
    s.orbitZero phase = (({ s with pkg := { s.pkg with ozRun := true } } : State).count .ccOz 1).orbit phase := by
  simp [State.orbitZero, h]

theorem execOrbitMarker_of_run (h : s.run.replay = false) : execOrbitMarker phase s = .next ((s.ccmdWord 0x3C).orbit phase) := by
  simp [execOrbitMarker, h]

theorem execOrbitZero_of_run (h : s.run.replay = false) : execOrbitZero phase s = .next ((s.ccmdWord 0xC3).orbitZero phase) := by
  simp [execOrbitZero, h]

theorem execCcmdInvalid_of_undefined (h : s.run.replay = false) (hw : ccmdDefined w = false) :
    execCcmdInvalid w s = .next (s.count .ccInv 1) := by
  simp [execCcmdInvalid, h, hw]

theorem ccmdDefined_eq_false (h0 : w ≠ 0x00) (h1 : w ≠ 0x3C) (h2 : w ≠ 0xC3) (h3 : w ≠ 0x5A) : ccmdDefined w = false := by
  simp only [ccmdDefined, Bool.or_eq_false_iff, beq_eq_false_iff_ne]
  exact ⟨⟨⟨h0, h1⟩, h2⟩, h3⟩

end

end Sys2Proof.Machine

open Sys2Proof Sys2Proof.Machine

/-- Settles O53: each word's effect is that of orbit, of orbitZero in its two cases, or of one count. -/
theorem ccmdWordsAct : Obligations.CcmdWordsAct := by
  refine ⟨fun s phase hr => ⟨?_, fun ha => ?_, fun ha => ?_, fun w h0 h1 h2 h3 => ?_⟩, fun _ => rfl⟩
  · exact ⟨_, execOrbitMarker_of_run s phase hr, by simp⟩
  · have ha' : (s.ccmdWord 0xC3).armed = false := by simpa [State.armed] using ha
    refine ⟨_, execOrbitZero_of_run s phase hr, ?_⟩
    rw [State.orbitZero_of_idle _ _ ha']
    simp [State.ctr]
  · have ha' : (s.ccmdWord 0xC3).armed = true := by simpa [State.armed] using ha
    refine ⟨_, execOrbitZero_of_run s phase hr, ?_⟩
    rw [State.orbitZero_of_armed _ _ ha']
    simp [State.ctr, State.count]
  · exact ⟨_, execCcmdInvalid_of_undefined s w hr (ccmdDefined_eq_false w h0 h1 h2 h3), State.ctr_count s .ccInv 1, rfl⟩

end

section
/-! PROOFS. The start of a crossing: the one before ends, CN counts on, and its failed reads are reported (00 R10, 07 R228, 08 R266). -/

namespace Sys2Proof.Machine

/-- What stays as a crossing ends, apart from the two lists that it settles: the trigger candidates and the reads that failed. -/
structure Still where
  arr : ArrState
  wgm : WgmState
  lanes : Tbl Lane
  tick : Nat
  phase : RunPhase
  replay : Bool
  cands : List Trig
  found : List Found

def State.still (s : State) : Still := ⟨s.arr, s.wgm, s.lanes, s.tick, s.run.phase, s.run.replay, s.cap.cands, s.alm.found⟩

@[simp] theorem State.still_ite (c : Prop) [Decidable c] (s t : State) :
    State.still (if c then s else t) = if c then s.still else t.still := by
  split <;> rfl

section
variable (s : State)

@[simp] theorem State.fault_run_phase (c : BitVec 8) (i : Nat) : (s.fault c i).run.phase = s.run.phase := by
  unfold State.fault
  simp only
  split <;> (try split) <;> simp

@[simp] theorem State.fault_run_replay (c : BitVec 8) (i : Nat) : (s.fault c i).run.replay = s.run.replay := by
  unfold State.fault
  simp only
  split <;> (try split) <;> simp

@[simp] theorem State.fault_still (c : BitVec 8) (i : Nat) : (s.fault c i).still = s.still := by simp [State.still]
@[simp] theorem State.raiseBit_still (i : EvtId) (b : Nat) : (s.raiseBit i b).still = s.still := by simp [State.still]
@[simp] theorem State.count_still (i : CtrId) (k : Nat) : (s.count i k).still = s.still := by simp [State.still]
@[simp] theorem State.flagRec_still (c : CN) (m : BitVec 13) : (s.flagRec c m).still = s.still := by simp [State.still, State.flagRec]
@[simp] theorem State.logEvent_still (e : LogEvt) : (s.logEvent e).still = s.still := by simp [State.still]

@[simp] theorem State.setHub_still (l : Nat) (x : HubLane) : (s.setHub l x).still = s.still := rfl

@[simp] theorem State.checkCredit_still (l : Nat) (lp : Loop) (c : CN) : (s.checkCredit l lp c).still = s.still := by
  simp [State.checkCredit]

@[simp] theorem State.handOver_still : s.handOver.still = s.still := by
  unfold State.handOver
  split
  · refine foldl_same State.still _ (fun u l => ?_) _ _
    split
    · exact u.checkCredit_still _ _ _
    · rfl
  · rfl

@[simp] theorem State.ignoreTrig_still (c : Option CtrId) : (s.ignoreTrig c).still = s.still := by
  cases c <;> simp [State.ignoreTrig]

@[simp] theorem State.acceptTrig_still (t : CN) (src : BitVec 4) : (s.acceptTrig t src).still = s.still := by
  simp only [State.acceptTrig, State.flagRec_still, State.raiseBit_still]
  rfl

@[simp] theorem State.settleTriggers_still : s.settleTriggers.still = { s.still with cands := [] } := by
  unfold State.settleTriggers
  simp only
  split
  · rw [foldl_same State.still _ (fun u g => u.ignoreTrig_still _)]
    rfl
  · rw [foldl_same State.still _ (fun u _ => u.ignoreTrig_still _), State.acceptTrig_still, foldl_same State.still _ (fun u g => u.ignoreTrig_still _)]
    rfl

@[simp] theorem State.prunePools_still : s.prunePools.still = s.still := rfl

@[simp] theorem State.drainLosses_still : s.drainLosses.still = s.still := by
  unfold State.drainLosses
  rw [foldl_same State.still _ State.logEvent_still]
  rfl

@[simp] theorem State.alignCrossing_still : s.alignCrossing.still = s.still := by
  unfold State.alignCrossing
  simp only
  rw [foldl_same State.still]
  · rfl
  · intro u a
    simp [State.still]

@[simp] theorem State.endFullLog_still : s.endFullLog.still = s.still := by
  unfold State.endFullLog
  split
  · exact s.drainLosses_still
  · rfl

@[simp] theorem State.keepRecs_still : s.keepRecs.still = s.still := rfl

/-- The end of a crossing settles its triggers. -/
@[simp] theorem State.crossingEnd_still : s.crossingEnd.still = { s.still with cands := [] } := by
  simp [State.crossingEnd]

@[simp] theorem State.recordUe_still (f : Found) : (s.recordUe f).still = s.still := by
  simp only [State.recordUe, State.still_ite]
  exact ite_id _

@[simp] theorem State.report_still (f : Found) : (s.report f).still = s.still := by
  simp [State.report]

/-- The failed reads of the crossing before are reported (07 R228). -/
@[simp] theorem State.reportFound_still : s.reportFound.still = { s.still with found := [] } := by
  unfold State.reportFound
  rw [foldl_same State.still _ State.report_still]
  rfl

end

theorem State.replayEvents_of_run {s : State} (h : s.run.replay = false) : s.replayEvents = s := by
  simp [State.replayEvents, h]

/-- The next crossing, before a replay's events: the one before has ended, and its failed reads are reported. -/
def State.nextCrossing (s : State) : State :=
  ({ s.crossingEnd with cn := s.crossingEnd.cn + 1, tick := 0 } : State).reportFound

/-- A scope that writes nothing of the device state. -/
def Scope.none : Scope := ⟨false, false, false, false, false⟩

section
variable (s : State)

theorem State.still_begin (n : CN) (k : Nat) : ({ s with cn := n, tick := k } : State).still = { s.still with tick := k } := rfl

theorem State.nextCrossing_still : s.nextCrossing.still = { s.still with tick := 0, cands := [], found := [] } := by
  rw [State.nextCrossing, State.reportFound_still, State.still_begin, State.crossingEnd_still]

theorem State.reportFound_cn : s.reportFound.cn = s.cn := State.kept_count (σ := Scope.none) s.reportFound_kept rfl

theorem State.crossingEnd_cn : s.crossingEnd.cn = s.cn := State.kept_count (σ := Scope.none) s.crossingEnd_kept rfl

theorem State.nextCrossing_cn : s.nextCrossing.cn = s.cn + 1 := by
  simp only [State.nextCrossing, State.reportFound_cn, State.crossingEnd_cn]

theorem State.nextCrossing_kept : s.nextCrossing.kept { Scope.none with count := true } = s.kept { Scope.none with count := true } := by
  simp [State.nextCrossing, State.keptOf_count]

theorem execCrossingStart_of_run (hk : s.clk.mclkOk = true) (hr : s.run.replay = false) :
    execCrossingStart s = .next s.nextCrossing := by
  have hu : s.nextCrossing.run.replay = false := (congrArg Still.replay s.nextCrossing_still).trans hr
  simp only [execCrossingStart, hk, Bool.not_true, Bool.false_eq_true, if_false]
  rw [← State.nextCrossing, State.replayEvents_of_run hu]

theorem execCrossingStart_of_noClock (h : s.clk.mclkOk = false) : execCrossingStart s = .next s := by
  simp [execCrossingStart, h]

end

end Sys2Proof.Machine

open Sys2Proof Sys2Proof.Machine

/-- Settles O42: the end of a crossing empties the list of trigger candidates (crossingEnd_still), the start of the next one that of failed reads
(reportFound_still), and neither touches the rest. -/
theorem crossingStartCounts : Obligations.CrossingStartCounts := by
  refine ⟨fun s hk hr => ⟨s.nextCrossing, execCrossingStart_of_run s hk hr, ?_⟩, execCrossingStart_of_noClock⟩
  obtain ⟨hmem, hsram⟩ := State.kept_memory s.nextCrossing_kept rfl
  have h := s.nextCrossing_still
  exact ⟨s.nextCrossing_cn, congrArg Still.tick h, congrArg Still.cands h, congrArg Still.found h, congrArg Still.arr h, hmem, hsram,
    congrArg Still.wgm h, congrArg Still.lanes h, congrArg Still.phase h⟩

end

section
/-! PROOFS. The start and the end of a run (00 R13, 05 R156, 06 R185, 07 R239, 17 R469). -/

namespace Sys2Proof.Machine

/-! ### The loader's cells -/

/-- A cell as the loader leaves it: plane A active, of epoch ep, and no accumulator or F of a run before (06 R185, 03 R95). -/
def Cell.fresh (ep : BitVec 2) (c : Cell) : Prop := c.sel = false ∧ c.epAct = ep ∧ c.epSh = ep + 1 ∧ c.flag = false ∧ c.acc = []

theorem tfind_map {α : Type} (f : Nat × α → Nat × α) (hf : ∀ p, (f p).1 = p.1) (t : Tbl α) (k : Nat) :
    tfind (t.map f) k = (tfind t k).map fun v => (f (k, v)).2 := by
  induction t with
  | nil => rfl
  | cons p r ih =>
    obtain ⟨j, v⟩ := p
    by_cases hj : j = k
    · subst hj
      simp [tfind, hf]
    · simp [tfind, hf, hj, ih]

section
variable {ep : BitVec 2}

theorem Cell.fresh_blank : (Cell.blank ep).fresh ep := ⟨rfl, rfl, rfl, rfl, rfl⟩

/-- Every cell of the table, listed or not, is fresh. -/
def freshCells (ep : BitVec 2) (t : Tbl Cell) : Prop := ∀ k, (tget (Cell.blank ep) t k).fresh ep

theorem freshCells_nil : freshCells ep [] := fun _ => Cell.fresh_blank

theorem freshCells_tset {t : Tbl Cell} (h : freshCells ep t) (k : Nat) {c : Cell} (hc : c.fresh ep) : freshCells ep (tset t k c) := by
  intro j
  rw [tget_tset]
  split
  · exact hc
  · exact h j

theorem Cell.withTree_fresh {c : Cell} (h : c.fresh ep) (n : Nat) (debug : Bool) (w : WptRec) : (c.withTree n debug w).fresh ep := by
  cases w <;> exact h

theorem Image.cellOf_fresh (i : Image) (debug : Bool) (k : Nat) : (i.cellOf debug ep k).fresh ep := by
  unfold Image.cellOf
  simp only
  split
  · exact Cell.withTree_fresh (c := { Cell.blank ep with
      progA := tget [MInstr.idle] i.prog k, wgtA := tget [] i.wgt k, ws := tget [] i.init k, rq := tget [] i.rqp k })
      ⟨rfl, rfl, rfl, rfl, rfl⟩ _ _ _
  · exact ⟨rfl, rfl, rfl, rfl, rfl⟩

theorem Image.withMaps_fresh (i : Image) {t : Tbl Cell} (h : freshCells ep t) : freshCells ep (i.withMaps ep t) := by
  refine List.foldlRecOn _ _ ?_ fun u hu q _ => freshCells_tset hu _ (hu (q.y * 1024 + q.x))
  exact List.foldlRecOn _ _ h fun u hu a _ => freshCells_tset hu _ (hu a.1)

theorem Image.cells_fresh (i : Image) (debug : Bool) : freshCells ep (i.cells debug ep) := by
  have h : freshCells ep (i.cellKeys.foldl (fun t k => tset t k (i.cellOf debug ep k)) []) :=
    List.foldlRecOn _ _ freshCells_nil fun u hu k _ => freshCells_tset hu k (i.cellOf_fresh debug k)
  unfold Image.cells
  simp only
  split
  · exact i.withMaps_fresh h
  · exact h

theorem writeScale_key (k : Nat) (m : BitVec 16) (sh : BitVec 6) (p : Nat × Cell) : (writeScale k m sh p).1 = p.1 := by
  unfold writeScale
  simp only
  split <;> rfl

theorem writeScale_fresh (k : Nat) (m : BitVec 16) (sh : BitVec 6) {p : Nat × Cell} (h : p.2.fresh ep) : (writeScale k m sh p).2.fresh ep := by
  unfold writeScale
  simp only
  split
  · exact h
  · exact h

theorem freshCells_writeScale {t : Tbl Cell} (h : freshCells ep t) (k : Nat) (m : BitVec 16) (sh : BitVec 6) :
    freshCells ep (t.map (writeScale k m sh)) := by
  intro j
  have hj := h j
  rw [tget] at hj ⊢
  rw [tfind_map _ (writeScale_key k m sh)]
  cases hf : tfind t j with
  | none => exact Cell.fresh_blank
  | some c =>
    rw [hf] at hj
    exact writeScale_fresh k m sh (p := (j, c)) hj

/-- Every cell of the state is fresh, of epoch ep. -/
def State.freshArray (ep : BitVec 2) (s : State) : Prop := s.arr.baseEp = ep ∧ freshCells ep s.arr.cells

theorem State.freshArray.cellAt {s : State} (h : s.freshArray ep) (k : Nat) : (s.cellAt k).fresh ep := by
  obtain ⟨hb, hc⟩ := h
  rw [State.cellAt, hb]
  exact hc k

theorem State.pushAllScales_fresh {s : State} (h : s.freshArray ep) : s.pushAllScales.freshArray ep := by
  refine List.foldlRecOn _ _ h fun u hu k _ => ?_
  obtain ⟨hb, hc⟩ := hu
  split
  · exact ⟨hb, freshCells_writeScale hc k _ _⟩
  · exact ⟨hb, hc⟩

theorem State.loadArray_fresh (s : State) : (s.loadArray ep).freshArray ep :=
  State.pushAllScales_fresh ⟨rfl, s.img.cells_fresh s.run.debug⟩

end

/-! ### One command that waits alone for an effect -/

/-- Its effect is its command's action, with the notice behind it. -/
theorem applyDue_of_dueOnly {s : State} {c : KCmd} {t e : CN} {w : Waiting} (h : dueOnly s c.spec.op t w = true) :
    s.applyDue c t e = (c.act (s.dropWaiting w.jseq) w).effectNotice w e := by
  rw [State.applyDue, of_decide_eq_true h]
  rfl

theorem notified_effectNotice {s u : State} {w : Waiting} {c : CN} (h : u.mbx = s.mbx) : Notified s (u.effectNotice w c) w c := by
  have hm : u.mbxOf w.mbx = s.mbxOf w.mbx := by rw [State.mbxOf, State.mbxOf, h]
  intro hw hu hh
  rw [← hm] at hu hh ⊢
  rw [State.mbxOf_effectNotice hw hu hh, Mbx.push_ring]
  exact ⟨_, tfind_tset_same _ _ _, rfl, rfl, rfl, rfl⟩

theorem leaves_effectNotice {s u : State} {w : Waiting} {c : CN} (h : u.kly = (s.dropWaiting w.jseq).kly) :
    Leaves s (u.effectNotice w c) w := by
  rw [Leaves, State.effectNotice_kly, h]
  rfl

/-! ### The effect of ARM -/

section
variable (s : State)

@[simp] theorem State.levelDone_mbx : s.levelDone.mbx = s.mbx := by
  unfold State.levelDone
  split <;> simp [State.endLevel, State.fieldRails, State.levelBias]

@[simp] theorem State.levelDone_kly : s.levelDone.kly = s.kly := by
  unfold State.levelDone
  split <;> simp [State.endLevel, State.fieldRails, State.levelBias]

@[simp] theorem State.levelDone_pair : s.levelDone.pair = s.pair := by
  unfold State.levelDone
  split <;> simp [State.endLevel, State.fieldRails, State.levelBias]

/-- The new scales are written into the cells alone (03 R99). -/
theorem State.pushAllScales_frame : s.pushAllScales = { s with arr := s.pushAllScales.arr } := by
  refine List.foldlRecOn (motive := fun u : State => u = { s with arr := u.arr }) _ _ rfl fun u hu k _ => ?_
  generalize u.arr = a at hu
  subst hu
  split <;> rfl

@[simp] theorem State.loadArray_tick (ep : BitVec 2) : (s.loadArray ep).tick = 0 := by
  rw [State.loadArray, State.pushAllScales_frame]

@[simp] theorem State.loadArray_mbx (ep : BitVec 2) : (s.loadArray ep).mbx = s.mbx := by
  rw [State.loadArray, State.pushAllScales_frame]

@[simp] theorem State.loadArray_kly (ep : BitVec 2) : (s.loadArray ep).kly = s.kly := by
  rw [State.loadArray, State.pushAllScales_frame]

@[simp] theorem State.loadArray_pair (ep : BitVec 2) : (s.loadArray ep).pair = s.pair := by
  rw [State.loadArray, State.pushAllScales_frame]

variable (w : Waiting)

@[simp] theorem actArm_mbx : (actArm s w).mbx = s.mbx := by simp [actArm]
@[simp] theorem actArm_kly : (actArm s w).kly = s.kly := by simp [actArm]
@[simp] theorem actArm_pair : (actArm s w).pair = s.pair := by simp [actArm]
@[simp] theorem actArm_tick : (actArm s w).tick = 0 := by simp [actArm]
theorem actArm_phase : (actArm s w).run.phase = .running := rfl
theorem actArm_filling : (actArm s w).run.filling = true := rfl
theorem actArm_fillEnd : (actArm s w).run.fillEnd = cnAdd s.cn (s.hdr.rofs + s.hdr.a + 1) := rfl
theorem actArm_actEp : (actArm s w).planes.actEp = 0 := rfl

theorem actArm_fresh : (actArm s w).freshArray 0 := s.levelDone.loadArray_fresh

end

theorem execRunStart_of_due {s : State} {w : Waiting} (hs : s.startDue = true) (hr : s.run.replay = false) (hj : s.pair.rejoin = none)
    (hw : dueOnly s 0x0201 s.cn w = true) :
    execRunStart s = .next ((actArm (s.dropWaiting w.jseq) w).effectNotice w s.cn) := by
  have hop : cmdArm.spec.op = 0x0201 := by rw [cmdArm]
  have hact : cmdArm.act = actArm := by rw [cmdArm]
  have hu : s.applyDue cmdArm s.cn s.cn = (actArm (s.dropWaiting w.jseq) w).effectNotice w s.cn := by
    rw [applyDue_of_dueOnly (by rw [hop]; exact hw), hact]
  simp [execRunStart, hs, hr, hu, hj]

/-! ### The end of a run -/

/-- What waits in the Almanac and in Klowyn: how many host bursts, the bursts of catch-ups and of table writes, the announced commands. -/
def State.waits (s : State) : Nat × List WBurst × List WBurst × List Waiting :=
  (s.alm.hostQ.length, s.alm.catchUp, s.alm.writes, s.kly.waiting)

@[simp] theorem State.waits_mk (pending freeCtr cn tick dev clk pwr boot pkg host cig evts ctrs flags mbx jnl kly log run planes arr wgm alm chan
    cap mem sram lanes sext hub out pair chr) :
    State.waits (State.mk pending freeCtr cn tick dev clk pwr boot pkg host cig evts ctrs flags mbx jnl kly log run planes arr wgm alm chan cap
      mem sram lanes sext hub out pair chr) = (alm.hostQ.length, alm.catchUp, alm.writes, kly.waiting) := (rfl)

@[simp] theorem State.waits_fold (s : State) : (s.alm.hostQ.length, s.alm.catchUp, s.alm.writes, s.kly.waiting) = s.waits := (rfl)

section
variable (s : State)

@[simp] theorem State.waits_ite (c : Prop) [Decidable c] (t : State) : State.waits (if c then s else t) = if c then s.waits else t.waits := by
  split <;> rfl

@[simp] theorem State.freeBytes_waits (n : Nat) : (s.freeBytes n).2.waits = s.waits := by simp [State.freeBytes]
@[simp] theorem State.gives_waits (l : List Byte) : (s.gives l).waits = s.waits := by simp [State.gives]

@[simp] theorem State.readPiece_waits (p : Piece) (n : BitVec 288) : (s.readPiece p n).waits = s.waits := by
  unfold State.readPiece
  split <;> (try split) <;> simp

@[simp] theorem State.count_waits (i : CtrId) (k : Nat) : (s.count i k).waits = s.waits := by
  simp only [State.waits, State.count_alm, State.count_kly]

@[simp] theorem State.raiseBit_waits (i : EvtId) (b : Nat) : (s.raiseBit i b).waits = s.waits := by
  simp only [State.waits, State.raiseBit_alm, State.raiseBit_kly]

@[simp] theorem State.tellBursts_waits (b : HostBurst) : (s.tellBursts b).waits = s.waits := by simp [State.tellBursts]

theorem State.readBurst_waits (b : HostBurst) : (s.readBurst b).waits = s.waits := by
  simp [State.readBurst]

@[simp] theorem State.putPiece_waits (p : Piece) (l : List Byte) (k : Bool) : (s.putPiece p l k).waits = s.waits := by
  rw [State.putPiece_frame]
  simp

theorem State.writeHost_waits (b : HostBurst) (k : Bool) : (s.writeHost b k).waits = s.waits := by
  simp [State.writeHost]

@[simp] theorem State.writeLine_waits (r : LineRef) (d : List Byte) : (s.writeLine r d).waits = s.waits := by
  rw [State.writeLine_frame]
  simp

@[simp] theorem State.writeBurst_waits (b : WBurst) : (s.writeBurst b).waits = s.waits := by
  unfold State.writeBurst
  split <;> simp

@[simp] theorem State.rewriteLine_waits (b : WBurst) : (s.rewriteLine b).waits = s.waits := by
  unfold State.rewriteLine
  split <;> (try split) <;> simp

@[simp] theorem State.rewriteAll_waits : s.rewriteAll.waits = s.waits := by
  rw [State.rewriteAll, foldl_same State.waits _ State.rewriteLine_waits]
  simp

/-- One host burst less waits, carried or not. -/
def State.hostBurst (s : State) (b : HostBurst) : State :=
  let v := { s with alm := { s.alm with hostQ := s.alm.hostQ.tail } }
  let c := s.alm.hostQ.headD b
  if c.read then v.readBurst c else v.writeHost c (v.inLibrary c.addr)

theorem State.hostBurst_waits (b : HostBurst) :
    (s.hostBurst b).waits = (s.alm.hostQ.length - 1, s.alm.catchUp, s.alm.writes, s.kly.waiting) := by
  simp [State.hostBurst, State.readBurst_waits, State.writeHost_waits]

theorem foldl_hostBurst_waits (l : List HostBurst) : ∀ s : State, s.alm.hostQ.length = l.length →
    (l.foldl State.hostBurst s).waits = (0, s.alm.catchUp, s.alm.writes, s.kly.waiting) := by
  induction l with
  | nil =>
    intro s h
    rw [List.foldl_nil, State.waits, h, List.length_nil]
  | cons b r ih =>
    intro s h
    have hw := s.hostBurst_waits b
    simp only [State.waits, Prod.mk.injEq, h, List.length_cons, Nat.add_sub_cancel] at hw
    obtain ⟨hq, hc, hwr, hk⟩ := hw
    rw [List.foldl_cons, ih _ hq, hc, hwr, hk]

/-- As a run ends no host burst waits any longer (16 R431). -/
theorem State.drainHost_waits : s.drainHost.waits = (0, s.alm.catchUp, s.alm.writes, s.kly.waiting) :=
  foldl_hostBurst_waits s.alm.hostQ s rfl

@[simp] theorem State.writeLine_kly (r : LineRef) (d : List Byte) : (s.writeLine r d).kly = s.kly := by
  rw [State.writeLine_frame]

theorem State.writeBurst_kly (b : WBurst) : (s.writeBurst b).kly = s.kly := by
  unfold State.writeBurst
  split <;> simp

theorem State.rewriteLine_kly (b : WBurst) : (s.rewriteLine b).kly = s.kly := by
  unfold State.rewriteLine
  split <;> (try split) <;> simp

theorem State.rewriteFixed_kly (tid : Nat) (face : Bool) : (s.rewriteFixed tid face).kly = s.kly := by
  rw [State.rewriteFixed, foldl_same State.kly _ State.rewriteLine_kly]

theorem State.queueCatchUp_kly (tid : Nat) : (s.queueCatchUp tid).kly = s.kly := by
  unfold State.queueCatchUp
  simp only
  split
  · rw [State.rewriteFixed_kly, State.setTab_kly]
  · rw [foldl_same State.kly _ State.writeBurst_kly, State.rewriteFixed_kly, State.setTab_kly]

theorem State.waits_letGo (sw : List Swap) :
    ({ s with alm := { s.alm with catchUp := [], writes := [], swaps := sw } } : State).waits = (s.alm.hostQ.length, [], [], s.kly.waiting) := by
  simp

/-- The Almanac's bursts have all completed as a run ends; Klowyn's commands are not touched (07 R239). -/
theorem State.settleSwaps_waits : s.settleSwaps.waits = (0, [], [], s.kly.waiting) := by
  have hk : ∀ l : List Swap, (l.foldl (fun t w => t.queueCatchUp w.tid) s).kly = s.kly :=
    fun l => foldl_same State.kly _ (fun u w => u.queueCatchUp_kly w.tid) l s
  unfold State.settleSwaps
  simp only [State.waits_mk]
  generalize hu : (s.alm.swaps.filter Swap.done).foldl (fun t w => t.queueCatchUp w.tid) s = u
  have huk : u.kly = s.kly := hu ▸ hk _
  generalize hv : (u.alm.catchUp ++ u.alm.writes).foldl State.writeBurst
    { u with alm := { u.alm with catchUp := [], writes := [], swaps := [] } } = v
  have hvw : v.waits = (u.alm.hostQ.length, [], [], u.kly.waiting) := by
    rw [← hv, foldl_same State.waits _ State.writeBurst_waits]
    exact u.waits_letGo []
  have hd : v.drainHost.rewriteAll.waits = (0, v.alm.catchUp, v.alm.writes, v.kly.waiting) := by
    rw [State.rewriteAll_waits, State.drainHost_waits]
  simp only [State.waits, Prod.mk.injEq] at hvw hd
  simp [hvw, hd, huk]

/-- Where nothing waits in the Almanac, the end of a run writes no byte. -/
theorem State.settleSwaps_mem_of_idle (hq : s.alm.hostQ = []) (hc : s.alm.catchUp = []) (hw : s.alm.writes = [])
    (hs : ∀ x ∈ s.alm.swaps, x.done = false) (hf : s.alm.fixes = []) : s.settleSwaps.mem = s.mem := by
  have hn : s.alm.swaps.filter Swap.done = [] := by simpa using hs
  simp [State.settleSwaps, hn, hc, hw, State.drainHost, hq, State.rewriteAll, hf]

end

theorem State.raise_evts (s : State) (i : EvtId) {m : Word} (h : m ≠ 0) : (s.raise i m).evts = tset s.evts i.code ((s.evt i).raise m) := by
  unfold State.raise
  rw [if_neg h]
  simp only
  split <;> simp

/-- The bit just raised shows. -/
theorem State.shows_raiseBit (s : State) (i : EvtId) {b : Nat} (hb : b < 32) : (s.raiseBit i b).shows i b = true := by
  have hbit : ((1 : Word) <<< b).getLsbD b = true := by simp [hb]
  have hne : (1 : Word) <<< b ≠ 0 := by
    intro h
    rw [h] at hbit
    simp at hbit
  rw [State.shows, State.evt, State.raiseBit, State.raise_evts _ _ hne, tget_tset_same, EvtReg.raise, BitVec.getLsbD_or, hbit, Bool.or_true]

section
variable (s : State) (why : StopReason)

@[simp] theorem State.peerReset_run (i j : Nat) : (s.peerReset i j).run = s.run := by simp [State.peerReset, State.flushCrossing]
@[simp] theorem State.peerReset_kly (i j : Nat) : (s.peerReset i j).kly = s.kly := by simp [State.peerReset, State.flushCrossing]
@[simp] theorem State.peerReset_out (i j : Nat) : (s.peerReset i j).out = s.out := by simp [State.peerReset, State.flushCrossing]
@[simp] theorem State.peerReset_arr (i j : Nat) : (s.peerReset i j).arr = s.arr := by simp [State.peerReset, State.flushCrossing]
@[simp] theorem State.peerReset_planes (i j : Nat) : (s.peerReset i j).planes = s.planes := by simp [State.peerReset, State.flushCrossing]
@[simp] theorem State.peerReset_alm (i j : Nat) : (s.peerReset i j).alm = s.alm := by simp [State.peerReset, State.flushCrossing]
@[simp] theorem State.peerReset_mem (i j : Nat) : (s.peerReset i j).mem = s.mem := by simp [State.peerReset, State.flushCrossing]
@[simp] theorem State.peerReset_alock (i j : Nat) : (s.peerReset i j).clk.alock = s.clk.alock := by
  simp [State.peerReset, State.flushCrossing]

theorem State.shows_peerReset (i j : Nat) : (s.peerReset i j).shows .clk 4 = true := State.shows_raiseBit _ _ (by decide)

/-- The state that the end of a run leaves before the crossing control of the array is flushed. -/
def State.settled : State := s.drainLosses.voidWaiting.settleSwaps

theorem State.stopRun_phase : (s.stopRun why).run.phase = .idle := by
  unfold State.stopRun
  simp only
  split <;> simp

theorem State.stopRun_reason : (s.stopRun why).run.reason = why := by
  unfold State.stopRun
  simp only
  split <;> simp

theorem State.stopRun_fdec : (s.stopRun why).out.fdec = 0 := by
  unfold State.stopRun
  simp only
  split <;> simp

theorem State.stopRun_flight : (s.stopRun why).arr.flight = [] := by
  unfold State.stopRun
  simp only
  split <;> simp [State.quietArray]

theorem State.stopRun_sh : (s.stopRun why).planes.sh = .empty := by
  unfold State.stopRun
  simp only
  split <;> simp [State.quietArray]

theorem State.stopRun_alock : (s.stopRun why).clk.alock = false := by
  unfold State.stopRun
  simp only
  split <;> simp [State.quietArray]

theorem State.stopRun_alm : (s.stopRun why).alm = s.settled.alm := by
  unfold State.stopRun
  simp only
  split <;> simp [State.quietArray, State.settled]

theorem State.stopRun_waiting : (s.stopRun why).kly.waiting = s.settled.kly.waiting := by
  unfold State.stopRun
  simp only
  split <;> simp [State.quietArray, State.settled]

theorem State.stopRun_mem : (s.stopRun why).mem = s.settled.mem := by
  unfold State.stopRun
  simp only
  split <;> simp [State.quietArray, State.settled]

theorem State.stopRun_shows (h : s.armed = true) : (s.stopRun why).shows .clk 4 = true := by
  unfold State.stopRun
  simp only
  rw [if_pos h]
  exact State.shows_peerReset _ 0 1

/-! What a stop does to Klowyn's commands and the logbook leaves the Almanac alone. -/

theorem State.drainLosses_alm : s.drainLosses.alm = s.alm := by
  rw [State.drainLosses, foldl_same State.alm _ fun u e => u.logEvent_alm e]

theorem State.voidWaiting_alm : s.voidWaiting.alm = s.alm := by
  simp only [State.voidWaiting]
  rw [foldl_same State.alm _ fun u w => u.abortLong_alm w _, foldl_same State.alm _ fun u w => u.voidNotice_alm w _ _]

/-- A stop makes every waiting command void (15 R410). -/
theorem State.voidWaiting_waiting : s.voidWaiting.kly.waiting = [] := by
  simp only [State.voidWaiting]
  rw [foldl_same State.kly _ fun u w => u.abortLong_kly w _]

theorem State.settled_waits : s.settled.waits = (0, [], [], []) := by
  rw [State.settled, State.settleSwaps_waits, State.voidWaiting_waiting]

theorem State.settled_mem_of_idle (hq : s.alm.hostQ = []) (hc : s.alm.catchUp = []) (hw : s.alm.writes = [])
    (hs : ∀ x ∈ s.alm.swaps, x.done = false) (hf : s.alm.fixes = []) : s.settled.mem = s.mem := by
  have ha : s.drainLosses.voidWaiting.alm = s.alm := by rw [State.voidWaiting_alm, State.drainLosses_alm]
  have hm : s.drainLosses.voidWaiting.kept Scope.none = s.kept Scope.none := by simp
  rw [State.settled, State.settleSwaps_mem_of_idle _ (ha ▸ hq) (ha ▸ hc) (ha ▸ hw) (ha ▸ hs) (ha ▸ hf), (State.kept_memory hm rfl).1]

/-! STOP's own effect is the end of the run; its notice goes out first. -/

theorem State.stopDue_run (c : CN) : (s.applyDue cmdStop c c).run = s.run := by
  have hact : cmdStop.act = noAct := by rw [cmdStop]
  rw [State.applyDue, hact]
  exact foldl_same State.run _ (fun u w => by simp [noAct]) _ _

theorem State.stopDue_alm (c : CN) : (s.applyDue cmdStop c c).alm = s.alm := by
  have hact : cmdStop.act = noAct := by rw [cmdStop]
  rw [State.applyDue, hact]
  exact foldl_same State.alm _ (fun u w => by simp [noAct]) _ _

theorem State.stopDue_mem (c : CN) : (s.applyDue cmdStop c c).mem = s.mem := by
  have hact : cmdStop.act = noAct := by rw [cmdStop]
  rw [State.applyDue, hact]
  exact foldl_same State.mem _ (fun u w => by simp [noAct]) _ _

theorem State.stopDue_armed (c : CN) : (s.applyDue cmdStop c c).armed = s.armed := by
  rw [State.armed, State.armed, State.stopDue_run]

theorem State.stopRun_armed (why : StopReason) : (s.stopRun why).armed = false := by
  rw [State.armed, State.stopRun_phase]
  rfl

/-- After the end of a run no burst and no command waits. -/
theorem State.stopRun_idle (why : StopReason) : (s.stopRun why).alm.hostQ = [] ∧ (s.stopRun why).alm.catchUp = [] ∧
    (s.stopRun why).alm.writes = [] ∧ (s.stopRun why).kly.waiting = [] := by
  have h := s.settled_waits
  simp only [State.waits, Prod.mk.injEq, List.length_eq_zero_iff] at h
  rw [State.stopRun_alm, State.stopRun_waiting]
  exact h

theorem execRunStopEffect_of_command (ha : s.armed = true) (hf : s.run.faultAt ≠ some s.cn) (hs : s.run.stopAt = some s.cn) :
    execRunStopEffect s = .next ((s.applyDue cmdStop s.cn s.cn).stopRun .command) := by
  simp [execRunStopEffect, ha, hf, hs]

theorem execRunStopEffect_of_fault (ha : s.armed = true) (hf : s.run.faultAt = some s.cn) :
    execRunStopEffect s = .next { (s.applyDue cmdStop s.cn s.cn).stopRun .fault with
      pkg := { ((s.applyDue cmdStop s.cn s.cn).stopRun .fault).pkg with alert := true } } := by
  simp [execRunStopEffect, ha, hf]

theorem execRunFillEnd_of_end (hl : s.live = true) (hf : s.run.filling = true) (he : cnLe s.run.fillEnd s.cn = true) :
    execRunFillEnd s = .next { s with run := { s.run with filling := false, resumed := false } } := by
  simp [execRunFillEnd, hl, hf, he]

theorem execLoadedTrainingComplete_of_waiting (ht : s.alm.trained = false)
    (h : s.run.phase = .armed ∨ (s.run.phase = .paused ∧ s.run.resumeQ ≠ none)) :
    execLoadedTrainingComplete s = .next { s with alm := { s.alm with trained := true } } := by
  have ha : s.armed = true := by
    rcases h with h | ⟨h, -⟩ <;> simp [State.armed, h]
  simp [execLoadedTrainingComplete, ha, ht, h]

end

end Sys2Proof.Machine

open Sys2Proof Sys2Proof.Machine

/-- Settles O34: the run's start is the effect of ARM on the loader's array (loadArray_fresh), its end is stopRun, after which nothing waits
(settled_waits). -/
theorem runStartsFillsAndStops : Obligations.RunStartsFillsAndStops := by
  refine ⟨fun s w hs hr hj hw => ?_, fun s ha hf hs => ?_, fun s ha hf => ?_, execRunFillEnd_of_end, execLoadedTrainingComplete_of_waiting⟩
  · refine ⟨_, execRunStart_of_due hs hr hj hw, ?_⟩
    have hcells : ((actArm (s.dropWaiting w.jseq) w).effectNotice w s.cn).freshArray 0 := by
      rw [State.freshArray, State.effectNotice_arr]
      exact actArm_fresh _ w
    have hkept : ((actArm (s.dropWaiting w.jseq) w).effectNotice w s.cn).kept Scope.none = s.kept Scope.none := by simp
    obtain ⟨hmem, -⟩ := State.kept_memory hkept rfl
    simp only [State.effectNotice_run, State.effectNotice_tick, State.effectNotice_planes]
    exact ⟨actArm_phase _ w, actArm_filling _ w, actArm_fillEnd _ w, actArm_tick _ w, actArm_actEp _ w, hcells.cellAt, hmem,
      notified_effectNotice (actArm_mbx _ w), leaves_effectNotice (actArm_kly _ w)⟩
  · have hu : (s.applyDue cmdStop s.cn s.cn).armed = true := (s.stopDue_armed _).trans ha
    obtain ⟨hhost, hcatch, hwrites, hwait⟩ := (s.applyDue cmdStop s.cn s.cn).stopRun_idle .command
    refine ⟨_, execRunStopEffect_of_command s ha hf hs, State.stopRun_armed _ _, State.stopRun_reason _ _, hwait, State.stopRun_fdec _ _,
      State.stopRun_flight _ _, State.stopRun_sh _ _, State.stopRun_alock _ _, hhost, hcatch, hwrites, State.stopRun_shows _ _ hu, ?_⟩
    rw [State.stopRun_mem, ← s.stopDue_alm s.cn, ← s.stopDue_mem s.cn]
    exact State.settled_mem_of_idle _
  · obtain ⟨-, -, -, hwait⟩ := (s.applyDue cmdStop s.cn s.cn).stopRun_idle .fault
    exact ⟨_, execRunStopEffect_of_fault s ha hf, State.stopRun_armed _ _, State.stopRun_reason _ _, rfl, hwait⟩

end

section
/-! PROOFS. Output assembly and the decision outputs (01 R29, R33, R34, 14 R384). -/

namespace Sys2Proof.Machine

/-! ### An event that shows goes on showing (16 R439) -/

section
variable {s : State} {i : EvtId} {b : Nat}

theorem State.shows_congr {t : State} (h : t.evts = s.evts) : t.shows i b = s.shows i b := by
  simp [State.shows, State.evt, h]

theorem State.shows_raise_of_shows (h : s.shows i b = true) (j : EvtId) (m : Word) : (s.raise j m).shows i b = true := by
  by_cases hm : m = 0
  · rwa [State.raise, if_pos hm]
  · rw [State.shows, State.evt, State.raise_evts s j hm, tget_tset]
    split
    next hij =>
      have hbit : (s.evt j).bits.getLsbD b = true := by rwa [State.evt, ← hij]
      rw [EvtReg.raise, BitVec.getLsbD_or, hbit, Bool.true_or]
    next => exact h

theorem State.shows_sideQueue_of_shows (h : s.shows i b = true) (l : Nat) (p : Pkt) : (s.sideQueue l p).shows i b = true := by
  unfold State.sideQueue
  simp only
  split
  · exact (State.shows_congr (State.setHub_evts s l _)).trans h
  · rw [State.raiseBit]
    exact State.shows_raise_of_shows ((State.shows_congr (s.count_evts (.hub l 4) 1)).trans h) _ _

theorem State.shows_healthAdd_of_shows (h : s.shows i b = true) (kind src : Nat) (regs : List Byte) :
    (s.healthAdd kind src regs).shows i b = true := by
  have hkly (k : Klowyn) : ({ s with kly := k } : State).shows i b = true := h
  unfold State.healthAdd
  simp only
  split
  · exact State.shows_sideQueue_of_shows (hkly _) _ _
  · exact hkly _

/-- A fault enters the health log and flags the records in flight; besides these it writes the run and the pair alone (01 R37, 12 R341). -/
theorem State.fault_eq (s : State) (cause : BitVec 8) (src : Nat) : ∃ run pair,
    s.fault cause src = { (s.healthAdd 2 src [cause]).flagWindow 0x002 with run := run, pair := pair } := by
  unfold State.fault
  simp only
  split
  · split <;> exact ⟨_, _, rfl⟩
  · exact ⟨_, _, rfl⟩

theorem State.shows_fault_of_shows (h : s.shows i b = true) (cause : BitVec 8) (src : Nat) : (s.fault cause src).shows i b = true := by
  obtain ⟨run, pair, hf⟩ := s.fault_eq cause src
  rw [hf]
  exact State.shows_healthAdd_of_shows h 2 src [cause]

end

/-! ### A deviation changes of the records only their flags (01 R34) -/

/-- A record apart from its flags. -/
def OutRec.unflagged (r : OutRec) : OutRec := { r with flags := 0 }

theorem OutRec.fields_of_unflagged {x r : OutRec} (h : x.unflagged = r.unflagged) :
    x.c = r.c ∧ x.asm = r.asm ∧ x.odig = r.odig ∧ x.fdec = r.fdec :=
  ⟨(congrArg OutRec.c h :), (congrArg OutRec.asm h :), (congrArg OutRec.odig h :), (congrArg OutRec.fdec h :)⟩

section
variable (s : State) (c : CN)

theorem State.flagWindow_recs (m : BitVec 13) :
    (s.flagWindow m).out.recs.map OutRec.unflagged = s.out.recs.map OutRec.unflagged := by
  simp only [State.flagWindow, List.map_map]
  refine List.map_congr_left fun r _ => ?_
  simp only [Function.comp_apply]
  split <;> rfl

theorem State.fault_recs (cause : BitVec 8) (src : Nat) :
    (s.fault cause src).out.recs.map OutRec.unflagged = s.out.recs.map OutRec.unflagged := by
  obtain ⟨run, pair, hf⟩ := s.fault_eq cause src
  rw [hf, State.flagWindow_recs, State.healthAdd_out]

theorem State.deviate_recs (l : List Nat) :
    (s.deviate c l).out.recs.map OutRec.unflagged = s.out.recs.map OutRec.unflagged := by
  unfold State.deviate
  simp only
  split
  · rfl
  · rw [State.fault_recs]
    split <;> simp

theorem State.shows_deviate {l : List Nat} (h : l ≠ []) : (s.deviate c l).shows .runLat 1 = true := by
  unfold State.deviate
  simp only
  rw [if_neg h]
  have hraised : ((s.count .deviation l.length).raiseBit .runLat 1).shows .runLat 1 = true := State.shows_raiseBit _ _ (by decide)
  refine State.shows_fault_of_shows (Eq.trans (State.shows_congr ?_) hraised) 2 0
  split <;> rfl

/-- Each record outlives a deviation, with no more than its flags changed. -/
theorem State.mem_deviate_recs {l : List Nat} {r : OutRec} (h : r ∈ s.out.recs) :
    ∃ x ∈ (s.deviate c l).out.recs, x.unflagged = r.unflagged := by
  have hr : r.unflagged ∈ (s.deviate c l).out.recs.map OutRec.unflagged := s.deviate_recs c l ▸ List.mem_map_of_mem h
  exact List.mem_map.1 hr

end

/-! ### What the entries of a crossing collect (01 R33, 10 R319) -/

/-- What a fold gathers, where each of its steps adds a list at the end. -/
theorem foldl_gathers {α β γ : Type} (g : β → List γ) (f : β → α → β) (h : α → List γ) (hf : ∀ b a, g (f b a) = g b ++ h a) (l : List α) :
    ∀ b, g (l.foldl f b) = g b ++ l.flatMap h := by
  induction l with
  | nil => simp
  | cons a r ih => intro b; rw [List.foldl_cons, ih, hf, List.flatMap_cons, List.append_assoc]

section
variable (s : State) (c : CN) (ep : BitVec 2)

/-- The step of output assembly of input crossing c, computed by epoch ep. -/
def State.collectEnt (a : Collect) (e : OschEnt) : Collect := collectOne s.arr.edge s.hdr.n c ep a e

/-- No token came for an entry, or one of an epoch that is not the crossing's (01 R34). -/
def State.deviates (e : OschEnt) : Bool :=
  ((s.arr.edge.find? fun k => k.isAt s.hdr.n c e).map fun k => decide (k.tok.epoch ≠ ep)).getD true

/-- The deviation that an entry adds: its port. -/
def State.deviation (e : OschEnt) : List Nat := if s.deviates c ep e then [e.edge] else []

theorem State.deviation_of_missing {e : OschEnt} (h : (s.arr.edge.find? fun k => k.isAt s.hdr.n c e) = none) :
    s.deviation c ep e = [e.edge] := by
  simp [State.deviation, State.deviates, h]

theorem State.collectEnt_bytes (a : Collect) (e : OschEnt) :
    (s.collectEnt c ep a e).bytes = a.bytes ++ leBytes 4 (s.collects c e).toNat := by
  simp only [State.collectEnt, collectOne, State.collects, Option.map_map]
  cases e.kind <;> rfl

theorem State.collectEnt_devs (a : Collect) (e : OschEnt) : (s.collectEnt c ep a e).devs = a.devs ++ s.deviation c ep e := by
  have hdevs : (s.collectEnt c ep a e).devs = if s.deviates c ep e then a.devs ++ [e.edge] else a.devs := by
    simp only [State.collectEnt, collectOne, State.deviates, Option.map_map]
    cases e.kind <;> rfl
  rw [hdevs, State.deviation]
  split <;> simp

theorem State.collectEnt_fdec_of_fdec (a : Collect) {e : OschEnt} {k : Nat} (h : e.kind = .fdec k) :
    (s.collectEnt c ep a e).fdec = a.fdec ||| (if (s.collects c e).getLsbD 0 then (1 : BitVec 16) <<< k else 0) := by
  simp only [State.collectEnt, collectOne, State.collects, Option.map_map, h]
  rfl

theorem State.collectEnt_fdec_of_ne (a : Collect) {e : OschEnt} (h : ∀ k, e.kind ≠ .fdec k) : (s.collectEnt c ep a e).fdec = a.fdec := by
  simp only [State.collectEnt, collectOne]
  split
  next k hk => exact absurd hk (h k)
  next => rfl
  next => rfl

theorem State.collectEnt_fdec_bit (a : Collect) (e : OschEnt) {b : Nat} (hb : b < 16) :
    (s.collectEnt c ep a e).fdec.getLsbD b = true ↔
      a.fdec.getLsbD b = true ∨ (e.kind = .fdec b ∧ (s.collects c e).getLsbD 0 = true) := by
  by_cases hf : ∃ k, e.kind = .fdec k
  · obtain ⟨k, hk⟩ := hf
    have hbit : ((1 : BitVec 16) <<< k).getLsbD b = true ↔ k = b := by
      simp [hb]
      omega
    rw [s.collectEnt_fdec_of_fdec c ep a hk, BitVec.getLsbD_or, Bool.or_eq_true, hk, OutKind.fdec.injEq]
    cases (s.collects c e).getLsbD 0 with
    | false => simp
    | true => rw [if_pos rfl, hbit, and_iff_left rfl]
  · have hne : ∀ k, e.kind ≠ .fdec k := fun k hk => hf ⟨k, hk⟩
    rw [s.collectEnt_fdec_of_ne c ep a hne]
    simp [hne b]

theorem State.foldl_collectEnt_fdec_bit {b : Nat} (hb : b < 16) (es : List OschEnt) : ∀ a : Collect,
    (es.foldl (s.collectEnt c ep) a).fdec.getLsbD b = true ↔
      a.fdec.getLsbD b = true ∨ ∃ e ∈ es, e.kind = .fdec b ∧ (s.collects c e).getLsbD 0 = true := by
  induction es with
  | nil => simp
  | cons e r ih =>
    intro a
    rw [List.foldl_cons, ih, s.collectEnt_fdec_bit c ep a e hb, or_assoc, List.exists_mem_cons_iff]

end

/-! ### The assembly (01 R33, R34) -/

section
variable (s : State) (r : OutRec)

/-- The entries whose tokens the assembly of a record takes: those that admit its crossing, in the Quays that are clocked (17 R462). -/
def State.takenEnts : List OschEnt := (s.imgAt r.slot).osch.ents.filter fun e => e.par.admits r.c && s.portRuns e.edge

/-- What they collect. -/
def State.taken : Collect :=
  (s.takenEnts r).foldl (s.collectEnt r.c r.epoch) { fdec := 0, pay := [], chain := [], bytes := [], devs := [] }

theorem State.taken_bytes : (s.taken r).bytes = (s.takenEnts r).flatMap fun e => leBytes 4 (s.collects r.c e).toNat :=
  foldl_gathers Collect.bytes _ _ (s.collectEnt_bytes r.c r.epoch) _ _

theorem State.taken_devs : (s.taken r).devs = (s.takenEnts r).flatMap (s.deviation r.c r.epoch) :=
  foldl_gathers Collect.devs _ _ (s.collectEnt_devs r.c r.epoch) _ _

theorem State.taken_fdec_bit {b : Nat} (hb : b < 16) :
    (s.taken r).fdec.getLsbD b = true ↔ ∃ e ∈ s.takenEnts r, e.kind = .fdec b ∧ (s.collects r.c e).getLsbD 0 = true := by
  simp [State.taken, s.foldl_collectEnt_fdec_bit r.c r.epoch hb]

theorem State.taken_devs_of_missing
    (h : ∃ e ∈ s.takenEnts r, (s.arr.edge.find? fun k => k.isAt s.hdr.n r.c e) = none) : (s.taken r).devs ≠ [] := by
  obtain ⟨e, he, hnone⟩ := h
  refine List.ne_nil_of_mem (a := e.edge) ?_
  rw [State.taken_devs, List.mem_flatMap]
  exact ⟨e, he, by simp [s.deviation_of_missing r.c r.epoch hnone]⟩

/-- An assembly puts the assembled record in the place of the old one, then charges its deviations: those of its entries and those of stray
tokens. -/
theorem State.assemble_eq_deviate : ∃ (u : State) (stray : List Nat),
    s.assemble r = u.deviate r.c ((s.taken r).devs ++ stray) ∧
    u.out.recs = s.out.recs.map fun x =>
      if x.c = r.c then s.assembled r (s.imgAt r.slot) (s.taken r) ((s.taken r).devs ++ stray).length else x :=
  ⟨_, _, rfl, rfl⟩

/-- The assembled record stands among the records afterwards. -/
theorem State.mem_assemble_recs (h : r ∈ s.out.recs) : ∃ x ∈ (s.assemble r).out.recs,
    x.c = r.c ∧ x.asm = true ∧ x.odig = crc64 (s.taken r).bytes ∧ x.fdec = (s.taken r).fdec := by
  obtain ⟨u, stray, heq, hrecs⟩ := s.assemble_eq_deviate r
  have hmem : s.assembled r (s.imgAt r.slot) (s.taken r) ((s.taken r).devs ++ stray).length ∈ u.out.recs := by
    rw [hrecs]
    exact List.mem_map.2 ⟨r, h, if_pos rfl⟩
  obtain ⟨x, hx, hsame⟩ := u.mem_deviate_recs r.c (l := (s.taken r).devs ++ stray) hmem
  exact ⟨x, heq ▸ hx, OutRec.fields_of_unflagged hsame⟩

theorem State.shows_assemble_of_missing
    (h : ∃ e ∈ s.takenEnts r, (s.arr.edge.find? fun k => k.isAt s.hdr.n r.c e) = none) : (s.assemble r).shows .runLat 1 = true := by
  obtain ⟨u, stray, heq, -⟩ := s.assemble_eq_deviate r
  rw [heq]
  exact u.shows_deviate r.c (List.append_ne_nil_of_left_ne_nil (s.taken_devs_of_missing r h) stray)

theorem execOutputAssembly_of_due (h : (s.out.recs.find? fun r => !r.asm && decide (s.asmAt r.c = s.cn)) = some r) :
    execOutputAssembly s = .next (s.assemble r) := by
  simp [execOutputAssembly, h]

end

/-! ### FDEC (01 R29, 10 R323) -/

section
variable {s : State}

theorem execFdecDrive_of_due (hl : s.live = true) (ht : s.tick = s.hdr.t) :
    execFdecDrive s = .next { s with out := { s.out with fdec := s.fdecDue, fdecZ := false } } := by
  simp [execFdecDrive, hl, ht]

theorem State.fdecDue_of_noAuth (ha : s.hasAuth = false) : s.fdecDue = 0 := by
  simp [State.fdecDue, ha]

theorem State.fdecDue_of_due (ha : s.hasAuth = true) {r : OutRec}
    (h : (s.out.recs.find? fun r => r.asm && decide (cnAdd r.c s.latL = s.cn)) = some r) : s.fdecDue = r.fdec := by
  simp [State.fdecDue, ha, h]

theorem State.fdecDue_of_none (ha : s.hasAuth = true)
    (h : (s.out.recs.find? fun r => r.asm && decide (cnAdd r.c s.latL = s.cn)) = none) : s.fdecDue = 0 := by
  simp [State.fdecDue, ha, h]

end

end Sys2Proof.Machine

open Sys2Proof Sys2Proof.Machine

/-- Settles O48: the assembled record holds what the entries collect (taken_bytes, taken_fdec_bit), the deviations that follow change no more
of it than its flags (mem_deviate_recs), and FDEC shows what is due (fdecDue). -/
theorem outputAssemblyAndDecision : Obligations.OutputAssemblyAndDecision := by
  refine ⟨fun s r hr => ⟨_, execOutputAssembly_of_due s r hr, ?_, s.shows_assemble_of_missing r⟩, fun s hl ht => ?_⟩
  · obtain ⟨x, hx, hc, hasm, hodig, hfdec⟩ := s.mem_assemble_recs r (List.mem_of_find?_eq_some hr)
    exact ⟨x, hx, hc, hasm, hodig.trans (congrArg crc64 (s.taken_bytes r)), fun b hb => hfdec ▸ s.taken_fdec_bit r hb⟩
  · exact ⟨_, execFdecDrive_of_due hl ht, rfl, State.fdecDue_of_noAuth,
      fun ha => ⟨fun _ => State.fdecDue_of_due ha, State.fdecDue_of_none ha⟩⟩

end

section
/-! PROOFS. The issues of the array: what one issue reads, writes, sends, pops and reports, and what it leaves alone (02 R51 to R63, 03 R87, R100,
04 R120). -/

namespace Sys2Proof.Machine

/-! ### The cell (02 R54, 03 R88) -/

@[simp] theorem Cell.write_none (c : Cell) (e : MInstr) : c.write e none = c := rfl

/-- NOP has neither a result nor an effect (03 R87). -/
@[simp] theorem Cell.write_nop (c : Cell) (e : MInstr) (i : OpIn) : c.write e (some (opNop i)) = c := rfl

/-- What an operation may write of its cell. -/
theorem Cell.write_frame (c : Cell) (e : MInstr) (o : Option OpOut) :
    c.write e o = { c with acc := (c.write e o).acc, ws := (c.write e o).ws, hold := (c.write e o).hold, flag := (c.write e o).flag } := by
  cases o with
  | none => rfl
  | some r =>
    unfold Cell.write
    simp only
    split
    · rfl
    · split
      · split <;> rfl
      all_goals rfl

@[simp] theorem Cell.write_queues (c : Cell) (e : MInstr) (o : Option OpOut) : (c.write e o).queues = c.queues := by
  rw [Cell.write_frame]

/-- An operation whose condition fails has no effect (02 R55). -/
theorem State.opOut_of_not_condMet {s : State} {x y : Nat} {e : MInstr} (op : OpIn → OpOut) (h : condMet s x y e = false) :
    s.opOut x y (s.cellXY x y) e op = none := by
  rw [condMet] at h
  rw [State.opOut, if_neg (by simp [h])]

theorem Cell.write_opOut_nop (s : State) (x y : Nat) (c : Cell) (e : MInstr) : c.write e (s.opOut x y c e opNop) = c := by
  unfold State.opOut
  split
  · exact c.write_nop e _
  · exact c.write_none e

/-! ### Reports (03 R100, R115, 04 R120) -/

/-- t differs from s in no more than the reports of an operation write: the notes of saturations, the window readings and WGM_TSAT of tensors,
and FLAGS bits of records. -/
structure State.Reported (s t : State) : Prop where
  tensor : ∀ k, t.tensor k = { s.tensor k with m := (t.tensor k).m, n := (t.tensor k).n }
  ctr : ∀ i : CtrId, i.code < 4096 → t.ctr i = s.ctr i
  recs : t.out.recs.map (fun r => { r with flags := 0 }) = s.out.recs.map fun r => { r with flags := 0 }
  rest : t = { s with
    arr := { s.arr with sats := t.arr.sats }, wgm := { s.wgm with tensors := t.wgm.tensors }, ctrs := t.ctrs
    out := { s.out with recs := t.out.recs } }

/-- Of the whole state an issue changes no more than this (02 R57, R63, 03 R100, 04 R120). -/
def State.WithinIssue (s t : State) : Prop :=
  t = { s with
    arr := { s.arr with cells := t.arr.cells, flight := t.arr.flight, issued := t.arr.issued, pops := t.arr.pops, unf := t.arr.unf
                        sats := t.arr.sats, viol := t.arr.viol }
    wgm := { s.wgm with tensors := t.wgm.tensors }, ctrs := t.ctrs, out := { s.out with recs := t.out.recs } }

theorem State.WithinIssue.trans {s t u : State} (h : s.WithinIssue t) (g : t.WithinIssue u) : s.WithinIssue u := Eq.trans g (by rw [h])

theorem State.Reported.within {s t : State} (h : s.Reported t) : s.WithinIssue t := by
  rw [State.WithinIssue, h.rest]

theorem State.Reported.refl (s : State) : s.Reported s := ⟨fun _ => rfl, fun _ _ => rfl, rfl, rfl⟩

theorem State.Reported.trans {s t u : State} (h : s.Reported t) (g : t.Reported u) : s.Reported u where
  tensor k := (g.tensor k).trans (by rw [h.tensor k])
  ctr i hi := (g.ctr i hi).trans (h.ctr i hi)
  recs := g.recs.trans h.recs
  rest := g.rest.trans (by rw [h.rest])

theorem State.reported_foldl {α : Type} {f : State → α → State} (h : ∀ s a, State.Reported s (f s a)) (l : List α) (s : State) :
    s.Reported (l.foldl f s) :=
  List.foldlRecOn _ _ (.refl s) fun u hu a _ => hu.trans (h u a)

/-- A write of a tensor's window readings. -/
theorem State.setTensor_reported {s : State} {k : Nat} (m n) : s.Reported (s.setTensor k { s.tensor k with m := m, n := n }) where
  tensor j := by
    by_cases hj : j = k
    · subst hj
      rw [State.tensor_setTensor]
    · rw [State.tensor, State.setTensor, tget_tset_ne _ _ _ hj]
      rfl
  ctr _ _ := rfl
  recs := rfl
  rest := rfl

theorem State.count_wgmTsat_reported (s : State) (v t n : Nat) : s.Reported (s.count (.wgmTsat v t) n) where
  tensor _ := rfl
  ctr i hi := tget_tput_ne _ _ _ (by simp only [CtrId.code] at hi ⊢; omega)
  recs := rfl
  rest := rfl

theorem State.flagWindow_reported (s : State) (b : BitVec 13) : s.Reported (s.flagWindow b) where
  tensor _ := rfl
  ctr _ _ := rfl
  recs := by
    rw [State.flagWindow, List.map_map]
    refine List.map_congr_left fun r _ => ?_
    simp only [Function.comp_apply]
    split <;> rfl
  rest := rfl

theorem State.wgmReport_reported (s : State) (k mag : Nat) : s.Reported (s.wgmReport k mag) := by
  unfold State.wgmReport
  simp only
  split
  · exact State.setTensor_reported _ _
  · exact .refl s

/-- The saturations of tensors noted for the tick's end. -/
theorem State.noteSat_reported (s : State) (l : List Nat) : s.Reported { s with arr := { s.arr with sats := l } } :=
  ⟨fun _ => rfl, fun _ _ => rfl, rfl, rfl⟩

theorem State.wgmSat_reported (s : State) (k : Nat) : s.Reported (s.wgmSat k) := by
  unfold State.wgmSat
  simp only
  split
  · refine .trans ?_ (State.flagWindow_reported _ _)
    refine .trans ?_ (State.noteSat_reported _ _)
    refine .trans ?_ (State.count_wgmTsat_reported _ _ _ _)
    split
    · exact .refl s
    · exact State.setTensor_reported _ _
  · exact .refl s

theorem State.reportAll_reported (s : State) (x y : Nat) (c : Cell) (e : MInstr) (o : Option OpOut) : s.Reported (s.reportAll x y c e o) := by
  cases o with
  | none => exact .refl s
  | some r =>
    refine .trans ?_ (State.reported_foldl ?_ r.sats _)
    · split
      · exact s.wgmReport_reported _ _
      · exact .refl s
    · intro u j
      simp only
      split
      · exact u.wgmSat_reported _
      · exact .refl u

/-! ### What an issue does before its reports (02 R57) -/

theorem State.noteUnf_frame (s : State) (x y : Nat) (c : Cell) (e : MInstr) :
    s.noteUnf x y c e =
      { s with arr := { s.arr with unf := (s.noteUnf x y c e).arr.unf, viol := (s.noteUnf x y c e).arr.viol } } := by
  unfold State.noteUnf
  split
  · rfl
  · split <;> rfl

/-- The tokens in flight that leave cell (x, y) with tokens l (02 R64 to R71). -/
def State.flights (s : State) (x y : Nat) (l : List (Nat × Token)) : List Flight :=
  l.filterMap fun p => (s.link x y p.1).map fun d => { left := d.2, dst := d.1, tok := p.2 }

/-- The state after an issue but for its reports: the cell written, the tokens sent, underflows, the issue and its pops noted. -/
def State.acted (s : State) (x y : Nat) (c : Cell) (e : MInstr) (o : Option OpOut) : State :=
  let u := ((s.setCell (y * 1024 + x) (c.write e o)).send x y (s.driven c e o)).noteUnf x y c e
  { u with arr := { u.arr with issued := (y * 1024 + x) :: u.arr.issued, pops := u.arr.pops ++ (c.popped e).map fun p => (y * 1024 + x, p) } }

theorem issueEffect_eq (s : State) (x y : Nat) (c : Cell) (e : MInstr) (op : OpIn → OpOut) :
    issueEffect s x y c e op = (s.acted x y c e (s.opOut x y c e op)).reportAll x y c e (s.opOut x y c e op) := rfl

section
variable (s : State) (x y : Nat) (c : Cell) (e : MInstr) (o : Option OpOut) (op : OpIn → OpOut)

theorem State.acted_frame :
    let t := s.acted x y c e o
    t = { s with arr := { s.arr with cells := t.arr.cells, flight := t.arr.flight, issued := t.arr.issued, pops := t.arr.pops
                                     unf := t.arr.unf, viol := t.arr.viol } } := by
  simp only [State.acted]
  rw [State.noteUnf_frame]
  rfl

theorem State.acted_within : s.WithinIssue (s.acted x y c e o) := by
  have h := s.acted_frame x y c e o
  simp only at h
  rw [State.WithinIssue, h]

theorem State.acted_wgm : (s.acted x y c e o).wgm = s.wgm := by
  rw [State.acted_frame]

theorem State.acted_issued : (s.acted x y c e o).arr.issued = (y * 1024 + x) :: s.arr.issued := by
  simp only [State.acted]
  rw [State.noteUnf_frame]
  rfl

theorem State.acted_flight : (s.acted x y c e o).arr.flight = s.arr.flight ++ s.flights x y (s.driven c e o) := by
  simp only [State.acted]
  rw [State.noteUnf_frame]
  rfl

theorem issueEffect_reported : (s.acted x y c e (s.opOut x y c e op)).Reported (issueEffect s x y c e op) :=
  issueEffect_eq s x y c e op ▸ State.reportAll_reported _ x y c e _

/-- The cell has issued in this tick (02 R57). -/
theorem mem_issueEffect_issued : (y * 1024 + x) ∈ (issueEffect s x y c e op).arr.issued := by
  rw [(issueEffect_reported s x y c e op).rest]
  simp [State.acted_issued]

theorem issueEffect_flight : (issueEffect s x y c e op).arr.flight = s.arr.flight ++ s.flights x y (s.driven c e (s.opOut x y c e op)) := by
  rw [(issueEffect_reported s x y c e op).rest]
  exact s.acted_flight x y c e _

theorem issueEffect_tensor (k : Nat) :
    (issueEffect s x y c e op).tensor k =
      { s.tensor k with m := ((issueEffect s x y c e op).tensor k).m, n := ((issueEffect s x y c e op).tensor k).n } := by
  have h := (issueEffect_reported s x y c e op).tensor k
  rwa [State.tensor, State.tensor, State.acted_frame] at h

theorem issueEffect_within : s.WithinIssue (issueEffect s x y c e op) :=
  (s.acted_within x y c e _).trans (issueEffect_reported s x y c e op).within

theorem issueEffect_ctr {i : CtrId} (h : i.code < 4096) : (issueEffect s x y c e op).ctr i = s.ctr i := by
  rw [(issueEffect_reported s x y c e op).ctr i h, State.acted_frame]
  rfl

theorem issueEffect_recs :
    (issueEffect s x y c e op).out.recs.map (fun r => { r with flags := 0 }) = s.out.recs.map fun r => { r with flags := 0 } := by
  rw [(issueEffect_reported s x y c e op).recs, State.acted_frame]

/-- The tokens in flight stay so. -/
theorem mem_issueEffect_flight {f : Flight} (h : f ∈ s.arr.flight) : f ∈ (issueEffect s x y c e op).arr.flight := by
  rw [issueEffect_flight]
  exact List.mem_append_left _ h

/-- An issue leaves every queue as it is until the tick's end. -/
theorem issueEffect_queues (k : Nat) : ((issueEffect s x y (s.cellXY x y) e op).cellAt k).queues = (s.cellAt k).queues := by
  rw [issueEffect_cellAt]
  split
  · rename_i hk
    rw [Cell.write_queues, hk, State.cellXY]
  · rfl

end

/-! ### Routes and pops (02 R51, R57, R63) -/

/-- A route that names a source sends the source's token, where it shows one and no waypoint leaves there. -/
theorem State.mem_driven_source {s : State} {c : Cell} {e : MInstr} {p k : Nat} (o : Option OpOut) (hr : (p, k) ∈ e.routes) (h0 : k ≠ 0)
    (h9 : k ≠ 9) (ht : (c.source e k).tag ≠ 0) (hw : (s.wpQualifies c && woutHas c.wout p) = false) :
    (p, c.source e k) ∈ s.driven c e o :=
  List.mem_filterMap.2 ⟨(p, k), hr, by simpa [h0, h9, hw] using ht⟩

/-- A token that leaves the cell on a link is in flight to the link's end. -/
theorem State.mem_flights {s : State} {x y p : Nat} {l : List (Nat × Token)} {t : Token} {d : Dest × Nat} (h : (p, t) ∈ l)
    (hd : s.link x y p = some d) : ({ left := d.2, dst := d.1, tok := t } : Flight) ∈ s.flights x y l :=
  List.mem_filterMap.2 ⟨(p, t), h, by simp [hd]⟩

theorem mem_issueEffect_flight_source {s : State} {x y p k : Nat} {e : MInstr} {d : Dest × Nat} (op : OpIn → OpOut) (hr : (p, k) ∈ e.routes)
    (h0 : k ≠ 0) (h9 : k ≠ 9) (ht : ((s.cellXY x y).source e k).tag ≠ 0) (hw : waypointOn s x y p = false) (hd : s.link x y p = some d) :
    ({ left := d.2, dst := d.1, tok := (s.cellXY x y).source e k } : Flight) ∈ (issueEffect s x y (s.cellXY x y) e op).arr.flight := by
  rw [issueEffect_flight]
  exact List.mem_append_right _ (State.mem_flights (State.mem_driven_source _ hr h0 h9 ht hw) hd)

theorem Cell.mem_popped {c : Cell} {e : MInstr} {p : Nat} : p ∈ c.popped e ↔ p < 8 ∧ e.pops p = true ∧ (c.head? p).isSome = true := by
  simp [Cell.popped]

theorem mem_issueEffect_pops {s : State} {x y k p : Nat} {c : Cell} {e : MInstr} {op : OpIn → OpOut} :
    (k, p) ∈ (issueEffect s x y c e op).arr.pops ↔
      (k, p) ∈ s.arr.pops ∨ (k = y * 1024 + x ∧ p < 8 ∧ e.pops p = true ∧ (c.head? p).isSome = true) := by
  rw [issueEffect_pops, List.mem_append, List.mem_map]
  refine or_congr_right ⟨?_, fun ⟨hk, hp⟩ => ⟨p, Cell.mem_popped.2 hp, by rw [hk]⟩⟩
  rintro ⟨q, hq, heq⟩
  cases heq
  exact ⟨rfl, Cell.mem_popped.1 hq⟩

/-- One pop of the tick's end: the queue of a cell loses its head. -/
def State.popHead (s : State) (cp : Nat × Nat) : State :=
  s.setCell cp.1 { s.cellAt cp.1 with queues := tput [] (s.cellAt cp.1).queues cp.2 (((s.cellAt cp.1).queue cp.2).drop 1) }

theorem State.removeHeads_eq (s : State) : s.removeHeads = s.arr.pops.foldl State.popHead s := rfl

theorem State.popHead_queue (s : State) (cp : Nat × Nat) (k p : Nat) :
    ((s.popHead cp).cellAt k).queue p = ((s.cellAt k).queue p).drop (if cp = (k, p) then 1 else 0) := by
  obtain ⟨j, q⟩ := cp
  by_cases hk : k = j
  · subst hk
    rw [State.popHead, State.cellAt_setCell, Cell.queue, tget_tput]
    by_cases hp : p = q
    · subst hp
      simp
    · simp [hp, Ne.symm hp, Cell.queue]
  · rw [State.popHead, State.cellAt_setCell_ne s _ hk]
    simp [Ne.symm hk]

theorem State.foldl_popHead_queue (l : List (Nat × Nat)) (s : State) (k p : Nat) :
    ((l.foldl State.popHead s).cellAt k).queue p = ((s.cellAt k).queue p).drop (l.count (k, p)) := by
  induction l generalizing s with
  | nil => rfl
  | cons cp r ih =>
    rw [List.foldl_cons, ih, State.popHead_queue, List.drop_drop, List.count_cons, Nat.add_comm]
    simp only [beq_iff_eq]

/-! ### The commands (02 R57 to R59) -/

/-- What an issue command can do: nothing, or the issue of the entry that is due. -/
theorem issueOp_next {opc : Nat} {op : OpIn → OpOut} {x y : Nat} {s t : State} (h : issueOp opc op x y s = .next t) :
    t = s ∨ ∃ e, t = issueEffect s x y (s.cellXY x y) e op := by
  unfold issueOp at h
  split at h
  · split at h
    · rename_i e _
      cases h
      exact .inr ⟨e, rfl⟩
    · cases h
      exact .inl rfl
  · cases h

/-- A command whose entry is not due changes nothing (DESIGN CHOICE, log entry 7). -/
theorem issueOp_not_due {opc : Nat} {x y : Nat} {s : State} (op : OpIn → OpOut) (hc : s.hasCell x y = true)
    (h : s.issueDue x y opc = none) : issueOp opc op x y s = .next s := by
  simp [issueOp, hc, h]

/-- Every command that names a cell, but for waypoints and seams, issues an operation there. -/
theorem exists_exec_eq_issueOp {c : Instr} {x y : Nat} (h : cellOf? c = some (x, y)) (hw : c ≠ .waypointArrival x y) (hs : c ≠ .seam x y) :
    ∃ opc op, ∀ u, exec c u = issueOp opc op x y u := by
  cases c with
  | nop _ _ | macd _ _ | macdz _ _ | macv _ _ | macvz _ _ | accadd _ _ | accsub _ _ | accld _ _ | accclr _ _ | accmax _ _ | accmin _ _
    | rqs _ _ | rqv _ _ | rqvc _ _ | lutv8 _ _ | lutv4 _ _ | luts _ _ | luti _ _ | cmplt _ _ | cmple _ _ | cmpeq _ _ | cmpltu _ _
    | sel _ _ | min_ _ _ | max_ _ _ | cx _ _ | vmax _ _ | vmin _ _ | hmax _ _ | abs_ _ _ | and_ _ _ | or_ _ _ | xor_ _ _ | andn _ _
    | shl _ _ | shr _ _ | sar _ _ | popc _ _ | mov _ _ | bcast _ _ | unpk _ _ =>
    cases h
    exact ⟨_, _, fun _ => rfl⟩
  | waypointArrival _ _ =>
    cases h
    exact absurd rfl hw
  | seam _ _ =>
    cases h
    exact absurd rfl hs
  | _ => cases h

end Sys2Proof.Machine

open Sys2Proof Sys2Proof.Machine

/-- Settles O17: NOP's effect writes nothing (Cell.write_opOut_nop), and an operation whose condition fails has none (opOut_of_not_condMet). -/
theorem nopAndFailedConditionsWriteNothing : Obligations.NopAndFailedConditionsWriteNothing := by
  refine ⟨fun s x y e h => ⟨_, issueOp_due opNop h, ?_, mem_issueEffect_issued s x y _ e opNop⟩,
    fun c opc op s x y e hc h hm => ⟨_, (hc s).trans (issueOp_due op h), ?_, mem_issueEffect_issued s x y _ e op, ?_⟩⟩
  · rw [issueEffect_cellXY, Cell.write_opOut_nop]
  · rw [issueEffect_cellXY, State.opOut_of_not_condMet op hm, Cell.write_none]
  · rw [issueEffect_eq, State.opOut_of_not_condMet op hm]
    exact s.acted_wgm x y _ e none

/-- Settles O18: every such command is an issue (exists_exec_eq_issueOp), which does nothing or what issueEffect does; that changes of its cell
what Cell.write_frame says and of the rest what issueEffect_within and the lemmas beside it say. -/
theorem issueFrame : Obligations.IssueFrame := by
  refine ⟨fun c s t x y hc hw hs h => ?_, fun c opc op s x y hc hcell hd => (hc s).trans (issueOp_not_due op hcell hd)⟩
  obtain ⟨opc, op, hop⟩ := exists_exec_eq_issueOp hc hw hs
  obtain rfl | ⟨e, rfl⟩ := issueOp_next ((hop s).symm.trans h)
  · exact ⟨fun _ _ => rfl, rfl, fun _ => id, fun _ => rfl, fun _ _ => rfl, rfl, rfl⟩
  · refine ⟨fun k hk => (issueEffect_cellAt s x y _ e op k).trans (if_neg hk), ?_, fun f => mem_issueEffect_flight s x y _ e op,
      issueEffect_tensor s x y _ e op, fun i => issueEffect_ctr s x y _ e op, issueEffect_recs s x y _ e op, issueEffect_within s x y _ e op⟩
    simp only [issueEffect_cellXY]
    exact Cell.write_frame _ e _

/-- Settles O19: the pops and the tokens of an issue are those of mem_issueEffect_pops and mem_issueEffect_flight_source, whatever the operation;
at the tick's end each noted pop takes one head (foldl_popHead_queue). -/
theorem issuePopsAndRoutes : Obligations.IssuePopsAndRoutes := by
  refine ⟨fun c opc op s x y e h hc => ⟨_, (hc s).trans (issueOp_due op h), fun k p => mem_issueEffect_pops,
    issueEffect_queues s x y e op, ?_, fun f => mem_issueEffect_flight s x y _ e op⟩, fun s k p => ?_⟩
  · exact fun p k d hr h0 h9 ht hw hd => mem_issueEffect_flight_source op hr h0 h9 ht hw hd
  · rw [State.removeHeads_eq, State.foldl_popHead_queue]

end

section
/-! PROOFS. The run commands that wait for their crossing (15 R406 to R408): the checks that they pass, what their chapters answer, and what an
accepted arming sets (02 R81, 04 R144, 05 R177, 06 R185, 14 R393). -/

namespace Sys2Proof.Machine

/-! ### Rows that ask for nothing but operands in range (15 R403, R405) -/

/-- The row of a journaled command that names a crossing, takes no list, and bounds its operands from above alone. -/
structure CmdSpec.Plain (c : CmdSpec) : Prop where
  mins : c.mins = []
  ok : ∀ k d, c.ok k d = true
  zero : c.zero = []
  list : ∀ o n, c.list o n = (n == 0)
  cross : ∀ o, c.cross o = true
  jrn : c.jrn = true

theorem CmdSpec.plain_row (op : Nat) (maxs : List Nat) (run : RunRule) (mir : Bool) :
    CmdSpec.Plain { op := op, maxs := maxs, run := run, cross := fun _ => true, mir := mir } :=
  ⟨rfl, fun _ _ => rfl, rfl, fun _ _ => rfl, fun _ => rfl, rfl⟩

/-- Operand by operand, no value exceeds its bound. -/
def inRange (ops : List Dword) (maxs : List Nat) : Prop := List.Forall₂ (fun d m => d.toNat ≤ m) ops maxs

theorem CmdSpec.badOp_of_inRange {c : CmdSpec} {op : Nat} {h : CmdHdr} {ops : List Dword} {lst : List Byte} (hc : c.Plain)
    (hr : inRange ops c.maxs) : c.badOp (mkReq op h ops lst) = none := by
  refine List.find?_eq_none.2 fun k hk => ?_
  have hm : k < c.maxs.length := List.mem_range.1 hk
  have ho : k < ops.length := hr.length_eq.symm ▸ hm
  have hle : ops[k].toNat ≤ c.maxs[k] := hr.get ho hm
  simp [opd_mkReq op h ops lst k ho, hc.mins, hc.ok, hm, hle]

theorem CmdSpec.lenOk_of_plain {c : CmdSpec} {op : Nat} {h : CmdHdr} {ops : List Dword} (hc : c.Plain) (ho : ops.length = c.maxs.length)
    (hl : h.len = 8 * ops.length) (hs : h.len ≤ 4032) : c.lenOk (mkReq op h ops []) = true := by
  have hs' : 8 * c.maxs.length ≤ 4032 := by omega
  simp [CmdSpec.lenOk, hc.list, hl, ho, hs']

section
variable {c : CmdSpec} {s : State}

theorem CmdSpec.runCode_no (hc : c.run = .no) (h : s.armed = false) : c.runCode s = 0 := by
  simp [CmdSpec.runCode, hc, h]

theorem CmdSpec.runCode_yes (hc : c.run = .yes) (h : s.armed = true) (hp : s.run.phase ≠ .paused ∨ (c.op ≠ 0x0301 ∧ c.op ≠ 0x0303)) :
    c.runCode s = 0 := by
  obtain hp | hp := hp <;> simp [CmdSpec.runCode, hc, h, hp]

theorem CmdSpec.runCode_paused (hc : c.run = .paused) (h : s.run.phase = .paused) : c.runCode s = 0 := by
  simp [CmdSpec.runCode, hc, h]

end

/-! ### Announced commands (15 R406, R409) -/

theorem asks_iff {h : CmdHdr} {len : Nat} {at_ : Bool} {s : State} :
    asks h len at_ s = true ↔ s.takes h.mbx = true ∧ s.isOpen = true ∧ h.len = len ∧ h.at_ = at_ ∧ h.rsvd = false := by
  simp [asks, hdrSays, and_assoc]

theorem State.pairMode_of_isOpen {s : State} (h : s.isOpen = true) : s.pairMode = false := by
  simp only [State.isOpen, Bool.and_eq_true, Bool.not_eq_true'] at h
  exact h.2

/-- With a run armed, or to start one, a command that names a crossing waits for it (R407). -/
theorem CmdSpec.not_atOnce {c : CmdSpec} (hc : c.Plain) {s : State} (r : KReq) (h : s.armed = true ∨ startsRun c.op = true) :
    c.atOnce s r = false := by
  obtain h | h := h <;> simp [CmdSpec.atOnce, hc.cross, h]

theorem CmdSpec.not_late {c : CmdSpec} {s : State} {r : KReq} (h : s.keepsLead r.hdr c.op = true) : c.late s r = false := by
  obtain ⟨h1, h2⟩ := of_decide_eq_true h
  have h1' := Nat.not_lt.2 h1
  have h2' := Nat.not_lt.2 h2
  simp only [CmdSpec.late, decide_eq_false h1', decide_eq_false h2', Bool.or_self, Bool.and_false]

theorem GoesTo.mono {o : Out} {p q : State → Prop} (h : GoesTo o p) (hpq : ∀ t, p t → q t) : GoesTo o q := by
  obtain ⟨t, ht, hp⟩ := h
  exact ⟨t, ht, hpq t hp⟩

/-- t is u but for what the answer to a command writes: mailboxes, interrupts, journal, Klowyn's lists and log. -/
def State.AnswerOf (u t : State) : Prop := t = { u with mbx := t.mbx, host := t.host, jnl := t.jnl, kly := t.kly, log := t.log }

section
variable {u t : State} (h : u.AnswerOf t)
include h

theorem State.AnswerOf.run : t.run = u.run := by rw [h]
theorem State.AnswerOf.planes : t.planes = u.planes := by rw [h]
theorem State.AnswerOf.alm : t.alm = u.alm := by rw [h]
theorem State.AnswerOf.arr : t.arr = u.arr := by rw [h]
theorem State.AnswerOf.clk : t.clk = u.clk := by rw [h]
theorem State.AnswerOf.cig : t.cig = u.cig := by rw [h]
theorem State.AnswerOf.mem : t.mem = u.mem := by rw [h]
theorem State.AnswerOf.ctr (i : CtrId) : t.ctr i = u.ctr i := by
  rw [h]
  rfl
theorem State.AnswerOf.evt (i : EvtId) : t.evt i = u.evt i := by
  rw [h]
  rfl
theorem State.AnswerOf.lane (l : Nat) : t.lane l = u.lane l := by
  rw [h]
  rfl

end

/-- An owning chapter asked in state s that answers with state u leaves the mailboxes, the journal, Klowyn and the pair mode alone. -/
structure State.Owned (s u : State) : Prop where
  mbx : u.mbx = s.mbx
  jnl : u.jnl = s.jnl
  kly : u.kly = s.kly
  pairCfg : u.pair.cfg = s.pair.cfg

theorem State.Owned.pairMode {s u : State} (h : s.Owned u) : u.pairMode = s.pairMode := by
  rw [State.pairMode, State.pairMode, h.pairCfg]

section
variable {c : KCmd} {r : KReq} {s u : State}

theorem KCmd.asked_of_plain (hc : c.spec.Plain) : c.asked r s = (s.submitted r).jAdd ((s.submitted r).jEntry c.spec r.hdr.mbx r 0) := by
  rw [KCmd.asked, if_pos hc.jrn]

theorem KCmd.entry_at (hc : c.spec.Plain) (h : s.armed = true ∨ startsRun c.spec.op = true) : (c.entry r s).at_ = s.target r.hdr := by
  have ha : c.spec.atOnce (s.submitted r) r = false := CmdSpec.not_atOnce hc r h
  simp only [KCmd.entry, State.mkWaiting, ha]
  rfl

theorem KCmd.entry_jseq (hc : c.spec.Plain) : (c.entry r s).jseq = s.jnl.head + 1 := by
  simp [KCmd.entry, State.mkWaiting, hc.jrn, State.submitted]

theorem KCmd.asked_alone {len : Nat} {at_ : Bool} (hc : c.spec.Plain) (ha : asks r.hdr len at_ s = true) : (c.asked r s).pairMode = false := by
  rw [KCmd.asked_of_plain hc]
  exact State.pairMode_of_isOpen (asks_iff.1 ha).2.1

theorem KCmd.asked_armBad (hc : c.spec.Plain) (slot pl : Nat) (debug : Bool) : (c.asked r s).armBad slot pl debug = s.armBad slot pl debug := by
  rw [KCmd.asked_of_plain hc]
  rfl

/-- The answer to a command that waits leaves the journal as it was. -/
theorem KCmd.answered_jnl (hc : c.spec.Plain) (hp : u.pairMode = false) (w : Waiting) (d : Dword) (l : List Byte) :
    (c.answered u w d l).jnl = u.jnl := by
  have hf : (kFinish c.spec u w d l).jnl = u.jnl := by
    simp only [kFinish, mirrors_alone c.spec hp, hc.cross, Bool.false_eq_true, if_false, if_true]
    split <;> simp
  unfold KCmd.answered KCmd.note
  split
  · rw [State.logEvent_jnl, hf]
  · exact hf

theorem KCmd.answered_log (hc : c.spec.Plain) (hp : u.pairMode = false) (hm : c.spec.mir = false) (w : Waiting) (d : Dword) (l : List Byte) :
    (c.answered u w d l).log = u.log := by
  simp only [KCmd.answered, KCmd.note, hm, kFinish, mirrors_alone c.spec hp, hc.cross, Bool.false_eq_true, if_false, if_true]
  split <;> simp

end

/-- A command that names its crossing with the lead, in a run state that its row allows, completes with RESULT 0 and waits where its owning chapter
accepts it (R404 to R409). -/
theorem kSubmit_announced {c : KCmd} {h : CmdHdr} {op : Nat} {ops : List Dword} {s u : State} (hc : c.spec.Plain) (hop : c.spec.op = op)
    (ha : asks h (8 * ops.length) true s = true) (hs : ops.length ≤ 504) (hr : inRange ops c.spec.maxs) (hn : c.spec.runCode s = 0)
    (hw : s.armed = true ∨ startsRun op = true) (hk : s.keepsLead h op = true)
    (ho : c.own (c.asked (mkReq op h ops []) s) (c.entry (mkReq op h ops []) s) = .now u 0 [])
    (hu : (c.asked (mkReq op h ops []) s).Owned u) :
    GoesTo (kSubmit c (mkReq op h ops []) s) fun t =>
      WaitsFor s t h op (s.target h) ∧ Journals s t ∧ u.AnswerOf t ∧ (c.spec.mir = false → t.log = u.log) := by
  subst hop
  obtain ⟨ht, hopen, hlen, hat, hrsvd⟩ := asks_iff.1 ha
  have halone := hu.pairMode.trans (KCmd.asked_alone (r := mkReq c.spec.op h ops []) hc ha)
  have hm := mirrors_alone c.spec halone
  have hasked := KCmd.asked_of_plain (r := mkReq c.spec.op h ops []) (s := s) hc
  have hcheck : kCheck c.spec h.mbx (mkReq c.spec.op h ops []) (s.submitted (mkReq c.spec.op h ops [])) = none :=
    kCheck_open (s := s.submitted _) hopen (CmdSpec.lenOk_of_plain hc hr.length_eq hlen (by omega)) (CmdSpec.badOp_of_inRange hc hr) hrsvd
      (hat.trans (hc.cross _).symm) (by rw [CmdSpec.zeroOp, hc.zero]; rfl) hn (CmdSpec.not_late (s := s.submitted _) hk)
  refine ⟨_, kSubmit_waits ht hcheck ho (hc.cross _) (CmdSpec.not_atOnce hc _ hw), ⟨?_, ?_⟩, ?_, ?_, fun hmir => ?_⟩
  · refine completes_answered ht hm ?_ rfl rfl
    rw [State.mbxOf, State.mbxOf, hu.mbx, hasked]
    rfl
  · refine ⟨c.entry (mkReq c.spec.op h ops []) s, ?_, rfl, rfl, rfl, KCmd.entry_at hc hw⟩
    show (c.answered u _ 0 []).kly.waiting ++ _ = _
    rw [c.answered_eq _ 0 [] hm, hu.kly, hasked]
    rfl
  · show (c.answered u _ 0 []).jnl.head = _
    rw [KCmd.answered_jnl hc halone, hu.jnl, hasked]
    rfl
  · rw [State.AnswerOf, State.served, State.await, c.answered_eq _ 0 [] hm]
  · exact KCmd.answered_log hc halone hmir _ 0 []

/-! ### What the owning chapters answer -/

section
variable {s : State} {w : Waiting}

theorem ownPause_of_apart (h : s.pauseMeets w.at_ = false) :
    ownPause s w = .now { s with run := { s.run with pauseAt := some w.at_ } } 0 [] := by
  simp [ownPause, h]

theorem ownResume_of_paused (hp : s.run.phase = .paused) (hq : s.run.resumeQ = none) (hm : (w.at_ - s.run.pcn).toNat % 32 = 0)
    (hlo : 15 ≤ (w.at_ - s.run.pausedAt).toNat) (hhi : (w.at_ - s.run.pausedAt).toNat < 2 ^ 47) (hd : s.resumeDiffers = false) :
    ownResume s w = .now { s with run := { s.run with resumeQ := some w.at_ }, alm := { s.alm with trained := false } } 0 [] := by
  have ht : ¬((w.at_ - s.run.pausedAt).toNat < 15 ∨ (w.at_ - s.run.pausedAt).toNat ≥ 2 ^ 47) := by omega
  simp only [ownResume]
  rw [if_neg (by simp [hp, hq]), if_neg (not_not.2 hm), if_neg ht, if_neg (by simp [hd])]

/-- The state in which the shadow planes are to become the active ones at input crossing p (06 R198). -/
def State.switchAt (s : State) (p : CN) : State :=
  { s with planes := { s.planes with
      sh := .switching, swW := some p, swCn := p, wpSent := false
      epochs := s.planes.epochs ++ [{ c := p, epoch := s.planes.actEp + 1, slot := s.planes.shSlot }] } }

theorem ownSwitch_of_ready (hd : s.run.phase ≠ .draining) (hw : s.planes.swW = none) (hp : s.run.pauseAt = none)
    (ht : s.transferring = false) (hr : s.planes.sh = .ready) : ownSwitch s w = .now (s.switchAt w.at_) 0 [] := by
  simp [ownSwitch, State.switchAt, hd, hw, hp, ht, hr]

theorem ownTswap_of_free {d : TblDesc} (hd : s.img.table (w.req.opd 0).toNat = some d) (hf : d.faces ≠ 1) (ht : s.transferring = false)
    (hs : s.swapping (w.req.opd 0).toNat = false)
    (hb : (s.alm.writes ++ s.alm.catchUp).any (fun b => b.tid == (w.req.opd 0).toNat) = false) (hp : s.run.pauseAt = none) :
    ownTswap s w = .now { s with alm := { s.alm with
      swaps := s.alm.swaps ++ [{ tid := (w.req.opd 0).toNat, a := w.at_, jseq := w.jseq, done := false }] } } 0 [] := by
  simp only [ownTswap, hd, hf, ht, hs, hb, hp]
  rfl

/-- The last device crossing of the run after a STOP at crossing a: the earlier of the two where one was set (00 R13). -/
def State.stopFor (s : State) (a : CN) : CN :=
  match s.run.stopAt with
  | some c => if cnLt a c then a else c
  | none => a

theorem ownStop_eq : ownStop s w = .now { s with run := { s.run with stopAt := some (s.stopFor w.at_) } } 0 [] := rfl

/-! ### What an accepted arming sets (05 R161, 06 R185) -/

theorem ownArm_of_solo (hp : s.pairMode = false) (hb : s.armBad (w.req.opd 0).toNat (w.req.opd 1).toNat (w.req.opd 4 == 1) = none) :
    ownArm s w = .now (s.armRun (w.req.opd 0).toNat (w.req.opd 1).toNat
      (if w.req.opd 3 = 1 then w.req.opd 2 else (s.imgAt (w.req.opd 0).toNat).hdr.seed) (w.req.opd 4 == 1) w.at_) 0 [] := by
  simp only [ownArm, hp, hb, Bool.false_and, Bool.false_eq_true, if_false]

end

theorem tfind_filter_of_not {α : Type} {q : Nat → Bool} {k : Nat} (h : q k = false) (t : Tbl α) :
    tfind (t.filter fun p => q p.1) k = none := by
  induction t with
  | nil => rfl
  | cons p r ih =>
    obtain ⟨j, v⟩ := p
    rw [List.filter_cons]
    split
    · rename_i hj
      have hne : j ≠ k := by rintro rfl; simp [h] at hj
      rw [tfind, if_neg hne, ih]
    · exact ih

theorem armLane_cfg (i : Image) (board : List Byte) (m : Nat) (pair : Bool) (l : Nat) (x : Lane) :
    (armLane i board m pair l x).cfg = laneCfg i board m l := by
  unfold armLane
  simp only
  split
  · rfl
  · split <;> rfl

section
variable (s : State)

/-- One lane of an arming (09 R305). -/
def State.armLaneAt (i : Image) (m : Nat) (u : State) (l : Nat) : State := u.setLane l (armLane i u.boot.board m u.pairMode l (u.lane l))

theorem State.foldl_armLaneAt_cfg (i : Image) (m : Nat) {l n : Nat} (hl : l < n) :
    (((List.range n).foldl (State.armLaneAt i m) s).lane l).cfg = laneCfg i s.boot.board m l := by
  induction n with
  | zero => omega
  | succ n ih =>
    rw [List.range_succ, List.foldl_append, List.foldl_cons, List.foldl_nil, State.armLaneAt]
    by_cases hn : l = n
    · subst hn
      rw [State.lane_setLane, armLane_cfg, foldl_same State.boot (State.armLaneAt i m) fun _ _ => rfl]
    · rw [State.lane_setLane_ne _ _ hn]
      exact ih (by omega)

theorem State.armLanes_cfg (i : Image) (m : Nat) {l : Nat} (hl : l < 64) :
    ((s.armLanes i m).lane l).cfg = laneCfg i s.boot.board m l := s.foldl_armLaneAt_cfg i m hl

/-- What an arming settles before it turns to contexts, lanes, clock and rails: those keep it. -/
structure ArmKey where
  run : RunState
  planes : Planes
  ctrs : Tbl Dword
  evts : Tbl EvtReg
  mbx : Tbl Mbx
  jnl : Jnl
  kly : Klowyn
  mem : Tbl Byte
  pairCfg : Word

def State.armKey (s : State) : ArmKey := ⟨s.run, s.planes, s.ctrs, s.evts, s.mbx, s.jnl, s.kly, s.mem, s.pair.cfg⟩

/-! The clock, the integrity reference and the rails, to which an arming turns last (17 R459, R474, 16 R454). -/

theorem State.coverChange_armKey (learn : Bool) : (s.coverChange learn).armKey = s.armKey := rfl

theorem State.startLevel_frame (pl : Nat) (w : Option Waiting) :
    (s.startLevel pl w).armKey = s.armKey ∧ (s.startLevel pl w).clk = s.clk ∧ (s.startLevel pl w).lanes = s.lanes := by
  unfold State.startLevel
  split
  · exact ⟨rfl, rfl, rfl⟩
  · simp only
    split <;> exact ⟨rfl, rfl, rfl⟩

/-- One context of an arming (08 R249, 04 R139). -/
def State.armCtxAt (u : State) (e : CmapEnt) : State := u.setCtx e.ctx ((u.ctxOf e.ctx).armed e)

/-- The contexts and the lanes of an image as arming leaves them. -/
def State.armUnits (i : Image) (m : Nat) : State := (i.cmap.foldl State.armCtxAt s).armLanes i m

theorem State.armUnits_armKey (i : Image) (m : Nat) : (s.armUnits i m).armKey = s.armKey :=
  (foldl_same State.armKey (State.armLaneAt i m) (fun _ _ => rfl) _ _).trans
    (foldl_same State.armKey State.armCtxAt (fun _ _ => rfl) _ _)

theorem State.armUnits_lane_cfg (i : Image) (m : Nat) {l : Nat} (hl : l < 64) :
    ((s.armUnits i m).lane l).cfg = laneCfg i s.boot.board m l := by
  rw [State.armUnits, State.armLanes_cfg _ _ _ hl, foldl_same State.boot State.armCtxAt fun _ _ => rfl]

variable (slot pl : Nat) (seed : Dword) (debug : Bool) (first : CN)

/-- The run as an arming leaves it. -/
def State.armedRun : RunState :=
  { RunState.reset with phase := .armed, slot := slot, pl := pl, seed := seed, debug := debug, first := first, mclkArm := s.clk.mclk
                        lastP := s.run.lastP }

/-- The state of an arming that turns to contexts and lanes next: counters and records cleared, the run armed (02 R81, 05 R177). -/
def State.armCleared : State :=
  let i := s.imgAt slot
  State.clearForRun { s with
    run := s.armedRun slot pl seed debug first
    planes := { Planes.reset with actSlot := slot }
    wgm := wgmArmed i
    alm := { s.alm with trained := false, tideOn := false, locked := decide (s.clk.mclk ≤ 4060000) }
    chan := { s.chan with levels := [], avgDue := [] }
    log := { s.log with active := s.log.active || s.log.atArm, p0 := if s.log.atArm then first else s.log.p0
                        lastX := if s.log.atArm then cnSub first 16 else s.log.lastX }
    pkg := { s.pkg with ozRun := false, alert := false } }

/-- The state of an arming with its contexts and lanes set, before its clock and rails. -/
def State.armSet : State := (s.armCleared slot pl seed debug first).armUnits (s.imgAt slot) s.clk.mclk

/-- The state of an arming with its clock set (17 R459, 02 R79). -/
def State.armClocked (u : State) (m : Nat) : State :=
  { u with clk := { u.clk with
      alock := true, freq := BitVec.ofNat 23 m, gate := if u.gatedF12 then u.clk.gate &&& ~~~gateF12 else u.clk.gate } }

theorem State.armClocked_armKey (m : Nat) : (s.armClocked m).armKey = s.armKey := rfl
theorem State.armClocked_lanes (m : Nat) : (s.armClocked m).lanes = s.lanes := rfl

theorem State.armRun_eq :
    s.armRun slot pl seed debug first =
      (((s.armSet slot pl seed debug first).armClocked s.clk.mclk).startLevel pl none).coverChange true := rfl

theorem State.armRun_armKey : (s.armRun slot pl seed debug first).armKey = (s.armCleared slot pl seed debug first).armKey := by
  rw [State.armRun_eq, State.coverChange_armKey, (State.startLevel_frame _ _ _).1, State.armClocked_armKey, State.armSet,
    State.armUnits_armKey]

theorem State.armCleared_boot : (s.armCleared slot pl seed debug first).boot = s.boot := rfl

theorem State.armRun_lane_cfg {l : Nat} (hl : l < 64) :
    ((s.armRun slot pl seed debug first).lane l).cfg = laneCfg (s.imgAt slot) s.boot.board s.clk.mclk l := by
  have h := (s.armCleared slot pl seed debug first).armUnits_lane_cfg (s.imgAt slot) s.clk.mclk hl
  rw [State.armCleared_boot] at h
  rw [State.armRun_eq, State.lane, State.coverChange_lanes, (State.startLevel_frame _ _ _).2.2, State.armClocked_lanes]
  exact h

theorem State.armRun_clk :
    (s.armRun slot pl seed debug first).clk.alock = true ∧
    (s.armRun slot pl seed debug first).clk.freq = BitVec.ofNat 23 s.clk.mclk := by
  rw [State.armRun_eq, State.coverChange_clk, (State.startLevel_frame _ _ _).2.1]
  exact ⟨rfl, rfl⟩

theorem State.armRun_stale : (s.armRun slot pl seed debug first).cig.stale = true := rfl

theorem State.armRun_ctr {i : CtrId} (hi : clearsAtArming i.code = true) : (s.armRun slot pl seed debug first).ctr i = 0 := by
  have h : (s.armRun slot pl seed debug first).ctrs = s.ctrs.filter fun p => !clearsAtArming p.1 :=
    congrArg ArmKey.ctrs (s.armRun_armKey slot pl seed debug first)
  rw [State.ctr, h, tget, tfind_filter_of_not (q := fun k => !clearsAtArming k) (by simp [hi])]
  rfl

theorem State.armRun_runHz : ((s.armRun slot pl seed debug first).evt .runHz).bits = 0 := by
  have h : (s.armRun slot pl seed debug first).evts = tdel s.evts EvtId.runHz.code :=
    congrArg ArmKey.evts (s.armRun_armKey slot pl seed debug first)
  rw [State.evt, h, tget, tfind_tdel_same]
  rfl

theorem State.armRun_run : (s.armRun slot pl seed debug first).run = s.armedRun slot pl seed debug first :=
  congrArg ArmKey.run (s.armRun_armKey slot pl seed debug first)

theorem State.armRun_planes : (s.armRun slot pl seed debug first).planes = { Planes.reset with actSlot := slot } :=
  congrArg ArmKey.planes (s.armRun_armKey slot pl seed debug first)

theorem State.armRun_mem : (s.armRun slot pl seed debug first).mem = s.mem :=
  congrArg ArmKey.mem (s.armRun_armKey slot pl seed debug first)

theorem State.armRun_owned : s.Owned (s.armRun slot pl seed debug first) := by
  have h := s.armRun_armKey slot pl seed debug first
  exact ⟨congrArg ArmKey.mbx h, congrArg ArmKey.jnl h, congrArg ArmKey.kly h, congrArg ArmKey.pairCfg h⟩

end

/-! ### REPLAY (14 R393) -/

/-- The run armed to replay the recording, its packets staged from address stage on. -/
def State.armReplay (s : State) (slot : Nat) (part debug : Bool) (first : CN) (stage : Nat) : State :=
  let u := s.armRun slot (min s.pwr.pl 2) s.log.seed debug first
  { u with
    run := { u.run with replay := true, partialR := part, rshift := first - s.log.p0, delta := first - s.log.p0 + s.log.delta }
    log := { u.log with stage := stage } }

theorem State.armReplay_run (s : State) (slot : Nat) (part debug : Bool) (first : CN) (stage : Nat) :
    (s.armReplay slot part debug first stage).run = { s.armedRun slot (min s.pwr.pl 2) s.log.seed debug first with
      replay := true, partialR := part, rshift := first - s.log.p0, delta := first - s.log.p0 + s.log.delta } := by
  simp only [State.armReplay, State.armRun_run]

theorem State.armReplay_owned (s : State) (slot : Nat) (part debug : Bool) (first : CN) (stage : Nat) :
    s.Owned (s.armReplay slot part debug first stage) := by
  obtain ⟨hm, hj, hk, hcfg⟩ := s.armRun_owned slot (min s.pwr.pl 2) s.log.seed debug first
  exact ⟨hm, hj, hk, hcfg⟩

/-- The frames and the events that a whole replay needs are there (14 R393). -/
def State.wholeReplay (s : State) (i : Image) : Prop := s.framesLost = false ∧ s.log.broken = none ∧ i.readLanes.all s.log.has = true

theorem ownReplay_of_recorded {s : State} {w : Waiting} (hp : s.pairMode = false) (ha : s.log.active = false) (hl : s.log.slots ≠ [])
    (hi : s.imagesMatch (w.req.opd 0).toNat = true)
    (hb : s.armBad (w.req.opd 0).toNat (min s.pwr.pl 2) (w.req.opd 3 == 1) = none)
    (hw : w.req.opd 2 = 1 ∨ s.wholeReplay (s.imgAt (w.req.opd 0).toNat))
    (hn : s.log.mode = 2 → s.replayBursts (s.imgAt (w.req.opd 0).toNat) ≤ 32)
    (hs : s.allStaged (s.imgAt (w.req.opd 0).toNat) (w.staged (w.req.opd 1).toNat) = true) :
    ownReplay s w = .now (s.armReplay (w.req.opd 0).toNat (w.req.opd 2 == 1) (w.req.opd 3 == 1) (replayFirst w.at_ s.log.p0)
      (w.staged (w.req.opd 1).toNat)) 0 [] := by
  have hopen : ¬(s.pairMode = true ∨ s.log.active = true ∨ s.log.slots = [] ∨ (!s.imagesMatch (w.req.opd 0).toNat) = true) := by
    simp [hp, ha, hl, hi]
  have hwhole : ¬(!(w.req.opd 2 == 1) && (s.framesLost || s.log.broken.isSome ||
      (s.imgAt (w.req.opd 0).toNat).readLanes.any fun l => !s.log.has l)) = true := by
    obtain hw | ⟨hf, hk, hr⟩ := hw
    · simp [hw]
    · rw [List.all_eq_not_any_not, Bool.not_eq_true'] at hr
      simp [hf, hk, hr]
  have hbursts : ¬(s.log.mode = 2 ∧ s.replayBursts (s.imgAt (w.req.opd 0).toNat) > 32) := fun h => absurd (hn h.1) (by omega)
  simp only [ownReplay]
  rw [if_neg hopen]
  simp only [hb]
  rw [if_neg hwhole, if_neg hbursts, if_neg (by simp [hs])]
  rfl

/-! ### Each command, accepted (15 R406 to R408) -/

/-- ARM, accepted: the run is armed for the announced crossing (06 R185). -/
theorem execArm_waits {h : CmdHdr} {slot pl seed seedv dbg : Dword} {s : State} (ha : asks h 40 true s = true) (hslot : slot.toNat < 64)
    (hpl : pl.toNat ≤ 2) (hsv : seedv.toNat ≤ 1) (hdbg : dbg.toNat ≤ 1) (hrun : s.armed = false) (hk : s.keepsLead h 0x0201 = true)
    (hb : s.armBad slot.toNat pl.toNat (dbg == 1) = none) :
    GoesTo (execArm h slot pl seed seedv dbg s) fun t => WaitsFor s t h 0x0201 (s.target h) ∧ Journals s t ∧
      ((cmdArm.asked (mkReq 0x0201 h [slot, pl, seed, seedv, dbg] []) s).armRun slot.toNat pl.toNat
        (if seedv = 1 then seed else (s.imgAt slot.toNat).hdr.seed) (dbg == 1) (s.target h)).AnswerOf t := by
  have hc : cmdArm.spec.Plain := CmdSpec.plain_row _ _ _ _
  have hp := KCmd.asked_alone (r := mkReq 0x0201 h [slot, pl, seed, seedv, dbg] []) hc ha
  have hat : (cmdArm.entry (mkReq 0x0201 h [slot, pl, seed, seedv, dbg] []) s).at_ = s.target h := KCmd.entry_at hc (.inr rfl)
  have hown := ownArm_of_solo (w := cmdArm.entry (mkReq 0x0201 h [slot, pl, seed, seedv, dbg] []) s) hp
    (by simpa only [KCmd.entry_req, opd_mkReq0, opd_mkReq1, opd_mkReq4, KCmd.asked_armBad hc] using hb)
  simp only [KCmd.entry_req, opd_mkReq0, opd_mkReq1, opd_mkReq2, opd_mkReq3, opd_mkReq4, hat] at hown
  refine (kSubmit_announced hc rfl ha (by simp) ?_ (CmdSpec.runCode_no rfl hrun) (.inr rfl) hk hown (State.armRun_owned _ _ _ _ _ _)).mono
    fun t ⟨hw, hj, ht, _⟩ => ⟨hw, hj, ht⟩
  exact .cons (by omega) (.cons hpl (.cons (by omega) (.cons hsv (.cons hdbg .nil))))

/-- REPLAY, accepted: the run is armed for the announced crossing or up to 31 later ones (14 R393). -/
theorem execReplay_waits {h : CmdHdr} {slot offset part dbg : Dword} {s : State} (ha : asks h 32 true s = true) (hslot : slot.toNat < 64)
    (hofs : offset.toNat < 2 ^ 38) (hpart : part.toNat ≤ 1) (hdbg : dbg.toNat ≤ 1) (hrun : s.armed = false)
    (hk : s.keepsLead h 0x0703 = true) (hact : s.log.active = false) (hl : s.log.slots ≠ []) (hi : s.imagesMatch slot.toNat = true)
    (hb : s.armBad slot.toNat (min s.pwr.pl 2) (dbg == 1) = none) (hwhole : part = 1 ∨ s.wholeReplay (s.imgAt slot.toNat))
    (hn : s.log.mode = 2 → s.replayBursts (s.imgAt slot.toNat) ≤ 32)
    (hs : s.allStaged (s.imgAt slot.toNat) (s.bar4Addr offset.toNat) = true) :
    GoesTo (execReplay h slot offset part dbg s) fun t => WaitsFor s t h 0x0703 (s.target h) ∧ Journals s t ∧
      let u := (cmdReplay.asked (mkReq 0x0703 h [slot, offset, part, dbg] []) s).armReplay slot.toNat (part == 1) (dbg == 1)
        (replayFirst (s.target h) s.log.p0) (s.bar4Addr offset.toNat)
      u.AnswerOf t ∧ t.log = u.log := by
  have hc : cmdReplay.spec.Plain := CmdSpec.plain_row _ _ _ _
  have hp := KCmd.asked_alone (r := mkReq 0x0703 h [slot, offset, part, dbg] []) hc ha
  have hat : (cmdReplay.entry (mkReq 0x0703 h [slot, offset, part, dbg] []) s).at_ = s.target h := KCmd.entry_at hc (.inr rfl)
  have hstage (o : Nat) : (cmdReplay.entry (mkReq 0x0703 h [slot, offset, part, dbg] []) s).staged o = s.bar4Addr o := rfl
  have hown := ownReplay_of_recorded (w := cmdReplay.entry (mkReq 0x0703 h [slot, offset, part, dbg] []) s) hp hact hl
    (by simp only [KCmd.entry_req, opd_mkReq0]; exact hi)
    (by simp only [KCmd.entry_req, opd_mkReq0, opd_mkReq3, KCmd.asked_armBad hc]; exact hb)
    (by simp only [KCmd.entry_req, opd_mkReq0, opd_mkReq2]; exact hwhole)
    (by simp only [KCmd.entry_req, opd_mkReq0]; exact hn)
    (by simp only [KCmd.entry_req, opd_mkReq0, opd_mkReq1, hstage]; exact hs)
  simp only [KCmd.entry_req, opd_mkReq0, opd_mkReq1, opd_mkReq2, opd_mkReq3, hat, hstage] at hown
  refine (kSubmit_announced hc rfl ha (by simp) ?_ (CmdSpec.runCode_no rfl hrun) (.inr rfl) hk hown (State.armReplay_owned _ _ _ _ _ _)).mono
    fun t ⟨hw, hj, ht, hlog⟩ => ⟨hw, hj, ht, hlog rfl⟩
  exact .cons (by omega) (.cons (by omega) (.cons hpart (.cons hdbg .nil)))

section
variable {h : CmdHdr} {s : State} (ha : asks h 0 true s = true) (hrun : s.armed = true)
include ha hrun

/-- STOP, accepted: the run ends with the announced crossing, unless an earlier end is set (00 R13). -/
theorem execStop_waits (hk : s.keepsLead h 0x0202 = true) :
    GoesTo (execStop h s) fun t => WaitsFor s t h 0x0202 (s.target h) ∧ Journals s t ∧
      t.run = { s.run with stopAt := some (s.stopFor (s.target h)) } := by
  have hc : cmdStop.spec.Plain := CmdSpec.plain_row _ _ _ _
  have hown := ownStop_eq (s := cmdStop.asked (mkReq 0x0202 h [] []) s) (w := cmdStop.entry (mkReq 0x0202 h [] []) s)
  rw [KCmd.entry_at hc (.inl hrun)] at hown
  exact (kSubmit_announced hc rfl ha (by simp) .nil (CmdSpec.runCode_yes rfl hrun (.inr (by decide))) (.inl hrun) hk hown
    ⟨rfl, rfl, rfl, rfl⟩).mono fun t ⟨hw, hj, ht, _⟩ => ⟨hw, hj, ht.run⟩

/-- PAUSE, accepted: the run is to pause at the announced crossing (14 R386). -/
theorem execPause_waits (hk : s.keepsLead h 0x0203 = true) (hm : s.pauseMeets (s.target h) = false) :
    GoesTo (execPause h s) fun t => WaitsFor s t h 0x0203 (s.target h) ∧ Journals s t ∧
      t.run = { s.run with pauseAt := some (s.target h) } := by
  have hc : cmdPause.spec.Plain := CmdSpec.plain_row _ _ _ _
  have hat : (cmdPause.entry (mkReq 0x0203 h [] []) s).at_ = s.target h := KCmd.entry_at hc (.inl hrun)
  have hown := ownPause_of_apart (s := cmdPause.asked (mkReq 0x0203 h [] []) s) (by rw [hat]; exact hm)
  rw [hat] at hown
  exact (kSubmit_announced hc rfl ha (by simp) .nil (CmdSpec.runCode_yes rfl hrun (.inr (by decide))) (.inl hrun) hk hown
    ⟨rfl, rfl, rfl, rfl⟩).mono fun t ⟨hw, hj, ht, _⟩ => ⟨hw, hj, ht.run⟩

/-- RESUME, accepted: the run is to resume at the announced crossing, after training (14 R388). -/
theorem execResume_waits (hk : s.keepsLead h 0x0204 = true) (hpaused : s.run.phase = .paused) (hq : s.run.resumeQ = none)
    (hm : (s.target h - s.run.pcn).toNat % 32 = 0) (hlo : 15 ≤ (s.target h - s.run.pausedAt).toNat)
    (hhi : (s.target h - s.run.pausedAt).toNat < 2 ^ 47) (hd : s.resumeDiffers = false) :
    GoesTo (execResume h s) fun t => WaitsFor s t h 0x0204 (s.target h) ∧ Journals s t ∧
      t.run = { s.run with resumeQ := some (s.target h) } ∧ t.alm = { s.alm with trained := false } := by
  have hc : cmdResume.spec.Plain := CmdSpec.plain_row _ _ _ _
  have hat : (cmdResume.entry (mkReq 0x0204 h [] []) s).at_ = s.target h := KCmd.entry_at hc (.inl hrun)
  have hown := ownResume_of_paused (s := cmdResume.asked (mkReq 0x0204 h [] []) s) hpaused hq (by rw [hat]; exact hm) (by rw [hat]; exact hlo)
    (by rw [hat]; exact hhi) hd
  rw [hat] at hown
  exact (kSubmit_announced hc rfl ha (by simp) .nil (CmdSpec.runCode_paused rfl hpaused) (.inl hrun) hk hown
    ⟨rfl, rfl, rfl, rfl⟩).mono fun t ⟨hw, hj, ht, _⟩ => ⟨hw, hj, ht.run, ht.alm⟩

/-- SWITCH, accepted: the planes are to change places at the announced crossing (06 R198). -/
theorem execSwitch_waits (hk : s.keepsLead h 0x0303 = true) (hdrain : s.run.phase ≠ .draining) (hpause : s.run.phase ≠ .paused)
    (hw : s.planes.swW = none) (hat : s.run.pauseAt = none) (htr : s.transferring = false) (hr : s.planes.sh = .ready) :
    GoesTo (execSwitch h s) fun t => WaitsFor s t h 0x0303 (s.target h) ∧ Journals s t ∧
      t.planes = (s.switchAt (s.target h)).planes ∧ t.arr = s.arr := by
  have hc : cmdSwitch.spec.Plain := CmdSpec.plain_row _ _ _ _
  have hown := ownSwitch_of_ready (s := cmdSwitch.asked (mkReq 0x0303 h [] []) s) (w := cmdSwitch.entry (mkReq 0x0303 h [] []) s)
    hdrain hw hat htr hr
  rw [KCmd.entry_at hc (.inl hrun)] at hown
  exact (kSubmit_announced hc rfl ha (by simp) .nil (CmdSpec.runCode_yes rfl hrun (.inl hpause)) (.inl hrun) hk hown
    ⟨rfl, rfl, rfl, rfl⟩).mono fun t ⟨hw, hj, ht, _⟩ => ⟨hw, hj, ht.planes, ht.arr⟩

end

/-- TSWAP, accepted: the swap is listed for the announced crossing (07 R237). -/
theorem execTswap_waits {h : CmdHdr} {tid : Dword} {d : TblDesc} {s : State} (ha : asks h 8 true s = true) (htid : tid.toNat < 4096)
    (hrun : s.armed = true) (hk : s.keepsLead h 0x0403 = true) (hd : s.img.table tid.toNat = some d) (hf : d.faces ≠ 1)
    (htr : s.transferring = false) (hs : s.swapping tid.toNat = false)
    (hb : (s.alm.writes ++ s.alm.catchUp).any (fun b => b.tid == tid.toNat) = false) (hpause : s.run.pauseAt = none) :
    GoesTo (execTswap h tid s) fun t => WaitsFor s t h 0x0403 (s.target h) ∧ Journals s t ∧
      t.alm = { s.alm with swaps := s.alm.swaps ++ [{ tid := tid.toNat, a := s.target h, jseq := s.jnl.head + 1, done := false }] } := by
  have hc : cmdTswap.spec.Plain := CmdSpec.plain_row _ _ _ _
  have hopd : (cmdTswap.entry (mkReq 0x0403 h [tid] []) s).req.opd 0 = tid := opd_mkReq0 _ _ _ _ _
  have hown := ownTswap_of_free (s := cmdTswap.asked (mkReq 0x0403 h [tid] []) s) (w := cmdTswap.entry (mkReq 0x0403 h [tid] []) s)
    (by rw [hopd]; exact hd) hf htr (by rw [hopd]; exact hs) (by rw [hopd]; exact hb) hpause
  rw [hopd, KCmd.entry_at hc (.inl hrun), KCmd.entry_jseq hc] at hown
  exact (kSubmit_announced hc rfl ha (by simp) (.cons (by omega) .nil) (CmdSpec.runCode_yes rfl hrun (.inr (by decide))) (.inl hrun) hk hown
    ⟨rfl, rfl, rfl, rfl⟩).mono fun t ⟨hw, hj, ht, _⟩ => ⟨hw, hj, ht.alm⟩

end Sys2Proof.Machine

open Sys2Proof Sys2Proof.Machine

/-- Settles O30: each command passes the general checks and is accepted by its chapter, so that it waits (kSubmit_announced); what ARM and REPLAY
set is what armRun sets. -/
theorem runCommandsWaitForTheirCrossing : Obligations.RunCommandsWaitForTheirCrossing := by
  refine ⟨fun h slot pl seed seedv dbg s ha hslot hpl hsv hdbg hrun hk hb => ?_,
    fun h slot offset part dbg s ha hslot hofs hpart hdbg hrun hk hact hl hi hb hwhole hn hs => ?_,
    fun h s ha hrun => ⟨fun hk => ?_, fun hk hm => ?_, fun hk hp hq hm hlo hhi hd => ?_, fun hk hdr hp hw hat htr hr => ?_⟩,
    fun h tid d s ha htid hrun hk hd hf htr hs hb hp => ?_⟩
  · refine (execArm_waits ha hslot hpl hsv hdbg hrun hk hb).mono fun t ⟨hw, hj, ht⟩ => ?_
    obtain ⟨hlock, hfreq⟩ := State.armRun_clk (cmdArm.asked (mkReq 0x0201 h [slot, pl, seed, seedv, dbg] []) s) slot.toNat pl.toNat
      (if seedv = 1 then seed else (s.imgAt slot.toNat).hdr.seed) (dbg == 1) (s.target h)
    rw [ht.run, ht.planes, ht.clk, ht.cig, ht.mem, ht.evt, State.armRun_run, State.armRun_planes, State.armRun_mem, State.armRun_runHz]
    exact ⟨hw, hj, rfl, rfl, rfl, rfl, rfl, rfl, rfl, rfl, hlock, hfreq, rfl, rfl,
      fun i hi => (ht.ctr i).trans (State.armRun_ctr _ _ _ _ _ _ hi), rfl,
      fun l hl => (congrArg Lane.cfg (ht.lane l)).trans (State.armRun_lane_cfg _ _ _ _ _ _ hl)⟩
  · refine (execReplay_waits ha hslot hofs hpart hdbg hrun hk hact hl hi hb hwhole hn hs).mono fun t ⟨hw, hj, ht, hlog⟩ => ?_
    rw [ht.run, hlog, State.armReplay_run]
    exact ⟨hw, hj, rfl, rfl, rfl, rfl, rfl, rfl⟩
  · exact execStop_waits ha hrun hk
  · exact execPause_waits ha hrun hk hm
  · exact execResume_waits ha hrun hk hp hq hm hlo hhi hd
  · refine (execSwitch_waits ha hrun hk hdr hp hw hat htr hr).mono fun t ⟨hw, hj, hpl, harr⟩ => ?_
    rw [hpl]
    exact ⟨hw, hj, rfl, rfl, rfl, rfl, harr⟩
  · refine (execTswap_waits ha htid hrun hk hd hf htr hs hb hp).mono fun t ⟨hw, hj, halm⟩ => ?_
    rw [halm]
    exact ⟨hw, hj, rfl, rfl⟩

end

section
/-! PROOFS. The results of the cell operations: what an operation whose condition holds writes, sends and leaves alone, the lanes that it reads
and packs, saturation, and the requantiser's roundings (02 R54 to R56, 03 R83 to R114). -/

namespace Sys2Proof.Machine

/-! ### What the cell becomes (02 R54, 03 R86, R88) -/

theorem Cell.write_flag (c : Cell) (e : MInstr) (r : OpOut) : (c.write e (some r)).flag = r.f.getD c.flag := by
  unfold Cell.write
  simp only
  split
  · rfl
  · split
    · split <;> rfl
    all_goals rfl

/-- An operation that writes accumulators itself writes no other (03 R88). -/
theorem Cell.write_acc (c : Cell) (e : MInstr) {r : OpOut} (h : r.accs ≠ []) :
    (c.write e (some r)).acc = r.accs.foldl (fun t p => tput 0 t p.1 p.2) c.acc := by
  unfold Cell.write
  simp only
  split
  · rfl
  · split
    · rw [if_neg h]
    all_goals rfl

/-- The destination of such an operation is accumulators alone. -/
theorem Cell.write_ws_hold (c : Cell) {e : MInstr} {r : OpOut} (h : r.accs ≠ []) (hd : e.dst = 1) :
    (c.write e (some r)).ws = c.ws ∧ (c.write e (some r)).hold = c.hold := by
  unfold Cell.write
  simp only [hd]
  split
  · exact ⟨rfl, rfl⟩
  · rw [if_neg h]
    exact ⟨rfl, rfl⟩

/-- The writes of m accumulators from n on, lowest first: each holds its value. -/
theorem tget_foldl_tput_range (t : Tbl Word) (n m : Nat) (g : Nat → Word) {j : Nat} (hj : j < m) :
    tget 0 (((List.range m).map fun j => (n + j, g j)).foldl (fun t p => tput 0 t p.1 p.2) t) (n + j) = g j := by
  induction m with
  | zero => exact absurd hj (Nat.not_lt_zero j)
  | succ m ih =>
    rw [List.range_succ, List.map_append, List.foldl_append]
    simp only [List.map_cons, List.map_nil, List.foldl_cons, List.foldl_nil, tget_tput]
    split
    · rename_i heq
      rw [Nat.add_left_cancel heq]
    · exact ih (by omega)

/-! ### An operation that acts -/

/-- The operation's result is v, its destination's value d, and F takes f; it writes no accumulator beside its destination (03 R86 to R88). -/
structure OpOut.Gives (r : OpOut) (v d : Word) (f : Option Bool) : Prop where
  res : r.res = some v
  dest : (r.dest.orElse fun _ => r.res) = some d
  accs : r.accs = []
  flag : r.f = f

theorem OpOut.gives_of_res {r : OpOut} {v : Word} (hv : r.res = some v) (hd : r.dest = none) (ha : r.accs = []) : r.Gives v v r.f :=
  ⟨hv, by rw [hd]; exact hv, ha, rfl⟩

section
variable {r : OpOut} {v d : Word} {f : Option Bool} {e : MInstr} (h : r.Gives v d f) (c : Cell)
include h

theorem OpOut.Gives.accAt_write (hd : e.dst = 1) : (c.write e (some r)).accAt e.acc = d := by
  simp only [Cell.write, Cell.accAt, h.dest, h.accs, hd, if_true, tget_tput_same]

theorem OpOut.Gives.wsAt_write (hd : e.dst = 2) : (c.write e (some r)).wsAt e.addrD = d := by
  simp only [Cell.write, Cell.wsAt, h.dest, hd, tget_tput_same]

theorem OpOut.Gives.holdAt_write (hd : e.dst = 3) :
    (c.write e (some r)).holdAt (e.addrD % 4) = { data := d, tag := resultTag e.tagOut c.flag (c.tagA e) } := by
  simp only [Cell.write, Cell.holdAt, h.dest, hd, tget_tput_same]

end

/-- The operation writes g to m accumulators from n on, of which the first is its result, and leaves F (03 R87, R88). -/
structure OpOut.WritesAccs (r : OpOut) (n m : Nat) (g : Nat → Word) : Prop where
  accs : r.accs = (List.range m).map fun j => (n + j, g j)
  res : r.res = some (g 0)
  pos : 0 < m
  flag : r.f = none

theorem OpOut.WritesAccs.accs_ne_nil {r : OpOut} {n m : Nat} {g : Nat → Word} (h : r.WritesAccs n m g) : r.accs ≠ [] := by
  simp [h.accs, Nat.pos_iff_ne_zero.1 h.pos]

theorem OpOut.WritesAccs.accAt_write {r : OpOut} {m : Nat} {g : Nat → Word} {e : MInstr} (h : r.WritesAccs e.acc m g) (c : Cell) {j : Nat}
    (hj : j < m) : (c.write e (some r)).accAt (e.acc + j) = g j := by
  rw [Cell.accAt, Cell.write_acc c e h.accs_ne_nil, h.accs]
  exact tget_foldl_tput_range c.acc e.acc m g hj

/-- What the accumulator operations do but for their values: the result is the accumulator that ACC names, and F, working store and hold
registers stay (03 R86 to R88). -/
def AccResult (s t : State) (x y : Nat) (e : MInstr) : Prop :=
  Carries s t x y e (accN t x y e) ∧ (t.cellXY x y).flag = (s.cellXY x y).flag ∧
    (e.dst = 1 → (t.cellXY x y).ws = (s.cellXY x y).ws ∧ (t.cellXY x y).hold = (s.cellXY x y).hold)

section
variable {s : State} {x y opc : Nat} {e : MInstr} {op : OpIn → OpOut}

theorem acts_iff : acts s x y opc e = true ↔ issues s x y opc e = true ∧ condMet s x y e = true := by
  rw [acts, Bool.and_eq_true]

/-- An operation whose condition holds has its effects (02 R55). -/
theorem State.opOut_of_condMet (op : OpIn → OpOut) (h : condMet s x y e = true) :
    s.opOut x y (s.cellXY x y) e op = some (op (s.opIn x y (s.cellXY x y) e)) :=
  if_pos h

/-- A route that names the result sends it with the result's tag, where no waypoint leaves (02 R51, R56). -/
theorem State.mem_driven_result {p : Nat} {r : OpOut} {v : Word} (hv : r.res = some v) (hr : (p, 9) ∈ e.routes)
    (hw : waypointOn s x y p = false) :
    (p, { tag := resTag s x y e, epoch := (s.cellXY x y).epAct, data := v }) ∈ s.driven (s.cellXY x y) e (some r) :=
  List.mem_filterMap.2 ⟨(p, 9), hr, by
    rw [waypointOn] at hw
    simp [hw, hv, resTag]⟩

variable {c : Instr}

/-- A command whose entry acts issues it, with the writes that its operation gives. -/
theorem exec_acts (hc : ∀ u, exec c u = issueOp opc op x y u) (ha : acts s x y opc e = true) {v : Word}
    (hv : (op (s.opIn x y (s.cellXY x y) e)).res = some v) :
    GoesTo (exec c s) fun t =>
      Carries s t x y e v ∧ t.cellXY x y = (s.cellXY x y).write e (some (op (s.opIn x y (s.cellXY x y) e))) := by
  obtain ⟨hi, hm⟩ := acts_iff.1 ha
  refine ⟨_, (hc s).trans (issueOp_due op hi), fun p d hr hw hd => ?_, ?_⟩
  · rw [issueEffect_flight, State.opOut_of_condMet op hm]
    exact List.mem_append_right _ (State.mem_flights (State.mem_driven_result hv hr hw) hd)
  · rw [issueEffect_cellXY, State.opOut_of_condMet op hm]

/-- A command of an operation that gives v, its destination d and F f. -/
theorem exec_gives (hc : ∀ u, exec c u = issueOp opc op x y u) (ha : acts s x y opc e = true) {v d : Word} {f : Option Bool}
    (hg : (op (s.opIn x y (s.cellXY x y) e)).Gives v d f) :
    GoesTo (exec c s) fun t =>
      Carries s t x y e v ∧ Lands s t x y e d ∧ (t.cellXY x y).flag = f.getD (s.cellXY x y).flag := by
  refine (exec_acts hc ha hg.res).mono fun t ⟨hcar, hcell⟩ => ⟨hcar, ⟨fun hd => ?_, fun hd => ?_, fun hd => ?_⟩, ?_⟩
  · rw [accN, hcell, hg.accAt_write _ hd]
  · rw [wsD, hcell, hg.wsAt_write _ hd]
  · rw [hcell, hg.holdAt_write _ hd, resTag]
  · rw [hcell, Cell.write_flag, hg.flag]

/-- A command of an operation whose result goes to its destination and that gives F the value b. -/
theorem exec_sets_flag (hc : ∀ u, exec c u = issueOp opc op x y u) (ha : acts s x y opc e = true) {v : Word} {b : Bool}
    (hg : (op (s.opIn x y (s.cellXY x y) e)).Gives v v (some b)) : GoesTo (exec c s) fun t => Results s t x y e v b :=
  exec_gives hc ha hg

/-- A command of an operation whose result goes to its destination and that leaves F. -/
theorem exec_keeps_flag (hc : ∀ u, exec c u = issueOp opc op x y u) (ha : acts s x y opc e = true) {v : Word}
    (hg : (op (s.opIn x y (s.cellXY x y) e)).Gives v v none) :
    GoesTo (exec c s) fun t => Results s t x y e v (s.cellXY x y).flag :=
  exec_gives hc ha hg

/-- A command of an operation that writes accumulators. -/
theorem exec_writesAccs (hc : ∀ u, exec c u = issueOp opc op x y u) (ha : acts s x y opc e = true) {m : Nat} {g : Nat → Word}
    (hg : (op (s.opIn x y (s.cellXY x y) e)).WritesAccs e.acc m g) :
    GoesTo (exec c s) fun t => AccResult s t x y e ∧ ∀ j, j < m → (t.cellXY x y).accAt (e.acc + j) = g j := by
  refine (exec_acts hc ha hg.res).mono fun t ⟨hcar, hcell⟩ => ?_
  have hacc : ∀ j, j < m → (t.cellXY x y).accAt (e.acc + j) = g j := fun j hj => by rw [hcell, hg.accAt_write _ hj]
  refine ⟨⟨?_, ?_, fun hd => ?_⟩, hacc⟩
  · rwa [accN, show (t.cellXY x y).accAt e.acc = g 0 from hacc 0 hg.pos]
  · rw [hcell, Cell.write_flag, hg.flag, Option.getD_none]
  · rw [hcell]
    exact Cell.write_ws_hold _ hg.accs_ne_nil hd

end

/-! ### The shapes of operations (03 R87) -/

theorem plainOut_gives (w : Word) : (plainOut w).Gives w w none := ⟨rfl, rfl, rfl, rfl⟩
theorem bitOut_gives (w : Word) : (bitOut w).Gives w w (some (decide (w ≠ 0))) := ⟨rfl, rfl, rfl, rfl⟩

/-- A comparison gives 1 or 0 and puts it into F (03 R86). -/
theorem cmpOut_gives (p : Prop) [Decidable p] :
    (cmpOut (decide p)).Gives (if p then 1 else 0) (if p then 1 else 0) (some (decide p)) := by
  have h : (if decide p then (1 : Word) else 0) = if p then 1 else 0 := by simp only [decide_eq_true_eq]
  exact ⟨congrArg some h, congrArg some h, rfl, rfl⟩

section
variable (i : OpIn)

theorem opMin_gives :
    let w := wordOfInt (min i.a.toInt i.b.toInt)
    (opMin i).Gives w w (some (decide (i.a.toInt ≤ i.b.toInt))) := ⟨rfl, rfl, rfl, rfl⟩

theorem opMax_gives :
    let w := wordOfInt (max i.a.toInt i.b.toInt)
    (opMax i).Gives w w (some (decide (i.b.toInt ≤ i.a.toInt))) := ⟨rfl, rfl, rfl, rfl⟩

/-- CX alone gives its destination another value than its result (03 R111). -/
theorem opCx_gives :
    (opCx i).Gives (wordOfInt (min i.a.toInt i.b.toInt)) (wordOfInt (max i.a.toInt i.b.toInt)) (some (decide (i.b.toInt < i.a.toInt))) :=
  ⟨rfl, rfl, rfl, rfl⟩

theorem opAbs_gives :
    let w := wordOfInt (min (i.a.toInt.natAbs : Int) (2 ^ 31 - 1))
    (opAbs i).Gives w w (some (decide (i.a.toInt < 0))) := ⟨rfl, rfl, rfl, rfl⟩

theorem opRqs_gives :
    let w := wordOfInt (rqLane i i.e.rqs i.a.toInt 0).1
    (opRqs i).Gives w w none := ⟨rfl, rfl, rfl, rfl⟩

theorem opLuti_gives :
    let w := wordOfInt (lutInterp i (lane i.a 16 0))
    (opLuti i).Gives w w none := ⟨rfl, rfl, rfl, rfl⟩

end

/-- One accumulator written is the first of one. -/
theorem accOut_writesAccs (i : OpIn) (v : Word) : (accOut i v).WritesAccs i.e.acc 1 fun _ => v :=
  ⟨rfl, rfl, Nat.one_pos, rfl⟩

/-- A command of an operation that writes the accumulator that ACC names. -/
theorem exec_accOut {s : State} {x y opc : Nat} {e : MInstr} {op : OpIn → OpOut} {c : Instr} (hc : ∀ u, exec c u = issueOp opc op x y u)
    (ha : acts s x y opc e = true) {v : Word}
    (hv : op (s.opIn x y (s.cellXY x y) e) = accOut (s.opIn x y (s.cellXY x y) e) v) {n : Int} (hn : v.toInt = n) :
    GoesTo (exec c s) fun t => (accN t x y e).toInt = n ∧ AccResult s t x y e := by
  have hg := accOut_writesAccs (s.opIn x y (s.cellXY x y) e) v
  rw [← hv] at hg
  exact (exec_writesAccs hc ha hg).mono fun t ⟨hres, hacc⟩ => ⟨(congrArg BitVec.toInt (hacc 0 Nat.one_pos)).trans hn, hres⟩

/-! ### Saturation (03 R85) -/

theorem satTo_eq (w : Nat) (v : Int) : satTo w v = max (-(2 ^ (w - 1))) (min (2 ^ (w - 1) - 1) v) := by
  rw [satTo, min_comm]

/-- A word holds a saturated value exactly. -/
theorem toInt_wordOfInt_sat32 (v : Int) : (wordOfInt (sat32 v)).toInt = max (-(2 ^ 31)) (min (2 ^ 31 - 1) v) := by
  rw [wordOfInt, sat32, satTo_eq]
  exact BitVec.toInt_ofInt_eq_self (by omega) (by omega) (by omega)

theorem toInt_wordOfInt_max (a b : Word) : (wordOfInt (max a.toInt b.toInt)).toInt = max a.toInt b.toInt := by
  obtain h | h := max_choice a.toInt b.toInt <;> rw [h, wordOfInt, BitVec.ofInt_toInt]

theorem toInt_wordOfInt_min (a b : Word) : (wordOfInt (min a.toInt b.toInt)).toInt = min a.toInt b.toInt := by
  obtain h | h := min_choice a.toInt b.toInt <;> rw [h, wordOfInt, BitVec.ofInt_toInt]

/-! ### Fields of operand B (03 R113, R114) -/

theorem toNat_extractLsb'_low (b : Word) (n : Nat) : (b.extractLsb' 0 n).toNat = b.toNat % 2 ^ n := by
  rw [BitVec.extractLsb'_toNat, Nat.shiftRight_zero]

theorem shAmt_eq (b : Word) : shAmt b = b.toNat % 32 := toNat_extractLsb'_low b 5

theorem ite_getLsbD_zero (b : Word) : (if b.getLsbD 0 then 1 else 0) = b.toNat % 2 := by
  rw [BitVec.getLsbD, Nat.testBit_zero]
  obtain h | h := Nat.mod_two_eq_zero_or_one b.toNat <;> simp [h]

/-! ### Lanes and products (03 R83, R84, R90) -/

theorem fmtD_opIn {s : State} {x y : Nat} {c : Cell} {e : MInstr} {f : Fmt} (h : fmtOf e.fmt = some f) : (s.opIn x y c e).fmtD = f := by
  simp [OpIn.fmtD, State.opIn, h]

theorem Fmt.lanes_pos (f : Fmt) : 0 < f.lanes := by
  cases f <;> decide

/-- A ternary weight by its code (03 R84). -/
theorem ternLane_eq (v : Word) (j : Nat) :
    ternLane v j = match v.extractLsb' (2 * j) 2 with
      | 0b01 => 1
      | 0b11 => -1
      | _ => 0 := by
  rw [ternLane]
  generalize v.extractLsb' (2 * j) 2 = w
  revert w
  decide

/-- The products that MACV and MACVZ write, each on base (03 R91). -/
theorem macvOut_writesAccs {i : OpIn} {f : Fmt} (hf : i.fmtD = f) (base : Nat → Int) :
    (macvOut (macvAccs i base)).WritesAccs i.e.acc (if f = .int16 then 1 else f.lanes) fun j =>
      let k := if f = .int16 then i.e.addrD % 2 else j
      wordOfInt (sat32 (base (i.e.acc + j) + lane i.a f.width k * lane i.b f.width k)) := by
  subst hf
  have hpos : 0 < if i.fmtD = .int16 then 1 else i.fmtD.lanes := by
    split
    · exact Nat.one_pos
    · exact Fmt.lanes_pos _
  refine ⟨rfl, ?_, hpos, rfl⟩
  simp only [macvOut, macvAccs, List.head?_map, List.head?_range, if_neg hpos.ne', Option.map_some, Nat.add_zero]

/-- The lanes that RQV and RQVC pack (03 R97). -/
theorem rqVecOut_gives (i : OpIn) (perLane : Bool) :
    let w := packLanes (satWidth i.e.satw) ((List.range (32 / satWidth i.e.satw)).map fun j =>
      (rqLane i (if perLane then i.e.rqs + j else i.e.rqs) (i.acc (i.e.acc + j)).toInt j).1)
    (rqVecOut i perLane).Gives w w none := by
  refine OpOut.gives_of_res ?_ rfl rfl
  simp only [rqVecOut, rqVecLanes, List.map_map]
  rfl

/-- An operation on each lane of a word. -/
theorem map_lanesOf (g : Int → Int) (v : Word) (f : Fmt) :
    (lanesOf v f).map g = (List.range f.lanes).map fun j => g (lane v f.width j) :=
  List.map_map

theorem opLutv8_gives (i : OpIn) :
    let w := packLanes 8 ((List.range 4).map fun j => lutEntry i 8 (lane i.a 8 j + 128).toNat)
    (opLutv8 i).Gives w w none :=
  OpOut.gives_of_res (congrArg (some ∘ packLanes 8) (map_lanesOf _ i.a .int8)) rfl rfl

theorem opLutv4_gives (i : OpIn) :
    let w := packLanes 4 ((List.range 8).map fun j => lutEntry i 4 (lane i.a 4 j + 8).toNat)
    (opLutv4 i).Gives w w none :=
  OpOut.gives_of_res (congrArg (some ∘ packLanes 4) (map_lanesOf _ i.a .int4)) rfl rfl

theorem opLuts_gives (i : OpIn) :
    let w := wordOfInt (lutEntry i 16 (i.a.toNat % 256))
    (opLuts i).Gives w w none := by
  have hlow : (i.a.extractLsb' 0 8).toNat = i.a.toNat % 256 := toNat_extractLsb'_low i.a 8
  rw [← hlow]
  exact ⟨rfl, rfl, rfl, rfl⟩

/-- Lane by lane on two words (03 R109). -/
theorem zipWith_lanesOf (g : Int → Int → Int) (a b : Word) (f : Fmt) :
    List.zipWith g (lanesOf a f) (lanesOf b f) = (List.range f.lanes).map fun j => g (lane a f.width j) (lane b f.width j) := by
  rw [lanesOf, lanesOf, List.zipWith_map, List.zipWith_self]

theorem vecOut_gives {i : OpIn} {f : Fmt} (hf : i.fmtD = f) (g : Int → Int → Int) :
    let w := packLanes f.width ((List.range f.lanes).map fun j => g (lane i.a f.width j) (lane i.b f.width j))
    (vecOut i g).Gives w w none := by
  rw [← zipWith_lanesOf, ← hf]
  exact ⟨rfl, rfl, rfl, rfl⟩

/-- The maximum of a list of values, and the first index at which it stands (03 R112). -/
theorem first_max_of_range {n : Nat} (hn : 0 < n) (g : Nat → Int) :
    let l := (List.range n).map g
    let m := l.foldl max (l.headD 0)
    let k := l.findIdx (· == m)
    m = g k ∧ k < n ∧ (∀ j, j < n → g j ≤ g k) ∧ ∀ j, j < k → g j < g k := by
  intro l m k
  have hlen : l.length = n := by simp [l]
  have hget : ∀ j (hj : j < l.length), l[j] = g j := fun j hj => by simp [l]
  have hmax : l.max? = some m := by
    have hl : l ≠ [] := List.ne_nil_of_length_pos (hlen ▸ hn)
    obtain ⟨h, r, hr⟩ := List.exists_cons_of_ne_nil hl
    simp only [m, hr, List.headD_cons, List.foldl_cons, max_self, List.max?_cons']
  obtain ⟨hmem, hle⟩ := List.max?_eq_some_iff.1 hmax
  have hk : k < l.length := List.findIdx_lt_length_of_exists ⟨m, hmem, beq_self_eq_true m⟩
  have hmk : m = g k := by
    rw [← hget k hk]
    exact (eq_of_beq (List.findIdx_getElem (w := hk))).symm
  have hall : ∀ j, j < n → g j ≤ g k := fun j hj => hmk ▸ hle _ (List.mem_map.2 ⟨j, List.mem_range.2 hj, rfl⟩)
  refine ⟨hmk, hlen ▸ hk, hall, fun j hj => lt_of_le_of_ne (hall j (by omega)) fun heq => ?_⟩
  have hnot : (l[j] == m) = false := List.not_of_lt_findIdx hj
  rw [hget j (by omega), heq, ← hmk, beq_self_eq_true] at hnot
  exact Bool.noConfusion hnot

theorem opHmax_gives {i : OpIn} {f : Fmt} (hf : i.fmtD = f) :
    ∃ n, n < f.lanes ∧ (∀ j, j < f.lanes → lane i.a f.width j ≤ lane i.a f.width n) ∧
      (∀ j, j < n → lane i.a f.width j < lane i.a f.width n) ∧
      let w := BitVec.ofInt 24 (lane i.a f.width n) ++ BitVec.ofNat 8 n
      (opHmax i).Gives w w none := by
  subst hf
  obtain ⟨hm, hn, hle, hlt⟩ := first_max_of_range i.fmtD.lanes_pos (lane i.a i.fmtD.width)
  refine ⟨_, hn, hle, hlt, ?_⟩
  rw [← hm]
  exact ⟨rfl, rfl, rfl, rfl⟩

/-! ### Moves of lanes (03 R114) -/

theorem opBcast_gives {i : OpIn} {f : Fmt} (hf : i.fmtD = f) :
    let w := packLanes f.width (List.replicate f.lanes (lane i.a f.width (i.b.toNat % 8 % f.lanes)))
    (opBcast i).Gives w w none := by
  subst hf
  have hlow : (i.b.extractLsb' 0 3).toNat = i.b.toNat % 8 := toNat_extractLsb'_low i.b 3
  rw [← hlow]
  exact ⟨rfl, rfl, rfl, rfl⟩

theorem opUnpk_gives (i : OpIn) :
    let w := packLanes 8 ((List.range 4).map fun j => lane i.a 4 (4 * (i.b.toNat % 2) + j))
    (opUnpk i).Gives w w none := by
  rw [← ite_getLsbD_zero i.b]
  exact ⟨rfl, rfl, rfl, rfl⟩

/-! ### The requantiser's roundings (03 R98) -/

theorem requantise_eq (rnd w : Nat) (v m : Int) (s : Nat) (r : Dword) :
    let q := rqRound rnd (v * m) s r
    requantise rnd w v m s r =
      (max (-(2 ^ (w - 1))) (min (2 ^ (w - 1) - 1) q), decide (q < -(2 ^ (w - 1)) ∨ 2 ^ (w - 1) - 1 < q)) :=
  Prod.ext (satTo_eq w _) rfl

theorem rqRound_trunc (p : Int) {s : Nat} (r : Dword) (hs : 1 ≤ s) : rqRound 1 p s r = p.fdiv (2 ^ s) :=
  if_neg (by omega)

theorem rqRound_drawn (p : Int) {s : Nat} (r : Dword) (hs : 1 ≤ s) : rqRound 2 p s r = (p + (r.toNat % 2 ^ s : Nat)).fdiv (2 ^ s) :=
  if_neg (by omega)

/-- Division by 2^s that rounds down. -/
theorem fdiv_two_pow_bounds (p : Int) (s : Nat) : p.fdiv (2 ^ s) * 2 ^ s ≤ p ∧ p < (p.fdiv (2 ^ s) + 1) * 2 ^ s := by
  have hpos : (0 : Int) < 2 ^ s := by positivity
  rw [Int.fdiv_eq_ediv_of_nonneg p hpos.le]
  exact ⟨Int.ediv_mul_le p hpos.ne', Int.lt_ediv_add_one_mul_self p hpos⟩

/-- RND 0 gives the nearest multiple of 2^s, and the even one of two that are as near. -/
theorem rqRound_nearest (p : Int) {s : Nat} (r : Dword) (hs : 1 ≤ s) :
    let q := rqRound 0 p s r
    2 * p - 2 ^ s ≤ 2 * (q * 2 ^ s) ∧ 2 * (q * 2 ^ s) ≤ 2 * p + 2 ^ s ∧
      (2 * (q * 2 ^ s) = 2 * p - 2 ^ s ∨ 2 * (q * 2 ^ s) = 2 * p + 2 ^ s → q % 2 = 0) := by
  have hround : rqRound 0 p s r =
      if p - p.fdiv (2 ^ s) * 2 ^ s > 2 ^ (s - 1) ∨ (p - p.fdiv (2 ^ s) * 2 ^ s = 2 ^ (s - 1) ∧ (p.fdiv (2 ^ s)).fmod 2 ≠ 0)
        then p.fdiv (2 ^ s) + 1 else p.fdiv (2 ^ s) := if_neg (by omega)
  have hhalf : (2 : Int) ^ s = 2 * 2 ^ (s - 1) := by rw [← pow_succ', Nat.sub_add_cancel hs]
  obtain ⟨hlo, hhi⟩ := fdiv_two_pow_bounds p s
  rw [add_mul, one_mul] at hhi
  rw [Int.fmod_eq_emod_of_nonneg _ (by decide)] at hround
  rw [hround]
  split <;> simp only [add_mul, one_mul] <;> omega

end Sys2Proof.Machine

open Sys2Proof Sys2Proof.Machine

/-- Settles O9: each is an operation of the shape bitOut, whose F is whether its result is non-zero (bitOut_gives). -/
theorem logicShiftsAndCounts : Obligations.LogicShiftsAndCounts := by
  intro s x y e a b sh ones
  have hsh : shAmt b = sh := shAmt_eq b
  rw [← hsh]
  exact ⟨fun h => by simp [b, opB, h, Cell.source],
    fun h => exec_sets_flag (fun _ => rfl) h (bitOut_gives (a &&& b)), fun h => exec_sets_flag (fun _ => rfl) h (bitOut_gives (a ||| b)),
    fun h => exec_sets_flag (fun _ => rfl) h (bitOut_gives (a ^^^ b)), fun h => exec_sets_flag (fun _ => rfl) h (bitOut_gives (a &&& ~~~b)),
    fun h => exec_sets_flag (fun _ => rfl) h (bitOut_gives (a <<< shAmt b)),
    fun h => exec_sets_flag (fun _ => rfl) h (bitOut_gives (a >>> shAmt b)),
    fun h => exec_sets_flag (fun _ => rfl) h (bitOut_gives (a.sshiftRight (shAmt b))),
    fun h => exec_sets_flag (fun _ => rfl) h (bitOut_gives ones)⟩

/-- Settles O10: the comparisons have the shape cmpOut, SEL leaves F, and the others give a word and F of their own
(opMin_gives to opAbs_gives). -/
theorem comparisonsAndSelections : Obligations.ComparisonsAndSelections := by
  intro s x y e a b F lo hi
  exact ⟨fun h => exec_sets_flag (fun _ => rfl) h (cmpOut_gives (a.toInt < b.toInt)),
    fun h => exec_sets_flag (fun _ => rfl) h (cmpOut_gives (a.toInt ≤ b.toInt)), fun h => exec_sets_flag (fun _ => rfl) h (cmpOut_gives (a = b)),
    fun h => exec_sets_flag (fun _ => rfl) h (cmpOut_gives (a.toNat < b.toNat)),
    fun h => exec_keeps_flag (fun _ => rfl) h (plainOut_gives (if F then a else b)),
    fun h => exec_sets_flag (fun _ => rfl) h (opMin_gives _), fun h => exec_sets_flag (fun _ => rfl) h (opMax_gives _),
    fun h => exec_gives (fun _ => rfl) h (opCx_gives _), fun h => exec_sets_flag (fun _ => rfl) h (opAbs_gives _)⟩

/-- Settles O11: each has the shape accOut (exec_accOut), and a word holds the saturated value exactly (toInt_wordOfInt_sat32). -/
theorem accumulatorOperationsSaturate : Obligations.AccumulatorOperationsSaturate := by
  intro s x y e a sat keeps
  exact ⟨fun h => exec_accOut (fun _ => rfl) h rfl (toInt_wordOfInt_sat32 _), fun h => exec_accOut (fun _ => rfl) h rfl (toInt_wordOfInt_sat32 _),
    fun h => exec_accOut (fun _ => rfl) h rfl rfl, fun h => exec_accOut (fun _ => rfl) h rfl BitVec.toInt_zero,
    fun h => exec_accOut (fun _ => rfl) h rfl (toInt_wordOfInt_max _ _), fun h => exec_accOut (fun _ => rfl) h rfl (toInt_wordOfInt_min _ _)⟩

/-- Settles O12: the model's dot product is that of the statement, format by format; MACV and MACVZ write their products from ACC on
(macvOut_writesAccs), and a word holds a saturated sum exactly. -/
theorem productsAccumulate : Obligations.ProductsAccumulate := by
  intro s x y e f hf hw a b ln sat keeps dot m p
  have hfmt : (s.opIn x y (s.cellXY x y) e).fmtD = f := fmtD_opIn hf
  have hdot : macDot (s.opIn x y (s.cellXY x y) e) = dot := by
    rw [macDot, hfmt]
    cases f with
    | ternary =>
      exact congrArg List.sum (List.map_congr_left fun j _ => congrArg _ (ternLane_eq b j))
    | int16 | int8 | int4 => rfl
    | word => exact absurd rfl hw
  refine ⟨fun h => exec_accOut (fun _ => rfl) h rfl (hdot ▸ toInt_wordOfInt_sat32 _),
    fun h => exec_accOut (fun _ => rfl) h rfl (hdot ▸ toInt_wordOfInt_sat32 _), fun _ h => ?_, fun _ h => ?_⟩
  · refine (exec_writesAccs (fun _ => rfl) h (macvOut_writesAccs hfmt _)).mono fun t ⟨hres, hacc⟩ => ⟨hres, fun j hj => ?_⟩
    rw [hacc j hj]
    exact toInt_wordOfInt_sat32 _
  · refine (exec_writesAccs (fun _ => rfl) h (macvOut_writesAccs hfmt _)).mono fun t ⟨hres, hacc⟩ => ⟨hres, fun j hj => ?_⟩
    rw [hacc j hj, ← zero_add (p j)]
    exact toInt_wordOfInt_sat32 _

/-- Settles O13: RQS gives its one lane (opRqs_gives), RQV and RQVC pack theirs (rqVecOut_gives), each requantised with the set that it names. -/
theorem requantisersGiveTheirLanes : Obligations.RequantisersGiveTheirLanes := by
  intro s x y e c w val
  exact ⟨fun h => exec_keeps_flag (fun _ => rfl) h (opRqs_gives _),
    fun h => exec_keeps_flag (fun _ => rfl) h (rqVecOut_gives _ false), fun h => exec_keeps_flag (fun _ => rfl) h (rqVecOut_gives _ true)⟩

/-- Settles O14: the value is saturated alike in every mode (requantise_eq), and each mode rounds within its bounds. -/
theorem requantiserRoundsAsSpecified : Obligations.RequantiserRoundsAsSpecified := by
  intro w s v m r _ p sat
  refine ⟨fun rnd => requantise_eq rnd w v m 0 r, fun hs => ⟨_, requantise_eq 0 w v m s r, rqRound_nearest p r hs⟩,
    fun hs => ⟨_, requantise_eq 1 w v m s r, ?_⟩, fun hs _ => ⟨_, requantise_eq 2 w v m s r, ?_⟩⟩
  · rw [rqRound_trunc _ r hs]
    exact fdiv_two_pow_bounds p s
  · rw [rqRound_drawn _ r hs]
    exact fdiv_two_pow_bounds _ s

/-- Settles O15: each lookup reads its entries as the statement does, for lane values, the raw low byte and the interpolation's two
neighbours. -/
theorem lookupsReadTheWeightPlane : Obligations.LookupsReadTheWeightPlane := by
  intro s x y e a ent u e0 e1
  exact ⟨fun h => exec_keeps_flag (fun _ => rfl) h (opLutv8_gives _), fun h => exec_keeps_flag (fun _ => rfl) h (opLutv4_gives _),
    fun h => exec_keeps_flag (fun _ => rfl) h (opLuts_gives _), fun h => exec_keeps_flag (fun _ => rfl) h (opLuti_gives _)⟩

/-- Settles O16: VMAX and VMIN zip the lanes (vecOut_gives), HMAX's index is that of first_max_of_range, and BCAST and UNPK choose their lanes by
the low bits of B. -/
theorem laneOperationsAndMoves : Obligations.LaneOperationsAndMoves := by
  intro s x y e f hf a b ln
  have hfmt : (s.opIn x y (s.cellXY x y) e).fmtD = f := fmtD_opIn hf
  refine ⟨fun h => exec_keeps_flag (fun _ => rfl) h (vecOut_gives hfmt max), fun h => exec_keeps_flag (fun _ => rfl) h (vecOut_gives hfmt min),
    fun h => ?_, fun h => exec_keeps_flag (fun _ => rfl) h (plainOut_gives a), fun h => exec_keeps_flag (fun _ => rfl) h (opBcast_gives hfmt),
    fun h => exec_keeps_flag (fun _ => rfl) h (opUnpk_gives _)⟩
  obtain ⟨n, hn, hle, hlt, hg⟩ := opHmax_gives hfmt
  exact (exec_keeps_flag (fun _ => rfl) h hg).mono fun t ht => ⟨n, hn, hle, hlt, ht⟩

end

section
/-! PROOFS. Announced effects at their crossing (04 R142, 08 R257, R264, R273, R277, 09 R304, 14 R390, 15 R409, R410): the effect of each command on the
part of the state that it writes, and the notice behind it. -/

namespace Sys2Proof.Machine

/-! ### Folds in which one entry settles what is asked -/

/-- P holds up to entry e, which turns it into Q; Q holds from there on. -/
theorem foldl_middle {α β : Type} {f : β → α → β} {a b : List α} {e : α} {P Q : β → Prop} (hP : ∀ s, ∀ x ∈ a, P s → P (f s x))
    (he : ∀ s, P s → Q (f s e)) (hQ : ∀ s, ∀ x ∈ b, Q s → Q (f s x)) {s : β} (hs : P s) : Q ((a ++ e :: b).foldl f s) := by
  rw [List.foldl_append, List.foldl_cons]
  have ha : P (a.foldl f s) := List.foldlRecOn a f hs fun t ht x hx => hP t x hx ht
  exact List.foldlRecOn b f (he _ ha) fun t ht x hx => hQ t x hx ht

/-- The same where e is the last entry for what it names. -/
theorem foldl_lastOf {α β : Type} {f : β → α → β} {l : List α} {key : α → Nat} {e : α} {P Q : β → Prop} (hl : lastOf l key e)
    (hP : ∀ s x, P s → P (f s x)) (he : ∀ s, P s → Q (f s e)) (hQ : ∀ s x, key x ≠ key e → Q s → Q (f s x)) {s : β} (hs : P s) :
    Q (l.foldl f s) := by
  obtain ⟨a, b, rfl, hb⟩ := hl
  exact foldl_middle (fun t x _ => hP t x) he (fun t x hx => hQ t x (hb x hx)) hs

/-- The same where e stands once in the list. -/
theorem foldl_nodup {α β : Type} {f : β → α → β} {l : List α} {e : α} {P Q : β → Prop} (hl : l.Nodup) (hm : e ∈ l)
    (hP : ∀ s x, x ≠ e → P s → P (f s x)) (he : ∀ s, P s → Q (f s e)) (hQ : ∀ s x, x ≠ e → Q s → Q (f s x)) {s : β} (hs : P s) :
    Q (l.foldl f s) := by
  obtain ⟨a, b, rfl⟩ := List.append_of_mem hm
  have hne : ∀ x ∈ a ++ b, x ≠ e := fun x hx h => (List.nodup_cons.1 (List.nodup_middle.1 hl)).1 (h ▸ hx)
  exact foldl_middle (fun t x hx => hP t x (hne x (List.mem_append_left b hx))) he
    (fun t x hx => hQ t x (hne x (List.mem_append_right a hx))) hs

/-- A fold whose entries all name something else leaves it alone. -/
theorem foldl_same_of_ne {α β γ : Type} (g : β → γ) {f : β → α → β} {key : α → Nat} {k : Nat} {l : List α} (h : ∀ e ∈ l, key e ≠ k)
    (hf : ∀ b e, key e ≠ k → g (f b e) = g b) (b : β) : g (l.foldl f b) = g b :=
  List.foldlRecOn (motive := fun c => g c = g b) l f rfl fun c hc e he => (hf c e (h e he)).trans hc

/-! ### Stores after an update elsewhere -/

theorem State.tensor_setTensor_ne (s : State) {i k : Nat} (t : Tensor) (h : i ≠ k) : (s.setTensor k t).tensor i = s.tensor i :=
  tget_tset_ne _ _ _ h

theorem State.beacon_setBeacon_ne (s : State) {i b : Nat} (x : Beacon) (h : i ≠ b) : (s.setBeacon b x).beacon i = s.beacon i :=
  tget_tset_ne _ _ _ h

/-! What a part of the state reads as depends on its own field alone. -/

theorem State.tensor_congr {s t : State} (h : t.wgm = s.wgm) (k : Nat) : t.tensor k = s.tensor k := by rw [State.tensor, State.tensor, h]
theorem State.ctxOf_congr {s t : State} (h : t.chan = s.chan) (x : Nat) : t.ctxOf x = s.ctxOf x := by rw [State.ctxOf, State.ctxOf, h]
theorem State.beacon_congr {s t : State} (h : t.chan = s.chan) (b : Nat) : t.beacon b = s.beacon b := by rw [State.beacon, State.beacon, h]
theorem State.lane_congr {s t : State} (h : t.lanes = s.lanes) (l : Nat) : t.lane l = s.lane l := by rw [State.lane, State.lane, h]
theorem State.ctr_congr {s t : State} (h : t.ctrs = s.ctrs) (i : CtrId) : t.ctr i = s.ctr i := by rw [State.ctr, State.ctr, h]

section
variable (s : State) (w : Waiting) (c : CN)

@[simp] theorem State.effectNotice_tensor (k : Nat) : (s.effectNotice w c).tensor k = s.tensor k := State.tensor_congr (s.effectNotice_wgm w c) k
@[simp] theorem State.effectNotice_ctxOf (x : Nat) : (s.effectNotice w c).ctxOf x = s.ctxOf x := State.ctxOf_congr (s.effectNotice_chan w c) x
@[simp] theorem State.effectNotice_beacon (b : Nat) : (s.effectNotice w c).beacon b = s.beacon b := State.beacon_congr (s.effectNotice_chan w c) b
@[simp] theorem State.effectNotice_lane (l : Nat) : (s.effectNotice w c).lane l = s.lane l := State.lane_congr (s.effectNotice_lanes w c) l
@[simp] theorem State.effectNotice_ctr (i : CtrId) : (s.effectNotice w c).ctr i = s.ctr i := State.ctr_congr (s.effectNotice_ctrs w c) i

@[simp] theorem State.dropWaiting_tensor (q k : Nat) : (s.dropWaiting q).tensor k = s.tensor k := rfl
@[simp] theorem State.dropWaiting_ctxOf (q x : Nat) : (s.dropWaiting q).ctxOf x = s.ctxOf x := rfl
@[simp] theorem State.dropWaiting_beacon (q b : Nat) : (s.dropWaiting q).beacon b = s.beacon b := rfl
@[simp] theorem State.dropWaiting_lane (q l : Nat) : (s.dropWaiting q).lane l = s.lane l := rfl
@[simp] theorem State.dropWaiting_mkLatch (q : Nat) (p : CN) (whole : Bool) : (s.dropWaiting q).mkLatch p whole = s.mkLatch p whole := rfl

end

/-! ### The notice behind an effect -/

/-- An effect that posts nothing itself and leaves what Klowyn holds alone has its notice behind it. -/
theorem goesTo_effectNotice {act : State → Waiting → State} {s : State} {w : Waiting} {e : CN} {p : State → Prop}
    (hm : ∀ u : State, (act u w).mbx = u.mbx) (hk : ∀ u : State, (act u w).kly = u.kly)
    (hp : p ((act (s.dropWaiting w.jseq) w).effectNotice w e)) :
    GoesTo (.next ((act (s.dropWaiting w.jseq) w).effectNotice w e)) fun t => Notified s t w e ∧ Leaves s t w ∧ p t :=
  ⟨_, rfl, notified_effectNotice (hm _), leaves_effectNotice (hk _), hp⟩

section
variable {s : State} {op : Nat} {t : CN} {w : Waiting}

theorem dueOnly_iff : dueOnly s op t w = true ↔ s.dueNow op t = [w] := decide_eq_true_iff

theorem mem_dueNow {v : Waiting} : v ∈ s.dueNow op t ↔ v ∈ s.kly.waiting ∧ v.req.op.toNat = op ∧ v.at_ = t := by
  simp [State.dueNow]

theorem dueOnly_at (h : dueOnly s op t w = true) : w.req.op.toNat = op ∧ w.at_ = t :=
  (mem_dueNow.1 (dueOnly_iff.1 h ▸ List.mem_singleton_self w)).2

/-- The effect of a command that waits alone among those of its group. -/
theorem applyGroup_of_alone {cs : List KCmd} {c : KCmd} {e : CN} (hc : (cs.find? fun c => c.spec.op == op) = some c) (hop : w.req.op.toNat = op)
    (h : (s.kly.waiting.filter fun w => (cs.any fun c => c.spec.op == w.req.op.toNat) && decide (w.at_ = t)) = [w]) :
    s.applyGroup cs op t e = (c.act (s.dropWaiting w.jseq) w).effectNotice w e := by
  simp [State.applyGroup, h, hop, hc]

/-- The one command due among those of two opcodes, where none is due of the second. -/
theorem filter_or_of_alone {p q : Waiting → Bool} {l : List Waiting} (hp : l.filter p = [w]) (hq : l.filter q = []) :
    (l.filter fun x => p x || q x) = [w] := by
  rw [← hp]
  exact List.filter_congr fun x hx => by simp [List.filter_eq_nil_iff.1 hq x hx]

end

/-! ### WGMCOMMIT (04 R142) -/

section
variable (s : State) (clear : Bool) (e : WgmEnt)

/-- A tensor as the commit of an entry leaves it: the entry's descriptor, and with CLEAR a cleared window. -/
def WgmEnt.Stands (e : WgmEnt) (clear : Bool) (t : Tensor) : Prop :=
  t.cfg = e.cfg ∧ t.rdef = e.rdef ∧ (clear = true → t.m = [] ∧ t.seen = false ∧ t.rNow = e.rdef)

theorem State.commitTensor_tensor : e.Stands clear ((State.commitTensor clear s e).tensor e.key) := by
  rw [State.commitTensor, State.tensor_setTensor]
  refine ⟨?_, ?_, fun hc => ?_⟩
  · split <;> rfl
  · split <;> rfl
  · rw [if_pos (by rw [hc, Bool.true_or])]
    exact ⟨rfl, rfl, rfl⟩

theorem State.commitTensor_tensor_ne {k : Nat} (h : e.key ≠ k) : (State.commitTensor clear s e).tensor k = s.tensor k :=
  s.tensor_setTensor_ne _ h.symm

end

section
variable (s : State) (w : Waiting)

theorem actWgmcommit_eq : actWgmcommit s w =
    ((wgmEnts (w.req.list 2) (w.req.opd 1).toNat).foldl (State.commitTensor (w.req.opd 0 == 1)) s).covered s true := rfl

@[simp] theorem actWgmcommit_mbx : (actWgmcommit s w).mbx = s.mbx := by
  rw [actWgmcommit_eq, State.covered_mbx]
  exact foldl_same State.mbx (State.commitTensor _) (fun u e => State.setTensor_mbx u _ _) _ s

@[simp] theorem actWgmcommit_kly : (actWgmcommit s w).kly = s.kly := by
  rw [actWgmcommit_eq, State.covered_kly]
  exact foldl_same State.kly (State.commitTensor _) (fun u e => State.setTensor_kly u _ _) _ s

theorem actWgmcommit_tensor (k : Nat) : (actWgmcommit s w).tensor k =
    ((wgmEnts (w.req.list 2) (w.req.opd 1).toNat).foldl (State.commitTensor (w.req.opd 0 == 1)) s).tensor k := by
  rw [actWgmcommit_eq, State.tensor_congr (State.covered_wgm _ _ _)]

theorem actWgmcommit_tensor_last {e : WgmEnt} (h : lastOf (wgmEnts (w.req.list 2) (w.req.opd 1).toNat) WgmEnt.key e) :
    e.Stands (w.req.opd 0 == 1) ((actWgmcommit s w).tensor e.key) := by
  rw [actWgmcommit_tensor]
  exact foldl_lastOf (P := fun _ => True) (Q := fun u : State => e.Stands (w.req.opd 0 == 1) (u.tensor e.key)) h (fun _ _ hu => hu)
    (fun u _ => u.commitTensor_tensor _ e) (fun u x hx hu => by rwa [u.commitTensor_tensor_ne _ x hx]) trivial

theorem actWgmcommit_tensor_unlisted {k : Nat} (h : ∀ e ∈ wgmEnts (w.req.list 2) (w.req.opd 1).toNat, e.key ≠ k) :
    (actWgmcommit s w).tensor k = s.tensor k := by
  rw [actWgmcommit_tensor]
  exact foldl_same_of_ne (fun u : State => u.tensor k) h (fun u e he => u.commitTensor_tensor_ne _ e he) s

end

/-! ### CTXCOMMIT (08 R248, R257) -/

/-- One entry's commit. -/
def State.commitCtx (s : State) (e : CtxEnt) : State :=
  let old := s.ctxOf e.ctx
  let c := old.commit e.c
  s.setCtx e.ctx { c with dsk := c.dsk.extractLsb' 28 4 ++ old.dsk.extractLsb' 23 5 ++ c.dsk.extractLsb' 0 23
                          wgm := c.wgm.extractLsb' 24 8 ++ cwWidth old.wgm ++ c.wgm.extractLsb' 0 22 }

theorem actCtxcommit_eq (s : State) (w : Waiting) :
    actCtxcommit s w = (ctxEnts (w.req.list 1) (w.req.opd 0).toNat).foldl State.commitCtx s := rfl

section
variable (s : State) (e : CtxEnt)

/-- A context with the control and calibration words of an entry. -/
def CtxEnt.Stands (e : CtxEnt) (c : Ctx) : Prop := c.ctl = e.c.ctl &&& 0xFF9FFFE0 ∧ c.cal = e.c.cal

theorem State.commitCtx_ctxOf : e.Stands ((s.commitCtx e).ctxOf e.ctx) := by
  rw [State.commitCtx, State.ctxOf_setCtx]
  exact ⟨rfl, rfl⟩

theorem State.commitCtx_ctxOf_ne {x : Nat} (h : e.ctx ≠ x) : (s.commitCtx e).ctxOf x = s.ctxOf x := s.ctxOf_setCtx_ne _ h.symm

/-- The averaging value stands through a commit (08 R257). -/
theorem State.commitCtx_done (x : Nat) : ((s.commitCtx e).ctxOf x).done = (s.ctxOf x).done := by
  by_cases h : e.ctx = x
  · subst h
    rw [State.commitCtx, State.ctxOf_setCtx]
    rfl
  · rw [s.commitCtx_ctxOf_ne e h]

end

@[simp] theorem actCtxcommit_mbx (s : State) (w : Waiting) : (actCtxcommit s w).mbx = s.mbx := by
  rw [actCtxcommit_eq]
  exact foldl_same State.mbx State.commitCtx (fun u e => State.setCtx_mbx u _ _) _ s

@[simp] theorem actCtxcommit_kly (s : State) (w : Waiting) : (actCtxcommit s w).kly = s.kly := by
  rw [actCtxcommit_eq]
  exact foldl_same State.kly State.commitCtx (fun u e => State.setCtx_kly u _ _) _ s

section
variable (s : State) (w : Waiting)

theorem actCtxcommit_ctxOf_last {e : CtxEnt} (h : lastOf (ctxEnts (w.req.list 1) (w.req.opd 0).toNat) CtxEnt.ctx e) :
    e.Stands ((actCtxcommit s w).ctxOf e.ctx) := by
  rw [actCtxcommit_eq]
  exact foldl_lastOf (P := fun _ => True) (Q := fun u : State => e.Stands (u.ctxOf e.ctx)) h (fun _ _ hu => hu)
    (fun u _ => u.commitCtx_ctxOf e) (fun u x hx hu => by rwa [u.commitCtx_ctxOf_ne x hx]) trivial

theorem actCtxcommit_done (x : Nat) : ((actCtxcommit s w).ctxOf x).done = (s.ctxOf x).done := by
  rw [actCtxcommit_eq]
  exact foldl_same (fun u : State => (u.ctxOf x).done) State.commitCtx (fun u e => u.commitCtx_done e x) _ s

theorem actCtxcommit_ctxOf_unlisted {x : Nat} (h : ∀ e ∈ ctxEnts (w.req.list 1) (w.req.opd 0).toNat, e.ctx ≠ x) :
    (actCtxcommit s w).ctxOf x = s.ctxOf x := by
  rw [actCtxcommit_eq]
  exact foldl_same_of_ne (fun u : State => u.ctxOf x) h (fun u e he => u.commitCtx_ctxOf_ne e he) s

end

/-! ### LANECOMMIT, CAPTRIG, ENVLOAD, LOGSTART (08 R265, R273, 09 R304, 14 R390) -/

section
variable (s : State) (w : Waiting)

@[simp] theorem actLanecommit_mbx : (actLanecommit s w).mbx = s.mbx := by simp only [actLanecommit, State.coverChange_mbx, State.setLane_mbx]
@[simp] theorem actLanecommit_kly : (actLanecommit s w).kly = s.kly := by simp only [actLanecommit, State.coverChange_kly, State.setLane_kly]

theorem actLanecommit_lane : (actLanecommit s w).lane (w.req.opd 0).toNat =
    { s.lane (w.req.opd 0).toNat with cnofsAt := some (w.at_, (w.req.opd 1).extractLsb' 0 24), flim := (w.req.opd 2).toNat } := by
  simp only [actLanecommit, State.lane_congr (State.coverChange_lanes _ _), State.lane_setLane]

theorem actLanecommit_lane_ne {l : Nat} (h : l ≠ (w.req.opd 0).toNat) : (actLanecommit s w).lane l = s.lane l := by
  simp only [actLanecommit, State.lane_congr (State.coverChange_lanes _ _), State.lane_setLane_ne _ _ h]

theorem actCaptrig_eq : actCaptrig s w = { s with cap := { s.cap with cands := s.cap.cands ++ [{ t := w.at_, src := 8 }] } } := rfl

@[simp] theorem actCaptrig_mbx : (actCaptrig s w).mbx = s.mbx := by simp only [actCaptrig_eq]
@[simp] theorem actCaptrig_kly : (actCaptrig s w).kly = s.kly := by simp only [actCaptrig_eq]

@[simp] theorem actEnvload_mbx : (actEnvload s w).mbx = s.mbx := by simp only [actEnvload]
@[simp] theorem actEnvload_kly : (actEnvload s w).kly = s.kly := by simp only [actEnvload]

/-- The envelopes that an ENVLOAD names take its list, and no others (08 R273). -/
theorem actEnvload_env_inside {i : Nat} (h : i < (w.req.opd 2).toNat) :
    tget (0, 0) (actEnvload s w).chan.env ((w.req.opd 0).toNat * 4096 + (w.req.opd 1).toNat + i) =
      (BitVec.ofNat 32 (leAt (w.req.list 3) (8 * i) 4), BitVec.ofNat 32 (leAt (w.req.list 3) (8 * i + 4) 4)) := by
  simp only [actEnvload]
  rw [tget_tputs_inside _ _ _ _ _ (by simpa using h)]
  simp

theorem actEnvload_env_outside {k : Nat} (h : k < (w.req.opd 0).toNat * 4096 + (w.req.opd 1).toNat ∨
    (w.req.opd 0).toNat * 4096 + (w.req.opd 1).toNat + (w.req.opd 2).toNat ≤ k) :
    tget (0, 0) (actEnvload s w).chan.env k = tget (0, 0) s.chan.env k := by
  simp only [actEnvload]
  exact tget_tputs_outside _ _ _ _ _ (by simpa using h)

theorem actLogstart_of_recording (ha : s.log.active = true) (hw : w.req.opd 2 = 0) : actLogstart s w = s.logBegin w.at_ := by
  simp [actLogstart, ha, hw]

@[simp] theorem actLogstart_mbx : (actLogstart s w).mbx = s.mbx := by
  rw [actLogstart]
  split <;> simp only [State.logBegin]

@[simp] theorem actLogstart_kly : (actLogstart s w).kly = s.kly := by
  rw [actLogstart]
  split <;> simp only [State.logBegin]

end

/-! ### CAPARM and BCNLOAD (08 R264, R271, R276, R277) -/

section
variable (s : State)

theorem State.ctr_clearCtr (i j : CtrId) : (s.clearCtr i).ctr j = if j.code = i.code then 0 else s.ctr j := by
  rw [State.ctr, State.clearCtr, tget]
  split
  · next h => rw [h, tfind_tdel_same]; rfl
  · next h => rw [tfind_tdel_ne _ h]; rfl

theorem Beacon.trig_withTrig (b : Beacon) (t : Bool) : (b.withTrig t).trig = t := by
  simp only [Beacon.withTrig, Beacon.trig, BitVec.getLsbD_append]
  simp

/-- The arming of one Beacon. -/
def State.armBeacon (en : BitVec 16) (u : State) (b : Nat) : State :=
  (u.setBeacon b { (u.beacon b).withTrig (en.getLsbD b) with lastCn := 0 }).clearCtr (.bcnHit b)

theorem State.armBeacons_eq (en : BitVec 16) : s.armBeacons en = (List.range 16).foldl (State.armBeacon en) s := rfl

theorem State.armBeacon_beacon (en : BitVec 16) (b : Nat) :
    ((s.armBeacon en b).beacon b).trig = en.getLsbD b ∧ ((s.armBeacon en b).beacon b).lastCn = 0 := by
  have h : (s.armBeacon en b).beacon b = { (s.beacon b).withTrig (en.getLsbD b) with lastCn := 0 } := State.beacon_setBeacon _ _ _
  rw [h]
  exact ⟨(s.beacon b).trig_withTrig _, rfl⟩

theorem State.armBeacon_beacon_ne (en : BitVec 16) {a b : Nat} (h : b ≠ a) : (s.armBeacon en a).beacon b = s.beacon b :=
  s.beacon_setBeacon_ne _ h

theorem State.armBeacons_beacon (en : BitVec 16) {b : Nat} (hb : b < 16) :
    ((s.armBeacons en).beacon b).trig = en.getLsbD b ∧ ((s.armBeacons en).beacon b).lastCn = 0 := by
  rw [State.armBeacons_eq]
  exact foldl_nodup (P := fun _ => True) (Q := fun u : State => (u.beacon b).trig = en.getLsbD b ∧ (u.beacon b).lastCn = 0) List.nodup_range
    (List.mem_range.2 hb) (fun _ _ _ h => h) (fun u _ => u.armBeacon_beacon en b)
    (fun u a h hu => by rwa [u.armBeacon_beacon_ne en h.symm]) trivial

/-- The Beacons' counters alone are cleared with their records. -/
theorem State.armBeacons_ctr (en : BitVec 16) {i : CtrId} (h : i.code < 86) : (s.armBeacons en).ctr i = s.ctr i := by
  rw [State.armBeacons_eq]
  refine foldl_same (fun u : State => u.ctr i) (State.armBeacon en) (fun u b => ?_) _ s
  have hb : i.code ≠ (CtrId.bcnHit b).code := by rw [CtrId.code]; omega
  exact (State.ctr_clearCtr _ _ _).trans (if_neg hb)

theorem State.clearCap_capMtv : s.clearCap.ctr .capMtv = 0 := by
  simp [State.clearCap, State.ctr_clearCtr, CtrId.code]

theorem State.clearCap_mbx : s.clearCap.mbx = s.mbx := foldl_same State.mbx State.clearCtr (fun _ _ => rfl) _ s
theorem State.clearCap_kly : s.clearCap.kly = s.kly := foldl_same State.kly State.clearCtr (fun _ _ => rfl) _ s

theorem State.armBeacons_mbx (en : BitVec 16) : (s.armBeacons en).mbx = s.mbx :=
  foldl_same State.mbx (State.armBeacon en) (fun _ _ => rfl) _ s

theorem State.armBeacons_kly (en : BitVec 16) : (s.armBeacons en).kly = s.kly :=
  foldl_same State.kly (State.armBeacon en) (fun _ _ => rfl) _ s

/-- The registers of the wake buffer replaced. -/
def State.withCap (c : CapState) : State := { s with cap := c }

@[simp] theorem State.withCap_cap (c : CapState) : (s.withCap c).cap = c := rfl
@[simp] theorem State.withCap_mbx (c : CapState) : (s.withCap c).mbx = s.mbx := rfl
@[simp] theorem State.withCap_kly (c : CapState) : (s.withCap c).kly = s.kly := rfl
@[simp] theorem State.withCap_ctrs (c : CapState) : (s.withCap c).ctrs = s.ctrs := rfl
@[simp] theorem State.withCap_chan (c : CapState) : (s.withCap c).chan = s.chan := rfl

variable (w : Waiting)

/-- The Beacons and the counters of the capture block as an arming leaves them (08 R276, R277). -/
def State.armedCap : State := s.clearCap.armBeacons ((w.req.opd 3).extractLsb' 0 16)

/-- What an arming takes of its command (08 R264, 15 R407). -/
def CapState.armedBy (c : CapState) : CapState :=
  { CapState.reset with
    st := if w.req.opd 0 = 0 then .armed else .prefill
    cfg := capCfg (w.req.opd 3) (w.req.opd 4) (w.req.opd 5)
    win := (0 : BitVec 2) ++ (w.req.opd 1).extractLsb' 0 14 ++ (0 : BitVec 3) ++ (w.req.opd 0).extractLsb' 0 13
    lanes := w.req.opd 2, a0 := w.at_, cands := c.cands }

section
variable (c : CapState)

@[simp] theorem CapState.armedBy_st : (c.armedBy w).st = if w.req.opd 0 = 0 then .armed else .prefill := by rw [CapState.armedBy]
@[simp] theorem CapState.armedBy_lanes : (c.armedBy w).lanes = w.req.opd 2 := by rw [CapState.armedBy]
@[simp] theorem CapState.armedBy_a0 : (c.armedBy w).a0 = w.at_ := by rw [CapState.armedBy]
@[simp] theorem CapState.armedBy_frames : (c.armedBy w).frames = [] := by rw [CapState.armedBy, CapState.reset]

end

theorem toNat_eq_zero_iff (d : Dword) : d.toNat = 0 ↔ d = 0 := by
  rw [← BitVec.toNat_inj]
  rfl

theorem actCaparm_of_idle (h : s.cap.st = .idle) : actCaparm s w =
    ((s.armedCap w).withCap ((s.armedCap w).cap.armedBy w)).covered s true := by
  simp only [actCaparm, h, ne_eq, not_true_eq_false, if_false, CapState.armedBy, toNat_eq_zero_iff, State.withCap, State.armedCap]

theorem actCaparm_of_busy (h : s.cap.st ≠ .idle) : actCaparm s w = s := if_pos h

@[simp] theorem actCaparm_mbx : (actCaparm s w).mbx = s.mbx := by
  by_cases h : s.cap.st = .idle
  · rw [actCaparm_of_idle s w h, State.covered_mbx, State.withCap_mbx, State.armedCap, State.armBeacons_mbx, State.clearCap_mbx]
  · rw [actCaparm_of_busy s w h]

@[simp] theorem actCaparm_kly : (actCaparm s w).kly = s.kly := by
  by_cases h : s.cap.st = .idle
  · rw [actCaparm_of_idle s w h, State.covered_kly, State.withCap_kly, State.armedCap, State.armBeacons_kly, State.clearCap_kly]
  · rw [actCaparm_of_busy s w h]

theorem actCaparm_cap (h : s.cap.st = .idle) : (actCaparm s w).cap = (s.armedCap w).cap.armedBy w := by
  rw [actCaparm_of_idle s w h, State.covered_cap, State.withCap_cap]

theorem actCaparm_capMtv (h : s.cap.st = .idle) : (actCaparm s w).ctr .capMtv = 0 := by
  rw [actCaparm_of_idle s w h, State.ctr_congr ((State.covered_ctrs _ _ _).trans (State.withCap_ctrs _ _)), State.armedCap,
    State.armBeacons_ctr _ _ (by decide), State.clearCap_capMtv]

theorem actCaparm_beacon (h : s.cap.st = .idle) {b : Nat} (hb : b < 16) :
    ((actCaparm s w).beacon b).trig = (w.req.opd 3).getLsbD b ∧ ((actCaparm s w).beacon b).lastCn = 0 := by
  rw [actCaparm_of_idle s w h, State.beacon_congr ((State.covered_chan _ _ _).trans (State.withCap_chan _ _))]
  obtain ⟨ht, hl⟩ := s.clearCap.armBeacons_beacon ((w.req.opd 3).extractLsb' 0 16) hb
  exact ⟨ht.trans (by simp [hb]), hl⟩

/-- The Beacon that a BCNLOAD loads (08 R271, R277). -/
def Beacon.loadedBy (k : Beacon) : Beacon :=
  { k with
    cfg := BitVec.ofBool ((w.req.opd 4).getLsbD 0) ++ BitVec.ofBool ((w.req.opd 4).getLsbD 1) ++ (0 : BitVec 1) ++
      (w.req.opd 2).extractLsb' 0 13 ++ (w.req.opd 1).extractLsb' 0 16
    min := (w.req.opd 3).extractLsb' 0 32, pat := maskOf (w.req.list 5), care := maskOf ((w.req.list 5).drop 512) }

theorem Beacon.enabled_loadedBy (k : Beacon) : (k.loadedBy w).enabled = (w.req.opd 4).getLsbD 0 := by
  simp only [Beacon.loadedBy, Beacon.enabled, BitVec.getLsbD_append]
  simp

theorem Beacon.trig_loadedBy (k : Beacon) : (k.loadedBy w).trig = (w.req.opd 4).getLsbD 1 := by
  simp only [Beacon.loadedBy, Beacon.trig, BitVec.getLsbD_append]
  simp

theorem actBcnload_eq : ∃ c : CapState, actBcnload s w =
    ((s.setBeacon (w.req.opd 0).toNat ((s.beacon (w.req.opd 0).toNat).loadedBy w)).withCap c).covered s true := ⟨_, rfl⟩

@[simp] theorem actBcnload_mbx : (actBcnload s w).mbx = s.mbx := by
  obtain ⟨c, h⟩ := actBcnload_eq s w
  rw [h, State.covered_mbx, State.withCap_mbx, State.setBeacon_mbx]

@[simp] theorem actBcnload_kly : (actBcnload s w).kly = s.kly := by
  obtain ⟨c, h⟩ := actBcnload_eq s w
  rw [h, State.covered_kly, State.withCap_kly, State.setBeacon_kly]

theorem actBcnload_beacon : (actBcnload s w).beacon (w.req.opd 0).toNat = (s.beacon (w.req.opd 0).toNat).loadedBy w := by
  obtain ⟨c, h⟩ := actBcnload_eq s w
  rw [h, State.beacon_congr ((State.covered_chan _ _ _).trans (State.withCap_chan _ _)), State.beacon_setBeacon]

theorem actBcnload_beacon_ne {b : Nat} (hb : b ≠ (w.req.opd 0).toNat) : (actBcnload s w).beacon b = s.beacon b := by
  obtain ⟨c, h⟩ := actBcnload_eq s w
  rw [h, State.beacon_congr ((State.covered_chan _ _ _).trans (State.withCap_chan _ _)), s.beacon_setBeacon_ne _ hb]

end

/-! ### Each effect command where one command is due -/

theorem cmdWgmcommit_act : cmdWgmcommit.act = actWgmcommit := by rw [cmdWgmcommit]
theorem cmdCtxcommit_act : cmdCtxcommit.act = actCtxcommit := by rw [cmdCtxcommit]
theorem cmdCaparm_act : cmdCaparm.act = actCaparm := by rw [cmdCaparm]
theorem cmdCaptrig_act : cmdCaptrig.act = actCaptrig := by rw [cmdCaptrig]
theorem cmdBcnload_act : cmdBcnload.act = actBcnload := by rw [cmdBcnload]
theorem cmdEnvload_act : cmdEnvload.act = actEnvload := by rw [cmdEnvload]
theorem cmdLogstart_act : cmdLogstart.act = actLogstart := by rw [cmdLogstart]

section
variable {s : State} {w : Waiting}

theorem execWgmCommitApply_of_due (h : dueOnly s 0x0501 s.cn w = true) (hr : s.run.resumeQ ≠ some s.cn) :
    execWgmCommitApply s = .next ((actWgmcommit (s.dropWaiting w.jseq) w).effectNotice w s.cn) := by
  rw [execWgmCommitApply, State.resumeHere, if_neg (by simpa using hr), applyDue_of_dueOnly h, cmdWgmcommit_act]

theorem execContextCommitApply_of_due (h : dueOnly s 0x0502 s.cn w = true) (hr : s.run.resumeQ ≠ some s.cn) :
    execContextCommitApply s = .next ((actCtxcommit (s.dropWaiting w.jseq) w).effectNotice w s.cn) := by
  rw [execContextCommitApply, State.resumeHere, if_neg (by simpa using hr), applyDue_of_dueOnly h, cmdCtxcommit_act]

theorem execCnofsApply_of_due {lane : Nat} (hl : lane < 64)
    (h : ((s.dueNow 0x0503 s.cn).filter fun w => w.req.opd 0 == BitVec.ofNat 64 lane) = [w]) :
    execCnofsApply lane s = .next ((actLanecommit (s.dropWaiting w.jseq) w).effectNotice w s.cn) := by
  rw [execCnofsApply, if_neg (Nat.not_le.2 hl), h]
  rfl

/-- That command names this lane and crossing. -/
theorem cnofsDue_names {lane : Nat} (hl : lane < 64) (h : ((s.dueNow 0x0503 s.cn).filter fun w => w.req.opd 0 == BitVec.ofNat 64 lane) = [w]) :
    w.at_ = s.cn ∧ (w.req.opd 0).toNat = lane := by
  obtain ⟨hdue, hop⟩ := List.mem_filter.1 (h.symm ▸ List.mem_singleton_self w)
  refine ⟨(mem_dueNow.1 hdue).2.2, ?_⟩
  rw [beq_iff_eq.1 hop, BitVec.toNat_ofNat]
  omega

theorem execKlowynTrigger_of_due (h : dueOnly s 0x0602 (cnSub s.cn s.hdr.rofs) w = true) :
    execKlowynTrigger s = .next ((actCaptrig (s.dropWaiting w.jseq) w).effectNotice w s.cn) := by
  rw [execKlowynTrigger, applyDue_of_dueOnly h, cmdCaptrig_act]

theorem execEnvelopeLoadApply_of_due (h : dueOnly s 0x0606 (cnSub s.cn s.hdr.rofs) w = true) :
    execEnvelopeLoadApply s = .next ((actEnvload (s.dropWaiting w.jseq) w).effectNotice w s.cn) := by
  rw [execEnvelopeLoadApply, applyDue_of_dueOnly h, cmdEnvload_act]

theorem execLogbookStart_of_due (ha : s.armLogDue = false) (h : dueOnly s 0x0701 (cnSub s.cn s.hdr.rofs) w = true) :
    execLogbookStart s = .next ((actLogstart (s.dropWaiting w.jseq) w).effectNotice w s.cn) := by
  rw [execLogbookStart, if_neg (by simp [ha]), applyDue_of_dueOnly h, cmdLogstart_act]

theorem execLogbookStart_of_arming (h : s.armLogDue = true) : execLogbookStart s = .next (s.logBegin s.run.first) := if_pos h

/-- CAPARM and BCNLOAD commands of one crossing, which share TRIG of a Beacon (08 R277, 15 R409). -/
theorem State.trigDue_eq (t : CN) : (s.kly.waiting.filter fun w => (trigCmds.any fun c => c.spec.op == w.req.op.toNat) && decide (w.at_ = t)) =
    s.kly.waiting.filter fun w => (w.req.op.toNat == 0x0601 && decide (w.at_ = t)) || (w.req.op.toNat == 0x0605 && decide (w.at_ = t)) := by
  refine List.filter_congr fun w _ => ?_
  simp only [trigCmds, cmdCaparm, cmdBcnload, List.any_cons, List.any_nil, Bool.or_false, Bool.and_or_distrib_right,
    Bool.beq_comm (a := w.req.op.toNat)]

theorem execCaptureArmApply_of_due (h : dueOnly s 0x0601 (cnSub s.cn s.hdr.rofs) w = true)
    (hb : s.dueNow 0x0605 (cnSub s.cn s.hdr.rofs) = []) :
    execCaptureArmApply s = .next ((actCaparm (s.dropWaiting w.jseq) w).effectNotice w s.cn) := by
  rw [execCaptureArmApply, applyGroup_of_alone rfl (dueOnly_at h).1 (by rw [State.trigDue_eq]; exact filter_or_of_alone (dueOnly_iff.1 h) hb),
    cmdCaparm_act]

theorem execBeaconLoadApply_of_due (h : dueOnly s 0x0605 (cnSub s.cn s.hdr.rofs) w = true)
    (ha : s.dueNow 0x0601 (cnSub s.cn s.hdr.rofs) = []) :
    execBeaconLoadApply s = .next ((actBcnload (s.dropWaiting w.jseq) w).effectNotice w s.cn) := by
  have hd := filter_or_of_alone (dueOnly_iff.1 h) ha
  simp only [Bool.or_comm] at hd
  rw [execBeaconLoadApply, applyGroup_of_alone rfl (dueOnly_at h).1 (by rw [State.trigDue_eq]; exact hd), cmdBcnload_act]

end

end Sys2Proof.Machine

open Sys2Proof Sys2Proof.Machine

/-- Settles O40: each effect command runs the one command that is due, and its notice follows (goesTo_effectNotice); of a commit's entries the last
for a tensor or context decides (foldl_lastOf). -/
theorem announcedEffectsApply : Obligations.AnnouncedEffectsApply := by
  refine ⟨fun s w h hr => ?_, fun s w h hr => ?_, fun s lane w hl h => ?_, fun s w h hb hi => ?_, fun s w h => ?_, fun s w h ha => ?_,
    fun s w h => ?_, fun s w ha hact harm hl h hw => ?_, fun s hact harm hl hf => ?_⟩
  · rw [show exec .wgmCommitApply s = _ from execWgmCommitApply_of_due h hr]
    refine goesTo_effectNotice (fun u => actWgmcommit_mbx u w) (fun u => actWgmcommit_kly u w) ⟨fun e he => ?_, fun k hk => ?_⟩
    · obtain ⟨hcfg, hrdef, hclear⟩ := actWgmcommit_tensor_last (s.dropWaiting w.jseq) w he
      rw [State.effectNotice_tensor]
      exact ⟨hcfg, hrdef, fun h1 => hclear (beq_iff_eq.2 h1)⟩
    · rw [State.effectNotice_tensor]
      exact actWgmcommit_tensor_unlisted _ w hk
  · rw [show exec .contextCommitApply s = _ from execContextCommitApply_of_due h hr]
    refine goesTo_effectNotice (fun u => actCtxcommit_mbx u w) (fun u => actCtxcommit_kly u w) ⟨fun e he => ?_, fun x hx => ?_⟩
    · obtain ⟨hctl, hcal⟩ := actCtxcommit_ctxOf_last (s.dropWaiting w.jseq) w he
      rw [State.effectNotice_ctxOf]
      exact ⟨hctl, hcal, actCtxcommit_done _ w e.ctx⟩
    · rw [State.effectNotice_ctxOf]
      exact actCtxcommit_ctxOf_unlisted _ w hx
  · rw [show exec (.cnofsApply lane) s = _ from execCnofsApply_of_due hl h]
    obtain ⟨hat, hlane⟩ := cnofsDue_names hl h
    refine goesTo_effectNotice (fun u => actLanecommit_mbx u w) (fun u => actLanecommit_kly u w) ⟨?_, fun l hne => ?_⟩
    · rw [State.effectNotice_lane, ← hlane, actLanecommit_lane, hat]
      rfl
    · rw [State.effectNotice_lane, actLanecommit_lane_ne _ _ (hlane ▸ hne), State.dropWaiting_lane]
  · rw [show exec .captureArmApply s = _ from execCaptureArmApply_of_due h hb]
    refine goesTo_effectNotice (fun u => actCaparm_mbx u w) (fun u => actCaparm_kly u w) ?_
    rw [State.effectNotice_cap, State.effectNotice_ctr, actCaparm_cap (s.dropWaiting w.jseq) w hi, CapState.armedBy_st, CapState.armedBy_a0,
      CapState.armedBy_lanes, CapState.armedBy_frames]
    refine ⟨rfl, (dueOnly_at h).2, rfl, rfl, actCaparm_capMtv (s.dropWaiting w.jseq) w hi, fun b hb => ?_⟩
    rw [State.effectNotice_beacon]
    exact actCaparm_beacon (s.dropWaiting w.jseq) w hi hb
  · rw [show exec .klowynTrigger s = _ from execKlowynTrigger_of_due h]
    refine goesTo_effectNotice (fun u => actCaptrig_mbx u w) (fun u => actCaptrig_kly u w) ?_
    rw [State.effectNotice_cap, actCaptrig_eq, (dueOnly_at h).2, State.dropWaiting_cap]
  · rw [show exec .beaconLoadApply s = _ from execBeaconLoadApply_of_due h ha]
    refine goesTo_effectNotice (fun u => actBcnload_mbx u w) (fun u => actBcnload_kly u w) ?_
    rw [State.effectNotice_beacon, actBcnload_beacon]
    exact ⟨rfl, rfl, Beacon.enabled_loadedBy w _, Beacon.trig_loadedBy w _, fun b hb =>
      (State.effectNotice_beacon _ _ _ b).trans (actBcnload_beacon_ne (s.dropWaiting w.jseq) w hb)⟩
  · rw [show exec .envelopeLoadApply s = _ from execEnvelopeLoadApply_of_due h]
    refine goesTo_effectNotice (fun u => actEnvload_mbx u w) (fun u => actEnvload_kly u w) ?_
    simp only [State.effectNotice_chan]
    exact ⟨fun i hi => actEnvload_env_inside _ w hi, fun k hk => actEnvload_env_outside _ w hk⟩
  · rw [show exec .logbookStart s = _ from execLogbookStart_of_due ha h]
    refine goesTo_effectNotice (fun u => actLogstart_mbx u w) (fun u => actLogstart_kly u w) ?_
    rw [State.effectNotice_log, State.effectNotice_run, actLogstart_of_recording (s.dropWaiting w.jseq) w hact hw, (dueOnly_at h).2]
    simp [State.logBegin, harm]
  · have hd : s.armLogDue = true := by simp [State.armLogDue, hact, harm, hl, hf]
    refine ⟨_, execLogbookStart_of_arming hd, ?_⟩
    simp [State.logBegin, harm]

end

section
/-! PROOFS. Scales: each tensor's derivation and the M and S that it puts into force (03 R99, 04 R122, R127, R130). -/

namespace Sys2Proof.Machine

/-! ### The keys of a table -/

theorem nodup_tkeys {α : Type} {t : Tbl α} (h : tsorted t = true) : (tkeys t).Nodup := by
  induction t with
  | nil => exact List.nodup_nil
  | cons p r ih =>
    obtain ⟨j, v⟩ := p
    obtain ⟨ha, hr⟩ := tsorted_cons.1 h
    refine List.nodup_cons.2 ⟨fun hj => ?_, ih hr⟩
    obtain ⟨q, hq, rfl⟩ := List.mem_map.1 hj
    exact Nat.lt_irrefl _ (ha q hq)

theorem mem_tkeys {α : Type} {t : Tbl α} {k : Nat} {v : α} (h : tfind t k = some v) : k ∈ tkeys t := by
  induction t with
  | nil => cases h
  | cons p r ih =>
    obtain ⟨j, w⟩ := p
    by_cases hj : j = k
    · exact hj ▸ List.mem_cons_self
    · exact List.mem_cons_of_mem _ (ih (by simpa [tfind, hj] using h))

theorem State.tensor_of_tfind {s : State} {k : Nat} {t : Tensor} (h : tfind s.wgm.tensors k = some t) : s.tensor k = t := by
  rw [State.tensor, tget, h, Option.getD_some]

/-! ### One tensor's derivation (04 R122, R130) -/

/-- What the derivation of a tensor with descriptor t.cfg and window maximum m leaves, where no fast attack can act: the range rises to the maximum
at once and falls by at most the step of DROP. -/
structure Tensor.DerivedBy (t : Tensor) (m : Nat) (u : Tensor) : Prop where
  empty : m = 0 → u.rNow = t.rNow ∧ u.seen = t.seen
  seen : m ≠ 0 → u.seen = true
  first : m ≠ 0 → t.seen = false ∨ tcDrop t.cfg = 0 → u.rNow = BitVec.ofNat 32 m
  drop : m ≠ 0 → t.seen = true → tcDrop t.cfg ≠ 0 → u.rNow = BitVec.ofNat 32 (max m (t.rNow.toNat - t.rNow.toNat >>> tcDrop t.cfg))
  next : u.rNow ≠ 0 → u.next = some (u.rNow, scaleOf u.rNow.toNat (tcTarget t.cfg))
  mNow : u.mNow = t.mNow
  sNow : u.sNow = t.sNow
  rForce : u.rForce = t.rForce

theorem deriveRange_zero {cfg : Word} (h : tcFaThr cfg = 0) (mc nc : Nat) (rNow : Word) (seen : Bool) :
    deriveRange cfg 0 mc nc rNow seen = (rNow, seen, false) := by
  simp [deriveRange, h]

theorem deriveRange_pos {cfg : Word} (h : tcFaThr cfg = 0) {wmax : Nat} (hw : wmax ≠ 0) (mc nc : Nat) (rNow : Word) (seen : Bool) :
    deriveRange cfg wmax mc nc rNow seen =
      (if seen = false ∨ tcDrop cfg = 0 then BitVec.ofNat 32 wmax
        else BitVec.ofNat 32 (max wmax (rNow.toNat - rNow.toNat >>> tcDrop cfg)), true, false) := by
  cases seen <;> by_cases hd : tcDrop cfg = 0 <;> simp [deriveRange, h, hw, hd]

section
variable (s : State) (g : List Tensor) (k : Nat) (c : CN)

theorem State.deriveTensor_tensor_ne {j : Nat} (h : j ≠ k) : (s.deriveTensor g k c).tensor j = s.tensor j := by
  simp only [State.deriveTensor]
  split
  · rfl
  · split
    · rw [State.tensor_congr (State.raiseBit_wgm _ _ _), s.tensor_setTensor_ne _ h]
    · rw [s.tensor_setTensor_ne _ h]

/-- The derivation of a tensor that stands alone, its descriptor without fast attack. -/
theorem State.deriveTensor_tensor {t : Tensor} (ht : s.tensor k = t) (he : tcEnable t.cfg = true) (hf : tcFaThr t.cfg = 0) :
    t.DerivedBy (t.windowMax c) ((s.deriveTensor [t] k c).tensor k) := by
  subst ht
  simp only [State.deriveTensor, he, Bool.not_true, Bool.false_eq_true, if_false, List.map_cons, List.map_nil, List.foldl_cons, List.foldl_nil,
    Nat.zero_max]
  by_cases hw : (s.tensor k).windowMax c = 0
  · simp only [hw, deriveRange_zero hf, Bool.false_and, Bool.false_eq_true, if_false, State.tensor_setTensor]
    exact ⟨fun _ => ⟨rfl, rfl⟩, fun h => absurd rfl h, fun h => absurd rfl h, fun h => absurd rfl h, fun h => if_neg h, rfl, rfl, rfl⟩
  · simp only [deriveRange_pos hf hw, Bool.false_and, Bool.false_eq_true, if_false, State.tensor_setTensor]
    exact ⟨fun h => absurd h hw, fun _ => rfl, fun _ h => if_pos h, fun _ hs hd => if_neg (by simp [hs, hd]), fun h => if_neg h, rfl, rfl, rfl⟩

@[simp] theorem State.deriveTensor_chan : (s.deriveTensor g k c).chan = s.chan := by
  simp only [State.deriveTensor]
  split
  · rfl
  · split <;> simp

@[simp] theorem State.deriveTensor_kly : (s.deriveTensor g k c).kly = s.kly := by
  simp only [State.deriveTensor]
  split
  · rfl
  · split <;> simp

end

/-! ### The derivation of a crossing -/

section
variable (s : State)

@[simp] theorem State.deriveAll_chan : s.deriveAll.chan = s.chan :=
  foldl_same State.chan (fun u k => u.deriveTensor (s.group k) k s.pcn) (fun u k => u.deriveTensor_chan _ k _) _ s

@[simp] theorem State.deriveAll_kly : s.deriveAll.kly = s.kly :=
  foldl_same State.kly (fun u k => u.deriveTensor (s.group k) k s.pcn) (fun u k => u.deriveTensor_kly _ k _) _ s

theorem State.deriveAll_tensor {k : Nat} {t : Tensor} (hs : tsorted s.wgm.tensors = true) (ht : tfind s.wgm.tensors k = some t)
    (he : tcEnable t.cfg = true) (hl : tcLink t.cfg = 0) (hf : tcFaThr t.cfg = 0) : t.DerivedBy (t.windowMax s.pcn) (s.deriveAll.tensor k) := by
  have hk : s.tensor k = t := State.tensor_of_tfind ht
  have hg : s.group k = [t] := by simp [State.group, hk, hl]
  refine foldl_nodup (f := fun (u : State) j => u.deriveTensor (s.group j) j s.pcn) (P := fun u : State => u.tensor k = t)
    (Q := fun u : State => t.DerivedBy (t.windowMax s.pcn) (u.tensor k)) (nodup_tkeys hs) (mem_tkeys ht) (fun u j hj hu => ?_) (fun u hu => ?_)
    (fun u j hj hu => ?_) hk
  · rw [u.deriveTensor_tensor_ne _ j _ hj.symm, hu]
  · rw [hg]
    exact u.deriveTensor_tensor k _ hu he hf
  · rwa [u.deriveTensor_tensor_ne _ j _ hj.symm]

theorem State.histoTensor_of_none (h : s.kly.histo = []) (c : CN) : s.histoTensor c = s := by simp [State.histoTensor, h]

/-- The state before the tensors' derivation: the latches in progress have taken their part, and the contexts of this crossing's words are derived. -/
def State.derivedCtxs : State :=
  let sl := if s.live then s.takeLatches else s
  let s0 := sl.chan.levels.foldl State.deriveCtx sl
  { s0 with chan := { s0.chan with levels := [] } }

/-- What a derivation of the tensors reads besides them. -/
def State.deriveKey : WgmState × RunState × CN × List Histo := (s.wgm, s.run, s.cn, s.kly.histo)

theorem State.deriveCtx_deriveKey (e : Nat × Nat × Bool) : (s.deriveCtx e).deriveKey = s.deriveKey := by
  simp only [State.deriveCtx]
  split <;> simp [State.deriveKey]

theorem State.derivedCtxs_deriveKey : s.derivedCtxs.deriveKey = s.deriveKey := by
  have hl : (if s.live then s.takeLatches else s).deriveKey = s.deriveKey := by split <;> rfl
  exact (foldl_same State.deriveKey State.deriveCtx (fun u e => u.deriveCtx_deriveKey e) _ _).trans hl

theorem State.derivedCtxs_keeps : s.derivedCtxs.wgm = s.wgm ∧ s.derivedCtxs.run = s.run ∧ s.derivedCtxs.cn = s.cn ∧
    s.derivedCtxs.kly.histo = s.kly.histo := by
  simpa [State.deriveKey] using s.derivedCtxs_deriveKey

variable {s}

theorem State.derivedCtxs_levels : s.derivedCtxs.chan.levels = [] := rfl

theorem State.derivable_congr {u : State} (hwgm : u.wgm = s.wgm) (hrun : u.run = s.run) (hcn : u.cn = s.cn) : u.derivable = s.derivable := by
  simp only [State.derivable, State.live, State.pcn, State.pres, hwgm, hrun, hcn] <;> rfl

/-- Crossing c has had its derivation. -/
def State.withDerived (s : State) (c : CN) : State := { s with wgm := { s.wgm with derived := some c } }

@[simp] theorem State.withDerived_chan (s : State) (c : CN) : (s.withDerived c).chan = s.chan := rfl
@[simp] theorem State.withDerived_tensor (s : State) (c : CN) (k : Nat) : (s.withDerived c).tensor k = s.tensor k := rfl

theorem execWgmDerivation_eq : execWgmDerivation s =
    if s.derivedCtxs.derivable then .next ((s.derivedCtxs.deriveAll.histoTensor s.pcn).withDerived s.pcn) else .next s.derivedCtxs := rfl

theorem execWgmDerivation_of_derivable (h : s.derivable = true) (hh : s.kly.histo = []) :
    execWgmDerivation s = .next (s.derivedCtxs.deriveAll.withDerived s.pcn) := by
  obtain ⟨hwgm, hrun, hcn, hhisto⟩ := s.derivedCtxs_keeps
  rw [execWgmDerivation_eq, if_pos ((State.derivable_congr hwgm hrun hcn).trans h),
    State.histoTensor_of_none _ (by rw [State.deriveAll_kly, hhisto, hh])]

end

/-! ### Scales into force (03 R99) -/

section
variable (s : State) (k : Nat)

/-- A tensor whose derived range, M and S have come into force. -/
def Tensor.applied (t : Tensor) (r : Word) (m : BitVec 16) (sh : BitVec 6) : Tensor := { t with mNow := m, sNow := sh, rForce := r, next := none }

@[simp] theorem State.pushScale_wgm : (s.pushScale k).wgm = s.wgm := rfl

theorem State.applyScale_of_next {r : Word} {m : BitVec 16} {sh : BitVec 6} (h : (s.tensor k).next = some (r, m, sh)) :
    s.applyScale k = (s.setTensor k ((s.tensor k).applied r m sh)).pushScale k := by
  simp [State.applyScale, h, Tensor.applied]

theorem State.applyScale_of_none (h : (s.tensor k).next = none) : s.applyScale k = s := by simp [State.applyScale, h]

theorem State.applyScale_tensor_ne {j : Nat} (h : j ≠ k) : (s.applyScale k).tensor j = s.tensor j := by
  match hn : (s.tensor k).next with
  | none => rw [s.applyScale_of_none k hn]
  | some (r, m, sh) => rw [s.applyScale_of_next k hn, State.tensor_congr (State.pushScale_wgm _ _), s.tensor_setTensor_ne _ h]

theorem State.applyScale_tensor {r : Word} {m : BitVec 16} {sh : BitVec 6} (h : (s.tensor k).next = some (r, m, sh)) :
    (s.applyScale k).tensor k = (s.tensor k).applied r m sh := by
  rw [s.applyScale_of_next k h, State.tensor_congr (State.pushScale_wgm _ _), State.tensor_setTensor]

/-- The parameter set p of cell c, if it is listed. -/
def State.setAt (c p : Nat) : Option Word := tfind (s.cellAt c).rq p

/-- The virtual Field of cell c (00 R16). -/
def fieldOf (c : Nat) : Nat := 4 * (c / 1024 / 256) + c % 1024 / 256

/-- A parameter set of cell c after tensor k, where it names that tensor, has written its M and S (03 R99). -/
def scaleWord (k : Nat) (m : BitVec 16) (sh : BitVec 6) (c : Nat) (w : Word) : Word :=
  if fieldOf c = k / 64 ∧ rqWgm w = true ∧ rqTensor w = k % 64 then rqWithMS w m sh else w

theorem tfind_writeScale (m : BitVec 16) (sh : BitVec 6) (c : Nat) (x : Cell) (p : Nat) :
    tfind (writeScale k m sh (c, x)).2.rq p = (tfind x.rq p).map (scaleWord k m sh c) := by
  by_cases hf : fieldOf c = k / 64
  · have hw : (writeScale k m sh (c, x)).2.rq = x.rq.map fun q => (q.1, scaleWord k m sh c q.2) := by
      simp only [writeScale, if_pos (show 4 * (c / 1024 / 256) + c % 1024 / 256 = k / 64 from hf)]
      simp [scaleWord, hf]
    rw [hw, tfind_map (fun q => (q.1, scaleWord k m sh c q.2)) fun _ => rfl]
  · have hw : (writeScale k m sh (c, x)).2 = x := by
      simp only [writeScale, if_neg (show ¬4 * (c / 1024 / 256) + c % 1024 / 256 = k / 64 from hf)]
    rw [hw, show scaleWord k m sh c = id from funext fun w => if_neg fun h => hf h.1, Option.map_id_fun, id]

theorem State.setAt_setTensor (t : Tensor) (c p : Nat) : (s.setTensor k t).setAt c p = s.setAt c p := rfl

theorem State.setAt_pushScale (c p : Nat) : (s.pushScale k).setAt c p = (s.setAt c p).map (scaleWord k (s.tensor k).mNow (s.tensor k).sNow c) := by
  rw [State.setAt, State.setAt, ← tfind_writeScale, State.cellAt, State.cellAt, State.pushScale, tget, tget, tfind_map _ (writeScale_key _ _ _)]
  cases tfind s.arr.cells c with
  | none => simp [writeScale, Cell.blank]
  | some x => rfl

/-- The step of another tensor leaves a set that names tensor k alone. -/
theorem State.setAt_applyScale_ne {c p j : Nat} {w : Word} (hw : s.setAt c p = some w) (hc : fieldOf c = k / 64) (ht : rqTensor w = k % 64)
    (h : j ≠ k) : (s.applyScale j).setAt c p = some w := by
  match hn : (s.tensor j).next with
  | none => rw [s.applyScale_of_none j hn, hw]
  | some (r, m, sh) =>
    rw [s.applyScale_of_next j hn, State.setAt_pushScale, State.setAt_setTensor, hw, Option.map_some, scaleWord, if_neg (by omega)]

theorem State.setAt_applyScale {c p : Nat} {w : Word} {r : Word} {m : BitVec 16} {sh : BitVec 6} (hn : (s.tensor k).next = some (r, m, sh))
    (hw : s.setAt c p = some w) (hc : fieldOf c = k / 64) (hg : rqWgm w = true) (ht : rqTensor w = k % 64) :
    (s.applyScale k).setAt c p = some (rqWithMS w m sh) := by
  rw [s.applyScale_of_next k hn, State.setAt_pushScale, State.setAt_setTensor, hw, State.tensor_setTensor, Option.map_some, scaleWord,
    if_pos ⟨hc, hg, ht⟩, Tensor.applied]

/-! A parameter set with new M and S: the two fields, and the ten bits below them that stay (03 R96). -/

section
variable (w : Word) (m : BitVec 16) (sh : BitVec 6)

theorem rqWithMS_m : (rqWithMS w m sh).extractLsb' 16 16 = m := by
  refine BitVec.eq_of_getLsbD_eq fun i hi => ?_
  have hlow : ¬16 + i < 10 := by omega
  have hmid : ¬16 + i - 10 < 6 := by omega
  have hsub : 16 + i - 10 - 6 = i := by omega
  simp only [rqWithMS, BitVec.getLsbD_extractLsb', BitVec.getLsbD_append]
  simp [hi, hlow, hmid, hsub]

theorem rqWithMS_s : (rqWithMS w m sh).extractLsb' 10 6 = sh := by
  refine BitVec.eq_of_getLsbD_eq fun i hi => ?_
  simp only [rqWithMS, BitVec.getLsbD_extractLsb', BitVec.getLsbD_append]
  simp [hi]

theorem rqWithMS_low : (rqWithMS w m sh).extractLsb' 0 10 = w.extractLsb' 0 10 := by
  refine BitVec.eq_of_getLsbD_eq fun i hi => ?_
  simp only [rqWithMS, BitVec.getLsbD_extractLsb', BitVec.getLsbD_append]
  simp [hi]

/-- The tensor that a set names stands in its lowest ten bits. -/
theorem rqTensor_of_low {v : Word} (h : v.extractLsb' 0 10 = w.extractLsb' 0 10) : rqTensor v = rqTensor w := by
  have he : ∀ u : Word, u.extractLsb' 3 6 = (u.extractLsb' 0 10).extractLsb' 3 6 := fun u => by
    refine BitVec.eq_of_getLsbD_eq fun i hi => ?_
    simp [hi]
  rw [rqTensor, rqTensor, he v, he w, h]

end

end

/-! ### The boundary between two crossings (03 R99) -/

section
variable {s : State} {k : Nat} {t : Tensor} {r : Word} {m : BitVec 16} {sh : BitVec 6}

/-- Every tensor's derived scale comes into force. -/
def State.applyScales (s : State) : State := (tkeys s.wgm.tensors).foldl State.applyScale s

theorem execScaleApply_of_boundary (h : s.atBoundary = true) : execScaleApply s = .next s.applyScales := if_pos h

theorem State.applyScales_tensor (hs : tsorted s.wgm.tensors = true) (ht : tfind s.wgm.tensors k = some t) (hn : t.next = some (r, m, sh)) :
    s.applyScales.tensor k = t.applied r m sh := by
  refine foldl_nodup (f := State.applyScale) (P := fun u : State => u.tensor k = t) (Q := fun u : State => u.tensor k = t.applied r m sh)
    (nodup_tkeys hs) (mem_tkeys ht) (fun u j hj hu => ?_) (fun u hu => ?_) (fun u j hj hu => ?_) (State.tensor_of_tfind ht)
  · rw [u.applyScale_tensor_ne j hj.symm, hu]
  · rw [u.applyScale_tensor k (hu ▸ hn), hu]
  · rw [u.applyScale_tensor_ne j hj.symm, hu]

/-- A set that names the tensor is written in the tensor's own step alone. -/
theorem State.applyScales_setAt (hs : tsorted s.wgm.tensors = true) (ht : tfind s.wgm.tensors k = some t) (hn : t.next = some (r, m, sh))
    {c p : Nat} {w : Word} (hw : s.setAt c p = some w) (hc : fieldOf c = k / 64) (hg : rqWgm w = true) (hk : rqTensor w = k % 64) :
    s.applyScales.setAt c p = some (rqWithMS w m sh) := by
  have hk' : rqTensor (rqWithMS w m sh) = k % 64 := (rqTensor_of_low w (rqWithMS_low w m sh)).trans hk
  refine foldl_nodup (f := State.applyScale) (P := fun u : State => u.tensor k = t ∧ u.setAt c p = some w)
    (Q := fun u : State => u.setAt c p = some (rqWithMS w m sh))
    (nodup_tkeys hs) (mem_tkeys ht) (fun u j hj ⟨hu, hv⟩ => ⟨?_, ?_⟩) (fun u ⟨hu, hv⟩ => ?_) (fun u j hj hv => ?_) ⟨State.tensor_of_tfind ht, hw⟩
  · rw [u.applyScale_tensor_ne j hj.symm, hu]
  · exact u.setAt_applyScale_ne k hv hc hk hj
  · exact u.setAt_applyScale k (hu ▸ hn) hv hc hg hk
  · exact u.setAt_applyScale_ne k hv hc hk' hj

end

end Sys2Proof.Machine

open Sys2Proof Sys2Proof.Machine

/-- Settles O47: the fold over the tensors visits each once (foldl_nodup), so that a tensor alone in its group is derived from its own window
maximum (deriveAll_tensor), and a set is written in the step of the tensor that it names (applyScales_setAt). -/
theorem scalesAreDerivedAndApplied : Obligations.ScalesAreDerivedAndApplied := by
  refine ⟨fun s k t hd hs ht he hl hf hh => ?_, fun s k t r m sh hb hs ht hn => ?_⟩
  · obtain ⟨hwgm, hrun, hcn, -⟩ := s.derivedCtxs_keeps
    have hp : s.derivedCtxs.pcn = s.pcn := by rw [State.pcn, State.pcn, State.pres, State.pres, hrun, hcn]
    have hu := s.derivedCtxs.deriveAll_tensor (hwgm ▸ hs) (hwgm ▸ ht) he hl hf
    rw [hp] at hu
    refine ⟨_, execWgmDerivation_of_derivable hd hh, rfl, ?_, ?_⟩
    · rw [State.withDerived_chan, State.deriveAll_chan, State.derivedCtxs_levels]
    · rw [State.withDerived_tensor]
      exact ⟨hu.empty, fun h => ⟨hu.seen h, hu.first h, hu.drop h⟩, hu.next, hu.mNow, hu.sNow, hu.rForce⟩
  · refine ⟨_, execScaleApply_of_boundary hb, State.applyScales_tensor hs ht hn, fun c x p w hx hw hc hg hk => ?_⟩
    have hset : s.setAt c p = some w := by rw [State.setAt, State.cellAt, tget, hx, Option.getD_some, hw]
    exact ⟨_, State.applyScales_setAt hs ht hn hset hc hg hk, rqWithMS_m w m sh, rqWithMS_s w m sh, rqWithMS_low w m sh⟩

end

section
/-! PROOFS. Waypoints and seams at one cell (06 R193, R194, R196). The model's field WIN is a number without a bound, where the spec's has 3 bits:
a waypoint at a ninth port qualifies and leaves no queue. At the ports that a cell has, the seam and the waypoint act as the rules say. -/

namespace Sys2Proof.Machine

section
variable {s : State} {x y : Nat} (hc : s.hasCell x y = true) (hl : s.live = true) (hr : s.cellRuns (y * 1024 + x) = true)
include hc hl hr

theorem execSeam_of_due (h0 : (s.cellXY x y).seam = some 0) :
    execSeam x y s = .next (s.setCell (y * 1024 + x) (s.cellXY x y).swapPlanes) := by
  have hdue : (s.live && s.cellRuns (y * 1024 + x) && decide ((s.cellXY x y).seam = some 0)) = true := by simp [hl, hr, h0]
  exact (if_pos hc).trans (if_pos hdue)

theorem execWaypointArrival_of_due (hd : s.arr.wpDone.contains (y * 1024 + x) = false) :
    execWaypointArrival x y s = .next (s.wpArrive x y) := by
  have hdue : (s.live && s.cellRuns (y * 1024 + x) && !s.arr.wpDone.contains (y * 1024 + x)) = true := by rw [hl, hr, hd]; rfl
  exact (if_pos hc).trans (if_pos hdue)

/-- The seam exchanges planes and epochs of its cell and touches nothing else (06 R193). -/
theorem execSeam_swaps (h0 : (s.cellXY x y).seam = some 0) :
    GoesTo (execSeam x y s) fun t =>
      (t.cellXY x y).sel = !(s.cellXY x y).sel ∧ (t.cellXY x y).epAct = (s.cellXY x y).epSh ∧
      (t.cellXY x y).epSh = (s.cellXY x y).epAct ∧ (t.cellXY x y).seam = none ∧
      t = { s with arr := { s.arr with cells := t.arr.cells } } := by
  have hcell : (s.setCell (y * 1024 + x) (s.cellXY x y).swapPlanes).cellXY x y = (s.cellXY x y).swapPlanes := s.cellAt_setCell _ _
  refine ⟨_, execSeam_of_due hc hl hr h0, ?_⟩
  dsimp only
  rw [hcell]
  exact ⟨rfl, rfl, rfl, rfl, rfl⟩

end

/-! ### What a waypoint's arrival does (06 R194, R196) -/

section
variable (s : State) (x y : Nat)

/-- The ports of cell (x, y) whose queue a waypoint heads. -/
def State.wpHeads : List Nat := (List.range 8).filter fun p => (((s.cellXY x y).queue p).head?.map Token.isWp).getD false

/-- The cell with its seam count started, and the copies of the waypoint sent on. -/
def State.startSeam : State :=
  (s.forwardWp x y (s.cellXY x y)
    (((s.cellXY x y).queue (s.cellXY x y).win).headD { tag := 3, epoch := (s.cellXY x y).epSh, data := 0 })).setCell (y * 1024 + x)
    { s.cellXY x y with seam := some (s.cellXY x y).dly }

/-- A waypoint that qualifies starts the seam; whichever waypoints head a queue are noted for the tick's end, the others among them counted. -/
theorem State.wpArrive_eq : ∃ n : Nat,
    let u := (if s.wpQualifies (s.cellXY x y) then s.startSeam x y else s).count (.fldEpd (s.cellField x y)) n
    s.wpArrive x y = { u with arr := { u.arr with
      wpDone := (y * 1024 + x) :: u.arr.wpDone, pops := u.arr.pops ++ (s.wpHeads x y).map fun p => (y * 1024 + x, p) } } :=
  ⟨_, rfl⟩

theorem State.wpArrive_pops : (s.wpArrive x y).arr.pops = s.arr.pops ++ (s.wpHeads x y).map fun p => (y * 1024 + x, p) := by
  obtain ⟨n, h⟩ := s.wpArrive_eq x y
  rw [h]
  split <;> rfl

theorem State.mem_wpHeads {p : Nat} : p ∈ s.wpHeads x y ↔ p < 8 ∧ (((s.cellXY x y).queue p).head?.map Token.isWp).getD false = true := by
  rw [State.wpHeads, List.mem_filter, List.mem_range]

end

/-- A waypoint that qualifies at one of the cell's eight ports starts the seam count, leaves on WOUT and is to leave its queue. -/
theorem execWaypointArrival_starts {s : State} {x y : Nat} (hc : s.hasCell x y = true) (hl : s.live = true)
    (hr : s.cellRuns (y * 1024 + x) = true) (hd : s.arr.wpDone.contains (y * 1024 + x) = false) (hq : s.wpQualifies (s.cellXY x y) = true)
    (hw : (s.cellXY x y).win < 8) :
    GoesTo (execWaypointArrival x y s) fun t =>
      (t.cellXY x y).seam = some (s.cellXY x y).dly ∧ (y * 1024 + x) ∈ t.arr.wpDone ∧
      (y * 1024 + x, (s.cellXY x y).win) ∈ t.arr.pops ∧
      t.arr.flight = (s.send x y ((woutPorts (s.cellXY x y).wout).map fun p =>
        (p, ((s.cellXY x y).queue (s.cellXY x y).win).headD { tag := 3, epoch := (s.cellXY x y).epSh, data := 0 }))).arr.flight := by
  have hhead : (s.cellXY x y).win ∈ s.wpHeads x y := by
    refine (s.mem_wpHeads x y).2 ⟨hw, ?_⟩
    rw [State.wpQualifies, Bool.and_eq_true] at hq
    obtain ⟨-, hq⟩ := hq
    split at hq
    · rename_i t r hcons
      rw [hcons]
      exact (Bool.and_eq_true_iff.1 hq).1
    · cases hq
  refine ⟨_, execWaypointArrival_of_due hc hl hr hd, ?_⟩
  obtain ⟨n, h⟩ := s.wpArrive_eq x y
  rw [if_pos hq] at h
  refine ⟨?_, ?_, ?_, ?_⟩
  · rw [h]
    exact congrArg Cell.seam (State.cellAt_setCell _ (y * 1024 + x) _)
  · rw [h]
    exact List.mem_cons_self
  · rw [State.wpArrive_pops]
    exact List.mem_append_right _ (List.mem_map_of_mem hhead)
  · rw [h]
    rfl

/-- In a live run a waypoint heads queue 8 of cell (0, 0), at the tick and with the epoch for which the cell waits there. -/
def ninthPort : State :=
  { State.reset with
    clk := { ClkState.reset with gate := BitVec.allOnes _ }
    run := { RunState.reset with phase := .running }
    arr := { ArrState.reset with
      cells := [(0, { Cell.blank 0 with onTree := true, win := 8, queues := [(8, [{ tag := 3, epoch := 1, data := 0 }])] })] } }

theorem ninthPort_due : ninthPort.hasCell 0 0 = true ∧ ninthPort.live = true ∧ ninthPort.cellRuns 0 = true ∧
    ninthPort.arr.wpDone.contains 0 = false ∧ ninthPort.wpQualifies (ninthPort.cellXY 0 0) = true := by decide

end Sys2Proof.Machine

open Sys2Proof Sys2Proof.Machine

/-- Refutes O20: nothing in the statement says that WIN is one of a cell's eight ports. In the state ninthPort the waypoint qualifies at port 8, and
only heads of ports 0 to 7 are noted to leave (wpArrive_pops). With WIN below 8 both clauses hold (execSeam_swaps, execWaypointArrival_starts). -/
theorem not_waypointSwitchesTheCell : ¬ Obligations.WaypointSwitchesTheCell := by
  unfold Obligations.WaypointSwitchesTheCell
  rintro ⟨-, h⟩
  obtain ⟨hc, hl, hr, hd, hq⟩ := ninthPort_due
  obtain ⟨t, ht, -, -, hp, -⟩ := h ninthPort 0 0 hc hl hr hd hq
  have harr : exec (.waypointArrival 0 0) ninthPort = .next (ninthPort.wpArrive 0 0) := execWaypointArrival_of_due hc hl hr hd
  obtain rfl : ninthPort.wpArrive 0 0 = t := Host.Outcome.next.inj (harr.symm.trans ht)
  have hnone : (ninthPort.wpArrive 0 0).arr.pops = [] := (ninthPort.wpArrive_pops 0 0).trans (by decide)
  rw [hnone] at hp
  cases hp

end

section
/-! PROOFS. The commands that complete at once (15 R400, R407): EVICT, TIMESVC, LOGSTOP, CANCEL and FILL (06 R184 to R188, 14 R391, 16 R448). -/

namespace Sys2Proof.Machine

/-! ### Rows that name no crossing (15 R403, R405) -/

/-- The row of a journaled command that takes no list, bounds its operands from above alone, and names no crossing. -/
structure CmdSpec.Prompt (c : CmdSpec) : Prop where
  plain : CmdSpec.Plain { c with cross := fun _ => true }
  cross : ∀ o, c.cross o = false

theorem CmdSpec.prompt_row (op : Nat) (maxs : List Nat) (run : RunRule) (mir : Bool) :
    CmdSpec.Prompt { op := op, maxs := maxs, run := run, mir := mir } :=
  ⟨CmdSpec.plain_row op maxs run mir, fun _ => rfl⟩

theorem CmdSpec.runCode_any {c : CmdSpec} {s : State} (hc : c.run = .any) : c.runCode s = 0 := by simp [CmdSpec.runCode, hc]

/-- No lead is asked of a command that names no crossing (15 R408). -/
theorem CmdSpec.not_late_of_prompt {c : CmdSpec} (hc : c.Prompt) (s : State) (r : KReq) : c.late s r = false := by
  simp [CmdSpec.late, CmdSpec.atOnce, hc.cross]

theorem kCheck_prompt {c : CmdSpec} {h : CmdHdr} {op : Nat} {ops : List Dword} {s : State} (hc : c.Prompt) (hopen : s.isOpen = true)
    (hlen : h.len = 8 * ops.length) (hat : h.at_ = false) (hrsvd : h.rsvd = false) (hs : ops.length ≤ 504) (hr : inRange ops c.maxs)
    (hn : c.runCode s = 0) : kCheck c h.mbx (mkReq op h ops []) s = none :=
  kCheck_open hopen (CmdSpec.lenOk_of_plain (c := { c with cross := fun _ => true }) hc.plain hr.length_eq hlen (by omega))
    (CmdSpec.badOp_of_inRange (c := { c with cross := fun _ => true }) hc.plain hr) hrsvd
    (hat.trans (hc.cross _).symm) (by rw [CmdSpec.zeroOp, hc.plain.zero]; rfl) hn (CmdSpec.not_late_of_prompt hc _ _)

/-! ### The answer of a command that names no crossing (15 R400, R404, R413) -/

theorem State.logEvent_of_inactive {s : State} (h : s.log.active = false) (e : LogEvt) : s.logEvent e = s := by
  rw [State.logEvent, h]
  rfl

theorem KCmd.note_jnl (c : KCmd) (w : Waiting) (u : State) : (c.note w u).jnl = u.jnl := by
  unfold KCmd.note
  split
  · exact u.logEvent_jnl _
  · rfl

theorem KCmd.note_log_of_inactive (c : KCmd) (w : Waiting) {u : State} (h : u.log.active = false) : (c.note w u).log = u.log := by
  unfold KCmd.note
  split
  · rw [State.logEvent_of_inactive h]
  · rfl

section
variable {c : CmdSpec} {u : State} (hp : u.pairMode = false) (w : Waiting) (d : Dword) (l : List Byte)
include hp

theorem kFinish_alone_jnl_head : (kFinish c u w d l).jnl.head = u.jnl.head := by
  simp only [kFinish, mirrors_alone c hp, Bool.false_eq_true, if_false]
  split <;> split <;> simp [State.jEnd]

theorem kFinish_alone_log : (kFinish c u w d l).log = u.log := by
  simp only [kFinish, mirrors_alone c hp, Bool.false_eq_true, if_false]
  split <;> split <;> simp

end

/-- A command that names no crossing completes with the RESULT of its owning chapter where that accepts it, and stands in the journal. Where no
recording is active the answer writes nothing into one. -/
theorem kSubmit_prompt {c : KCmd} {h : CmdHdr} {op : Nat} {ops : List Dword} {s u : State} {d : Dword} (hc : c.spec.Prompt)
    (hact : c.act = noAct) (ha : asks h (8 * ops.length) false s = true) (hs : ops.length ≤ 504) (hr : inRange ops c.spec.maxs)
    (hn : c.spec.runCode s = 0) (ho : c.own (c.asked (mkReq op h ops []) s) (c.entry (mkReq op h ops []) s) = .now u d [])
    (hm : u.mbx = (c.asked (mkReq op h ops []) s).mbx) (hj : u.jnl = (c.asked (mkReq op h ops []) s).jnl)
    (hpair : u.pair = (c.asked (mkReq op h ops []) s).pair) :
    GoesTo (kSubmit c (mkReq op h ops []) s) fun t =>
      Completes s t h op d ∧ Journals s t ∧ u.AnswerOf t ∧ t.kly = { u.kly with lastMbx := h.mbx } ∧
      (u.log.active = false → t.log = u.log) := by
  obtain ⟨ht, hopen, hlen, hat, hrsvd⟩ := asks_iff.1 ha
  have hasked : c.asked (mkReq op h ops []) s = _ := if_pos hc.plain.jrn
  have hp : u.pairMode = false := by
    rw [State.pairMode, hpair, hasked]
    exact State.pairMode_of_isOpen hopen
  have hmir := mirrors_alone c.spec hp
  have hsub := kSubmit_now ht (kCheck_prompt (s := s.submitted _) hc hopen hlen hat hrsvd hs hr hn) ho (hc.cross _)
  rw [hact] at hsub
  refine ⟨_, hsub, ?_, ?_, ?_, ?_, fun hlog => ?_⟩
  · refine completes_answered ht hmir ?_ rfl rfl
    rw [State.mbxOf, State.mbxOf, hm, hasked]
    rfl
  · show (c.answered u _ d []).jnl.head = _
    rw [KCmd.answered, KCmd.note_jnl, kFinish_alone_jnl_head hp, hj, hasked]
    rfl
  · rw [State.AnswerOf, State.served, noAct, c.answered_eq _ d [] hmir]
  · show { (c.answered u _ d []).kly with lastMbx := h.mbx } = _
    rw [c.answered_eq _ d [] hmir]
  · show (c.answered u _ d []).log = _
    have hfin := kFinish_alone_log (c := c.spec) hp (c.entry (mkReq op h ops []) s) d []
    rw [KCmd.answered, KCmd.note_log_of_inactive _ _ (hfin ▸ hlog), hfin]

/-! ### What the owning chapters answer -/

section
variable {s : State} {w : Waiting}

/-- The library slot emptied; its generation stays (06 R184). -/
def State.emptySlot (s : State) (k : Nat) : State :=
  { s with kly := { s.kly with lib := tset s.kly.lib k { Slot.reset with gen := (s.libSlot k).gen } } }

theorem ownEvict_of_unused (hu : (s.libSlot (w.req.opd 0).toNat).used = true) (hi : s.slotInUse (w.req.opd 0).toNat = false) :
    ownEvict s w = .now (s.emptySlot (w.req.opd 0).toNat) 0 [] := by
  simp [ownEvict, State.emptySlot, hu, hi]

/-- The time service as the operands of a TIMESVC have it (16 R448). -/
def State.withTimeService (s : State) (en dom hub : Dword) : State :=
  { s with kly := { s.kly with timeEn := en == 1, timeDom := dom.extractLsb' 0 8, timeHub := hub.extractLsb' 0 8 } }

theorem ownTimesvc_eq : ownTimesvc s w = .now (s.withTimeService (w.req.opd 0) (w.req.opd 1) (w.req.opd 2)) 0 [] := rfl

/-- The recording ended, the queued losses entered first (14 R391). -/
def State.endRecording (s : State) : State :=
  { s.drainLosses with log := { s.drainLosses.log with active := false, atArm := false } }

theorem ownLogstop_of_recording (h : (s.log.active || s.log.atArm) = true) : ownLogstop s w = .now s.endRecording 0 [] := if_pos h

theorem ownCancel_of_filling (h : s.planes.sh = .filling) :
    ownCancel s w = .now { s with planes := { s.planes with sh := .empty, shSlot := 0, fillPos := 0 } } 0 [] := if_pos h

/-- The shadow planes begin to take the image of slot k, at the latest by crossing e (06 R186, R187). -/
def State.beginFill (s : State) (k : Nat) (e : CN) : State :=
  { s with planes := { s.planes with sh := .filling, shSlot := k, fillPos := 0, fillBy := e } }

theorem ownFill_of_fit (hsh : s.planes.sh = .empty ∨ s.planes.sh = .ready) (hu : (s.libSlot (w.req.opd 0).toNat).used = true)
    (hf : s.run.mclkArm ≤ 4060000)
    (hb : fillBad s.run.debug (w.req.opd 0).toNat (s.imgAt s.planes.actSlot) (s.imgAt (w.req.opd 0).toNat)
      (s.libSlot s.planes.actSlot).frame (s.libSlot (w.req.opd 0).toNat).frame = none) :
    ownFill s w = .now (s.beginFill (w.req.opd 0).toNat (cnAdd s.cn ((s.fillBytes + 1919) / 1920)))
      (cnDword (cnAdd s.cn ((s.fillBytes + 1919) / 1920))) [] := by
  have hidle : ¬(s.planes.sh = .filling ∨ s.planes.sh = .switching) := by obtain h | h := hsh <;> simp [h]
  have hb' : fillBad s.run.debug (w.req.opd 0).toNat (s.libSlot s.planes.actSlot).img (s.libSlot (w.req.opd 0).toNat).img
    (s.libSlot s.planes.actSlot).frame (s.libSlot (w.req.opd 0).toNat).frame = none := hb
  simp only [ownFill]
  rw [if_neg hidle, if_neg (by simp [hu]), if_neg (by omega), hb']
  rfl

end

/-! ### The library after an eviction -/

theorem State.libSlot_emptySlot (s : State) (k : Nat) : (s.emptySlot k).libSlot k = { Slot.reset with gen := (s.libSlot k).gen } :=
  tget_tset_same _ _ _ _

theorem State.libSlot_emptySlot_ne (s : State) {j k : Nat} (h : j ≠ k) : (s.emptySlot k).libSlot j = s.libSlot j := tget_tset_ne _ _ _ h

/-! ### Each command, accepted (15 R407) -/

section
variable {h : CmdHdr} {s : State}

/-- EVICT, accepted: the slot is empty (06 R184). -/
theorem execEvict_completes {slot : Dword} (ha : asks h 8 false s = true) (hslot : slot.toNat < 64)
    (hu : (s.libSlot slot.toNat).used = true) (hi : s.slotInUse slot.toNat = false) :
    GoesTo (execEvict h slot s) fun t => Completes s t h 0x0102 0 ∧ Journals s t ∧ t.kly.lib = (s.emptySlot slot.toNat).kly.lib := by
  have hown := ownEvict_of_unused (s := cmdEvict.asked (mkReq 0x0102 h [slot] []) s) (w := cmdEvict.entry (mkReq 0x0102 h [slot] []) s)
    (by rw [KCmd.entry_req, opd_mkReq0]; exact hu) (by rw [KCmd.entry_req, opd_mkReq0]; exact hi)
  rw [KCmd.entry_req, opd_mkReq0] at hown
  exact (kSubmit_prompt (c := cmdEvict) (CmdSpec.prompt_row _ _ _ _) rfl ha (by simp) (.cons (by omega) .nil) (CmdSpec.runCode_any rfl) hown
    rfl rfl rfl).mono fun t ⟨hd, hj, _, hk, _⟩ => ⟨hd, hj, by rw [hk]; rfl⟩

/-- TIMESVC, accepted: the time service stands as the operands have it (16 R448). -/
theorem execTimesvc_completes {en dom hub : Dword} (ha : asks h 24 false s = true) (hen : en.toNat ≤ 1) (hdom : dom.toNat ≤ 255)
    (hhub : hub.toNat ≤ 255) :
    GoesTo (execTimesvc h en dom hub s) fun t => Completes s t h 0x0901 0 ∧ Journals s t ∧
      t.kly = { (s.withTimeService en dom hub).kly with lastMbx := h.mbx } := by
  have hown := ownTimesvc_eq (s := cmdTimesvc.asked (mkReq 0x0901 h [en, dom, hub] []) s)
    (w := cmdTimesvc.entry (mkReq 0x0901 h [en, dom, hub] []) s)
  rw [KCmd.entry_req, opd_mkReq0, opd_mkReq1, opd_mkReq2] at hown
  exact (kSubmit_prompt (c := cmdTimesvc) (CmdSpec.prompt_row _ _ _ _) rfl ha (by simp) (.cons hen (.cons hdom (.cons hhub .nil)))
    (CmdSpec.runCode_any rfl) hown rfl rfl rfl).mono fun t ⟨hd, hj, _, hk, _⟩ => ⟨hd, hj, by rw [hk]; rfl⟩

variable (ha : asks h 0 false s = true) (hrun : s.armed = true)
include ha hrun

/-- LOGSTOP, accepted: no recording is active or waits for an arming (14 R391). -/
theorem execLogstop_completes (hl : (s.log.active || s.log.atArm) = true) :
    GoesTo (execLogstop h s) fun t => Completes s t h 0x0702 0 ∧ Journals s t ∧ t.log.active = false ∧ t.log.atArm = false := by
  have hown := ownLogstop_of_recording (s := cmdLogstop.asked (mkReq 0x0702 h [] []) s) (w := cmdLogstop.entry (mkReq 0x0702 h [] []) s) hl
  refine (kSubmit_prompt (c := cmdLogstop) (CmdSpec.prompt_row _ _ _ _) rfl ha (by simp) .nil
    (CmdSpec.runCode_yes rfl hrun (.inr (by decide))) hown (foldl_same State.mbx State.logEvent State.logEvent_mbx _ _)
    (foldl_same State.jnl State.logEvent State.logEvent_jnl _ _) (foldl_same State.pair State.logEvent State.logEvent_pair _ _)).mono
    fun t ⟨hd, hj, _, _, hlog⟩ => ⟨hd, hj, ?_⟩
  rw [hlog rfl]
  exact ⟨rfl, rfl⟩

/-- CANCEL, accepted: the fill is abandoned (06 R188). -/
theorem execCancel_completes (hf : s.planes.sh = .filling) :
    GoesTo (execCancel h s) fun t => Completes s t h 0x0302 0 ∧ Journals s t ∧
      t.planes = { s.planes with sh := .empty, shSlot := 0, fillPos := 0 } ∧ t.arr = s.arr := by
  have hown := ownCancel_of_filling (s := cmdCancel.asked (mkReq 0x0302 h [] []) s) (w := cmdCancel.entry (mkReq 0x0302 h [] []) s) hf
  exact (kSubmit_prompt (c := cmdCancel) (CmdSpec.prompt_row _ _ _ _) rfl ha (by simp) .nil
    (CmdSpec.runCode_yes rfl hrun (.inr (by decide))) hown rfl rfl rfl).mono fun t ⟨hd, hj, ht, _, _⟩ => ⟨hd, hj, ht.planes, ht.arr⟩

end

/-- FILL, accepted: the shadow planes begin to take the image, and RESULT names the crossing that bounds the fill (06 R186, R187). -/
theorem execFill_completes {h : CmdHdr} {slot : Dword} {s : State} (ha : asks h 8 false s = true) (hslot : slot.toNat < 64)
    (hrun : s.armed = true) (hpause : s.run.phase ≠ .paused) (hsh : s.planes.sh = .empty ∨ s.planes.sh = .ready)
    (hu : (s.libSlot slot.toNat).used = true) (hf : s.run.mclkArm ≤ 4060000)
    (hb : fillBad s.run.debug slot.toNat (s.imgAt s.planes.actSlot) (s.imgAt slot.toNat) (s.libSlot s.planes.actSlot).frame
      (s.libSlot slot.toNat).frame = none) :
    let e := cnAdd s.cn ((s.fillBytes + 1919) / 1920)
    GoesTo (execFill h slot s) fun t => Completes s t h 0x0301 (cnDword e) ∧ Journals s t ∧
      t.planes = (s.beginFill slot.toNat e).planes ∧ t.arr = s.arr := by
  have hopd : (cmdFill.entry (mkReq 0x0301 h [slot] []) s).req.opd 0 = slot := opd_mkReq0 _ _ _ _ _
  have hown := ownFill_of_fit (s := cmdFill.asked (mkReq 0x0301 h [slot] []) s) (w := cmdFill.entry (mkReq 0x0301 h [slot] []) s) hsh
    (by rw [hopd]; exact hu) hf (by rw [hopd]; exact hb)
  rw [hopd] at hown
  exact (kSubmit_prompt (c := cmdFill) (CmdSpec.prompt_row _ _ _ _) rfl ha (by simp) (.cons (by omega) .nil)
    (CmdSpec.runCode_yes rfl hrun (.inl hpause)) hown rfl rfl rfl).mono fun t ⟨hd, hj, ht, _, _⟩ => ⟨hd, hj, ht.planes, ht.arr⟩

theorem toNat_extractLsb'_byte {d : Dword} (h : d.toNat ≤ 255) : (d.extractLsb' 0 8).toNat = d.toNat := by
  rw [BitVec.extractLsb'_toNat, Nat.shiftRight_zero, Nat.mod_eq_of_lt (by omega)]

end Sys2Proof.Machine

open Sys2Proof Sys2Proof.Machine

/-- Settles O23: each command passes the general checks and its chapter accepts it, so that it completes in its step (kSubmit_prompt); what is left is
what the chapter sets. -/
theorem serviceCommandsComplete : Obligations.ServiceCommandsComplete := by
  refine ⟨fun h slot s ha hslot hu hi => ?_, fun h en dom hub s ha hen hdom hhub => ?_, fun h s ha hrun hl => ?_, fun h s ha hrun hf => ?_⟩
  · refine (execEvict_completes ha hslot hu hi).mono fun t ⟨hd, hj, hlib⟩ => ?_
    have hslots (k : Nat) : t.libSlot k = (s.emptySlot slot.toNat).libSlot k := by rw [State.libSlot, State.libSlot, hlib]
    refine ⟨hd, hj, ?_, ?_, fun k hk => ?_⟩
    · rw [hslots, State.libSlot_emptySlot]
      rfl
    · rw [hslots, State.libSlot_emptySlot]
    · rw [hslots, State.libSlot_emptySlot_ne _ hk]
  · refine (execTimesvc_completes ha hen hdom hhub).mono fun t ⟨hd, hj, hk⟩ => ?_
    rw [hk]
    exact ⟨hd, hj, rfl, toNat_extractLsb'_byte hdom, toNat_extractLsb'_byte hhub⟩
  · exact execLogstop_completes ha hrun hl
  · refine (execCancel_completes ha hrun hf).mono fun t ⟨hd, hj, hp, harr⟩ => ⟨hd, hj, ?_, harr⟩
    rw [hp]

/-- Settles O24: FILL passes the general checks (kSubmit_prompt) and those of its chapter, which begins the fill. -/
theorem fillBegins : Obligations.FillBegins := by
  intro h slot s ha hslot hrun hpause hsh hu hf hb
  refine (execFill_completes ha hslot hrun hpause hsh hu hf hb).mono fun t ⟨hd, hj, hp, harr⟩ => ⟨hd, hj, ?_⟩
  rw [hp]
  exact ⟨rfl, rfl, rfl, harr⟩

end

section
/-! PROOFS. The end of an admission (06 R183, R184); fills, waypoints into the roots, and the completion of a switch (06 R186 to R199). -/

namespace Sys2Proof.Machine

/-! ### The end of a long command (15 R400, R407) -/

theorem State.mbxOf_congr {s t : State} (h : t.mbx = s.mbx) (m : Nat) : t.mbxOf m = s.mbxOf m := by rw [State.mbxOf, State.mbxOf, h]

/-- A long command whose work has touched neither mailboxes nor the pair has ended when its success is reported and it is dropped. -/
theorem ends_endLong {s u : State} {w : Waiting} {d : Dword} (hm : u.mbx = s.mbx) (hp : u.pair = s.pair)
    (hk : u.kly.longs = (s.dropLong w).kly.longs) : Ends s (u.endLong w d []) w d := by
  refine ⟨by rw [State.endLong_kly, hk]; rfl, fun hw hu hh hc => ?_⟩
  have hbox : (u.jEnd w.jseq .done 0 d).mbxOf w.mbx = s.mbxOf w.mbx := State.mbxOf_congr hm _
  have hcack : (u.jEnd w.jseq .done 0 d).awaitsCack w.jseq = false := by rwa [State.awaitsCack, State.jEnd_pair, hp]
  have hend : u.endLong w d [] = (u.jEnd w.jseq .done 0 d).complete w.mbx w.req w.jseq w.cnAcc d [] := by
    simp only [State.endLong, hcack, Bool.false_eq_true, if_false]
  rw [hend, State.mbxOf_complete hw (by rwa [hbox]) (by rwa [hbox]), hbox]
  exact ⟨rfl, _, tfind_tset_same _ _ _, rfl, rfl, rfl, rfl, rfl⟩

/-! ### Admissions (06 R183, R184) -/

section
variable (s : State) (a : Admission) (rest : List Admission)

/-- The admission's slot filled with its image. -/
def State.fillSlot : State :=
  { s with kly := { s.kly with lib := tset s.kly.lib a.slot ((s.libSlot a.slot).admitted a) }
           alm := { s.alm with tabSlot := if a.img.almt.tables = [] then s.alm.tabSlot else a.slot } }

/-- The state in which the oldest admission has left Klowyn's lists. -/
def State.admissionOut : State := ({ s with kly := { s.kly with admits := rest } } : State).dropLong a.w

theorem State.libSlot_fillSlot : (s.fillSlot a).libSlot a.slot = (s.libSlot a.slot).admitted a := tget_tset_same _ _ _ _

theorem State.libSlot_fillSlot_ne {k : Nat} (h : k ≠ a.slot) : (s.fillSlot a).libSlot k = s.libSlot k := tget_tset_ne _ _ _ h

theorem State.admitDone_of_free (h : s.slotInUse a.slot = false) : s.admitDone a rest =
    ((s.admissionOut a rest).fillSlot a).endLong a.w
      (BitVec.ofNat 64 (((s.libSlot a.slot).gen + 1) ++ BitVec.ofNat 6 a.slot : BitVec 16).toNat) [] := by
  have h' : (s.admissionOut a rest).slotInUse a.slot = false := h
  have hidx : ((s.admissionOut a rest).fillSlot a).imgIndex a.slot = ((s.libSlot a.slot).gen + 1) ++ BitVec.ofNat 6 a.slot := by
    rw [State.imgIndex, State.libSlot_fillSlot]
    rfl
  rw [← hidx]
  exact if_neg (by rw [← State.admissionOut, h']; exact Bool.false_ne_true)

theorem State.admitDone_of_taken (h : s.slotInUse a.slot = true) :
    s.admitDone a rest = (s.admissionOut a rest).abortLong a.w { code := 0xB007, item := a.slot } := if_pos h

end

theorem execAdmissionComplete_of_cons {s : State} {a : Admission} {rest : List Admission} (h : s.kly.admits = a :: rest) :
    execAdmissionComplete s = .next (s.admitDone a rest) := by rw [execAdmissionComplete, h]

/-! ### The shadow planes take an image (06 R186, R188) -/

section
variable (c : Cell) (p : List MInstr) (w : Tbl Word)

theorem Cell.shadow_writeShadow : (c.writeShadow p w).shadow = (p, w) := by
  unfold Cell.writeShadow Cell.shadow
  cases c.sel <;> rfl

theorem Cell.active_writeShadow : (c.writeShadow p w).active = c.active := by
  unfold Cell.writeShadow Cell.active
  cases c.sel <;> rfl

theorem Cell.ws_writeShadow : (c.writeShadow p w).ws = c.ws := by
  unfold Cell.writeShadow
  split <;> rfl

theorem Cell.writeShadow_twice : (c.writeShadow p w).writeShadow p w = c.writeShadow p w := by
  unfold Cell.writeShadow
  cases c.sel <;> rfl

end

/-- A cell that no section of the image and no earlier load names has the plane that the image gives it. -/
theorem Cell.writeShadow_blank (ep : BitVec 2) : (Cell.blank ep).writeShadow [MInstr.idle] [] = Cell.blank ep := rfl

theorem tget_of_not_mem_tkeys {α : Type} (d : α) {t : Tbl α} {k : Nat} (h : k ∉ tkeys t) : tget d t k = d := by
  rw [tget]
  cases hf : tfind t k with
  | none => rfl
  | some v => exact absurd (mem_tkeys hf) h

section
variable (i : Image) (s : State)

/-- The shadow plane of one cell written from an image. -/
def State.shadeCell (u : State) (k : Nat) : State :=
  u.setCell k ((u.cellAt k).writeShadow (tget [MInstr.idle] i.prog k) (tget [] i.wgt k))

theorem State.foldl_shadeCell_cellAt (l : List Nat) (k : Nat) : ∀ u : State, (l.foldl (State.shadeCell i) u).cellAt k =
    if k ∈ l then (u.cellAt k).writeShadow (tget [MInstr.idle] i.prog k) (tget [] i.wgt k) else u.cellAt k := by
  induction l with
  | nil => intro u; rfl
  | cons j l ih =>
    intro u
    rw [List.foldl_cons, ih, State.shadeCell]
    by_cases hj : k = j
    · subst hj
      rw [State.cellAt_setCell, Cell.writeShadow_twice, ite_self, if_pos List.mem_cons_self]
    · rw [State.cellAt_setCell_ne _ _ hj]
      simp only [List.mem_cons, hj, false_or]

/-- The fill writes the shadow plane of every cell, listed or not. -/
theorem State.fillShadow_cellAt (k : Nat) :
    (s.fillShadow i).cellAt k = (s.cellAt k).writeShadow (tget [MInstr.idle] i.prog k) (tget [] i.wgt k) := by
  have h := State.foldl_shadeCell_cellAt i (tkeys s.arr.cells ++ tkeys i.prog ++ tkeys i.wgt).eraseDups k s
  refine Eq.trans h ?_
  split
  next => rfl
  next hk =>
    simp only [List.mem_eraseDups, List.mem_append, not_or] at hk
    obtain ⟨⟨hc, hp⟩, hw⟩ := hk
    rw [State.cellAt, tget_of_not_mem_tkeys _ hc, tget_of_not_mem_tkeys _ hp, tget_of_not_mem_tkeys _ hw, Cell.writeShadow_blank]

/-- The fill writes cells alone. -/
theorem State.fillShadow_frame : s.fillShadow i = { s with arr := { s.arr with cells := (s.fillShadow i).arr.cells } } :=
  List.foldlRecOn (motive := fun u : State => u = { s with arr := { s.arr with cells := u.arr.cells } }) _ (State.shadeCell i) rfl
    fun u hu k _ => by
      rw [State.shadeCell, State.setCell]
      generalize tset _ _ _ = t
      rw [hu]

end

theorem execFillComplete_of_due {s : State} (h : s.fillDue = true) : execFillComplete s =
    .next { s.fillShadow (s.imgAt s.planes.shSlot) with planes := { s.planes with sh := .ready } } := by
  have hp : (s.fillShadow (s.imgAt s.planes.shSlot)).planes = s.planes := by rw [State.fillShadow_frame]
  rw [execFillComplete, if_pos h]
  simp only [hp]

/-! ### Waypoints into the roots (06 R192) -/

/-- Copies of one token driven into edge ports are in flight, one for each; nothing else has changed. -/
theorem State.foldl_driveEdge {α : Type} (s : State) (port extra : α → Nat) (t : Token) (l : List α) :
    let u := l.foldl (fun u a => u.driveEdge (port a) (extra a) t) s
    u.arr.flight.map Flight.tok = s.arr.flight.map Flight.tok ++ List.replicate l.length t ∧
    u = { s with arr := { s.arr with flight := u.arr.flight } } := by
  induction l generalizing s with
  | nil => exact ⟨(List.append_nil _).symm, rfl⟩
  | cons a l ih =>
    obtain ⟨htok, hframe⟩ := ih (s.driveEdge (port a) (extra a) t)
    refine ⟨?_, hframe⟩
    rw [List.foldl_cons, htok, State.driveEdge, List.map_append, List.append_assoc]
    rfl

theorem State.injectWps_tokens (s : State) : s.injectWps.arr.flight.map Flight.tok =
    s.arr.flight.map Flight.tok ++ List.replicate s.img.roots.length (wpToken (s.planes.actEp + 1)) :=
  (s.foldl_driveEdge _ _ _ _).1

theorem State.injectWps_frame (s : State) : s.injectWps = { s with arr := { s.arr with flight := s.injectWps.arr.flight } } :=
  (s.foldl_driveEdge _ _ _ _).2

theorem execWaypointInjection_of_due {s : State} (h : s.wpDue = true) :
    execWaypointInjection s = .next { s.injectWps with planes := { s.planes with wpSent := true } } := by
  have hp : s.injectWps.planes = s.planes := by rw [State.injectWps_frame]
  rw [execWaypointInjection, if_pos h]
  simp only [hp]

/-! ### The completion of a switch (06 R199) -/

section
variable (s : State) (w : CN) (k : Nat)

/-- Every cell completes the switch, listed or not. -/
theorem State.endSwitch_cellAt : (s.endSwitch w).cellAt k = (s.cellAt k).complete (s.planes.actEp + 1) := by
  rw [State.cellAt, State.cellAt, tget, tget]
  have hmap := tfind_map (fun p : Nat × Cell => (p.1, p.2.complete (s.planes.actEp + 1))) (fun _ => rfl) s.arr.cells k
  rw [show (s.endSwitch w).arr.cells = s.arr.cells.map _ from rfl, hmap]
  cases tfind s.arr.cells k with
  | none => rfl
  | some c => rfl

variable (c : Cell) (e : BitVec 2)

theorem Cell.complete_epSh : (c.complete e).epSh = (c.complete e).epAct + 1 := by
  unfold Cell.complete
  split <;> rfl

theorem Cell.complete_epAct : (c.complete e).epAct = if c.onTree then c.epAct else e := by
  unfold Cell.complete
  split <;> rfl

end

theorem execSwitchComplete_of_due {s : State} {w : CN} {v : Waiting} (hl : s.live = true) (hs : s.planes.wpSent = true)
    (hw : s.planes.swW = some w) (hc : s.cn = cnAdd w s.hdr.switchSpan) (hv : dueOnly s 0x0303 w v = true) :
    execSwitchComplete s = .next (((s.dropWaiting v.jseq).endSwitch w).effectNotice v s.cn) := by
  have hdue : (s.live && s.planes.wpSent && decide (s.cn = cnAdd w s.hdr.switchSpan)) = true := by
    rw [hl, hs, Bool.and_self, Bool.true_and]
    exact decide_eq_true hc
  have hop : cmdSwitch.spec.op = 0x0303 := by rw [cmdSwitch]
  have hact : cmdSwitch.act = actSwitch := by rw [cmdSwitch]
  have hne : s.dueNow 0x0303 w ≠ [] := by
    rw [dueOnly_iff.1 hv]
    exact List.cons_ne_nil _ _
  obtain ⟨-, hat⟩ := dueOnly_at hv
  rw [execSwitchComplete, hw]
  dsimp only
  rw [if_pos hdue, if_neg hne, applyDue_of_dueOnly (by rw [hop]; exact hv), hact, actSwitch, hat]

end Sys2Proof.Machine

open Sys2Proof Sys2Proof.Machine

/-- Settles O41: an admission ends by filling its slot (fillSlot) where no run has taken it, and else by an abort, which touches no slot. -/
theorem admissionFillsItsSlot : Obligations.AdmissionFillsItsSlot := by
  intro s a rest hadm
  refine ⟨fun hfree => ⟨_, execAdmissionComplete_of_cons hadm, ?_⟩, fun htaken => ⟨_, execAdmissionComplete_of_cons hadm, ?_⟩⟩
  · rw [State.admitDone_of_free _ _ _ hfree]
    generalize (BitVec.ofNat 64 (((s.libSlot a.slot).gen + 1) ++ BitVec.ofNat 6 a.slot : BitVec 16).toNat) = d
    have hslot (k : Nat) : (((s.admissionOut a rest).fillSlot a).endLong a.w d []).libSlot k = ((s.admissionOut a rest).fillSlot a).libSlot k := by
      rw [State.libSlot, State.libSlot, State.endLong_kly]
    refine ⟨ends_endLong rfl rfl rfl, ?_⟩
    rw [hslot, State.libSlot_fillSlot]
    refine ⟨rfl, rfl, rfl, rfl, rfl, fun k hk => ?_, ?_⟩
    · rw [hslot, State.libSlot_fillSlot_ne _ _ hk]
      rfl
    · rw [State.endLong_kly]
      rfl
  · rw [State.admitDone_of_taken _ _ _ htaken]
    dsimp only
    rw [State.abortLong_kly]
    exact ⟨rfl, rfl, rfl⟩

/-- Settles O36: the fill writes each cell's shadow plane (fillShadow_cellAt), the waypoints are tokens driven into the roots (injectWps_tokens), and
every cell completes the switch (endSwitch_cellAt), behind which its notice follows. -/
theorem planesFillAndSwitch : Obligations.PlanesFillAndSwitch := by
  refine ⟨fun s hdue => ⟨_, execFillComplete_of_due hdue, rfl, fun k => ?_, ?_⟩, fun s w hrun hsent hsw hat => ?_,
    fun s w v hl hs hw hc hv => ⟨_, execSwitchComplete_of_due hl hs hw hc hv, ?_⟩⟩
  · show ((s.fillShadow _).cellAt k).shadow = _ ∧ ((s.fillShadow _).cellAt k).active = _ ∧ ((s.fillShadow _).cellAt k).ws = _
    rw [State.fillShadow_cellAt]
    exact ⟨Cell.shadow_writeShadow _ _ _, Cell.active_writeShadow _ _ _, Cell.ws_writeShadow _ _ _⟩
  · rw [State.fillShadow_frame]
  · have hdue : s.wpDue = true := by simp [State.wpDue, hrun, hsent, hsw, hat]
    refine ⟨_, execWaypointInjection_of_due hdue, rfl, s.injectWps_tokens, ?_⟩
    rw [State.injectWps_frame]
  · have hcell (k : Nat) : (((s.dropWaiting v.jseq).endSwitch w).effectNotice v s.cn).cellAt k = (s.cellAt k).complete (s.planes.actEp + 1) := by
      rw [State.cellAt, State.effectNotice_arr]
      exact (s.dropWaiting v.jseq).endSwitch_cellAt w k
    dsimp only
    rw [State.effectNotice_planes]
    refine ⟨rfl, rfl, rfl, rfl, rfl, fun k => ?_, notified_effectNotice rfl, leaves_effectNotice rfl⟩
    rw [hcell, Cell.complete_epSh, Cell.complete_epAct]
    refine ⟨rfl, fun ht => ?_, fun ht => ?_⟩ <;> rw [ht] <;> rfl

end

section
/-! PROOFS. The slots of the tide table: write-class, refresh and retraining slots (06 R186, 07 R218 to R224, R233, R234, 14 R394). -/

namespace Sys2Proof.Machine

/-! ### Activations (07 R222) -/

/-- The activation that a slot of this crossing causes. -/
def State.actAt (s : State) (sub rb pos : Nat) : Act := { sub := sub, bank := rb, cn := s.cn, pos := pos }

theorem State.mem_addAct (s : State) (a : Act) : a ∈ (s.addAct a).alm.acts := List.mem_append_right _ List.mem_cons_self

/-! ### Lines and bytes as written (07 R210, 16 R431) -/

theorem State.lineData_congr {s t : State} (hm : t.mem = s.mem) (hs : t.sram = s.sram) (r : LineRef) : t.lineData r = s.lineData r := by
  cases r with
  | sram q b l => rw [State.lineData, State.lineData, hs]
  | dram u k b l => rw [State.lineData, State.lineData, hm]

/-- A whole line that a burst has written reads as the burst's data. -/
theorem State.lineData_writeBurst {s : State} {b : WBurst} {r : LineRef} (h : s.burstRef b = some r) (hl : b.data.length = 32) :
    (s.writeBurst b).lineData r = b.data := by
  simp only [State.writeBurst, h]
  exact s.lineData_writeLine r b.data hl

/-- Values written at consecutive keys are read back. -/
theorem tgets_tputs {α : Type} [DecidableEq α] (d : α) (t : Tbl α) (k : Nat) (l : List α) : tgets d (tputs d t k l) k l.length = l := by
  refine List.ext_getElem (by simp [tgets]) fun i h1 h2 => ?_
  simp only [tgets, List.getElem_map, List.getElem_range]
  exact tget_tputs_inside d l _ _ i h2

/-! ### Write-class slots (07 R224) -/

section
variable {s : State} {sub pos : Nat}

theorem execWriteClassSlot_of_class (hsub : sub < 32) (hpos : pos = 8 ∨ pos = 9) (hr : s.slotsRun sub = true)
    (hc : tideClass (s.img.tideAt sub (s.cn.toNat % 32) pos) = 2) :
    execWriteClassSlot sub pos s = .next (if s.planes.sh = .filling then s.fillBurst sub pos else s.slotBurst sub pos) := by
  have hunit : ¬(sub ≥ 32 ∨ (pos ≠ 8 ∧ pos ≠ 9)) := by omega
  have hslot : ¬(!s.slotsRun sub || tideClass (s.img.tideAt sub s.phase pos) != 2) = true := by simp [State.phase, hr, hc]
  rw [execWriteClassSlot, if_neg hunit, if_neg hslot]
  split <;> rfl

theorem State.fillBurst_of_bank {rb : Nat} (h : ((List.range 32).find? fun k => s.bankFree sub k pos) = some rb) :
    s.fillBurst sub pos = ({ s with planes := { s.planes with fillPos := min (s.planes.fillPos + 32) s.fillBytes } } : State).addAct
      (s.actAt sub rb pos) := by
  rw [State.fillBurst, h]
  rfl

theorem State.fillBurst_of_none (h : ((List.range 32).find? fun k => s.bankFree sub k pos) = none) : s.fillBurst sub pos = s := by
  rw [State.fillBurst, h]

variable {b : WBurst} {rb : Nat}

theorem State.slotBurst_of_write (h : s.pickBurst sub pos (s.alm.writes.filter fun b => !s.writeWaits b.tid) = some (b, rb)) :
    s.slotBurst sub pos = ({ s.writeBurst b with alm := { s.alm with writes := s.alm.writes.erase b } } : State).addAct (s.actAt sub rb pos) := by
  rw [State.slotBurst, h]
  rfl

theorem State.slotBurst_of_catchUp (hw : s.pickBurst sub pos (s.alm.writes.filter fun b => !s.writeWaits b.tid) = none)
    (h : s.pickBurst sub pos s.alm.catchUp = some (b, rb)) :
    s.slotBurst sub pos = ({ s.writeBurst b with alm := { s.alm with catchUp := s.alm.catchUp.erase b } } : State).addAct (s.actAt sub rb pos) := by
  rw [State.slotBurst, hw, h]
  rfl

end

/-! ### Host bursts (16 R431, R432) -/

section
variable (s : State)

theorem State.readPiece_alm (p : Piece) (n : BitVec 288) : (s.readPiece p n).alm = s.alm := by
  unfold State.readPiece
  split
  · rfl
  · split
    · split <;> rfl
    · rfl

/-- A burst that is carried changes of the Almanac at most which waiting bursts are marked as counted. -/
theorem State.readBurst_alm (b : HostBurst) : ∃ q, (s.readBurst b).alm = { s.alm with hostQ := q } := by
  unfold State.readBurst
  simp only
  split
  · exact ⟨_, by simp [State.tellBursts, State.readPiece_alm]; rfl⟩
  · exact ⟨s.alm.hostQ, by simp [State.readPiece_alm]⟩

theorem State.writeHost_alm (b : HostBurst) (k : Bool) : ∃ q, (s.writeHost b k).alm = { s.alm with hostQ := q } := by
  have hput : (s.putPiece { addr := b.addr, len := b.len } b.data k).alm = s.alm := by rw [State.putPiece_frame]
  unfold State.writeHost
  simp only
  split
  · exact ⟨_, by simp [State.tellBursts, hput]; rfl⟩
  · exact ⟨s.alm.hostQ, by simp [hput]⟩

theorem State.readBurst_mem (b : HostBurst) : (s.readBurst b).mem = s.mem := (State.kept_memory (σ := Scope.none) (s.readBurst_kept b) rfl).1

/-- A burst of a write puts its data where LPDDR6 can take it and nothing keeps it out. -/
theorem State.writeHost_mem {b : HostBurst} (hm : s.memOn b.addr = true) : (s.writeHost b false).mem = tputs 0 s.mem b.addr b.data := by
  simp [State.writeHost, State.putPiece, hm]

end

/-! ### Refresh slots (07 R218, R223, 14 R394) -/

section
variable (s : State) (sub : Nat)

/-- The bank that the phase names refreshed (07 R223). -/
def State.refreshed : State := { s with alm := { s.alm with refresh := tset s.alm.refresh sub (s.phase % 2 * 16 + s.phase / 2) } }

/-- With it the data beats carry a read of a stream replay, or else what hostSlot finds (14 R394). -/
def State.refreshBeats : State := if s.replaySlot sub then s.refreshed sub else (s.refreshed sub).hostSlot sub

theorem execRefreshSlot_of_runs {s : State} {sub : Nat} (hsub : sub < 32) (hr : s.slotsRun sub = true) :
    execRefreshSlot sub s = .next (s.refreshBeats sub) := by
  have hunit : ¬sub ≥ 32 := by omega
  have hslot : ¬(!s.slotsRun sub) = true := by simp [hr]
  rw [execRefreshSlot, if_neg hunit, if_neg hslot]
  rfl

theorem State.replaySlot_of_no_replay (h : s.run.replay = false) : s.replaySlot sub = false := by simp [State.replaySlot, h]

theorem State.refreshBeats_of_replay (h : s.replaySlot sub = true) : s.refreshBeats sub = s.refreshed sub := if_pos h

theorem State.hostSlot_of_none (h : ∀ b ∈ s.alm.hostQ, b.bank sub = none) : s.hostSlot sub = s := by
  have hnone : (s.alm.hostQ.findSome? fun b => (b.bank sub).bind fun rb => if s.bankFree sub rb 10 then some (b, rb) else none) = none :=
    List.findSome?_eq_none_iff.2 fun b hb => by rw [h b hb]; rfl
  rw [State.hostSlot, hnone]

theorem State.hostSlot_of_one {b : HostBurst} {rb : Nat} (hq : s.alm.hostQ = [b]) (hb : b.bank sub = some rb)
    (hf : s.bankFree sub rb 10 = true) :
    s.hostSlot sub = (s.carryBurst b (s.wprot b.addr)).addAct (s.actAt sub rb 10) := by
  have hsome : (s.alm.hostQ.findSome? fun b => (b.bank sub).bind fun rb => if s.bankFree sub rb 10 then some (b, rb) else none) =
      some (b, rb) := by simp [hq, hb, hf]
  rw [State.hostSlot, hsome]
  rfl

variable (b : HostBurst) (k : Bool)

/-- The state in which host burst b waits no longer. -/
def State.popHost : State := { s with alm := { s.alm with hostQ := s.alm.hostQ.erase b } }

theorem State.carryBurst_of_more {b : HostBurst} (h : 2 ≤ b.left) : s.carryBurst b k =
    { s with alm := { s.alm with hostQ := s.alm.hostQ.map fun x => if x = b then { b with left := b.left - 1 } else x } } := if_pos h

theorem State.carryBurst_of_last {b : HostBurst} (h : b.left < 2) :
    s.carryBurst b k = if b.read then (s.popHost b).readBurst b else (s.popHost b).writeHost b k := if_neg (by omega)

/-- A burst that is carried changes of the Almanac the waiting bursts alone. -/
theorem State.carryBurst_alm : ∃ q, (s.carryBurst b k).alm = { s.alm with hostQ := q } := by
  by_cases h : 2 ≤ b.left
  · rw [s.carryBurst_of_more k h]
    exact ⟨_, rfl⟩
  · rw [s.carryBurst_of_last k (by omega)]
    split
    · exact (s.popHost b).readBurst_alm b
    · exact (s.popHost b).writeHost_alm b k

/-- The last burst of the queue leaves it empty. -/
theorem State.carryBurst_hostQ {b : HostBurst} (hq : s.alm.hostQ = [b]) (h : b.left < 2) : (s.carryBurst b k).alm.hostQ = [] := by
  have hpop : (s.popHost b).alm.hostQ = [] := by simp [State.popHost, hq]
  have hlen : (s.carryBurst b k).waits.1 = (s.popHost b).waits.1 := by
    rw [s.carryBurst_of_last k h]
    split
    · rw [State.readBurst_waits]
    · rw [State.writeHost_waits]
  refine List.length_eq_zero_iff.1 (hlen.trans ?_)
  rw [State.waits, hpop]
  rfl

theorem State.hostSlot_refresh : (s.hostSlot sub).alm.refresh = s.alm.refresh := by
  unfold State.hostSlot
  split
  · rename_i b rb _
    obtain ⟨q, h⟩ := s.carryBurst_alm b (s.wprot b.addr)
    show (s.carryBurst b (s.wprot b.addr)).alm.refresh = _
    rw [h]
  · rfl

/-- The slot refreshes its bank, whatever its data beats carry. -/
theorem State.refreshBeats_refresh : tget 0 (s.refreshBeats sub).alm.refresh sub = s.phase % 2 * 16 + s.phase / 2 := by
  have hset : tget 0 (s.refreshed sub).alm.refresh sub = s.phase % 2 * 16 + s.phase / 2 := tget_tset_same _ _ _ _
  unfold State.refreshBeats
  split
  · exact hset
  · rw [State.hostSlot_refresh, hset]

/-- With no host burst of the subchannel the slot does no more. -/
theorem State.refreshBeats_of_none (h : ∀ b ∈ s.alm.hostQ, b.bank sub = none) : s.refreshBeats sub = s.refreshed sub := by
  unfold State.refreshBeats
  split
  · rfl
  · exact (s.refreshed sub).hostSlot_of_none sub h

theorem State.refreshBeats_of_one {b : HostBurst} {rb : Nat} (hr : s.run.replay = false) (hq : s.alm.hostQ = [b]) (hb : b.bank sub = some rb)
    (hf : s.bankFree sub rb 10 = true) :
    s.refreshBeats sub = ((s.refreshed sub).carryBurst b (s.wprot b.addr)).addAct (s.actAt sub rb 10) := by
  rw [State.refreshBeats, s.replaySlot_of_no_replay sub hr]
  exact (s.refreshed sub).hostSlot_of_one sub hq hb hf

section
variable {b : HostBurst} (hq : s.alm.hostQ = [b])
include hq

/-- A burst that needs a further slot waits on, and writes nothing yet. -/
theorem State.carryBurst_one_of_more (h : 2 ≤ b.left) :
    (s.carryBurst b k).alm.hostQ = [{ b with left := b.left - 1 }] ∧ (s.carryBurst b k).mem = s.mem := by
  rw [s.carryBurst_of_more k h]
  exact ⟨by simp [hq], rfl⟩

/-- The last slot of a burst ends its wait; a read writes nothing, a write its data where nothing keeps it out. -/
theorem State.carryBurst_one_of_last (h : b.left < 2) :
    (s.carryBurst b k).alm.hostQ = [] ∧ (b.read = true → (s.carryBurst b k).mem = s.mem) ∧
    (b.read = false → s.memOn b.addr = true → k = false → (s.carryBurst b k).mem = tputs 0 s.mem b.addr b.data) := by
  refine ⟨s.carryBurst_hostQ k hq h, fun hread => ?_, fun hread hm hk => ?_⟩
  · rw [s.carryBurst_of_last k h, if_pos hread, State.readBurst_mem]
    rfl
  · rw [s.carryBurst_of_last k h, hread, if_neg Bool.false_ne_true, hk]
    exact (s.popHost b).writeHost_mem hm

end

end

/-! ### Retraining slots (07 R233, R234) -/

theorem State.shows_raise (s : State) (i : EvtId) {m : Word} {b : Nat} (h : m.getLsbD b = true) : (s.raise i m).shows i b = true := by
  have hne : m ≠ 0 := by
    rintro rfl
    simp at h
  rw [State.shows, State.evt, State.raise_evts _ _ hne, tget_tset_same, EvtReg.raise, BitVec.getLsbD_or, h, Bool.or_true]

/-- The four bytes of a margin register (07 R241). -/
theorem extract_bytes (a b c d : BitVec 8) :
    (a ++ b ++ c ++ d : Word).extractLsb' 24 8 = a ∧ (a ++ b ++ c ++ d : Word).extractLsb' 16 8 = b ∧
    (a ++ b ++ c ++ d : Word).extractLsb' 8 8 = c ∧ (a ++ b ++ c ++ d : Word).extractLsb' 0 8 = d := by
  refine ⟨?_, ?_, ?_, ?_⟩ <;> refine BitVec.eq_of_getLsbD_eq fun i hi => ?_ <;>
    simp only [BitVec.getLsbD_extractLsb', BitVec.getLsbD_append]
  · have h1 : ¬24 + i < 8 := by omega
    have h2 : ¬24 + i - 8 < 8 := by omega
    have h3 : ¬24 + i - 8 - 8 < 8 := by omega
    have h4 : 24 + i - 8 - 8 - 8 = i := by omega
    simp [hi, h1, h2, h3, h4]
  · have h1 : ¬16 + i < 8 := by omega
    have h2 : ¬16 + i - 8 < 8 := by omega
    have h3 : 16 + i - 8 - 8 = i := by omega
    simp [hi, h1, h2, h3]
  · simp [hi]
  · simp [hi]

section
variable (s : State) (q key : Nat) (regs : List Byte)

/-- A measurement of a rank noted: its margin register, and how many hard ones stand in a row (07 R234). -/
def State.noteMargin (m : Word) (streak : Nat) : State :=
  { s with alm := { s.alm with margin := tset s.alm.margin key m, streak := tset s.alm.streak key streak } }

/-- What a measurement reports: a warning, and the fault of a second hard one in a row (07 R234). -/
def State.reportMargin (warn : Bool) (streak : Nat) : State :=
  let s2 := s.raise (.alm q) ((if warn then 8 else 0) ||| (if streak ≥ 2 then 16 else 0))
  let s3 := if warn then s2.healthAdd 1 key regs else s2
  if streak ≥ 2 then (s3.healthAdd 1 key regs).fault 2 key else s3

theorem State.reportMargin_alm (warn : Bool) (streak : Nat) : (s.reportMargin q key regs warn streak).alm = s.alm := by
  unfold State.reportMargin
  split <;> split <;> simp

/-- A warning shows in the Quay's event register. -/
theorem State.reportMargin_shows (streak : Nat) : (s.reportMargin q key regs true streak).shows (.alm q) 3 = true := by
  have hbit : ((8 : Word) ||| (if streak ≥ 2 then 16 else 0)).getLsbD 3 = true := by split <;> rfl
  have hlast (u : State) (hu : u.shows (.alm q) 3 = true) :
      (if streak ≥ 2 then (u.healthAdd 1 key regs).fault 2 key else u).shows (.alm q) 3 = true := by
    split
    · exact State.shows_fault_of_shows (State.shows_healthAdd_of_shows hu 1 key regs) 2 key
    · exact hu
  exact hlast _ (State.shows_healthAdd_of_shows (s.shows_raise (.alm q) hbit) 1 key regs)

end

section
variable (s : State) (q i : Nat) (width height : BitVec 8)

theorem State.measureMargin_eq : ∃ streak,
    let lim := tget 0x241A281C s.alm.mlimit q
    let m := marginNext (tfind s.alm.margin (q * 16 + i)) width height
    s.measureMargin q i width height = (s.noteMargin (q * 16 + i) m streak).reportMargin q (q * 16 + i) (leBytes 4 m.toNat)
      (belowLimit width (lim.extractLsb' 24 8) || belowLimit height (lim.extractLsb' 8 8)) streak := ⟨_, rfl⟩

theorem belowLimit_of_lt {v lim : BitVec 8} (h : v.toNat < lim.toNat) : belowLimit v lim = true := by
  have hne : lim ≠ 0 := by
    rintro rfl
    exact Nat.not_lt_zero _ h
  rw [belowLimit, decide_eq_true hne, decide_eq_true h, Bool.and_self]

/-- A measurement writes of the Almanac the margin and the streak of its rank. -/
theorem State.measureMargin_alm : ∃ streak, (s.measureMargin q i width height).alm =
    (s.noteMargin (q * 16 + i) (marginNext (tfind s.alm.margin (q * 16 + i)) width height) streak).alm := by
  obtain ⟨streak, h⟩ := s.measureMargin_eq q i width height
  exact ⟨streak, by rw [h, State.reportMargin_alm]⟩

/-- A width below its limit warns (07 R234). -/
theorem State.measureMargin_shows (h : width.toNat < ((tget 0x241A281C s.alm.mlimit q).extractLsb' 24 8).toNat) :
    (s.measureMargin q i width height).shows (.alm q) 3 = true := by
  obtain ⟨streak, hm⟩ := s.measureMargin_eq q i width height
  rw [hm, belowLimit_of_lt h, Bool.true_or]
  exact State.reportMargin_shows _ _ _ _ _

theorem execRetrainingStep_of_class {s : State} {sub pos : Nat} (hsub : sub < 32) (hpos : pos = 8 ∨ pos = 9) (hr : s.slotsRun sub = true)
    (hc : tideClass (s.img.tideAt sub (s.cn.toNat % 32) pos) = 3) :
    let u := s.measureMargin (sub / 8) (sub % 8 * 2 + tget 0 s.alm.trainRk sub) width height
    execRetrainingStep sub pos width height s =
      .next { u with alm := { u.alm with trainRk := tset u.alm.trainRk sub (1 - tget 0 s.alm.trainRk sub) } } := by
  have hunit : ¬(sub ≥ 32 ∨ (pos ≠ 8 ∧ pos ≠ 9)) := by omega
  have hslot : ¬(!s.slotsRun sub || tideClass (s.img.tideAt sub s.phase pos) != 3) = true := by simp [State.phase, hr, hc]
  rw [execRetrainingStep, if_neg hunit, if_neg hslot]

/-- The two latest values lead a margin register. -/
theorem marginNext_latest (old : Option Word) :
    (marginNext old width height).extractLsb' 24 8 = width ∧ (marginNext old width height).extractLsb' 16 8 = height := by
  cases old with
  | none => exact ⟨(extract_bytes _ _ _ _).1, (extract_bytes _ _ _ _).2.1⟩
  | some o => exact ⟨(extract_bytes _ _ _ _).1, (extract_bytes _ _ _ _).2.1⟩

/-- The two smallest values since the arming follow them. -/
theorem marginNext_least (o : Word) :
    ((marginNext (some o) width height).extractLsb' 8 8).toNat = min (o.extractLsb' 8 8).toNat width.toNat ∧
    ((marginNext (some o) width height).extractLsb' 0 8).toNat = min (o.extractLsb' 0 8).toNat height.toNat := by
  have hleast (a b : BitVec 8) : (if b.toNat < a.toNat then b else a).toNat = min a.toNat b.toNat := by split <;> omega
  obtain ⟨-, -, hw, hh⟩ := extract_bytes width height (if width.toNat < (o.extractLsb' 8 8).toNat then width else o.extractLsb' 8 8)
    (if height.toNat < (o.extractLsb' 0 8).toNat then height else o.extractLsb' 0 8)
  exact ⟨(congrArg BitVec.toNat hw).trans (hleast _ _), (congrArg BitVec.toNat hh).trans (hleast _ _)⟩

end

/-! ### What a write-class slot carries (06 R186, 07 R224) -/

section
variable {s : State} {sub pos : Nat} (hsub : sub < 32) (hr : s.slotsRun sub = true)
include hsub hr

section
variable (hpos : pos = 8 ∨ pos = 9) (hc : tideClass (s.img.tideAt sub (s.cn.toNat % 32) pos) = 2)
include hpos hc

/-- With a fill in progress the slot carries a fill burst from the lowest usable bank (06 R186). -/
theorem execWriteClassSlot_fills (hf : s.planes.sh = .filling) {rb : Nat} (hb : ((List.range 32).find? fun k => s.bankFree sub k pos) = some rb) :
    GoesTo (execWriteClassSlot sub pos s) fun t =>
      t = { s with planes := { s.planes with fillPos := min (s.planes.fillPos + 32) s.fillBytes }, alm := { s.alm with acts := t.alm.acts } } ∧
      s.actAt sub rb pos ∈ t.alm.acts := by
  refine ⟨_, execWriteClassSlot_of_class hsub hpos hr hc, ?_⟩
  rw [if_pos hf, State.fillBurst_of_bank hb]
  exact ⟨rfl, State.mem_addAct _ _⟩

theorem execWriteClassSlot_idle (hf : s.planes.sh = .filling) (hb : ((List.range 32).find? fun k => s.bankFree sub k pos) = none) :
    execWriteClassSlot sub pos s = .next s := by
  rw [execWriteClassSlot_of_class hsub hpos hr hc, if_pos hf, State.fillBurst_of_none hb]

variable {b : WBurst} {rb : Nat} (hf : s.planes.sh ≠ .filling)
include hf

/-- Without a fill the slot writes the line of a table write (07 R224). -/
theorem execWriteClassSlot_writes (hb : s.pickBurst sub pos (s.alm.writes.filter fun b => !s.writeWaits b.tid) = some (b, rb)) :
    GoesTo (execWriteClassSlot sub pos s) fun t => t.alm.writes = s.alm.writes.erase b ∧ t.alm.catchUp = s.alm.catchUp ∧
      s.actAt sub rb pos ∈ t.alm.acts ∧ ∀ r, s.burstRef b = some r → b.data.length = 32 → t.lineData r = b.data := by
  refine ⟨_, execWriteClassSlot_of_class hsub hpos hr hc, ?_⟩
  rw [if_neg hf, State.slotBurst_of_write hb]
  refine ⟨rfl, rfl, State.mem_addAct _ _, fun r href hlen => ?_⟩
  exact (State.lineData_congr (s := s.writeBurst b) rfl rfl r).trans (State.lineData_writeBurst href hlen)

/-- Without either the slot carries a catch-up (07 R224). -/
theorem execWriteClassSlot_catchesUp (hw : s.pickBurst sub pos (s.alm.writes.filter fun b => !s.writeWaits b.tid) = none)
    (hb : s.pickBurst sub pos s.alm.catchUp = some (b, rb)) :
    GoesTo (execWriteClassSlot sub pos s) fun t => t.alm.writes = s.alm.writes ∧ t.alm.catchUp = s.alm.catchUp.erase b := by
  refine ⟨_, execWriteClassSlot_of_class hsub hpos hr hc, ?_⟩
  rw [if_neg hf, State.slotBurst_of_catchUp hw hb]
  exact ⟨rfl, rfl⟩

end

end

end Sys2Proof.Machine

open Sys2Proof Sys2Proof.Machine

/-- Settles O38: a write-class slot is one of the four cases above, a refresh slot refreshes (refreshBeats_refresh) and carries its one host burst
(refreshBeats_of_one), and a retraining slot notes its measurement (measureMargin_alm) and turns to the other rank. -/
theorem tideSlotsDoTheirWork : Obligations.TideSlotsDoTheirWork := by
  refine ⟨fun s sub pos hsub hpos hr hc => ⟨fun hf => ⟨fun rb hb => ?_, fun hb => ?_⟩, fun b rb hf hb => ?_, fun b rb hf hw hb => ?_⟩,
    fun s sub hsub hr => ⟨_, execRefreshSlot_of_runs hsub hr, s.refreshBeats_refresh sub, fun hn => ?_, fun hrep => ?_,
      fun b rb hrep hq hb hfree => ?_⟩,
    fun s sub pos width height hsub hpos hr hc =>
      ⟨_, execRetrainingStep_of_class width height hsub hpos hr hc, tget_tset_same _ _ _ _, ?_, ?_, ?_⟩⟩
  · exact execWriteClassSlot_fills hsub hr hpos hc hf hb
  · exact execWriteClassSlot_idle hsub hr hpos hc hf hb
  · exact execWriteClassSlot_writes hsub hr hpos hc hf hb
  · exact execWriteClassSlot_catchesUp hsub hr hpos hc hf hw hb
  · rw [s.refreshBeats_of_none sub hn]
    rfl
  · rw [s.refreshBeats_of_replay sub hrep]
    rfl
  · rw [s.refreshBeats_of_one sub hrep hq hb hfree]
    refine ⟨State.mem_addAct _ _, (s.refreshed sub).carryBurst_one_of_more _ hq, fun hlast => ?_⟩
    obtain ⟨hempty, hread, hwrite⟩ := (s.refreshed sub).carryBurst_one_of_last (s.wprot b.addr) hq hlast
    refine ⟨hempty, hread, fun hw hm hp => ?_⟩
    show tgets 0 ((s.refreshed sub).carryBurst b _).mem _ _ = _
    rw [hwrite hw hm hp, tgets_tputs]
  · obtain ⟨streak, halm⟩ := s.measureMargin_alm (sub / 8) (sub % 8 * 2 + tget 0 s.alm.trainRk sub) width height
    dsimp only
    rw [halm]
    obtain ⟨hw, hh⟩ := marginNext_latest width height
      (tfind s.alm.margin (sub / 8 * 16 + (sub % 8 * 2 + tget 0 s.alm.trainRk sub)))
    refine ⟨_, tfind_tset_same _ _ _, hw, hh, fun o ho => ?_⟩
    rw [ho]
    exact marginNext_least width height o
  · exact s.measureMargin_shows _ _ width height
  · exact (State.kept_memory (σ := Scope.none) (s.measureMargin_kept _ _ width height) rfl).1

end

section
/-! PROOFS. The canonical form of the two memory tiers (07 R204, R229, 16 R429; DESIGN CHOICE, log entry 2): the operations that write a tier keep it,
one lemma for each in the model's order; every other operation keeps the tiers themselves (the lemmas of `kept`). -/

namespace Sys2Proof.Machine

/-- The scope of an operation that keeps the two memory tiers and may write all else. -/
def Scope.notTiers : Scope := ⟨false, true, true, true, true⟩

@[simp] theorem Scope.notTiers_memory : Scope.notTiers.memory = false := (rfl)
@[simp] theorem Scope.notTiers_flash : Scope.notTiers.flash = true := (rfl)

/-- What is kept of the memory tiers is in canonical form. -/
def Kept.Canonical (k : Kept) : Prop := ∀ m ∈ k.memory, Memory.wf m.1 = true ∧ Memory.wf m.2 = true

theorem State.canonical_iff (s : State) : (s.kept .notTiers).Canonical ↔ s.memWf = true := by
  simp [Kept.Canonical, State.kept, keptOf, State.memWf]

/-- Empty tiers are in canonical form. -/
theorem canonical_of_empty {s : State} (hm : s.mem = []) (hs : s.sram = []) : (s.kept .notTiers).Canonical := by
  rw [State.canonical_iff, State.memWf, hm, hs]
  rfl

@[simp] theorem Kept.canonical_ite (c : Prop) [Decidable c] (a b : Kept) :
    (if c then a else b).Canonical ↔ (c → a.Canonical) ∧ (¬c → b.Canonical) := by
  split <;> simp_all

/-- A fold whose every step keeps the canonical form keeps it. -/
theorem foldl_canonical {α : Type} (f : State → α → State)
    (hf : ∀ (u : State) a, (u.kept .notTiers).Canonical → ((f u a).kept .notTiers).Canonical) (l : List α) {s : State}
    (h : (s.kept .notTiers).Canonical) : ((l.foldl f s).kept .notTiers).Canonical :=
  List.foldlRecOn (motive := fun u : State => (u.kept .notTiers).Canonical) l f h fun u hu a _ => hf u a hu

/-- A next state of the outcome has its tiers in canonical form. -/
def CanonicalNext (o : Out) : Prop := ∀ t, o = .next t → (t.kept .notTiers).Canonical

@[simp] theorem canonicalNext_next (t : State) : CanonicalNext (.next t) ↔ (t.kept .notTiers).Canonical :=
  ⟨fun h => h t rfl, fun h u hu => by cases hu; exact h⟩

@[simp] theorem canonicalNext_fault (f : Fault) : CanonicalNext (.fault f) := fun _ h => by cases h

@[simp] theorem canonicalNext_ite (c : Prop) [Decidable c] (a b : Out) :
    CanonicalNext (if c then a else b) ↔ (c → CanonicalNext a) ∧ (¬c → CanonicalNext b) := by
  split <;> simp_all

section
variable {s : State} (h : (s.kept .notTiers).Canonical)
include h

/-! ### Lines and host bursts (07 R210, 16 R431) -/

@[simp] theorem State.writeLine_canonical (r : LineRef) (d : List Byte) : ((s.writeLine r d).kept .notTiers).Canonical := by
  rw [State.canonical_iff] at h ⊢
  exact State.writeLine_memWf r d h

@[simp] theorem State.putPiece_canonical (p : Piece) (l : List Byte) (k : Bool) : ((s.putPiece p l k).kept .notTiers).Canonical := by
  rw [State.canonical_iff] at h ⊢
  exact State.putPiece_memWf p l k h

@[simp] theorem State.writePiece_canonical (p : Piece) (l : List Byte) : ((s.writePiece p l).kept .notTiers).Canonical :=
  State.putPiece_canonical h p l _

@[simp] theorem State.writeHost_canonical (b : HostBurst) (k : Bool) : ((s.writeHost b k).kept .notTiers).Canonical := by
  simp [State.writeHost, h]

@[simp] theorem State.carryBurst_canonical (b : HostBurst) (k : Bool) : ((s.carryBurst b k).kept .notTiers).Canonical := by
  simp [State.carryBurst, h]

@[simp] theorem State.drainHost_canonical : (s.drainHost.kept .notTiers).Canonical := by
  refine foldl_canonical _ (fun u b hu => ?_) _ h
  simp [hu]

/-! ### Table bursts and corrected lines (07 R225, R230, R238) -/

@[simp] theorem State.writeBurst_canonical (w : WBurst) : ((s.writeBurst w).kept .notTiers).Canonical := by
  unfold State.writeBurst
  split <;> simp [h]

@[simp] theorem State.writeBursts_canonical (l : List WBurst) : ((l.foldl State.writeBurst s).kept .notTiers).Canonical :=
  foldl_canonical _ (fun _ w hu => State.writeBurst_canonical hu w) l h

@[simp] theorem State.rewriteLine_canonical (w : WBurst) : ((s.rewriteLine w).kept .notTiers).Canonical := by
  unfold State.rewriteLine
  split
  · split <;> simp [h]
  · exact h

@[simp] theorem State.rewriteLines_canonical (l : List WBurst) : ((l.foldl State.rewriteLine s).kept .notTiers).Canonical :=
  foldl_canonical _ (fun _ w hu => State.rewriteLine_canonical hu w) l h

@[simp] theorem State.rewriteFixed_canonical (tid : Nat) (face : Bool) : ((s.rewriteFixed tid face).kept .notTiers).Canonical := by
  simp [State.rewriteFixed, h]

@[simp] theorem State.rewriteAll_canonical : (s.rewriteAll.kept .notTiers).Canonical := by
  simp [State.rewriteAll, h]

@[simp] theorem State.queueCatchUp_canonical (tid : Nat) : ((s.queueCatchUp tid).kept .notTiers).Canonical := by
  simp [State.queueCatchUp, h]

/-! ### The end of a run (00 R13, 07 R239) -/

@[simp] theorem State.settleSwaps_canonical : (s.settleSwaps.kept .notTiers).Canonical := by
  have hc : (((s.alm.swaps.filter Swap.done).foldl (fun t w => t.queueCatchUp w.tid) s).kept .notTiers).Canonical :=
    foldl_canonical _ (fun _ w hu => State.queueCatchUp_canonical hu w.tid) _ h
  unfold State.settleSwaps
  generalize (s.alm.swaps.filter Swap.done).foldl (fun t w => t.queueCatchUp w.tid) s = u at hc ⊢
  simp only [State.kept_mk, State.keptOf_fold]
  exact State.rewriteAll_canonical (State.drainHost_canonical (State.writeBursts_canonical (by simpa using hc) _))

@[simp] theorem State.stopRun_canonical (why : StopReason) : ((s.stopRun why).kept .notTiers).Canonical := by
  simp [State.stopRun, h]

theorem execRunStopEffect_canonical : CanonicalNext (execRunStopEffect s) := by
  simp [execRunStopEffect, h]

/-! ### Table loads, writes and catch-ups; the slots that write (07 R218, R224, R225, R235, R238) -/

theorem State.loadFace_canonical (d : TblDesc × List CopyRec) (face : Bool) (src : Nat) : ((s.loadFace d face src).kept .notTiers).Canonical := by
  refine foldl_canonical _ (fun u j hu => ?_) _ h
  exact foldl_canonical _ (fun v c hv => State.writeLine_canonical hv _ _) _ hu

@[simp] theorem State.loadTable_canonical (tid f off : Nat) (d : TblDesc × List CopyRec) :
    ((s.loadTable tid f off d).kept .notTiers).Canonical := by
  have hf := foldl_canonical (fun (u : State) (b : Bool × Nat) => u.loadFace d b.1 (off + b.2 * (d.1.rows + 1) * 32))
    (fun _ _ hu => State.loadFace_canonical hu _ _ _) (facesOf f).zipIdx h
  simp [State.loadTable, hf]

theorem execTableLoadComplete_canonical (tid : Nat) : CanonicalNext (execTableLoadComplete tid s) := by
  simp only [execTableLoadComplete, canonicalNext_ite, canonicalNext_fault, implies_true, true_and]
  intro _
  split
  · simp [h]
  · split <;> simp [h]

theorem execTableWriteComplete_canonical (tid : Nat) : CanonicalNext (execTableWriteComplete tid s) := by
  simp only [execTableWriteComplete, canonicalNext_ite, canonicalNext_fault, implies_true, true_and]
  intro _
  split <;> simp [h]

theorem execCatchUp_canonical (tid : Nat) : CanonicalNext (execCatchUp tid s) := by
  simp [execCatchUp, h]

@[simp] theorem State.slotBurst_canonical (sub pos : Nat) : ((s.slotBurst sub pos).kept .notTiers).Canonical := by
  unfold State.slotBurst
  split
  · simp [h]
  · split <;> simp [h]

theorem execWriteClassSlot_canonical (sub pos : Nat) : CanonicalNext (execWriteClassSlot sub pos s) := by
  simp [execWriteClassSlot, h]

@[simp] theorem State.hostSlot_canonical (sub : Nat) : ((s.hostSlot sub).kept .notTiers).Canonical := by
  unfold State.hostSlot
  split <;> simp [h]

theorem execRefreshSlot_canonical (sub : Nat) : CanonicalNext (execRefreshSlot sub s) := by
  simp [execRefreshSlot, h]

theorem execBar4Write_canonical (off : Nat) (bytes : List Byte) : CanonicalNext (execBar4Write off bytes s) := by
  have hp (a : Nat) := foldl_canonical (fun u p => u.writePiece p ((bytes.drop (p.addr - a)).take p.len))
    (fun _ _ hu => State.writePiece_canonical hu _ _) (pieces a bytes.length) h
  simp [execBar4Write, h, hp]

/-! ### The pair (12 R341 to R351) -/

@[simp] theorem State.rejoinStop_canonical : (s.rejoinStop.kept .notTiers).Canonical := by
  simp [State.rejoinStop, h]

@[simp] theorem State.peerStatus_canonical (y : CN) (b : MStatus) (lanes : BitVec 4) :
    ((s.peerStatus y b lanes).kept .notTiers).Canonical := by
  unfold State.peerStatus
  simp only
  split
  · simp [h]
  · simp only [State.kept_ite, Kept.canonical_ite]
    refine ⟨by simp [h], fun _ => ?_⟩
    split <;> simp [h]
  · simp only [State.kept_ite, Kept.canonical_ite]
    refine ⟨by simp [h], fun _ => ?_⟩
    split <;> simp [h]
  · simp [h]

@[simp] theorem State.peerMissing_canonical (y : CN) : ((s.peerMissing y).kept .notTiers).Canonical := by
  simp [State.peerMissing, h]

@[simp] theorem State.yieldRun_canonical (cause : BitVec 8) : ((s.yieldRun cause).kept .notTiers).Canonical := by
  simp [State.yieldRun, h]

@[simp] theorem State.peerLost_canonical (k : CN) : ((s.peerLost k).kept .notTiers).Canonical := by
  simp [State.peerLost, h]

@[simp] theorem State.takeover_canonical (p : PendK) : ((s.takeover p).kept .notTiers).Canonical := by
  simp [State.takeover, h]

theorem execTakeover_canonical : CanonicalNext (execTakeover s) := by
  unfold execTakeover
  split <;> simp [h]

theorem execRebase_canonical : CanonicalNext (execRebase s) := by
  unfold execRebase
  split <;> simp [h]

/-! ### Rejoining and mirror frames (12 R338, R347) -/

theorem State.gainLine_canonical (i : Image) (key : Nat) (d : List Byte) : ((State.gainLine i s key d).kept .notTiers).Canonical := by
  unfold State.gainLine
  split
  · exact h
  · exact foldl_canonical _ (fun _ _ hu => State.writeLine_canonical hu _ _) _ h

theorem State.gain_canonical (i : Image) (b : List Byte) : ((State.gain i s b).kept .notTiers).Canonical := by
  unfold State.gain
  simp only
  split
  case h_4 => exact State.gainLine_canonical h _ _ _
  all_goals simp [h]

@[simp] theorem State.gainAll_canonical : (s.gainAll.kept .notTiers).Canonical := by
  have hg (i : Image) (l : List (List Byte)) {u : State} (hu : (u.kept .notTiers).Canonical) :=
    foldl_canonical (State.gain i) (fun _ b hv => State.gain_canonical hv i b) l hu
  simp [State.gainAll, hg, h]

@[simp] theorem State.endStepTwo_canonical (src : Nat) : ((s.endStepTwo src).kept .notTiers).Canonical := by
  simp [State.endStepTwo, h]

@[simp] theorem State.checkStepTwo_canonical : (s.checkStepTwo.kept .notTiers).Canonical := by
  unfold State.checkStepTwo
  split <;> simp [h]

@[simp] theorem State.mirrorRelease_canonical (y : CN) : ((s.mirrorRelease y).kept .notTiers).Canonical := by
  have ha : ((({ s with pair := { s.pair with relAt := some y } } : State).releaseAll y).1.kept .notTiers).Canonical := by simp [h]
  unfold State.mirrorRelease
  generalize ({ s with pair := { s.pair with relAt := some y } } : State).releaseAll y = a at ha ⊢
  have h1 : (((packetOrder (a.2.flatMap MirRel.pkts)).foldl State.takePacket a.1).checkStepTwo.kept .notTiers).Canonical :=
    State.checkStepTwo_canonical (by simp [ha])
  simp only
  split <;> simp [h1]

theorem execMirrorFrameRelease_canonical : CanonicalNext (execMirrorFrameRelease s) := by
  simp [execMirrorFrameRelease, h]

/-! ### Rails, clocks and heat (17 R469 to R476, 19 R521, R522) -/

omit h in
@[simp] theorem State.railsOff_canonical : (s.railsOff.kept .notTiers).Canonical := by
  have hl (u : State) : (u.loseQuay.kept .notTiers).Canonical := canonical_of_empty rfl rfl
  simp [State.railsOff, hl]

@[simp] theorem State.toSleep_canonical (st : Nat) : ((s.toSleep st).kept .notTiers).Canonical := by
  unfold State.toSleep
  split <;> simp [h]

theorem execSleepReached_canonical : CanonicalNext (execSleepReached s) := by
  unfold execSleepReached
  split <;> simp [h]

@[simp] theorem State.klowynDown_canonical : (s.klowynDown.kept .notTiers).Canonical := by
  simp [State.klowynDown, h]

@[simp] theorem State.clockStop_canonical : (s.clockStop.kept .notTiers).Canonical := by
  simp [State.clockStop, h]

@[simp] theorem State.clockSafe_canonical (src : ClkSrc) : ((s.clockSafe src).kept .notTiers).Canonical := by
  simp [State.clockSafe, h]

theorem execMclkMonitorFail_canonical : CanonicalNext (execMclkMonitorFail s) := by simp [execMclkMonitorFail, h]

theorem execLrefclkMonitorFail_canonical : CanonicalNext (execLrefclkMonitorFail s) := by simp [execLrefclkMonitorFail, h]

theorem execCrystalMonitorFail_canonical : CanonicalNext (execCrystalMonitorFail s) := by simp [execCrystalMonitorFail, h]

omit h in
@[simp] theorem State.thermalOff_canonical : (s.thermalOff.kept .notTiers).Canonical := by simp [State.thermalOff]

theorem execThermalCheck_canonical (temps : List Int) : CanonicalNext (execThermalCheck temps s) := by
  simp only [execThermalCheck, canonicalNext_ite, canonicalNext_fault, implies_true, true_and]
  intro _
  split <;> simp [h]

theorem execThermalRecovery_canonical : CanonicalNext (execThermalRecovery s) := by simp [execThermalRecovery, h]

/-! ### Resets and boots (17 R471, R472, 18 R488 to R492) -/

omit h in
theorem execResetAssert_canonical : CanonicalNext (execResetAssert s) :=
  (canonicalNext_next _).2 (canonical_of_empty rfl rfl)

omit h in
theorem execPwrGoodDeassert_canonical : CanonicalNext (execPwrGoodDeassert s) :=
  (canonicalNext_next _).2 (canonical_of_empty rfl rfl)

theorem execRailTimeout_canonical (rail : Nat) : CanonicalNext (execRailTimeout rail s) := by
  simp [execRailTimeout, h]

theorem execWatchdogExpiry_canonical : CanonicalNext (execWatchdogExpiry s) := by simp [execWatchdogExpiry, h]

@[simp] theorem State.rebootFrom_canonical : (s.rebootFrom.kept .notTiers).Canonical := by simp [State.rebootFrom, h]

theorem execKlowynReboot_canonical (err : Option Nat) : CanonicalNext (execKlowynReboot err s) := by
  simp [execKlowynReboot, State.reboot, h]

/-! ### Commands -/

/-- A command that may write a memory tier keeps its canonical form. -/
theorem exec_canonical_of_mayWriteMemory {c : Instr} (hw : mayWriteMemory c = true) : CanonicalNext (exec c s) := by
  cases c with
  | bar4Write off bytes => exact execBar4Write_canonical h _ _
  | tableLoadComplete tid => exact execTableLoadComplete_canonical h _
  | tableWriteComplete tid => exact execTableWriteComplete_canonical h _
  | catchUp tid => exact execCatchUp_canonical h _
  | writeClassSlot sub pos => exact execWriteClassSlot_canonical h _ _
  | refreshSlot sub => exact execRefreshSlot_canonical h _
  | runStopEffect => exact execRunStopEffect_canonical h
  | takeover => exact execTakeover_canonical h
  | rebase => exact execRebase_canonical h
  | mirrorFrameRelease => exact execMirrorFrameRelease_canonical h
  | sleepReached => exact execSleepReached_canonical h
  | thermalCheck temps => exact execThermalCheck_canonical h _
  | mclkMonitorFail => exact execMclkMonitorFail_canonical h
  | lrefclkMonitorFail => exact execLrefclkMonitorFail_canonical h
  | crystalMonitorFail => exact execCrystalMonitorFail_canonical h
  | watchdogExpiry => exact execWatchdogExpiry_canonical h
  | klowynReboot flashErr => exact execKlowynReboot_canonical h _
  | thermalRecovery => exact execThermalRecovery_canonical h
  | railTimeout rail => exact execRailTimeout_canonical h _
  | resetAssert => exact execResetAssert_canonical
  | pwrGoodDeassert => exact execPwrGoodDeassert_canonical
  | _ => exact absurd hw Bool.false_ne_true

/-- Every command keeps the canonical form: those that write no tier keep the tiers themselves (exec_kept). -/
theorem exec_canonical (c : Instr) : CanonicalNext (exec c s) := by
  cases hw : mayWriteMemory c with
  | true => exact exec_canonical_of_mayWriteMemory h hw
  | false =>
    intro t ht
    obtain ⟨hmem, hsram⟩ := State.kept_memory (exec_kept ht) hw
    rw [State.canonical_iff] at h ⊢
    rwa [State.memWf_congr hmem hsram]

end

/-! ### Idle cycles (DESIGN CHOICE, log entry 4) -/

section
variable {σ : Scope} (s : State)

@[simp] theorem State.txBlock_kept (l : Nat) : (s.txBlock l).kept σ = s.kept σ := by simp [State.txBlock]
@[simp] theorem State.lineCycle_kept (l : Nat) : (s.lineCycle l).kept σ = s.kept σ := by simp [State.lineCycle]
@[simp] theorem State.lineTick_kept : s.lineTick.kept σ = s.kept σ := by simp [State.lineTick]
@[simp] theorem State.countUnf_kept : s.countUnf.1.kept σ = s.kept σ := by simp [State.countUnf]
@[simp] theorem State.raiseSats_kept : s.raiseSats.kept σ = s.kept σ := by simp [State.raiseSats]
@[simp] theorem State.removeHeads_kept : s.removeHeads.kept σ = s.kept σ := by simp [State.removeHeads]
@[simp] theorem State.seamTick_kept : s.seamTick.kept σ = s.kept σ := by simp [State.seamTick]
@[simp] theorem State.overflow_kept (x y p : Nat) : (s.overflow x y p).kept σ = s.kept σ := by simp [State.overflow]
@[simp] theorem State.epochDrop_kept (x y : Nat) : (s.epochDrop x y).kept σ = s.kept σ := by simp [State.epochDrop]
@[simp] theorem State.raiseField_kept (ev : List (Nat × Word)) : (s.raiseField ev).kept σ = s.kept σ := by simp [State.raiseField]
@[simp] theorem State.freezeCapture_kept : s.freezeCapture.kept σ = s.kept σ := by
  unfold State.freezeCapture
  split <;> simp

@[simp] theorem State.nextTick_kept (v : List Violation) : (s.nextTick v).kept σ = s.kept σ := by simp [State.nextTick]

theorem arriveQueue_kept (acc : TickAcc) (cell p : Nat) (t : Token) : (arriveQueue acc cell p t).s.kept σ = acc.s.kept σ := by
  simp only [arriveQueue, apply_ite TickAcc.s]
  simp

theorem arrive_kept (acc : TickAcc) (f : Flight) : (arrive acc f).s.kept σ = acc.s.kept σ := by
  unfold arrive
  split
  · exact arriveQueue_kept _ _ _ _
  · simp only [arriveEdge, apply_ite TickAcc.s]
    simp

@[simp] theorem State.deliver_kept : s.deliver.s.kept σ = s.kept σ := by
  unfold State.deliver
  rw [foldl_kept_of TickAcc.s _ arrive_kept]
  simp

@[simp] theorem State.missKey_kept (e : Nat) (c : CN) : (s.missKey e c).1.kept σ = s.kept σ := by
  simp only [State.missKey, apply_ite Prod.fst]
  simp

@[simp] theorem State.takeKey_kept (cn : CN) (tick i k : Nat) (r : ReqRec) : (s.takeKey cn tick i k r).1.kept σ = s.kept σ := by
  unfold State.takeKey
  split
  · simp only [apply_ite Prod.fst]
    simp
  · rfl

@[simp] theorem State.takeKeys_kept (cn : CN) (tick : Nat) : (s.takeKeys cn tick).kept σ = s.kept σ := by
  unfold State.takeKeys
  rw [foldl_kept _ fun u q => u.raiseBit_kept (.alm q) 2]
  refine foldl_kept_of Prod.fst _ (fun u r => ?_) _ (s, [])
  exact foldl_kept_of Prod.fst (fun v k => ((v.1.takeKey cn tick r.2 k r.1).1, v.2 ++ (v.1.takeKey cn tick r.2 k r.1).2))
    (fun v k => v.1.takeKey_kept cn tick r.2 k r.1) _ u

@[simp] theorem State.almTick_kept : s.almTick.kept σ = s.kept σ := by simp [State.almTick]

end

section
variable {s : State} (h : (s.kept .notTiers).Canonical)
include h

theorem State.hazardFreeze_canonical (v : Violation) (k n : Nat) : ((s.hazardFreeze v k n).kept .notTiers).Canonical := by
  simp [State.hazardFreeze, h]

theorem State.liveTick_canonical : (s.liveTick.kept .notTiers).Canonical := by
  unfold State.liveTick
  simp only
  split
  · exact State.hazardFreeze_canonical (by simp [h]) _ _ _
  · simp [h]

@[simp] theorem State.arrayTick_canonical : (s.arrayTick.kept .notTiers).Canonical := by
  simp [State.arrayTick, h, State.liveTick_canonical]

/-- The free-running clocks write no memory; the array's tick may end a run by a hazard, whose stop writes what waits. -/
theorem idle_canonical : ((idle s).kept .notTiers).Canonical := by
  simp [idle, State.chrTick, State.keptOf_time (σ := .notTiers) rfl, h]

end

end Sys2Proof.Machine

open Sys2Proof Sys2Proof.Machine

/-- Settles O4: both tiers are empty at reset. -/
theorem resetMemoryIsCanonical : Obligations.ResetMemoryIsCanonical :=
  State.reset.canonical_iff.1 (canonical_of_empty rfl rfl)

/-- Settles O5: a step is a command (exec_canonical) or a cycle with nothing commanded (idle_canonical). -/
theorem stepKeepsMemoryCanonical : Obligations.StepKeepsMemoryCanonical := by
  intro s t hs ht
  rw [← State.canonical_iff] at hs ⊢
  unfold step at ht
  split at ht
  case h_1 =>
    cases ht
    exact idle_canonical hs
  case h_2 c r _ => exact exec_canonical (s := { s with pending := r }) hs c t ht

end

section
/-! PROOFS. Table loads, writes, swaps and catch-ups (07 R225, R230, R235 to R239). -/

namespace Sys2Proof.Machine

/-! ### Operations on the two memory tiers -/

/-- A fold whose steps write nothing but the two tiers writes nothing else. -/
theorem foldl_tiers {α : Type} (f : State → α → State) (hf : ∀ u a, f u a = { u with mem := (f u a).mem, sram := (f u a).sram })
    (l : List α) (s : State) : l.foldl f s = { s with mem := (l.foldl f s).mem, sram := (l.foldl f s).sram } := by
  induction l generalizing s with
  | nil => rfl
  | cons a l ih =>
    rw [List.foldl_cons, ih, hf]

theorem State.writeBurst_frame (s : State) (b : WBurst) :
    s.writeBurst b = { s with mem := (s.writeBurst b).mem, sram := (s.writeBurst b).sram } := by
  unfold State.writeBurst
  split
  · exact s.writeLine_frame _ _
  · rfl

theorem State.writeBursts_frame (s : State) (l : List WBurst) :
    l.foldl State.writeBurst s = { s with mem := (l.foldl State.writeBurst s).mem, sram := (l.foldl State.writeBurst s).sram } :=
  foldl_tiers _ State.writeBurst_frame l s

theorem State.rewriteLine_frame (s : State) (b : WBurst) :
    s.rewriteLine b = { s with mem := (s.rewriteLine b).mem, sram := (s.rewriteLine b).sram } := by
  unfold State.rewriteLine
  split
  · split
    · exact s.writeLine_frame _ _
    · rfl
  · rfl

/-- The write of one SRAM line leaves the other lines of its bank alone (07 R210). -/
theorem State.lineData_writeLine_sram_ne (s : State) (q b : Nat) {l m : Nat} (d : List Byte) (h : l ≠ m) :
    (s.writeLine (.sram q b l) d).lineData (.sram q b m) = s.lineData (.sram q b m) := by
  refine List.map_congr_left fun i hi => tget_tputs_outside 0 _ _ _ _ ?_
  have hi32 := List.mem_range.1 hi
  have hd : (d.take 32).length ≤ 32 := List.length_take_le 32 d
  simp only [sramAddr]
  omega

/-! ### What a table reads as -/

theorem State.tab_congr {s t : State} (h : t.alm.tabs = s.alm.tabs) (k : Nat) : t.tab k = s.tab k := by rw [State.tab, State.tab, h]

theorem State.tab_setTab_ne (s : State) {i k : Nat} (x : AlmTab) (h : i ≠ k) : (s.setTab k x).tab i = s.tab i := tget_tset_ne _ _ _ h

theorem State.burstRef_congr {s t : State} (h : t.alm.tabs = s.alm.tabs) (b : WBurst) : t.burstRef b = s.burstRef b := by
  rw [State.burstRef, State.burstRef, State.tab_congr h]

theorem State.endLong_tab (s : State) (w : Waiting) (r : Dword) (l : List Byte) (k : Nat) : (s.endLong w r l).tab k = s.tab k :=
  State.tab_congr (congrArg AlmState.tabs (s.endLong_alm w r l)) k

theorem State.dropLong_tab (s : State) (w : Waiting) (k : Nat) : (s.dropLong w).tab k = s.tab k := rfl

/-! ### Loads (07 R235) -/

section
variable (s : State) (d : TblDesc × List CopyRec)

theorem State.loadFace_frame (face : Bool) (src : Nat) :
    s.loadFace d face src = { s with mem := (s.loadFace d face src).mem, sram := (s.loadFace d face src).sram } :=
  foldl_tiers _ (fun _ _ => foldl_tiers _ (fun v _ => v.writeLine_frame _ _) _ _) _ s

/-- Row j of the one copy of an SRAM table's face A holds the staged line j; LPDDR6 stays (07 R210, R235). -/
theorem State.loadFace_sram {c : CopyRec} (hd : d.2 = [c]) (hs : d.1.lpddr = false) (src : Nat) : (s.loadFace d false src).mem = s.mem ∧
    ∀ j, j ≤ d.1.rows → (s.loadFace d false src).lineData (c.lineRef false j) = tgets 0 s.mem (src + 32 * j) 32 := by
  have hline (j : Nat) : d.1.faceLine false j = j := Nat.zero_add j
  have hfold : s.loadFace d false src =
      (List.range (d.1.rows + 1)).foldl (fun u j => u.writeLine (c.lineRef false j) (tgets 0 s.mem (src + 32 * j) 32)) s := by
    simp [State.loadFace, hd, hs, hline]
  rw [hfold]
  refine ⟨foldl_same State.mem (fun u j => u.writeLine (c.lineRef false j) (tgets 0 s.mem (src + 32 * j) 32)) (fun _ _ => rfl) _ _, fun j hj => ?_⟩
  refine foldl_nodup (P := fun _ => True) (Q := fun u : State => u.lineData (c.lineRef false j) = tgets 0 s.mem (src + 32 * j) 32)
    List.nodup_range (List.mem_range.2 (Nat.lt_succ_of_le hj)) (fun _ _ _ _ => trivial) (fun u _ => ?_) (fun u x hx hu => ?_) trivial
  · exact u.lineData_writeLine _ _ (by simp [tgets])
  · exact (u.lineData_writeLine_sram_ne _ _ _ (by omega)).trans hu

variable (tid f off : Nat)

/-- The named faces written from the staged lines. -/
def State.loadFaces : State := (facesOf f).zipIdx.foldl (fun u b => u.loadFace d b.1 (off + b.2 * (d.1.rows + 1) * 32)) s

theorem State.loadFaces_frame :
    s.loadFaces d f off = { s with mem := (s.loadFaces d f off).mem, sram := (s.loadFaces d f off).sram } :=
  foldl_tiers _ (fun u _ => u.loadFace_frame d _ _) _ s

theorem State.loadTable_frame : s.loadTable tid f off d = { s with
    mem := (s.loadFaces d f off).mem, sram := (s.loadFaces d f off).sram, alm := (s.loadTable tid f off d).alm } := by
  have hl := s.loadFaces_frame d f off
  unfold State.loadFaces at hl ⊢
  rw [State.loadTable, hl]
  rfl

theorem State.loadTable_mem : (s.loadTable tid f off d).mem = (s.loadFaces d f off).mem := by rw [State.loadTable_frame]
theorem State.loadTable_sram : (s.loadTable tid f off d).sram = (s.loadFaces d f off).sram := by rw [State.loadTable_frame]

/-- A load of face A alone. -/
theorem State.loadFaces_one : s.loadFaces d 1 off = s.loadFace d false off := by
  have hfaces : facesOf 1 = [false] := rfl
  simp [State.loadFaces, hfaces]

/-- A load of face A of an SRAM table with one copy leaves the staged lines in that copy (07 R235). -/
theorem State.loadTable_lines {c : CopyRec} (hd : d.2 = [c]) (hs : d.1.lpddr = false) : (s.loadTable tid 1 off d).mem = s.mem ∧
    ∀ j, j ≤ d.1.rows → (s.loadTable tid 1 off d).lineData (c.lineRef false j) = tgets 0 s.mem (off + 32 * j) 32 := by
  obtain ⟨hmem, hlines⟩ := s.loadFace_sram d hd hs off
  have hm := s.loadTable_mem d tid 1 off
  have hr := s.loadTable_sram d tid 1 off
  rw [State.loadFaces_one] at hm hr
  exact ⟨hm.trans hmem, fun j hj => (State.lineData_congr hm hr _).trans (hlines j hj)⟩

/-- The loaded table has the descriptor under which it was loaded, and no update (07 R235). -/
theorem State.loadTable_tab : (s.loadTable tid f off d).tab tid = { s.tab tid with
    desc := some d, loaded := (if (s.tab tid).desc = some d then (s.tab tid).loaded else 0) ||| BitVec.ofNat 2 f, upd := [] } := by
  have hl := s.loadFaces_frame d f off
  have htab : ({ s.loadFaces d f off with alm := { (s.loadFaces d f off).alm with
      tabs := (s.loadFaces d f off).alm.tabs.map fun (p : Nat × AlmTab) => (p.1, if p.1 = tid then p.2 else p.2.unload d) } } : State).tab tid =
      s.tab tid := by
    rw [hl, State.tab, State.tab, tget, tget]
    simp only
    rw [tfind_map (fun p : Nat × AlmTab => (p.1, if p.1 = tid then p.2 else p.2.unload d)) (fun _ => rfl)]
    cases tfind s.alm.tabs tid with
    | none => rfl
    | some x => simp
  unfold State.loadFaces at htab
  rw [State.loadTable, State.tab_setTab, htab]

end

section
variable {s : State} {tid : Nat} {w : Waiting}

theorem execTableLoadComplete_of_ready {d : TblDesc × List CopyRec} (ht : tid < 4096) (hw : s.longFor 0x0401 tid = some w)
    (hd : s.loadDesc tid = some d) (hr : s.copiesRun d = true) : execTableLoadComplete tid s =
      .next (((s.loadTable tid (w.req.opd 1).toNat (w.staged (w.req.opd 2).toNat) d).dropLong w).endLong w 0 []) := by
  simp [execTableLoadComplete, Nat.not_le.2 ht, hw, hd, hr]

/-- A long command whose work has written nothing but the tiers and the Almanac's own state ends as its success is reported. -/
theorem ends_of_tables {u : State} (h : ∃ m r a, u = { s with mem := m, sram := r, alm := a }) :
    Ends s ((u.dropLong w).endLong w 0 []) w 0 := by
  obtain ⟨m, r, a, rfl⟩ := h
  exact ends_endLong rfl rfl rfl

/-! ### Writes (07 R225, R239) -/

/-- The bursts of a command have left the queue of writes. -/
def State.withoutWrites (s : State) (q : Nat) : State :=
  { s with alm := { s.alm with writes := s.alm.writes.filter fun b => b.jseq != q } }

/-- The bursts of a command written at once. -/
def State.finishWrites (s : State) (q : Nat) : State :=
  (s.alm.writes.filter fun b => b.jseq == q).foldl State.writeBurst (s.withoutWrites q)

theorem State.finishWrites_frame (s : State) (q : Nat) :
    s.finishWrites q = { s.withoutWrites q with mem := (s.finishWrites q).mem, sram := (s.finishWrites q).sram } :=
  State.writeBursts_frame _ _

theorem State.finishWrites_alm (s : State) (q : Nat) : (s.finishWrites q).alm = (s.withoutWrites q).alm := by rw [State.finishWrites_frame]

/-- A command's one burst is its line's data. -/
theorem State.finishWrites_line {q : Nat} {b : WBurst} {r : LineRef} (hb : (s.alm.writes.filter fun b => b.jseq == q) = [b])
    (hr : s.burstRef b = some r) (hlen : b.data.length = 32) : (s.finishWrites q).lineData r = b.data := by
  rw [State.finishWrites, hb]
  exact State.lineData_writeBurst (s := s.withoutWrites q) hr hlen

theorem execTableWriteComplete_of_gone (ht : tid < 4096) (hw : s.longFor 0x0402 tid = some w)
    (hg : s.live = false ∨ (s.writeWaits tid = false ∧ ((s.tab tid).lpddr = false ∨ (s.alm.writes.filter fun b => b.jseq == w.jseq) = []))) :
    execTableWriteComplete tid s = .next (((s.finishWrites w.jseq).dropLong w).endLong w 0 []) := by
  have hgo : (s.live && (s.writeWaits tid || ((s.tab tid).lpddr && (s.alm.writes.filter fun b => b.jseq == w.jseq) != []))) = false := by
    rcases hg with hl | ⟨hq, hs | hn⟩
    · rw [hl, Bool.false_and]
    · rw [hq, hs, Bool.false_and, Bool.or_false, Bool.and_false]
    · rw [hq, hn, bne_self_eq_false, Bool.and_false, Bool.or_false, Bool.and_false]
  rw [execTableWriteComplete, if_neg (Nat.not_le.2 ht), hw]
  simp only [hgo]
  rfl

/-! ### Swaps (07 R237) -/

/-- The state in which a swap's face change is done and SWAP is not yet raised. -/
def State.swapped (s : State) (w : Waiting) : State :=
  let tid := (w.req.opd 0).toNat
  let mark (x : Swap) : Swap := if x.tid = tid then { x with done := true } else x
  { s with alm := { s.alm with
      tabs := tset s.alm.tabs tid { s.tab tid with active := !(s.tab tid).active }, swaps := s.alm.swaps.map mark
      swapReg := (0 : BitVec 4) ++ BitVec.ofNat 12 tid ++ w.at_ } }

theorem actTswap_eq (s : State) (w : Waiting) : actTswap s w = (List.range 4).foldl (fun u q => u.raiseBit (.alm q) 5) (s.swapped w) := rfl

theorem actTswap_same {β : Type} (g : State → β) (hg : ∀ (u : State) q, g (u.raiseBit (.alm q) 5) = g u) (s : State) (w : Waiting) :
    g (actTswap s w) = g (s.swapped w) := by
  rw [actTswap_eq]
  exact foldl_same g _ hg _ _

theorem actTswap_alm (s : State) (w : Waiting) : (actTswap s w).alm = (s.swapped w).alm := actTswap_same State.alm (by simp) s w
theorem actTswap_mem (s : State) (w : Waiting) : (actTswap s w).mem = s.mem := actTswap_same State.mem (by simp) s w
theorem actTswap_sram (s : State) (w : Waiting) : (actTswap s w).sram = s.sram := actTswap_same State.sram (by simp) s w
theorem actTswap_mbx (s : State) (w : Waiting) : (actTswap s w).mbx = s.mbx := actTswap_same State.mbx (by simp) s w
theorem actTswap_kly (s : State) (w : Waiting) : (actTswap s w).kly = s.kly := actTswap_same State.kly (by simp) s w

/-- Every Quay shows SWAP. -/
theorem actTswap_shows (s : State) (w : Waiting) {q : Nat} (hq : q < 4) : (actTswap s w).shows (.alm q) 5 = true := by
  rw [actTswap_eq]
  exact foldl_nodup (P := fun _ => True) (Q := fun u : State => u.shows (.alm q) 5 = true) List.nodup_range (List.mem_range.2 hq)
    (fun _ _ _ _ => trivial) (fun u _ => u.shows_raiseBit _ (by decide)) (fun _ _ _ hu => State.shows_raise_of_shows hu _ _) trivial

/-- The swaps of the table are done. -/
theorem State.swapped_done (s : State) (w : Waiting) : ∀ x ∈ (s.swapped w).alm.swaps, x.tid = (w.req.opd 0).toNat → x.done = true := by
  intro x hx
  obtain ⟨y, -, rfl⟩ := List.mem_map.1 hx
  split
  · exact fun _ => rfl
  · exact fun h => absurd h ‹_›

theorem execSwapEffect_of_due (ht : tid < 4096) (hl : s.live = true) (hw : s.swapDue tid = some w) :
    execSwapEffect tid s = .next ((actTswap (s.dropWaiting w.jseq) w).effectNotice w w.at_) := by
  simp [execSwapEffect, Nat.not_le.2 ht, hl, hw]

/-! ### Catch-ups (07 R230, R238) -/

/-- The swap of a table is over; the rows of the writes that waited behind it form its next update. -/
def State.swapOver (s : State) (tid : Nat) : State :=
  let next := (s.alm.writes.filter fun w => w.tid == tid && w.copy == 0).map fun w => (w.row, w.data)
  { s with alm := { s.alm with tabs := tset s.alm.tabs tid { s.tab tid with upd := next }, swaps := s.alm.swaps.filter fun w => w.tid != tid } }

/-- The catch-up's bursts: the rows of the update for the newly inactive face. -/
def State.catchUpBursts (s : State) (tid : Nat) : List WBurst := (s.tab tid).bursts 0 tid (!(s.tab tid).active) (s.tab tid).upd

/-- The swap of a table is over, and the corrected lines of its inactive face are rewritten. -/
def State.swapRewritten (s : State) (tid : Nat) : State := (s.swapOver tid).rewriteFixed tid (!(s.tab tid).active)

theorem State.queueCatchUp_of_lpddr (h : (s.tab tid).lpddr = true) : s.queueCatchUp tid = { s.swapRewritten tid with
    alm := { (s.swapRewritten tid).alm with catchUp := (s.swapRewritten tid).alm.catchUp ++ s.catchUpBursts tid } } := if_pos h

theorem State.queueCatchUp_of_sram (h : (s.tab tid).lpddr = false) :
    s.queueCatchUp tid = (s.catchUpBursts tid).foldl State.writeBurst (s.swapRewritten tid) := if_neg (by rw [h]; exact Bool.false_ne_true)

/-- The log of corrected lines without those of a face of a table. -/
def State.unfixed (s : State) (tid : Nat) (face : Bool) : State :=
  { s with alm := { s.alm with fixes := s.alm.fixes.filter fun w => !(w.tid == tid && w.face == face) } }

theorem State.rewriteFixed_frame (s : State) (tid : Nat) (face : Bool) : s.rewriteFixed tid face =
    { s.unfixed tid face with mem := (s.rewriteFixed tid face).mem, sram := (s.rewriteFixed tid face).sram } :=
  foldl_tiers _ State.rewriteLine_frame _ (s.unfixed tid face)

/-- Without a corrected line of the table no line is rewritten. -/
theorem State.rewriteFixed_of_none (face : Bool) (h : ∀ f ∈ s.alm.fixes, f.tid ≠ tid) : s.rewriteFixed tid face = s.unfixed tid face := by
  have hnone : (s.alm.fixes.filter fun w => w.tid == tid && w.face == face) = [] :=
    List.filter_eq_nil_iff.2 fun f hf => by simp [h f hf]
  rw [State.rewriteFixed]
  simp only [hnone]
  rfl

theorem State.swapRewritten_swaps : (s.swapRewritten tid).alm.swaps = s.alm.swaps.filter fun w => w.tid != tid := by
  rw [State.swapRewritten, State.rewriteFixed_frame]
  rfl

theorem State.swapRewritten_tab : (s.swapRewritten tid).tab tid = (s.swapOver tid).tab tid := by
  rw [State.swapRewritten, State.rewriteFixed_frame]
  rfl

theorem State.swapRewritten_catchUp : (s.swapRewritten tid).alm.catchUp = s.alm.catchUp := by
  rw [State.swapRewritten, State.rewriteFixed_frame]
  rfl

theorem State.swapOver_tab : (s.swapOver tid).tab tid =
    { s.tab tid with upd := (s.alm.writes.filter fun w => w.tid == tid && w.copy == 0).map fun w => (w.row, w.data) } := tget_tset_same _ _ _ _

theorem State.swapRewritten_tiers (h : ∀ f ∈ s.alm.fixes, f.tid ≠ tid) :
    (s.swapRewritten tid).mem = s.mem ∧ (s.swapRewritten tid).sram = s.sram := by
  rw [State.swapRewritten, State.rewriteFixed_of_none (s := s.swapOver tid) _ h]
  exact ⟨rfl, rfl⟩

/-- Every burst of a catch-up is for its table. -/
theorem State.tid_of_mem_catchUpBursts {b : WBurst} (h : b ∈ s.catchUpBursts tid) : b.tid = tid := by
  unfold State.catchUpBursts AlmTab.bursts at h
  split at h
  · exact absurd h List.not_mem_nil
  · obtain ⟨r, -, hr⟩ := List.mem_flatMap.1 h
    obtain ⟨k, -, rfl⟩ := List.mem_map.1 hr
    rfl

/-- A burst for a table of the SRAM tier leaves LPDDR6 alone. -/
theorem State.writeBurst_mem_of_sram {b : WBurst} (h : (s.tab b.tid).lpddr = false) : (s.writeBurst b).mem = s.mem := by
  unfold State.writeBurst State.burstRef
  unfold AlmTab.lpddr at h
  cases hd : (s.tab b.tid).desc with
  | none => rfl
  | some d =>
    have hk : d.1.kind.getLsbD 0 = false := by simpa [hd] using h
    cases hc : d.2[b.copy]? with
    | none => simp [hc]
    | some c =>
      simp only [Option.bind_some, Option.map_some, hc, hk, CopyRec.lineRef]
      rfl

theorem State.queueCatchUp_swaps : (s.queueCatchUp tid).alm.swaps = s.alm.swaps.filter fun w => w.tid != tid := by
  rw [← State.swapRewritten_swaps]
  cases h : (s.tab tid).lpddr with
  | true => rw [State.queueCatchUp_of_lpddr h]
  | false => rw [State.queueCatchUp_of_sram h, State.writeBursts_frame]

theorem State.queueCatchUp_active : ((s.queueCatchUp tid).tab tid).active = (s.tab tid).active := by
  have htab : ((s.swapRewritten tid).tab tid).active = (s.tab tid).active := by rw [State.swapRewritten_tab, State.swapOver_tab]
  cases h : (s.tab tid).lpddr with
  | true => rwa [State.queueCatchUp_of_lpddr h]
  | false => rwa [State.queueCatchUp_of_sram h, State.writeBursts_frame]

/-- Without corrected lines a catch-up writes SRAM alone, and for a table of the LPDDR6 tier nothing at once. -/
theorem State.queueCatchUp_tiers (hf : ∀ f ∈ s.alm.fixes, f.tid ≠ tid) :
    (s.queueCatchUp tid).mem = s.mem ∧ ((s.tab tid).lpddr = true → (s.queueCatchUp tid).sram = s.sram) := by
  obtain ⟨hmem, hsram⟩ := State.swapRewritten_tiers hf
  cases h : (s.tab tid).lpddr with
  | true =>
    rw [State.queueCatchUp_of_lpddr h]
    exact ⟨hmem, fun _ => hsram⟩
  | false =>
    refine ⟨?_, fun ht => absurd ht Bool.false_ne_true⟩
    have htab : ((s.swapRewritten tid).tab tid).lpddr = false := by
      rw [State.swapRewritten_tab, State.swapOver_tab]
      exact h
    rw [State.queueCatchUp_of_sram h]
    exact (List.foldlRecOn (motive := fun u : State => u.mem = s.mem ∧ u.tab tid = (s.swapRewritten tid).tab tid) _ _ ⟨hmem, rfl⟩
      fun u ⟨hu, ht⟩ b hb => ⟨by
        rw [State.writeBurst_mem_of_sram (by rw [State.tid_of_mem_catchUpBursts hb, ht, htab]), hu], by
        rw [State.writeBurst_frame]
        exact ht⟩).1

theorem execCatchUp_of_due {x : Swap} (ht : tid < 4096) (hl : s.live = true) (hx : x ∈ s.alm.swaps) (hxt : x.tid = tid) (hd : x.done = true)
    (ha : cnLt (cnAdd x.a (s.hdr.rofs + s.hdr.a + 16)) s.cn = true) : execCatchUp tid s = .next (s.queueCatchUp tid) := by
  have hdue : (s.alm.swaps.any fun x => x.tid == tid && x.done && cnLt (cnAdd x.a (s.hdr.rofs + s.hdr.a + 16)) s.cn) = true :=
    List.any_eq_true.2 ⟨x, hx, by simp [hxt, hd, ha]⟩
  rw [execCatchUp, if_neg (Nat.not_le.2 ht), hl, hdue]
  rfl

end

end Sys2Proof.Machine

open Sys2Proof Sys2Proof.Machine

/-- Settles O37: a load leaves the table as loadTable_tab says and its lines as loadFace_sram does; a write's bursts are written as it ends
(finishWrites); a swap's effect is actTswap; a catch-up is queueCatchUp, which ends the table's swap. -/
theorem tablesLoadWriteAndSwap : Obligations.TablesLoadWriteAndSwap := by
  refine ⟨fun s tid w d ht hw hd hr => ⟨_, execTableLoadComplete_of_ready ht hw hd hr, ?_⟩,
    fun s tid w ht hw hg => ⟨_, execTableWriteComplete_of_gone ht hw hg, ?_⟩,
    fun s tid w ht hl hw hop => ⟨_, execSwapEffect_of_due ht hl hw, ?_⟩,
    fun s tid x ht hl hx hxt hd ha => ⟨_, execCatchUp_of_due ht hl hx hxt hd ha, ?_⟩⟩
  · dsimp only
    rw [State.endLong_tab, State.dropLong_tab, State.loadTable_tab]
    refine ⟨ends_of_tables ⟨_, _, _, s.loadTable_frame d tid _ _⟩, rfl, rfl, rfl, rfl, fun c hc hs hop => ?_⟩
    have hone : (w.req.opd 1).toNat = 1 := by rw [hop]; rfl
    obtain ⟨hmem, hlines⟩ := s.loadTable_lines d tid (w.staged (w.req.opd 2).toNat) hc hs
    rw [hone]
    exact ⟨(State.endLong_mem _ _ _ _).trans hmem, fun j hj =>
      (State.lineData_congr (State.endLong_mem _ _ _ _) (State.endLong_sram _ _ _ _) _).trans (hlines j hj)⟩
  · refine ⟨ends_of_tables ⟨_, _, _, s.finishWrites_frame w.jseq⟩, ?_, ?_, fun b r hb hr hlen => ?_⟩
    · rw [State.endLong_alm, State.dropLong_alm, State.finishWrites_alm]
      rfl
    · rw [State.endLong_alm, State.dropLong_alm, State.finishWrites_alm]
      rfl
    · exact (State.lineData_congr (State.endLong_mem _ _ _ _) (State.endLong_sram _ _ _ _) r).trans (State.finishWrites_line hb hr hlen)
  · subst hop
    have halm := (State.effectNotice_alm (actTswap (s.dropWaiting w.jseq) w) w w.at_).trans (actTswap_alm _ w)
    refine ⟨?_, fun k hk => ?_, ?_, fun q hq => ?_, ?_, ?_, ?_, notified_effectNotice (actTswap_mbx _ w), leaves_effectNotice (actTswap_kly _ w)⟩
    · exact (State.tab_congr (congrArg AlmState.tabs halm) _).trans (tget_tset_same _ _ _ _)
    · exact (State.tab_congr (congrArg AlmState.tabs halm) _).trans (tget_tset_ne _ _ _ hk)
    · rw [halm]
      rfl
    · exact (State.shows_congr (State.effectNotice_evts _ _ _)).trans (actTswap_shows _ w hq)
    · rw [halm]
      exact State.swapped_done _ w
    · rw [State.effectNotice_mem, actTswap_mem, State.dropWaiting_mem]
    · rw [State.effectNotice_sram, actTswap_sram, State.dropWaiting_sram]
  · refine ⟨?_, State.queueCatchUp_active, State.queueCatchUp_tiers, fun hlp => ?_⟩
    · rw [State.queueCatchUp_swaps]
      exact fun y hy => by simpa using (List.mem_filter.1 hy).2
    · rw [State.queueCatchUp_of_lpddr hlp]
      show (s.swapRewritten tid).alm.catchUp ++ _ = _
      rw [State.swapRewritten_catchUp]
      rfl

end

section
/-! PROOFS. The Almanac's reads and results (07 R207, R213 to R216, R221, R228): a key served once, and the words that its request sends. -/

namespace Sys2Proof.Machine

/-! ### Requests in flight -/

section
variable (s : State) (i : Nat) (c : CN)

theorem State.pool_congr {s t : State} (h : t.alm.pools = s.alm.pools) (i : Nat) (c : CN) : t.pool i c = s.pool i c := by
  rw [State.pool, State.pool, h]

/-- A pool is found by the request and input crossing that it holds. -/
theorem State.pool_names {p : Pool} (h : s.pool i c = some p) : p.req = i ∧ p.c = c := by
  simpa using List.find?_some h

/-- Put in place of every pool of its request and input crossing, a pool is the one found. -/
theorem find?_pool_replaced (l : List Pool) {p : Pool} (hp : p.req = i ∧ p.c = c) :
    ((l.filter fun q => !(q.req == i && decide (q.c = c))) ++ [p]).find? (fun q => q.req == i && decide (q.c = c)) = some p := by
  rw [List.find?_append, List.find?_eq_none.2 fun q hq => by simpa [imp_iff_not_or] using (List.mem_filter.1 hq).2]
  simp [hp.1, hp.2]

/-- A key that has been set is found in its pool. -/
theorem State.key_setKey (k : Nat) (x : KeySt) : (((s.setKey i c k x).pool i c).bind fun p => tfind p.keys k) = some x := by
  have hp : ((s.pool i c).getD { sent := false, req := i, c := c, keys := [] }).req = i ∧
      ((s.pool i c).getD { sent := false, req := i, c := c, keys := [] }).c = c := by
    cases h : s.pool i c with
    | none => exact ⟨rfl, rfl⟩
    | some p => exact s.pool_names i c h
  rw [State.pool, State.setKey]
  generalize (s.pool i c).getD { sent := false, req := i, c := c, keys := [] } = p at hp ⊢
  dsimp only
  rw [find?_pool_replaced i c _ (p := { p with keys := tset p.keys k x }) hp]
  exact tfind_tset_same _ _ _

end

/-! ### What a read gives (07 R213, R214, R228) -/

section
variable {s : State} (t : TblDesc) (cp : CopyRec) (i k : Nat) (c : CN) (x : KeySt) (noise : BitVec 288)

/-- A read is reported in the Quay that serves its copy, for its input crossing. -/
theorem State.readKey_reports : (s.readKey t cp i k c x noise).2.q = (cp.lineRef t.lpddr 0).quay ∧ (s.readKey t cp i k c x noise).2.c = c := by
  unfold State.readKey
  dsimp only
  split
  · exact ⟨rfl, rfl⟩
  · split <;> exact ⟨rfl, rfl⟩

theorem State.readKey_of_no_row (h : t.rowOf x.key = none) : (s.readKey t cp i k c x noise).1 = none := by
  unfold State.readKey
  dsimp only
  rw [h]

theorem State.readKey_of_data {j : Nat} {d : List Byte} (h : t.rowOf x.key = some j)
    (hd : (s.readLine (cp.lineRef t.lpddr (t.faceLine (s.faceFor t.tid c) j)) noise).data = some d) :
    (s.readKey t cp i k c x noise).1 = t.payload x.key (lineWords d) := by
  unfold State.readKey
  dsimp only
  rw [h]
  dsimp only
  rw [hd]

end

theorem CopyRec.quay_lt (cp : CopyRec) (lpddr : Bool) (l : Nat) : (cp.lineRef lpddr l).quay < 4 := by
  unfold CopyRec.lineRef
  split
  · exact Nat.div_lt_of_lt_mul (cp.place.extractLsb' 0 5).isLt
  · exact (cp.place.extractLsb' 0 2).isLt

/-! ### What the decoder's reports leave alone (07 R230, R231, R241) -/

section
variable (s : State) (f : Found)

theorem State.ctr_count_ne {i j : CtrId} (h : i.code ≠ j.code) (n : Nat) : (s.count j n).ctr i = s.ctr i := tget_tput_ne _ _ _ h

theorem State.sideQueue_ctr {i : CtrId} (h : i.code < 2000) (l : Nat) (p : Pkt) : (s.sideQueue l p).ctr i = s.ctr i := by
  have hne : i.code ≠ 2000 + 8 * l + 4 := by omega
  unfold State.sideQueue
  dsimp only
  split
  · rfl
  · rw [State.ctr_congr (State.raiseBit_ctrs _ _ _), State.ctr_count_ne s hne]

theorem State.healthAdd_ctr {i : CtrId} (h : i.code < 2000) (kind src : Nat) (regs : List Byte) : (s.healthAdd kind src regs).ctr i = s.ctr i := by
  unfold State.healthAdd
  dsimp only
  split
  · exact State.sideQueue_ctr _ h _ _
  · rfl

theorem State.fault_ctr {i : CtrId} (h : i.code < 2000) (cause : BitVec 8) (src : Nat) : (s.fault cause src).ctr i = s.ctr i := by
  obtain ⟨run, pair, hf⟩ := s.fault_eq cause src
  have hu := s.healthAdd_ctr h 2 src [cause]
  rw [hf]
  generalize s.healthAdd 2 src [cause] = u at hu ⊢
  exact hu

theorem State.recordUe_frame : s.recordUe f = { s with
    alm := { s.alm with ueAt := (s.recordUe f).alm.ueAt, ueRec := (s.recordUe f).alm.ueRec, ueCn := (s.recordUe f).alm.ueCn } } := by
  unfold State.recordUe
  dsimp only
  split <;> split <;> rfl

theorem State.flagRec_alm (c : CN) (b : BitVec 13) : (s.flagRec c b).alm = s.alm := rfl
theorem State.flagRec_ctrs (c : CN) (b : BitVec 13) : (s.flagRec c b).ctrs = s.ctrs := rfl

/-- A report leaves requests and the other reads of its crossing alone. -/
theorem State.report_alm : (s.report f).alm.pools = s.alm.pools ∧ (s.report f).alm.found = s.alm.found := by
  unfold State.report
  dsimp only
  split
  · rw [State.fault_alm, State.flagRec_alm, State.raiseBit_alm, State.count_alm, State.recordUe_frame]
    split <;> split <;> simp
  · split <;> split <;> simp

/-- A report counts no key as looked up. -/
theorem State.report_ctr {i : CtrId} (h : i.code < 64) : (s.report f).ctr i = s.ctr i := by
  have hmiss : i.code ≠ 64 + f.q := by omega
  have hce : i.code ≠ 72 + f.q := by omega
  have hue : i.code ≠ 76 + f.q := by omega
  have h1 : (if f.miss then s.count (.almMiss f.q) 1 else s).ctr i = s.ctr i := by
    split
    · exact s.ctr_count_ne hmiss 1
    · rfl
  have h2 (u : State) : (if f.ce then (u.count (.almCe f.q) 1).raiseBit (.alm f.q) 0 else u).ctr i = u.ctr i := by
    split
    · rw [State.ctr_congr (State.raiseBit_ctrs _ _ _), State.ctr_count_ne u hce]
    · rfl
  unfold State.report
  dsimp only
  split
  · rw [State.fault_ctr _ (by omega), State.ctr_congr (State.flagRec_ctrs _ _ _), State.ctr_congr (State.raiseBit_ctrs _ _ _),
      State.ctr_count_ne _ hue, State.recordUe_frame]
    exact (h2 _).trans h1
  · exact (h2 _).trans h1

end

/-! ### A key served (07 R221, R241) -/

section
variable {s : State} {i k : Nat} {c : CN} {x : KeySt} (t : TblDesc) (cp : CopyRec) (noise : BitVec 288)

/-- The counter of the keys that a Quay looks up in a tier. -/
def lookupCtr (t : TblDesc) (q : Nat) : CtrId := if t.lpddr then .almDlk q else .almSlk q

theorem lookupCtr_code_lt {q : Nat} (h : q < 4) : (lookupCtr t q).code < 64 := by
  unfold lookupCtr
  split <;> simp only [CtrId.code] <;> omega

/-- Key k is read, and counted; a line that the decoder corrected is noted. -/
def State.servedKey (s : State) (i k : Nat) (c : CN) (x : KeySt) : State :=
  let o := s.readKey t cp i k c x noise
  let u := (s.setKey i c k { x with read := true, row := o.1 }).count (lookupCtr t o.2.q) 1
  if o.2.ce then u.noteFix (s.fixOf t cp c x) else u

theorem State.serve_of_holdsKey (h : s.holdsKey i k c x) : s.serve i k c t cp noise =
    (if t.lpddr then { s.servedKey t cp noise i k c x with
        alm := { (s.servedKey t cp noise i k c x).alm with found := (s.servedKey t cp noise i k c x).alm.found ++ [(s.readKey t cp i k c x noise).2] } }
      else (s.servedKey t cp noise i k c x).report (s.readKey t cp i k c x noise).2) := by
  obtain ⟨hx, hr, hk⟩ := h
  have hskip : ¬(x.read || decide (x.kind ≠ .key)) = true := by simp [hr, hk]
  rw [State.serve, hx]
  dsimp only
  rw [if_neg hskip]
  rfl

theorem State.noteFix_frame (s : State) (b : WBurst) : s.noteFix b = { s with alm := { s.alm with fixes := (s.noteFix b).alm.fixes } } := by
  unfold State.noteFix
  split <;> rfl

theorem State.servedKey_frame : ∃ fixes, s.servedKey t cp noise i k c x =
    let o := s.readKey t cp i k c x noise
    let u := (s.setKey i c k { x with read := true, row := o.1 }).count (lookupCtr t o.2.q) 1
    { u with alm := { u.alm with fixes := fixes } } := by
  unfold State.servedKey
  dsimp only
  split
  · exact ⟨_, State.noteFix_frame _ _⟩
  · exact ⟨_, rfl⟩

theorem State.servedKey_pools : (s.servedKey t cp noise i k c x).alm.pools =
    (s.setKey i c k { x with read := true, row := (s.readKey t cp i k c x noise).1 }).alm.pools := by
  obtain ⟨fixes, h⟩ := s.servedKey_frame (i := i) (k := k) (c := c) (x := x) t cp noise
  rw [h]
  rfl

theorem State.servedKey_found : (s.servedKey t cp noise i k c x).alm.found = s.alm.found := by
  obtain ⟨fixes, h⟩ := s.servedKey_frame (i := i) (k := k) (c := c) (x := x) t cp noise
  rw [h]
  rfl

theorem State.servedKey_ctr : (s.servedKey t cp noise i k c x).ctr (lookupCtr t (cp.lineRef t.lpddr 0).quay) =
    satAdd (s.ctr (lookupCtr t (cp.lineRef t.lpddr 0).quay)) 1 := by
  obtain ⟨fixes, h⟩ := s.servedKey_frame (i := i) (k := k) (c := c) (x := x) t cp noise
  rw [h, ← (s.readKey_reports t cp i k c x noise).1]
  generalize s.readKey t cp i k c x noise = o
  exact (State.ctr_congr (s := (s.setKey i c k { x with read := true, row := o.1 }).count (lookupCtr t o.2.q) 1) rfl _).trans
    (State.ctr_count _ _ 1)

/-- Serving a key reads and counts it as R213, R214 and R241 have it. -/
theorem State.serve_servesKey (h : s.holdsKey i k c x) : ServesKey s (s.serve i k c t cp noise) i k c t cp x noise := by
  have hcode := lookupCtr_code_lt t (cp.quay_lt t.lpddr 0)
  have hpools : (s.serve i k c t cp noise).alm.pools = (s.servedKey t cp noise i k c x).alm.pools := by
    rw [State.serve_of_holdsKey t cp noise h]
    split
    · rfl
    · exact (State.report_alm _ _).1
  have hctr : (s.serve i k c t cp noise).ctr (lookupCtr t (cp.lineRef t.lpddr 0).quay) =
      (s.servedKey t cp noise i k c x).ctr (lookupCtr t (cp.lineRef t.lpddr 0).quay) := by
    rw [State.serve_of_holdsKey t cp noise h]
    split
    · rfl
    · exact State.report_ctr _ _ hcode
  obtain ⟨hmem, hsram⟩ := State.kept_memory (σ := Scope.none) (s.serve_kept i k c t cp noise) rfl
  refine ⟨⟨_, ?_, State.readKey_of_no_row t cp i k c x noise, fun j d => State.readKey_of_data t cp i k c x noise⟩, ?_, hmem, hsram⟩
  · rw [State.pool_congr (hpools.trans (State.servedKey_pools t cp noise)), State.key_setKey]
  · exact hctr.trans (State.servedKey_ctr t cp noise)

/-- An LPDDR6 read is reported in the next crossing (07 R228), an SRAM read at once. -/
theorem State.serve_found (h : s.holdsKey i k c x) : (s.serve i k c t cp noise).alm.found =
    if t.lpddr then s.alm.found ++ [(s.readKey t cp i k c x noise).2] else s.alm.found := by
  rw [State.serve_of_holdsKey t cp noise h]
  split
  · exact congrArg (· ++ _) (State.servedKey_found t cp noise)
  · rw [(State.report_alm _ _).2, State.servedKey_found]

end

section
variable {s : State}

theorem execAlmanacLookupSlot_of_request {sub pos : Nat} (noise : BitVec 288) {r : ReqRec} {t : TblDesc} {cp : CopyRec} {z : Nat}
    (hsub : sub < 32) (hpos : pos < 8) (hr : s.slotsRun sub = true) (hc : tideClass (s.img.tideAt sub (s.cn.toNat % 32) pos) = 0)
    (hreq : s.img.almt.reqs[tideReq (s.img.tideAt sub (s.cn.toNat % 32) pos)]? = some r) (ht : s.img.table r.tid = some t)
    (hcp : ((s.img.copiesOf t).find? fun c => c.1.bank == tideBank (s.img.tideAt sub (s.cn.toNat % 32) pos) &&
      (c.1.place.extractLsb' 0 5).toNat == sub && c.1.place.getLsbD 5 == decide (pos % 2 = 1)) = some (cp, z)) :
    execAlmanacLookupSlot sub pos noise s = .next (s.serve (tideReq (s.img.tideAt sub (s.cn.toNat % 32) pos))
      (tideKey (s.img.tideAt sub (s.cn.toNat % 32) pos)) (s.lookupInput r (s.img.tideAt sub (s.cn.toNat % 32) pos)) t cp noise) := by
  have hunit : ¬(sub ≥ 32 ∨ pos ≥ 8) := by omega
  have hslot : ¬(!s.slotsRun sub || tideClass (s.img.tideAt sub (s.cn.toNat % 32) pos) != 0) = true := by simp [hr, hc]
  rw [execAlmanacLookupSlot, if_neg hunit]
  dsimp only [State.phase]
  rw [if_neg hslot, hreq]
  dsimp only
  rw [ht, Option.bind_some, hcp]
  rfl

theorem execSramRead_of_request {req key : Nat} (noise : BitVec 288) {r : ReqRec} {t : TblDesc} {sp : Word} {cp : CopyRec} {c : CN}
    (hreq : req < 8192) (hkey : key < 16) (hl : s.live = true) (hr : s.img.almt.reqs[req]? = some r) (ht : s.img.table r.tid = some t)
    (hsp : r.keys[key]? = some sp) (hcp : s.img.almt.copies[(sp.extractLsb' 0 16).toNat]? = some cp)
    (hin : r.inputOf s.hdr.n (r.tau0 + key + keyRead sp) s.cn s.tick = some c) (hs : t.lpddr = false)
    (hq : s.quayRuns (cp.lineRef false 0).quay = true) : execSramRead req key noise s = .next (s.serve req key c t cp noise) := by
  have hunit : ¬(req ≥ 8192 ∨ key ≥ 16) := by omega
  have hruns : ¬(t.lpddr || !s.quayRuns (cp.lineRef false 0).quay) = true := by simp [hs, hq]
  rw [execSramRead, if_neg hunit, if_neg (by simp [hl]), hr]
  dsimp only
  rw [ht, hsp]
  dsimp only
  rw [hcp, hin]
  exact if_neg hruns

end

/-! ### Results (07 R207, R215) -/

section
variable (s : State) (t : TblDesc) (n : Nat) (p : Pool)

theorem State.result_length : (s.result t n p).length = t.rw := by
  simp [State.result, TblDesc.pack]

/-- No row contributes where no key of the request has one. -/
theorem rows_eq_nil_iff : ((List.range n).filterMap fun k => (tfind p.keys k).bind KeySt.row) = [] ↔
    ∀ i, i < n → ((tfind p.keys i).bind KeySt.row) = none := by
  simp [List.filterMap_eq_nil_iff]

/-- The words of a result are NULL where no row contributes, and have the epoch of a key 0 that was not missing. -/
theorem State.tag_of_mem_result {k : Token} (h : k ∈ s.result t n p) :
    k.tag = if (∀ i, i < n → ((tfind p.keys i).bind KeySt.row) = none) then 2 else 1 := by
  obtain ⟨w, -, rfl⟩ := List.mem_map.1 h
  simp only [rows_eq_nil_iff]

theorem State.epoch_of_mem_result {k : Token} (h : k ∈ s.result t n p) {x : KeySt} (hx : tfind p.keys 0 = some x) (hk : x.kind ≠ .missing) :
    k.epoch = x.epoch := by
  obtain ⟨w, -, rfl⟩ := List.mem_map.1 h
  simp [hx, hk]

/-- Tokens driven into a port are in flight, in their order; nothing else has changed. -/
theorem State.foldl_driveEdge_tokens (e : Nat) (l : List (Token × Nat)) :
    let u := l.foldl (fun u t => u.driveEdge e t.2 t.1) s
    u.arr.flight.map Flight.tok = s.arr.flight.map Flight.tok ++ l.map Prod.fst ∧ u = { s with arr := { s.arr with flight := u.arr.flight } } := by
  induction l generalizing s with
  | nil => exact ⟨(List.append_nil _).symm, rfl⟩
  | cons a l ih =>
    obtain ⟨htok, hframe⟩ := ih (s.driveEdge e a.2 a.1)
    refine ⟨?_, hframe⟩
    rw [List.foldl_cons, htok, State.driveEdge, List.map_append, List.append_assoc]
    rfl

theorem State.sendResult_tokens (e : Nat) (l : List Token) :
    (s.sendResult e l).arr.flight.map Flight.tok = s.arr.flight.map Flight.tok ++ l := by
  rw [State.sendResult, (s.foldl_driveEdge_tokens e l.zipIdx).1, List.zipIdx_map_fst]

theorem State.sendResult_frame (e : Nat) (l : List Token) :
    s.sendResult e l = { s with arr := { s.arr with flight := (s.sendResult e l).arr.flight } } := (s.foldl_driveEdge_tokens e l.zipIdx).2

/-- The pool's result is marked as sent. -/
def State.markSent (req : Nat) (c : CN) : State :=
  { s with alm := { s.alm with pools := (s.alm.pools.filter fun q => !(q.req == req && decide (q.c = c))) ++ [{ p with sent := true }] } }

end

theorem execAlmanacResult_of_pool {s : State} {req : Nat} {r : ReqRec} {t : TblDesc} {c : CN} {p : Pool} (hreq : req < 8192)
    (hl : s.live = true) (hr : s.img.almt.reqs[req]? = some r) (ht : s.img.table r.tid = some t) (hq : s.portRuns r.edge = true)
    (hin : r.inputOf s.hdr.n (r.tau0 + t.d * s.hdr.n - 3) s.cn s.tick = some c) (hp : s.pool req c = some p) (hn : p.sent = false) :
    execAlmanacResult req s = .next ((s.markSent p req c).sendResult r.edge (s.result t r.keys.length p)) := by
  rw [execAlmanacResult, if_neg (Nat.not_le.2 hreq), hl, hr]
  dsimp only
  rw [ht]
  dsimp only
  rw [hq, hin]
  simp [hp, hn, State.markSent]

end Sys2Proof.Machine

open Sys2Proof Sys2Proof.Machine

/-- Settles O39: both reads serve their key (serve_servesKey), and the result is State.result, sent into the request's port (sendResult_tokens). -/
theorem almanacServesKeysAndAnswers : Obligations.AlmanacServesKeysAndAnswers := by
  refine ⟨fun s sub pos noise r t cp z x => ?_,
    fun s req key noise r t sp cp c x hreq hkey hl hr ht hsp hcp hin hs hq hx =>
      ⟨_, execSramRead_of_request noise hreq hkey hl hr ht hsp hcp hin hs hq, State.serve_servesKey t cp noise hx, ?_⟩,
    fun s req r t c p hreq hl hr ht hq hin hp hn => ⟨_, execAlmanacResult_of_pool hreq hl hr ht hq hin hp hn, ?_, ?_, ?_⟩⟩
  · intro w c hsub hpos hrun hc hreq ht hcp hx
    refine ⟨_, execAlmanacLookupSlot_of_request noise hsub hpos hrun hc hreq ht hcp, State.serve_servesKey t cp noise hx, fun hl => ?_⟩
    exact ⟨_, (State.serve_found t cp noise hx).trans (if_pos hl), (State.readKey_reports t cp _ _ _ x noise).2⟩
  · rw [State.serve_found t cp noise hx, if_neg (by rw [hs]; exact Bool.false_ne_true)]
  · exact ⟨_, State.sendResult_tokens _ _ _, State.result_length _ _ _ _, fun k hk => State.tag_of_mem_result _ _ _ _ hk,
      fun k hk x hx hm => State.epoch_of_mem_result _ _ _ _ hk hx hm⟩
  · rw [State.sendResult_frame]
    have hnames := s.pool_names req c hp
    exact find?_pool_replaced req c _ (p := { p with sent := true }) hnames
  · rw [State.sendResult_frame]
    rfl

end

section
/-! PROOFS. The release of a capture (08 R263, R268). -/

namespace Sys2Proof.Machine

/-! ### Mailboxes that a command in progress does not name (15 R400, R404) -/

section
variable (s : State) {m k : Nat} (h : m ≠ k)
include h

theorem State.mbxOf_post_ne (e : RingEntry) : (s.post k e).mbxOf m = s.mbxOf m := by
  unfold State.post
  split
  · dsimp only
    split
    · rw [State.mbxOf_signal, State.mbxOf_setMbx_ne _ _ h]
    · split <;> rw [State.mbxOf_setMbx_ne _ _ h]
  · rfl

theorem State.mbxOf_unbusy_ne : (s.unbusy k).mbxOf m = s.mbxOf m := by
  unfold State.unbusy
  split
  · rw [State.mbxOf_setMbx_ne _ _ h]
  · rfl

theorem State.mbxOf_setBuf_ne (l : List Byte) : (s.setBuf k l).mbxOf m = s.mbxOf m := by
  unfold State.setBuf
  split
  · rw [State.mbxOf_setMbx_ne _ _ h]
  · rfl

theorem State.mbxOf_complete_ne (r : KReq) (q : Nat) (c : CN) (d : Dword) (l : List Byte) : (s.complete k r q c d l).mbxOf m = s.mbxOf m := by
  rw [State.complete, State.mbxOf_unbusy_ne _ h, State.mbxOf_post_ne _ h, State.mbxOf_setBuf_ne _ h]

end

/-! ### What the end of a long command leaves alone (15 R405, R412) -/

section
variable (s : State) (w : Waiting)

theorem State.mbxOf_endLong_ne {m : Nat} (h : m ≠ w.mbx) (d : Dword) (l : List Byte) : (s.endLong w d l).mbxOf m = s.mbxOf m := by
  unfold State.endLong
  dsimp only
  split
  · rfl
  · rw [State.mbxOf_complete_ne _ h, State.mbxOf_jEnd]

theorem State.endLong_jnl_head (d : Dword) (l : List Byte) : (s.endLong w d l).jnl.head = s.jnl.head := by
  unfold State.endLong
  dsimp only
  split
  · rfl
  · rw [State.complete_jnl]
    rfl

theorem State.endLong_pairMode (d : Dword) (l : List Byte) : (s.endLong w d l).pairMode = s.pairMode := by
  unfold State.endLong State.pairMode
  dsimp only
  split
  · rfl
  · rw [State.complete_pair, State.jEnd_pair]

theorem State.mbxOf_abortLong_ne {m : Nat} (h : m ≠ w.mbx) (f : Refuse) : (s.abortLong w f).mbxOf m = s.mbxOf m := by
  unfold State.abortLong
  dsimp only
  rw [State.mbxOf_unbusy_ne _ h, State.mbxOf_post_ne _ h]
  rfl

theorem State.abortLong_jnl_head (f : Refuse) : (s.abortLong w f).jnl.head = s.jnl.head := by
  simp [State.abortLong, State.jEnd]

theorem State.abortLong_pairMode (f : Refuse) : (s.abortLong w f).pairMode = s.pairMode := by
  simp [State.abortLong, State.pairMode]

theorem State.mem_longs_of_longOf {op : Nat} (h : s.longOf op = some w) : w ∈ s.kly.longs := List.mem_of_find?_eq_some h

end

theorem State.longOf_congr {s t : State} (h : t.kly = s.kly) (op : Nat) : t.longOf op = s.longOf op := by rw [State.longOf, State.longOf, h]

theorem State.pairMode_congr {s t : State} (h : t.pair = s.pair) : t.pairMode = s.pairMode := by rw [State.pairMode, State.pairMode, h]

/-! ### A command that also ends commands of other mailboxes -/

/-- An owning chapter asked in state s on behalf of mailbox m answers with a state u in which that mailbox, the number of journal entries and the
pair mode stand. -/
structure State.KeepsBox (s u : State) (m : Nat) : Prop where
  box : u.mbxOf m = s.mbxOf m
  head : u.jnl.head = s.jnl.head
  pairMode : u.pairMode = s.pairMode

/-- A command that names no crossing completes and stands in the journal also where its owning chapter ends commands of other mailboxes. -/
theorem kSubmit_prompt_of_keepsBox {c : KCmd} {h : CmdHdr} {op : Nat} {ops : List Dword} {s u : State} {d : Dword} (hc : c.spec.Prompt)
    (hact : c.act = noAct) (ha : asks h (8 * ops.length) false s = true) (hs : ops.length ≤ 504) (hr : inRange ops c.spec.maxs)
    (hn : c.spec.runCode s = 0) (ho : c.own (c.asked (mkReq op h ops []) s) (c.entry (mkReq op h ops []) s) = .now u d [])
    (hu : (c.asked (mkReq op h ops []) s).KeepsBox u h.mbx) :
    GoesTo (kSubmit c (mkReq op h ops []) s) fun t =>
      Completes s t h op d ∧ Journals s t ∧ u.AnswerOf t ∧ t.kly = { u.kly with lastMbx := h.mbx } := by
  obtain ⟨ht, hopen, hlen, hat, hrsvd⟩ := asks_iff.1 ha
  have hasked : c.asked (mkReq op h ops []) s = _ := if_pos hc.plain.jrn
  have hp : u.pairMode = false := by
    rw [hu.pairMode, hasked]
    exact State.pairMode_of_isOpen hopen
  have hmir := mirrors_alone c.spec hp
  have hsub := kSubmit_now ht (kCheck_prompt (s := s.submitted _) hc hopen hlen hat hrsvd hs hr hn) ho (hc.cross _)
  rw [hact] at hsub
  refine ⟨_, hsub, completes_answered ht hmir ?_ rfl rfl, ?_, ?_, ?_⟩
  · rw [mkReq_hdr, hu.box, hasked, State.mbxOf_jAdd]
  · show (c.answered u _ d []).jnl.head = _
    rw [KCmd.answered, KCmd.note_jnl, kFinish_alone_jnl_head hp, hu.head, hasked]
    rfl
  · rw [State.AnswerOf, State.served, noAct, c.answered_eq _ d [] hmir]
  · show { (c.answered u _ d []).kly with lastMbx := h.mbx } = _
    rw [c.answered_eq _ d [] hmir]

/-! ### The wake buffer freed or opened anew (08 R263, R264, R268) -/

section
variable (c : CapState)

theorem CapState.reopen_st : c.reopen.st = if c.cfg.getLsbD 31 then .prefill else .idle := by
  unfold CapState.reopen
  split <;> rfl

theorem CapState.reopen_frames : c.reopen.frames = [] := by
  unfold CapState.reopen
  split <;> rfl

theorem CapState.reopen_sent : c.reopen.sent = c.sent := by
  unfold CapState.reopen
  split <;> rfl

end

/-- The buffer freed or opened anew, and its event of a drain raised. -/
def State.reopened (s : State) : State := ({ s with cap := s.cap.reopen }).raiseBit .cap 4

section
variable (s : State)

theorem State.reopened_cap : s.reopened.cap = s.cap.reopen := State.raiseBit_cap _ _ _
theorem State.reopened_mbx : s.reopened.mbx = s.mbx := State.raiseBit_mbx _ _ _
theorem State.reopened_pair : s.reopened.pair = s.pair := State.raiseBit_pair _ _ _
theorem State.reopened_jnl : s.reopened.jnl = s.jnl := State.raiseBit_jnl _ _ _
theorem State.reopened_kly : s.reopened.kly = s.kly := State.raiseBit_kly _ _ _
theorem State.reopened_shows : s.reopened.shows .cap 4 = true := State.shows_raiseBit _ _ (by decide)

theorem State.longOf_reopened (op : Nat) : s.reopened.longOf op = s.longOf op := State.longOf_congr s.reopened_kly op

/-- The end of a drain ends the CAPDRAIN in progress. -/
theorem State.drained_of_long {w : Waiting} (h : s.longOf 0x0603 = some w) : s.drained = (s.reopened.dropLong w).endLong w 0 [] := by
  unfold State.drained
  dsimp only
  rw [← State.reopened, State.longOf_reopened, h]

theorem State.drained_of_no_long (h : s.longOf 0x0603 = none) : s.drained = s.reopened := by
  unfold State.drained
  dsimp only
  rw [← State.reopened, State.longOf_reopened, h]

theorem State.drained_cap : s.drained.cap = s.cap.reopen := by
  cases h : s.longOf 0x0603 with
  | none => rw [s.drained_of_no_long h, State.reopened_cap]
  | some w => rw [s.drained_of_long h, State.endLong_cap, State.dropLong_cap, State.reopened_cap]

theorem State.drained_shows : s.drained.shows .cap 4 = true := by
  cases h : s.longOf 0x0603 with
  | none => rw [s.drained_of_no_long h, State.reopened_shows]
  | some w => rw [s.drained_of_long h, State.shows_congr ((State.endLong_evts _ _ _ _).trans (State.dropLong_evts _ _)), State.reopened_shows]

theorem State.drained_longs {w : Waiting} (h : s.longOf 0x0603 = some w) : s.drained.kly.longs = (s.dropLong w).kly.longs := by
  rw [s.drained_of_long h, State.endLong_kly, State.dropLong, State.reopened_kly]
  rfl

/-- A drain's end keeps the mailboxes of other commands. -/
theorem State.keepsBox_drained {m : Nat} (h : ∀ w ∈ s.kly.longs, w.mbx ≠ m) : s.KeepsBox s.drained m := by
  cases hw : s.longOf 0x0603 with
  | none =>
    rw [s.drained_of_no_long hw]
    exact ⟨State.mbxOf_congr s.reopened_mbx m, congrArg Jnl.head s.reopened_jnl, State.pairMode_congr s.reopened_pair⟩
  | some w =>
    have hne := (h w (s.mem_longs_of_longOf w hw)).symm
    rw [s.drained_of_long hw]
    exact ⟨(State.mbxOf_endLong_ne _ w hne _ _).trans (State.mbxOf_congr s.reopened_mbx m),
      (State.endLong_jnl_head _ w _ _).trans (congrArg Jnl.head s.reopened_jnl),
      (State.endLong_pairMode _ w _ _).trans (State.pairMode_congr s.reopened_pair)⟩

/-- A capture without a trigger is abandoned, with the deskew calibration that it serves. -/
def State.abandoned (s : State) : State := ({ s with cap := { s.cap with st := .idle, stopFr := none } }).deskewAbort

theorem State.deskewAbort_cap : s.deskewAbort.cap = s.cap := by
  unfold State.deskewAbort
  split
  · rw [State.abortLong_cap, State.dropLong_cap]
  · rfl

theorem State.keepsBox_deskewAbort {m : Nat} (h : ∀ w ∈ s.kly.longs, w.mbx ≠ m) : s.KeepsBox s.deskewAbort m := by
  unfold State.deskewAbort
  split
  next w hw =>
    exact ⟨State.mbxOf_abortLong_ne _ w (h w (s.mem_longs_of_longOf w hw)).symm _, State.abortLong_jnl_head _ w _, State.abortLong_pairMode _ w _⟩
  next => exact ⟨rfl, rfl, rfl⟩

theorem State.abandoned_st : s.abandoned.cap.st = .idle := by rw [State.abandoned, State.deskewAbort_cap]

theorem State.keepsBox_abandoned {m : Nat} (h : ∀ w ∈ s.kly.longs, w.mbx ≠ m) : s.KeepsBox s.abandoned m := by
  obtain ⟨hbox, hhead, hpair⟩ := State.keepsBox_deskewAbort { s with cap := { s.cap with st := .idle, stopFr := none } } h
  exact ⟨hbox, hhead, hpair⟩

end

/-! ### What the owning chapter answers (08 R268) -/

section
variable {s : State} (w : Waiting)

theorem ownCaprelease_of_waiting (h : s.cap.st = .prefill ∨ s.cap.st = .armed) : ownCaprelease s w = .now s.abandoned 0 [] := by
  obtain h | h := h <;> simp only [ownCaprelease, h, State.abandoned]

theorem ownCaprelease_of_frozen (h : s.cap.st = .frozen) : ownCaprelease s w = .now { s with cap := s.cap.reopen } 0 [] := by
  simp only [ownCaprelease, h]

theorem ownCaprelease_of_draining (h : s.cap.st = .draining) : ownCaprelease s w = .now s.drained 0 [] := by
  simp only [ownCaprelease, h]

end

/-- The state in which CAPRELEASE's chapter is asked. -/
def State.askedRelease (s : State) (h : CmdHdr) : State := cmdCaprelease.asked (mkReq 0x0604 h [] []) s

/-- CAPRELEASE, accepted, leads to the state that its chapter answers with. -/
theorem execCaprelease_completes {h : CmdHdr} {s u : State} (ha : asks h 0 false s = true)
    (ho : ownCaprelease (s.askedRelease h) (cmdCaprelease.entry (mkReq 0x0604 h [] []) s) = .now u 0 [])
    (hu : (s.askedRelease h).KeepsBox u h.mbx) :
    GoesTo (execCaprelease h s) fun t => Completes s t h 0x0604 0 ∧ Journals s t ∧ u.AnswerOf t ∧ t.kly = { u.kly with lastMbx := h.mbx } :=
  kSubmit_prompt_of_keepsBox (c := cmdCaprelease) (CmdSpec.prompt_row _ _ _ _) rfl ha (by simp) .nil (CmdSpec.runCode_any rfl) ho hu

theorem State.AnswerOf.cap {u t : State} (h : u.AnswerOf t) : t.cap = u.cap := by rw [h]

theorem State.AnswerOf.shows {u t : State} (h : u.AnswerOf t) (i : EvtId) (b : Nat) : t.shows i b = u.shows i b := by
  rw [State.shows, h.evt, State.shows]

end Sys2Proof.Machine

open Sys2Proof Sys2Proof.Machine

/-- Settles O25: the release completes with the state that its chapter answers with (execCaprelease_completes): an abandoned capture, a buffer
opened anew, or the end of a drain, each of which leaves the release's own mailbox alone since no command in progress is of that mailbox. -/
theorem capreleaseEndsTheCapture : Obligations.CapreleaseEndsTheCapture := by
  intro h s ha hlongs
  refine ⟨fun hst => ?_, fun hst => ?_, fun hst => ?_⟩
  · refine (execCaprelease_completes ha (ownCaprelease_of_waiting _ hst) (State.keepsBox_abandoned _ hlongs)).mono fun t ⟨hd, hj, ht, _⟩ => ?_
    exact ⟨hd, hj, by rw [ht.cap, State.abandoned_st]⟩
  · refine (execCaprelease_completes ha (ownCaprelease_of_frozen _ hst) ⟨rfl, rfl, rfl⟩).mono fun t ⟨hd, hj, ht, _⟩ => ?_
    rw [ht.cap]
    exact ⟨hd, hj, CapState.reopen_st _, CapState.reopen_frames _⟩
  · refine (execCaprelease_completes ha (ownCaprelease_of_draining _ hst) (State.keepsBox_drained _ hlongs)).mono fun t ⟨hd, hj, ht, hk⟩ => ?_
    rw [ht.cap, State.drained_cap, ht.shows, hk]
    exact ⟨hd, hj, CapState.reopen_st _, CapState.reopen_frames _, State.drained_shows _, fun w hw => State.drained_longs _ hw⟩

end

section
/-! PROOFS. The channel stage (08 R246, R251 to R253), the frames of the wake buffer (R261, R262) and the end of an averaging block (R275). -/

namespace Sys2Proof.Machine

/-! ### What the stage's instruments leave alone -/

/-- The crossing whose stage has run, the records of the output and the array. -/
def State.stageView (s : State) : Option CN × OutState × ArrState := (s.chan.stageAt, s.out, s.arr)

section
variable (s : State)

theorem State.histoTake_stageView (target mag : Nat) : (s.histoTake target mag).stageView = s.stageView :=
  foldl_same State.stageView _ (fun u h => by simp [State.stageView]) _ _

theorem stageEnabled_stageView (cc : CN) (a : StageAcc) (e : CmapEnt) (c : Ctx) : (stageEnabled cc a e c).s.stageView = a.s.stageView := by
  unfold stageEnabled
  dsimp only
  rw [State.histoTake_stageView]
  split <;> split <;> simp [State.stageView, State.setCtx]

theorem stageCtx_stageView (cc : CN) (a : StageAcc) (e : CmapEnt) : (stageCtx cc a e).s.stageView = a.s.stageView := by
  unfold stageCtx
  dsimp only
  split
  · exact stageEnabled_stageView cc a e _
  · rfl

theorem State.chanSats_stageView (l : List Nat) (q : Nat) : (s.chanSats l q).stageView = s.stageView := by
  unfold State.chanSats
  dsimp only
  split
  · rfl
  · simp [State.stageView]

theorem State.stageBeacon_stageView (cc : CN) (hits : List Nat) (b : Nat) : (State.stageBeacon cc hits s b).stageView = s.stageView := by
  unfold State.stageBeacon
  dsimp only
  split
  · split <;> simp [State.stageView, State.trigger, State.setBeacon]
  · rfl

theorem State.stageView_ite (c : Prop) [Decidable c] (t : State) :
    (if c then s else t).stageView = if c then s.stageView else t.stageView := by
  split <;> rfl

theorem State.stageView_withCap (c : CapState) : ({ s with cap := c } : State).stageView = s.stageView := rfl

theorem State.foldl_trigger_stageView {α : Type} (t : CN) (src : BitVec 4) (l : List α) :
    (l.foldl (fun u _ => u.trigger t src) s).stageView = s.stageView :=
  foldl_same State.stageView (fun u _ => u.trigger t src) (fun _ _ => rfl) l s

theorem State.maskViol_stageView (cc : CN) (l : List (Nat × Bool)) : (s.maskViol cc l).stageView = s.stageView := by
  have hnote : ((s.count .capMtv l.length).raiseBit .cap 2).stageView = s.stageView := by simp [State.stageView]
  unfold State.maskViol
  split
  · rfl
  · simp only [State.stageView_ite, State.stageView_withCap, State.foldl_trigger_stageView, hnote, ite_self]

/-- A frame is written into the wake buffer alone (08 R262). -/
theorem State.writeFrame_frame (bcn : BitVec 16) (mtv : Bool) :
    s.writeFrame bcn mtv = { s with cap := (s.writeFrame bcn mtv).cap } := by
  unfold State.writeFrame
  dsimp only
  split <;> rfl

theorem State.writeFrame_stageView (bcn : BitVec 16) (mtv : Bool) : (s.writeFrame bcn mtv).stageView = s.stageView := by
  rw [State.writeFrame_frame]
  rfl

end

/-! ### The tokens of a crossing (08 R246, R253) -/

section
variable (s : State) (ep : BitVec 2) (ws : List (CmapEnt × Int))

theorem State.driveChannels_frame :
    s.driveChannels ep ws = { s with arr := { s.arr with flight := (s.driveChannels ep ws).arr.flight } } :=
  List.foldlRecOn (motive := fun u : State => u = { s with arr := { s.arr with flight := u.arr.flight } }) _ _ rfl fun u hu a _ => by
    rw [hu]
    rfl

/-- The word of one entry makes one token. -/
theorem State.driveChannels_one (e : CmapEnt) (v : Int) : (s.driveChannels ep [(e, v)]).arr.flight.map Flight.tok =
    s.arr.flight.map Flight.tok ++ [{ tag := 1, epoch := ep, data := tokenData [(e, v)] }] := by
  simp [State.driveChannels, State.driveEdge, List.eraseDups_cons]

end

/-! ### The stage of one input crossing (08 R251, R253) -/

section
variable (s : State) (cc : CN)

/-- What the contexts of a crossing's map give, in the map's order. -/
def State.gathered : StageAcc :=
  ((s.imgAt (s.epochOf cc).slot).cmap.filter fun k => s.quayRuns (k.ctx / 16384)).foldl (stageCtx cc)
    { s := s, words := [], hits := [], viol := [], sats := [], subst := false }

/-- The record that begins at the crossing's channel stage. -/
def State.stageRec : OutRec :=
  { c := cc, slot := (s.epochOf cc).slot, epoch := (s.epochOf cc).epoch, flags := s.stageFlags cc (s.gathered cc).subst
    inA := digestWords (s.gathered cc).words, idig := 0, odig := 0, fdec := 0, pay := [], chain := [], asm := false, sent := false
    auth := false, ictr := 0 }

/-- The word of an entry: 0 of a disabled context, else its sample less the pedestal, with gain and requantised. -/
def State.channelWord (e : CmapEnt) : Int :=
  let c := s.ctxOf e.ctx
  if c.en then (c.requant e.width (c.gain ((sampleOf e c (s.ringAt e.laneIx (cnSub cc c.cross))).1 - c.ped e.sgn))).1 else 0

theorem stageCtx_words (a : StageAcc) (e : CmapEnt) : (stageCtx cc a e).words = a.words ++ [(e, a.s.channelWord cc e)] := by
  unfold stageCtx State.channelWord
  dsimp only
  split <;> rfl

theorem State.gathered_stageView : (s.gathered cc).s.stageView = s.stageView :=
  foldl_same (fun a : StageAcc => a.s.stageView) (stageCtx cc) (stageCtx_stageView cc) _ _

theorem State.gathered_words_of_one {e : CmapEnt} (hm : (s.imgAt (s.epochOf cc).slot).cmap = [e]) (hq : s.quayRuns (e.ctx / 16384) = true) :
    (s.gathered cc).words = [(e, s.channelWord cc e)] := by
  rw [State.gathered, hm, List.filter_cons_of_pos (p := fun k : CmapEnt => s.quayRuns (k.ctx / 16384)) hq]
  exact stageCtx_words cc _ e

/-- A crossing's stage drives its tokens and begins its record; its instruments leave both alone. -/
theorem State.stageInput_stageView : (s.stageInput cc).1.stageView =
    (s.chan.stageAt, { s.out with recs := s.out.recs ++ [s.stageRec cc] },
      ((s.gathered cc).s.driveChannels (s.epochOf cc).epoch (s.gathered cc).words).arr) := by
  have hview := s.gathered_stageView cc
  unfold State.stageInput
  dsimp only
  rw [State.maskViol_stageView, foldl_same State.stageView _ (fun u b => u.stageBeacon_stageView cc _ b),
    foldl_same State.stageView _ (fun u q => u.chanSats_stageView _ q)]
  change State.stageView { ((s.gathered cc).s.driveChannels (s.epochOf cc).epoch (s.gathered cc).words) with
    out := { ((s.gathered cc).s.driveChannels (s.epochOf cc).epoch (s.gathered cc).words).out with
      recs := ((s.gathered cc).s.driveChannels (s.epochOf cc).epoch (s.gathered cc).words).out.recs ++ [s.stageRec cc] } } = _
  simp only [State.stageView, Prod.mk.injEq] at hview ⊢
  obtain ⟨hat, hout, -⟩ := hview
  rw [State.driveChannels_frame]
  exact ⟨hat, by rw [hout], trivial⟩

end

/-! ### CHANNEL_STAGE (08 R251) -/

section
variable {s : State}

/-- The stage of the present crossing has run. -/
def State.stageBegun (s : State) : State := { s with chan := { s.chan with stageAt := some s.cn } }

theorem execChannelStage_of_runs (hat : s.chan.stageAt ≠ some s.cn) (hr : s.stageRuns = true) :
    let r := s.stageBegun.stageInput (cnSub s.cn s.hdr.rofs)
    execChannelStage s = .next (r.1.writeFrame r.2.1 r.2.2) := by
  rw [execChannelStage, if_neg hat, hr]
  rfl

theorem execChannelStage_of_not_runs (hat : s.chan.stageAt ≠ some s.cn) (hr : s.stageRuns = false) :
    execChannelStage s = .next (s.stageBegun.writeFrame 0 false) := by
  rw [execChannelStage, if_neg hat, hr]
  rfl

theorem State.stageRuns_of_running (h : s.run.phase = .running) (hf : cnLe s.run.first (cnSub s.cn s.hdr.rofs) = true) :
    s.stageRuns = true := by simp [State.stageRuns, h, hf]

theorem State.stageRuns_of_idle (h : s.run.phase = .idle) : s.stageRuns = false := by simp [State.stageRuns, h]

end

/-! ### Frames (08 R260 to R262) -/

section
variable {α : Type} (n : Nat) (l : List α) (a : α)

/-- The newest of what is kept is the last one put in. -/
theorem getLast?_keepLast_concat (h : 0 < n) : (keepLast n (l ++ [a])).getLast? = some a := by
  have hlt : (l ++ [a]).length - n < (l ++ [a]).length := by simp; omega
  rw [keepLast, List.getLast?_drop, if_neg (by omega), List.getLast?_concat]

end

theorem capDepth_pos (lanes : Dword) : 0 < capDepth lanes := by
  unfold capDepth
  split <;> omega

section
variable (s : State) (bcn : BitVec 16) (mtv : Bool)

/-- Quay q's frame of the present crossing put behind its earlier ones, where it captures a lane. -/
def State.putCapFrame (t : Tbl (List Frame)) (q : Nat) : Tbl (List Frame) :=
  if lanesIn (s.inputLanes s.cap.lanes) q = [] then t
  else tset t q (keepLast (capDepth (s.inputLanes s.cap.lanes)) (tget [] t q ++ [s.frameOf (cnSub s.cn s.hdr.rofs) bcn mtv q]))

theorem State.tget_putCapFrame_ne (t : Tbl (List Frame)) {p q : Nat} (h : p ≠ q) : tget [] (s.putCapFrame bcn mtv t q) p = tget [] t p := by
  unfold State.putCapFrame
  split
  · rfl
  · exact tget_tset_ne _ _ _ h

theorem State.getLast?_putCapFrame (t : Tbl (List Frame)) {q : Nat} (h : lanesIn (s.inputLanes s.cap.lanes) q ≠ []) :
    (tget [] (s.putCapFrame bcn mtv t q) q).getLast? = some (s.frameOf (cnSub s.cn s.hdr.rofs) bcn mtv q) := by
  rw [State.putCapFrame, if_neg h, tget_tset_same, getLast?_keepLast_concat _ _ _ (capDepth_pos _)]

/-- Every Quay that captures a lane has the crossing's frame as its newest. -/
theorem State.getLast?_putCapFrames (t : Tbl (List Frame)) {q : Nat} (hq : q < 4) (h : lanesIn (s.inputLanes s.cap.lanes) q ≠ []) :
    (tget [] ((List.range 4).foldl (s.putCapFrame bcn mtv) t) q).getLast? = some (s.frameOf (cnSub s.cn s.hdr.rofs) bcn mtv q) :=
  foldl_nodup (P := fun _ => True) (Q := fun t => (tget [] t q).getLast? = some (s.frameOf (cnSub s.cn s.hdr.rofs) bcn mtv q))
    List.nodup_range (List.mem_range.2 hq) (fun _ _ _ h => h) (fun t _ => s.getLast?_putCapFrame bcn mtv t h)
    (fun t p hp ht => by rwa [s.tget_putCapFrame_ne bcn mtv t hp.symm]) trivial

variable {s}

theorem State.writeFrame_cap_of_due (h : s.frameDue (cnSub s.cn s.hdr.rofs) = true) :
    (s.writeFrame bcn mtv).cap.lastFr = cnSub s.cn s.hdr.rofs ∧
    (s.writeFrame bcn mtv).cap.frames = (List.range 4).foldl (s.putCapFrame bcn mtv) s.cap.frames := by
  unfold State.writeFrame
  dsimp only
  rw [if_neg (by simp [h])]
  exact ⟨rfl, rfl⟩

theorem State.frameDue_of_writes {x : CN} (hw : s.cap.st.writes = true) (ha : cnLe s.cap.a0 x = true)
    (hs : ∀ c, s.cap.stopFr = some c → cnLt c s.cn = false) : s.frameDue x = true := by
  have hstop : (s.cap.stopFr.any fun c => cnLt c s.cn) = false := by
    cases h : s.cap.stopFr with
    | none => rfl
    | some c => exact hs c h
  simp [State.frameDue, hw, ha, hstop]

end

/-! ### Averaging (08 R275) -/

section
variable (c : Ctx)

theorem Ctx.avgEnd_sum : c.avgEnd.done.extractLsb' 0 40 = c.acc.extractLsb' 0 40 := BitVec.extractLsb'_append_eq_right

theorem Ctx.avgEnd_nsub : c.avgEnd.done.extractLsb' 57 7 = c.acc.extractLsb' 57 7 :=
  (BitVec.extractLsb'_append_eq_of_le (w := 40) (by decide)).trans BitVec.extractLsb'_append_eq_left

theorem Ctx.avgEnd_blocks : c.avgEnd.done.extractLsb' 40 17 = c.done.extractLsb' 40 17 + 1 :=
  (BitVec.extractLsb'_append_eq_of_le (w := 40) (by decide)).trans BitVec.extractLsb'_append_eq_right

end

/-- A context's block ended, and no longer due. -/
def State.averaged (s : State) (x : Nat) : State :=
  let u := s.setCtx x (s.ctxOf x).avgEnd
  { u with chan := { u.chan with avgDue := u.chan.avgDue.filter (· ≠ x) } }

theorem execAveragingBlockComplete_of_due {s : State} {x : Nat} (hx : x < 65536) (h : s.chan.avgDue.contains x = true) :
    execAveragingBlockComplete x s = .next ((s.averaged x).count .capAvg 1) := by
  rw [execAveragingBlockComplete, if_neg (Nat.not_le.2 hx), if_pos h]
  rfl

end Sys2Proof.Machine

open Sys2Proof Sys2Proof.Machine

/-- Settles O45: in a run the stage is stageInput_stageView's, and the frame that follows touches the wake buffer alone; outside one only the frame is
written (getLast?_putCapFrames); an averaging block ends as avgEnd has it. -/
theorem channelStageAndAveraging : Obligations.ChannelStageAndAveraging := by
  refine ⟨fun s hat hrun hfirst => ?_, fun s q hat hidle hq hw ha0 hle hstop hlanes => ?_, fun s x hx hdue => ?_⟩
  · refine ⟨_, execChannelStage_of_runs hat (State.stageRuns_of_running hrun hfirst), ?_⟩
    have hview := State.stageInput_stageView s.stageBegun (cnSub s.cn s.hdr.rofs)
    rw [← State.writeFrame_stageView] at hview
    simp only [State.stageView, Prod.mk.injEq] at hview
    obtain ⟨hstage, hout, harr⟩ := hview
    refine ⟨hstage, ⟨_, congrArg OutState.recs hout, rfl, rfl, rfl, rfl, rfl⟩, fun e hmap hquay => ?_⟩
    have hg := s.stageBegun.gathered_stageView (cnSub s.cn s.hdr.rofs)
    simp only [State.stageView, Prod.mk.injEq] at hg
    obtain ⟨-, -, hgarr⟩ := hg
    rw [harr, State.gathered_words_of_one s.stageBegun _ hmap hquay, State.driveChannels_one, hgarr]
    rfl
  · refine ⟨_, execChannelStage_of_not_runs hat (State.stageRuns_of_idle hidle), ?_⟩
    have hdue : s.stageBegun.frameDue (cnSub s.cn s.hdr.rofs) = true := State.frameDue_of_writes hw hle hstop
    obtain ⟨hlast, hframes⟩ := State.writeFrame_cap_of_due 0 false hdue
    refine ⟨by rw [State.writeFrame_frame]; rfl, by rw [State.writeFrame_frame]; rfl, hlast,
      s.stageBegun.frameOf (cnSub s.cn s.hdr.rofs) 0 false q, ?_, rfl, rfl⟩
    rw [hframes]
    exact State.getLast?_putCapFrames s.stageBegun 0 false _ hq hlanes
  · refine ⟨_, execAveragingBlockComplete_of_due hx hdue, ?_⟩
    have hctx : (((s.averaged x).count .capAvg 1).ctxOf x) = (s.ctxOf x).avgEnd := s.ctxOf_setCtx x _
    dsimp only
    rw [hctx]
    exact ⟨rfl, Ctx.avgEnd_sum _, Ctx.avgEnd_nsub _, Ctx.avgEnd_blocks _, by simp [State.averaged], State.ctr_count _ _ 1,
      fun y hy => s.ctxOf_setCtx_ne _ hy⟩

end

section
/-! PROOFS. Triggers, freezes and drains of the wake buffer, and the end of a deskew calibration (08 R255, R263 to R268). -/

namespace Sys2Proof.Machine

/-! ### One trigger, or none (08 R266) -/

section
variable (s : State)

/-- No candidate is left. -/
def State.withoutCands (s : State) : State := { s with cap := { s.cap with cands := [] } }

theorem State.settleTriggers_of_nil (h : s.cap.cands = []) : s.settleTriggers = s := by
  unfold State.settleTriggers
  rw [h]
  show s.withoutCands = s
  rw [State.withoutCands, ← h]

variable {g : Trig} (hc : s.cap.cands = [g])
include hc

/-- The one candidate is accepted in an open buffer that is ready for it. -/
theorem State.settleTriggers_of_accepted (ho : s.cap.st = .prefill ∨ s.cap.st = .armed) (hr : s.trigReady g = true) :
    s.settleTriggers = s.withoutCands.acceptTrig g.t g.src := by
  simp [State.settleTriggers, hc, ho, hr, lowestT, State.withoutCands]

/-- The one candidate of a buffer that is not open is ignored. -/
theorem State.settleTriggers_of_closed (ho : ¬(s.cap.st = .prefill ∨ s.cap.st = .armed)) :
    s.settleTriggers = s.withoutCands.ignoreTrig (s.ignoreAs g) := by
  simp [State.settleTriggers, hc, ho, State.withoutCands]

end

section
variable (s : State) (t : CN) (src : BitVec 4)

theorem State.acceptTrig_st : (s.acceptTrig t src).cap.st = .post := by simp [State.acceptTrig, State.flagRec]
theorem State.acceptTrig_trigCn : (s.acceptTrig t src).cap.trigCn = t := by simp [State.acceptTrig, State.flagRec]
theorem State.acceptTrig_trigSrc : (s.acceptTrig t src).cap.trigSrc = src := by simp [State.acceptTrig, State.flagRec]
theorem State.acceptTrig_cands : (s.acceptTrig t src).cap.cands = s.cap.cands := by simp [State.acceptTrig, State.flagRec]
theorem State.acceptTrig_kly : (s.acceptTrig t src).kly = s.kly := by simp [State.acceptTrig, State.flagRec]

theorem State.acceptTrig_shows : (s.acceptTrig t src).shows .cap 0 = true :=
  (State.shows_congr (t := s.acceptTrig t src) rfl).trans (State.shows_raiseBit _ .cap (by decide))

/-- A trigger that finds POST running is counted as ignored (08 R266). -/
theorem State.ignoreAs_of_post {g : Trig} (h : s.cap.st = .post) (hr : s.trigReady g = true) : s.ignoreAs g = some .capIgnBusy := by
  simp [State.ignoreAs, h, hr]

theorem State.ignoreTrig_cap (c : Option CtrId) : (s.ignoreTrig c).cap = s.cap := by cases c <;> simp [State.ignoreTrig]
theorem State.ignoreTrig_kly (c : Option CtrId) : (s.ignoreTrig c).kly = s.kly := by cases c <;> simp [State.ignoreTrig]

theorem State.ignoreTrig_some (c : CtrId) : s.ignoreTrig (some c) = (s.count c 1).raiseBit .cap 1 := rfl

end

/-! ### The freeze (08 R267) -/

section
variable (s : State)

/-- The buffer frozen, and its event raised. -/
def State.froze (s : State) : State := ({ s with cap := { s.cap with st := .frozen, stopFr := none } }).raiseBit .cap 3

theorem State.froze_cap : s.froze.cap = { s.cap with st := .frozen, stopFr := none } := State.raiseBit_cap _ _ _
theorem State.froze_kly : s.froze.kly = s.kly := State.raiseBit_kly _ _ _
theorem State.froze_mbx : s.froze.mbx = s.mbx := State.raiseBit_mbx _ _ _
theorem State.froze_pair : s.froze.pair = s.pair := State.raiseBit_pair _ _ _
theorem State.froze_ctrs : s.froze.ctrs = s.ctrs := State.raiseBit_ctrs _ _ _
theorem State.froze_run : s.froze.run = s.run := State.raiseBit_run _ _ _
theorem State.froze_chan : s.froze.chan = s.chan := State.raiseBit_chan _ _ _
theorem State.froze_shows : s.froze.shows .cap 3 = true := State.shows_raiseBit _ _ (by decide)
theorem State.froze_shows_of_shows {i : EvtId} {b : Nat} (h : s.shows i b = true) : s.froze.shows i b = true :=
  State.shows_raise_of_shows (s := { s with cap := { s.cap with st := .frozen, stopFr := none } }) h _ _

/-- The buffer frozen where that is due. -/
def State.frozeIfDue (s : State) : State := if s.freezeDue then s.froze else s

theorem State.frozeIfDue_of_due (h : s.freezeDue = true) : s.frozeIfDue = s.froze := if_pos h

/-- Frozen or not, a buffer keeps its trigger and its candidates; events and counters stand. -/
theorem State.frozeIfDue_keeps : s.frozeIfDue.cap.trigCn = s.cap.trigCn ∧ s.frozeIfDue.cap.trigSrc = s.cap.trigSrc ∧
    s.frozeIfDue.cap.cands = s.cap.cands ∧ s.frozeIfDue.ctrs = s.ctrs ∧
    (s.frozeIfDue.cap.st = s.cap.st ∨ s.frozeIfDue.cap.st = .frozen) := by
  unfold State.frozeIfDue
  split
  · rw [State.froze_cap, State.froze_ctrs]
    exact ⟨rfl, rfl, rfl, rfl, .inr rfl⟩
  · exact ⟨rfl, rfl, rfl, rfl, .inl rfl⟩

theorem State.frozeIfDue_shows {i : EvtId} {b : Nat} (h : s.shows i b = true) : s.frozeIfDue.shows i b = true := by
  unfold State.frozeIfDue
  split
  · exact s.froze_shows_of_shows h
  · exact h

variable {s}

/-- Without a deskew calibration the end of a crossing settles the triggers, and freezes a buffer that is due. -/
theorem execWakeBufferFreeze_of_no_deskew (hk : s.settleTriggers.kly = s.kly) (h : s.longOf 0x0A01 = none) :
    execWakeBufferFreeze s = .next s.settleTriggers.frozeIfDue := by
  have hl : s.settleTriggers.froze.longOf 0x0A01 = none := by rw [State.longOf_congr ((State.froze_kly _).trans hk), h]
  unfold execWakeBufferFreeze State.frozeIfDue
  dsimp only
  split
  · rw [← State.froze, hl]
  · rfl

theorem execWakeBufferFreeze_of_deskew {w : Waiting} (hc : s.cap.cands = []) (hd : s.freezeDue = true) (h : s.longOf 0x0A01 = some w) :
    execWakeBufferFreeze s = .next (s.froze.deskewEnd w) := by
  have hl : s.froze.longOf 0x0A01 = some w := by rw [State.longOf_congr s.froze_kly, h]
  unfold execWakeBufferFreeze
  dsimp only
  rw [s.settleTriggers_of_nil hc, if_pos hd, ← State.froze, hl]

end

/-! ### Klowyn's own context commits (15 R407, R413) -/

/-- The wake buffer, the mailboxes, the pair and the long commands in progress. -/
def State.ownView (s : State) : CapState × Tbl Mbx × PairState × List Waiting := (s.cap, s.mbx, s.pair, s.kly.longs)

section
variable (s : State)

/-- A command of Klowyn's own posts nothing to a mailbox. -/
theorem State.post_of_no_box {m : Nat} (h : 16 ≤ m) (e : RingEntry) : s.post m e = s := if_neg (Nat.not_lt.2 h)

theorem State.unbusy_of_no_box {m : Nat} (h : 16 ≤ m) : s.unbusy m = s := if_neg (Nat.not_lt.2 h)

theorem State.refuse_of_no_box {m : Nat} (h : 16 ≤ m) (r : KReq) (f : Refuse) : s.refuse m r f = s := by
  rw [State.refuse, State.post_of_no_box _ h, State.unbusy_of_no_box _ h]

theorem State.effectNotice_of_no_box {w : Waiting} (h : 16 ≤ w.mbx) (c : CN) : s.effectNotice w c = s.jEffect w.jseq c := by
  unfold State.effectNotice
  dsimp only
  rw [State.post_of_no_box _ h]

theorem ownCtxcommit_eq (w : Waiting) : ownCtxcommit s w = .now s 0 [] ∨ ∃ f, ownCtxcommit s w = .refuse f := by
  unfold ownCtxcommit
  dsimp only
  split
  · exact .inr ⟨_, rfl⟩
  · split
    · exact .inr ⟨_, rfl⟩
    · exact .inl rfl

theorem actCtxcommit_ownView (w : Waiting) : (actCtxcommit s w).ownView = s.ownView := by
  rw [actCtxcommit_eq]
  exact foldl_same State.ownView State.commitCtx (fun _ _ => rfl) _ s

theorem State.jEffect_ownView (q : Nat) (c : CN) : (s.jEffect q c).ownView = s.ownView := rfl
theorem State.await_ownView (w : Waiting) : (s.await w).ownView = s.ownView := rfl
theorem State.jAdd_ownView (e : JEnt) : (s.jAdd e).ownView = s.ownView := rfl

theorem State.logEvent_ownView (e : LogEvt) : (s.logEvent e).ownView = s.ownView := by simp [State.ownView]

theorem kFinish_of_no_box {c : CmdSpec} {w : Waiting} (hp : s.pairMode = false) (h : 16 ≤ w.mbx) (hx : c.cross (c.opds w.req) = true) (d : Dword)
    (l : List Byte) : kFinish c s w d l = s := by
  simp [kFinish, mirrors_alone c hp, hx, Nat.not_lt.2 h]

theorem KCmd.note_ownView (c : KCmd) (w : Waiting) : (c.note w s).ownView = s.ownView := by
  unfold KCmd.note
  split
  · exact s.logEvent_ownView _
  · rfl

variable {s} {c : KCmd} {m : Nat} {r : KReq}

/-- The state in which the owning chapter is asked on behalf of mailbox m: journaled where the row says so. -/
def KCmd.askedBy (c : KCmd) (m : Nat) (r : KReq) (s : State) : State := if c.spec.jrn then s.jAdd (s.jEntry c.spec m r 0) else s

theorem KCmd.askedBy_ownView : (c.askedBy m r s).ownView = s.ownView := by
  unfold KCmd.askedBy
  split <;> rfl

theorem KCmd.askedBy_pairMode : (c.askedBy m r s).pairMode = s.pairMode := by
  unfold KCmd.askedBy
  split <;> rfl

theorem kRun_refused_by_chapter {f : Refuse} (hk : kCheck c.spec m r s = none)
    (ho : c.own (c.askedBy m r s) (s.mkWaiting c.spec m r) = .refuse f) : kRun c m r s = s.refuse m r f := by
  unfold kRun
  rw [hk]
  dsimp only
  rw [← KCmd.askedBy, ho]

/-- A command of Klowyn's own that names a crossing, accepted with nothing changed, is entered in a recording and then takes effect at once or
waits for its crossing. -/
theorem kRun_of_no_box (hm : 16 ≤ m) (hp : s.pairMode = false) (hk : kCheck c.spec m r s = none) (hx : c.spec.cross (c.spec.opds r) = true)
    (ho : c.own (c.askedBy m r s) (s.mkWaiting c.spec m r) = .now (c.askedBy m r s) 0 []) :
    let w := s.mkWaiting c.spec m r
    let u := c.note w (c.askedBy m r s)
    kRun c m r s = if c.spec.atOnce s r then (c.act u w).jEffect w.jseq s.cn else u.await w := by
  have hbox : 16 ≤ (s.mkWaiting c.spec m r).mbx := hm
  have hfin := kFinish_of_no_box (c.askedBy m r s) (c := c.spec) (w := s.mkWaiting c.spec m r) (KCmd.askedBy_pairMode.trans hp) hbox hx 0 []
  unfold kRun
  rw [hk]
  dsimp only
  rw [← KCmd.askedBy, ho]
  dsimp only
  rw [hfin, hx, State.effectNotice_of_no_box _ hbox]
  rfl

/-- Such a command touches no more than its effect does, beside journal, recording and the list of those that wait. -/
theorem kRun_ownView (hm : 16 ≤ m) (hp : s.pairMode = false) (hx : ∀ o, c.spec.cross o = true)
    (ho : ∀ u w, c.own u w = .now u 0 [] ∨ ∃ f, c.own u w = .refuse f) (ha : ∀ u w, (c.act u w).ownView = u.ownView) :
    (kRun c m r s).ownView = s.ownView := by
  cases hk : kCheck c.spec m r s with
  | some f => rw [kRun_refused hk, State.refuse_of_no_box _ hm]
  | none =>
    obtain hown | ⟨f, hown⟩ := ho (c.askedBy m r s) (s.mkWaiting c.spec m r)
    · rw [kRun_of_no_box hm hp hk (hx _) hown]
      split
      · rw [State.jEffect_ownView, ha, KCmd.note_ownView, KCmd.askedBy_ownView]
      · rw [State.await_ownView, KCmd.note_ownView, KCmd.askedBy_ownView]
    · rw [kRun_refused_by_chapter hk hown, State.refuse_of_no_box _ hm]

theorem cmdCtxcommit_own : cmdCtxcommit.own = ownCtxcommit := by rw [cmdCtxcommit]

/-- A context commit of Klowyn's own touches neither buffer nor mailboxes. -/
theorem State.ownCommit_ownView (hp : s.pairMode = false) (es : List (List Byte)) : (s.ownCommit es).ownView = s.ownView := by
  unfold State.ownCommit
  exact kRun_ownView (by decide) hp (fun _ => rfl) (by rw [cmdCtxcommit_own]; exact ownCtxcommit_eq)
    (by rw [cmdCtxcommit_act]; exact actCtxcommit_ownView)

theorem State.foldl_ownCommit_ownView (l : List (List (List Byte))) (hp : s.pairMode = false) :
    (l.foldl State.ownCommit s).ownView = s.ownView := by
  induction l generalizing s with
  | nil => rfl
  | cons a l ih =>
    have hone := State.ownCommit_ownView hp a
    have hpair : (s.ownCommit a).pair = s.pair := congrArg (fun v => v.2.2.1) hone
    exact (ih ((State.pairMode_congr hpair).trans hp)).trans hone

end

/-! ### The end of a deskew calibration (08 R255, R259) -/

section
variable (s : State) (w : Waiting)

/-- The calibration over: its command dropped, the buffer free. -/
def State.calibrated (s : State) (w : Waiting) : State :=
  { s.dropLong w with cap := { s.cap with st := .idle, frames := [], stopFr := none } }

/-- The crossings in which the reference shows, channel by channel. -/
def State.deskewCrossings (s : State) (w : Waiting) : List (Option CN) := (s.deskewCtxs w).map (s.deskewSeen w)

/-- The latest of them. -/
def State.deskewLatest (s : State) (w : Waiting) : CN :=
  ((s.deskewCrossings w).filterMap id).foldl laterCn (cnSub w.ref (w.req.opd 3).toNat)

/-- The commit entries that move every channel to the latest crossing. -/
def State.deskewEntries (s : State) (w : Waiting) : List (List Byte) := (s.deskewCtxs w).map fun e =>
  ctxEntry e.ctx (s.ctxOf e.ctx) (s.deskewLatest w - (s.deskewSeen w e).getD 0).toNat

/-- The calibration's end once every channel's commit has been run. -/
def State.deskewCommitted (s : State) (w : Waiting) : State :=
  (chunks 125 (s.deskewEntries w).length (s.deskewEntries w)).foldl State.ownCommit (s.calibrated w)

theorem State.deskewCommitted_ownView (hp : s.pairMode = false) :
    (s.deskewCommitted w).ownView = ({ s.cap with st := .idle, frames := [], stopFr := none }, s.mbx, s.pair, (s.dropLong w).kly.longs) :=
  State.foldl_ownCommit_ownView (s := s.calibrated w) _ hp

/-- Every channel shows the reference within 15 crossings of the latest. -/
def State.deskewFits (s : State) (w : Waiting) : Prop :=
  ∀ k ∈ s.deskewCrossings w, ∃ c, k = some c ∧ (s.deskewLatest w - c).toNat ≤ 15

theorem State.deskewEnd_of_fits (hp : s.pairMode = false) (hf : s.deskewFits w) :
    s.deskewEnd w = (s.deskewCommitted w).endLong w (BitVec.ofNat 64 (s.deskewCtxs w).length) [] := by
  have hlatest : (((s.deskewCtxs w).map fun e => (e, s.deskewSeen w e)).filterMap Prod.snd).foldl laterCn
      (cnSub w.ref (w.req.opd 3).toNat) = s.deskewLatest w := by
    rw [State.deskewLatest, State.deskewCrossings, List.filterMap_map, List.filterMap_map]
    rfl
  have hfind : (((s.deskewCtxs w).map fun e => (e, s.deskewSeen w e)).find? fun p =>
      (p.2.map fun k => decide ((s.deskewLatest w - k).toNat > 15)).getD true) = none := by
    rw [List.find?_eq_none]
    intro p hmem
    obtain ⟨e, he, rfl⟩ := List.mem_map.1 hmem
    obtain ⟨c, hc, hle⟩ := hf _ (List.mem_map_of_mem he)
    simp only [hc, Option.map_some, Option.getD_some, decide_eq_true_eq]
    exact Nat.not_lt.2 hle
  have hpair : ¬(s.pairMode && decide (s.pair.role = 2)) = true := by simp [hp]
  unfold State.deskewEnd
  dsimp only
  rw [if_neg hpair, hlatest, hfind]
  simp only [List.map_map, List.length_map]
  have hlen : (s.deskewCtxs w).length = (s.deskewEntries w).length := (List.length_map _).symm
  rw [State.deskewCommitted, ← hlen]
  rfl

theorem State.froze_deskewCtxs : s.froze.deskewCtxs w = s.deskewCtxs w := by
  simp only [State.deskewCtxs, State.img, State.imgAt, State.libSlot, State.armed, State.ctxOf, State.froze_kly, State.froze_run, State.froze_chan]

theorem State.froze_deskewSeen (e : CmapEnt) : s.froze.deskewSeen w e = s.deskewSeen w e := by
  simp only [State.deskewSeen, State.froze_cap]

theorem State.froze_deskewCrossings : s.froze.deskewCrossings w = s.deskewCrossings w := by
  rw [State.deskewCrossings, State.froze_deskewCtxs]
  exact List.map_congr_left fun e _ => s.froze_deskewSeen w e

theorem State.froze_deskewFits (h : s.deskewFits w) : s.froze.deskewFits w := by
  rwa [State.deskewFits, State.deskewLatest, State.froze_deskewCrossings]

end

/-! ### Host memory outlasts interrupts and completions -/

section
variable (s : State)

theorem State.signal_dma (v : Nat) : (s.signal v).host.dma = s.host.dma := by
  unfold State.signal
  split <;> rfl

theorem State.raiseBit_dma (i : EvtId) (b : Nat) : (s.raiseBit i b).host.dma = s.host.dma := by
  unfold State.raiseBit State.raise
  dsimp only
  split
  · rfl
  · split
    · rfl
    · exact State.signal_dma _ _

theorem State.post_dma (m : Nat) (e : RingEntry) : (s.post m e).host.dma = s.host.dma := by
  unfold State.post
  dsimp only
  split
  · split
    · exact State.signal_dma _ _
    · split <;> rfl
  · rfl

theorem State.complete_dma (m : Nat) (r : KReq) (q : Nat) (c : CN) (d : Dword) (l : List Byte) :
    (s.complete m r q c d l).host.dma = s.host.dma := by
  rw [State.complete, State.unbusy_host, State.post_dma, State.setBuf_host]

theorem State.endLong_dma (w : Waiting) (d : Dword) (l : List Byte) : (s.endLong w d l).host.dma = s.host.dma := by
  unfold State.endLong
  dsimp only
  split
  · rfl
  · rw [State.complete_dma, State.jEnd_host]

theorem State.drained_dma : s.drained.host.dma = s.host.dma := by
  have hopen : s.reopened.host.dma = s.host.dma := State.raiseBit_dma _ _ _
  cases h : s.longOf 0x0603 with
  | none => rw [s.drained_of_no_long h, hopen]
  | some w => rw [s.drained_of_long h, State.endLong_dma, State.dropLong_host, hopen]

end

/-! ### The end of a drain (08 R268) -/

section
variable (s : State)

/-- A drain to host memory, and one to the readout lanes. -/
def State.drainedToHost (s : State) (w : Waiting) : State := s.hostWrite (w.req.opd 1).toNat s.drainBytes
def State.drainedToLanes (s : State) : State :=
  let pk := (List.range 4).flatMap s.quayPackets
  pk.foldl State.sendPacket { s with cap := { s.cap with sent := pk } }

theorem State.drainedToLanes_frame : s.drainedToLanes = { s with
    cap := { s.cap with sent := (List.range 4).flatMap s.quayPackets }, lanes := s.drainedToLanes.lanes } :=
  List.foldlRecOn (motive := fun u : State => u = { s with
    cap := { s.cap with sent := (List.range 4).flatMap s.quayPackets }, lanes := u.lanes }) _ _ rfl fun u hu a _ => by
    rw [hu]
    rfl

/-- Every frame delivered to where the drain's DEST says. -/
def State.delivered (s : State) (w : Waiting) : State := if w.req.opd 0 = 1 then s.drainedToHost w else s.drainedToLanes

theorem State.delivered_frame (w : Waiting) : s.delivered w = { s with
    cap := { s.cap with sent := (s.delivered w).cap.sent }, lanes := (s.delivered w).lanes, host := (s.delivered w).host } := by
  unfold State.delivered
  split
  · rfl
  · rw [State.drainedToLanes_frame]

theorem execDrainComplete_of_draining {w : Waiting} (hst : s.cap.st = .draining) (hw : s.longOf 0x0603 = some w) :
    execDrainComplete s = .next (s.delivered w).drained := by
  rw [execDrainComplete, if_neg (not_not_intro hst), hw]
  rfl

/-- The drain's command ends with the drain (15 R400, R407). -/
theorem State.ends_drained {w : Waiting} (hw : s.longOf 0x0603 = some w) : Ends s (s.delivered w).drained w 0 := by
  have hframe := s.delivered_frame w
  generalize s.delivered w = u at hframe ⊢
  have hl : u.longOf 0x0603 = some w := by rw [State.longOf_congr (s := s) (by rw [hframe]), hw]
  rw [u.drained_of_long hl]
  refine ends_endLong ?_ ?_ ?_
  · rw [State.dropLong_mbx, State.reopened_mbx, hframe]
  · rw [State.dropLong_pair, State.reopened_pair, hframe]
  · rw [State.dropLong, State.reopened_kly, hframe]
    rfl

end

/-! ### An external accept (08 R265, 19 R512) -/

section
variable (s : State)

theorem State.ccmdWord_cap (w : Byte) : (s.ccmdWord w).cap = s.cap := by simp [State.ccmdWord]

theorem State.externalAccept_pkg : s.externalAccept.pkg = s.pkg := by
  unfold State.externalAccept
  split <;> rfl

theorem State.externalAccept_cap : s.externalAccept.cap = if s.cap.cfg.getLsbD 29 then
    { s.cap with cands := s.cap.cands ++ [{ t := cnSub s.cn (s.cap.cfg.extractLsb' 16 12).toNat, src := 4 }] } else s.cap := by
  unfold State.externalAccept
  split <;> rfl

theorem execExternalAccept_of_run (h : s.run.replay = false) : execExternalAccept s = .next (s.ccmdWord 0x5A).externalAccept := by
  simp [execExternalAccept, h]

end

/-! ### Each command, where it is due -/

section
variable {s : State}

/-- A buffer that is due freezes at the end of the crossing (08 R267). -/
theorem execWakeBufferFreeze_freezes (hc : s.cap.cands = []) (hd : s.freezeDue = true) (hl : s.longOf 0x0A01 = none) :
    GoesTo (execWakeBufferFreeze s) fun t => t.cap = { s.cap with st := .frozen, stopFr := none } ∧ t.shows .cap 3 = true := by
  have hset := s.settleTriggers_of_nil hc
  refine ⟨_, execWakeBufferFreeze_of_no_deskew (by rw [hset]) hl, ?_⟩
  rw [hset, s.frozeIfDue_of_due hd]
  exact ⟨s.froze_cap, s.froze_shows⟩

/-- An armed buffer that is ready for a trigger accepts it (08 R266). -/
theorem execWakeBufferFreeze_accepts {g : Trig} (hc : s.cap.cands = [g]) (hst : s.cap.st = .armed) (hr : s.trigReady g = true)
    (hl : s.longOf 0x0A01 = none) :
    GoesTo (execWakeBufferFreeze s) fun t => t.cap.trigCn = g.t ∧ t.cap.trigSrc = g.src ∧ t.shows .cap 0 = true ∧
      (t.cap.st = .post ∨ t.cap.st = .frozen) ∧ t.cap.cands = [] := by
  have hset := s.settleTriggers_of_accepted hc (.inr hst) hr
  refine ⟨_, execWakeBufferFreeze_of_no_deskew (by rw [hset, State.acceptTrig_kly]; rfl) hl, ?_⟩
  obtain ⟨hcn, hsrc, hcands, -, hstate⟩ := s.settleTriggers.frozeIfDue_keeps
  rw [hset] at hcn hsrc hcands hstate ⊢
  rw [State.acceptTrig_st] at hstate
  exact ⟨hcn.trans (State.acceptTrig_trigCn _ _ _), hsrc.trans (State.acceptTrig_trigSrc _ _ _),
    State.frozeIfDue_shows _ (State.acceptTrig_shows _ _ _), hstate, hcands.trans (State.acceptTrig_cands _ _ _)⟩

/-- A trigger that finds POST running is ignored (08 R266). -/
theorem execWakeBufferFreeze_ignores {g : Trig} (hc : s.cap.cands = [g]) (hst : s.cap.st = .post) (hr : s.trigReady g = true)
    (hl : s.longOf 0x0A01 = none) :
    GoesTo (execWakeBufferFreeze s) fun t => t.ctr .capIgnBusy = satAdd (s.ctr .capIgnBusy) 1 ∧ t.shows .cap 1 = true ∧
      t.cap.trigCn = s.cap.trigCn ∧ t.cap.trigSrc = s.cap.trigSrc := by
  have hset := s.settleTriggers_of_closed hc (by simp [hst])
  rw [s.ignoreAs_of_post hst hr] at hset
  refine ⟨_, execWakeBufferFreeze_of_no_deskew (by rw [hset, State.ignoreTrig_kly]; rfl) hl, ?_⟩
  obtain ⟨hcn, hsrc, -, hctr, -⟩ := s.settleTriggers.frozeIfDue_keeps
  rw [hset] at hcn hsrc hctr ⊢
  rw [State.ignoreTrig_cap] at hcn hsrc
  refine ⟨?_, State.frozeIfDue_shows _ (State.shows_raiseBit _ .cap (by decide)), hcn, hsrc⟩
  rw [State.ctr_congr hctr, State.ignoreTrig_some, State.ctr_congr (State.raiseBit_ctrs _ _ _), State.ctr_count]
  rfl

/-- The freeze of a calibration's capture ends the calibration where every channel fits (08 R255). -/
theorem execWakeBufferFreeze_calibrates {w : Waiting} (hc : s.cap.cands = []) (hd : s.freezeDue = true) (hl : s.longOf 0x0A01 = some w)
    (hp : s.pairMode = false) (hf : s.deskewFits w) :
    GoesTo (execWakeBufferFreeze s) fun t => t.cap.st = .idle ∧ t.cap.frames = [] ∧
      Ends s t w (BitVec.ofNat 64 (s.deskewCtxs w).length) := by
  have hpair : s.froze.pairMode = false := (State.pairMode_congr s.froze_pair).trans hp
  have hview := s.froze.deskewCommitted_ownView w hpair
  simp only [State.ownView, Prod.mk.injEq] at hview
  obtain ⟨hcap, hmbx, hpr, hlongs⟩ := hview
  refine ⟨_, execWakeBufferFreeze_of_deskew hc hd hl, ?_⟩
  dsimp only
  rw [s.froze.deskewEnd_of_fits w hpair (s.froze_deskewFits w hf), State.froze_deskewCtxs, State.endLong_cap, hcap]
  refine ⟨rfl, rfl, ends_endLong (hmbx.trans s.froze_mbx) (hpr.trans s.froze_pair) ?_⟩
  rw [hlongs, State.dropLong, s.froze_kly]
  rfl

/-- A drain delivers every frame, ends its command, and frees the buffer or opens it anew (08 R263, R264, R268). -/
theorem execDrainComplete_drains {w : Waiting} (hst : s.cap.st = .draining) (hw : s.longOf 0x0603 = some w) :
    GoesTo (execDrainComplete s) fun t => t.cap.st = (if s.cap.cfg.getLsbD 31 then .prefill else .idle) ∧ t.cap.frames = [] ∧
      t.shows .cap 4 = true ∧ Ends s t w 0 ∧
      (w.req.opd 0 = 1 → t.host.dma = tputs 0 s.host.dma (w.req.opd 1).toNat s.drainBytes) ∧
      (w.req.opd 0 ≠ 1 → t.cap.sent = (List.range 4).flatMap s.quayPackets) := by
  have hcap : (s.delivered w).drained.cap = { s.cap with sent := (s.delivered w).cap.sent }.reopen := by
    rw [State.drained_cap, State.delivered_frame]
  refine ⟨_, execDrainComplete_of_draining s hst hw, ?_⟩
  dsimp only
  rw [hcap]
  refine ⟨CapState.reopen_st _, CapState.reopen_frames _, State.drained_shows _, s.ends_drained hw, fun hd => ?_, fun hd => ?_⟩
  · rw [State.drained_dma, State.delivered, if_pos hd]
    rfl
  · rw [CapState.reopen_sent, State.delivered, if_neg hd, State.drainedToLanes_frame]

end

end Sys2Proof.Machine

open Sys2Proof Sys2Proof.Machine

/-- Settles O46: the end of a crossing settles its triggers and freezes a buffer that is due (execWakeBufferFreeze_of_no_deskew); a calibration ends
there with commits that touch neither buffer nor mailboxes (deskewCommitted_ownView); a drain delivers its frames and ends as drained has it. -/
theorem wakeBufferTriggersAndDrains : Obligations.WakeBufferTriggersAndDrains := by
  refine ⟨fun s hc hd hl => execWakeBufferFreeze_freezes hc hd hl, fun s g hc hst _ ha0 ht hl => ?_,
    fun s g hc hst hr hl => execWakeBufferFreeze_ignores hc hst hr hl, fun s w hc hd hl hp => execWakeBufferFreeze_calibrates hc hd hl hp,
    fun s w hst hw => execDrainComplete_drains hst hw, fun s hr => ⟨_, execExternalAccept_of_run s hr, ?_⟩⟩
  · exact execWakeBufferFreeze_accepts hc hst (by simp [State.trigReady, ha0, ht]) hl
  · dsimp only
    rw [State.externalAccept_pkg, State.externalAccept_cap, State.ccmdWord_pkg, State.ccmdWord_cap, State.ccmdWord_cn]
    exact ⟨rfl, rfl⟩

end

section
/-! PROOFS. Lane reception: codewords, alignment markers and lock, training bursts, and the frame that enters the elastic buffer (09 R284 to R289,
R303, 17 R465). -/

namespace Sys2Proof.Machine

/-! ### A lane's counters and events leave every lane alone (09 R305) -/

section
variable (s : State) (l k : Nat)

@[simp] theorem State.lnkCount_lane (c n : Nat) : (s.lnkCount l c n).lane k = s.lane k := State.lane_congr (s.count_lanes _ _) k
@[simp] theorem State.lnkEvt_lane (b : Nat) : (s.lnkEvt l b).lane k = s.lane k := State.lane_congr (s.raiseBit_lanes _ _) k
@[simp] theorem State.coverChange_lane (learn : Bool) : (s.coverChange learn).lane k = s.lane k := State.lane_congr (s.coverChange_lanes _) k

@[simp] theorem State.lnkCount_ctr (c n : Nat) : (s.lnkCount l c n).ctr (.lnk l c) = satAdd (s.ctr (.lnk l c)) n := s.ctr_count _ _
@[simp] theorem State.lnkEvt_ctr (b : Nat) (i : CtrId) : (s.lnkEvt l b).ctr i = s.ctr i := State.ctr_congr (s.raiseBit_ctrs _ _) i
@[simp] theorem State.setLane_ctr (x : Lane) (i : CtrId) : (s.setLane l x).ctr i = s.ctr i := rfl

theorem State.shows_lnkEvt {b : Nat} (hb : b < 32) : (s.lnkEvt l b).shows (.lnk l) b = true := s.shows_raiseBit _ hb

end

/-! ### Codewords (09 R284) -/

section
variable {s : State} {l : Nat} {syms : List Nat}

theorem State.rxCodeword_of_corrected {w : List Nat} (h : gfLane.decode 8 (syms.map (· % 1024)) = some w) :
    s.rxCodeword l syms = (s.setLane l ((s.lane l).take s.cn s.tick false (w.take 165))).lnkCount l 0 (symDiff (syms.map (· % 1024)) w) := by
  simp only [State.rxCodeword, h]

theorem State.rxCodeword_of_lost (h : gfLane.decode 8 (syms.map (· % 1024)) = none) :
    s.rxCodeword l syms =
      ((s.setLane l ((s.lane l).take s.cn s.tick true ((syms.map (· % 1024)).take 165))).lnkCount l 1 1).lnkEvt l 0 := by
  simp only [State.rxCodeword, h]

theorem Lane.take_ueRun (x : Lane) (cn : CN) (tick : Nat) (lost : Bool) (syms : List Nat) :
    (x.take cn tick lost syms).ueRun = if lost then x.ueRun + 1 else 0 := rfl

theorem execCodewordReceive_of_locked (hl : l < 64) (hs : syms.length = 173) (hk : (s.lane l).lock = true) :
    execCodewordReceive l syms s = .next (s.rxCodeword l syms) := by
  simp [execCodewordReceive, hl, hs, hk]

end

/-! ### Alignment markers and lock (09 R286, R288) -/

/-- The number nearest to CN agrees with v modulo 2^24. -/
theorem nearCn_low (cn : CN) (v : BitVec 24) : (nearCn cn v).extractLsb' 0 24 = v := by
  have hext (d : BitVec 24) : (d.signExtend 48).setWidth 24 = d := by
    ext i hi
    rw [BitVec.getElem_setWidth, BitVec.getLsbD_signExtend]
    simp [hi, Nat.lt_trans hi (by decide : 24 < 48)]
  simp only [nearCn, ← BitVec.setWidth_eq_extractLsb' (by decide : 24 ≤ 48)]
  rw [BitVec.setWidth_add _ _ (by decide), hext, BitVec.add_comm, BitVec.sub_add_cancel]

/-- The lane as the numbering of a marker leaves it (R288, R304). -/
def Lane.anchored (x : Lane) (cn : CN) (p : Dword) : Lane :=
  let y := x.newOfs cn
  let z := if y.anchor then y else { y with dmg := false, known := false }
  { z with anchor := true, fresh := true, nextX := nearCn cn (mkCnx p + y.cnofs) }

section
variable (x : Lane) (cn : CN) (p : Dword)

theorem Lane.marked_explid : (x.marked p).explid = x.explid := by
  unfold Lane.marked
  split <;> rfl

/-- What a marker says of lock and LID, and the position of the next one. -/
theorem Lane.marked_fields : (x.marked p).lock = true ∧ (x.marked p).lid = mkLid p ∧ (x.marked p).nextM = (mkM p + 1) % 25 ∧
    (x.marked p).burst = false := by
  unfold Lane.marked
  split <;> exact ⟨rfl, rfl, rfl, rfl⟩

theorem Lane.newOfs_fields : (x.newOfs cn).lock = x.lock ∧ (x.newOfs cn).lid = x.lid ∧ (x.newOfs cn).nextM = x.nextM ∧
    (x.newOfs cn).burst = x.burst := by
  unfold Lane.newOfs
  split
  · split <;> exact ⟨rfl, rfl, rfl, rfl⟩
  · exact ⟨rfl, rfl, rfl, rfl⟩

/-- The numbering leaves lock, LID and the prediction alone. -/
theorem Lane.anchored_fields : (x.anchored cn p).lock = x.lock ∧ (x.anchored cn p).lid = x.lid ∧ (x.anchored cn p).nextM = x.nextM ∧
    (x.anchored cn p).burst = x.burst := by
  obtain ⟨hlock, hlid, hnext, hburst⟩ := x.newOfs_fields cn
  rw [← hlock, ← hlid, ← hnext, ← hburst]
  unfold Lane.anchored
  dsimp only
  split <;> exact ⟨rfl, rfl, rfl, rfl⟩

theorem Lane.anchored_nextX : (x.anchored cn p).nextX.extractLsb' 0 24 = mkCnx p + (x.anchored cn p).cnofs := by
  have hofs : (x.anchored cn p).cnofs = (x.newOfs cn).cnofs := by
    unfold Lane.anchored
    dsimp only
    split <;> rfl
  rw [hofs]
  exact nearCn_low cn _

end

section
variable {s : State} {l : Nat} {p : Dword}

theorem State.slip_lane (k : Nat) : (s.slip l).lane k = s.lane k := by simp [State.slip]

theorem State.anchor_lane : (s.anchor l p).lane l = (s.lane l).anchored s.cn p := by
  unfold State.anchor Lane.anchored
  dsimp only
  split
  · rw [State.slip_lane]
    split <;> simp
  · split <;> simp

theorem State.takeMarker_of_named (h : (s.lane l).explid = 0 ∨ mkLid p = (s.lane l).explid) :
    s.takeMarker l p = (s.setLane l ((s.lane l).marked p)).anchor l p := by
  unfold State.takeMarker
  dsimp only
  rw [Lane.marked_explid, if_neg (by tauto)]

theorem State.takeMarker_of_misnamed (h0 : (s.lane l).explid ≠ 0) (h : mkLid p ≠ (s.lane l).explid) :
    s.takeMarker l p = (s.setLane l ((s.lane l).marked p).unlocked).lnkEvt l 7 := by
  unfold State.takeMarker
  dsimp only
  rw [Lane.marked_explid, if_pos ⟨h0, h⟩]

/-- The lane after a marker that names it. -/
theorem State.takeMarker_lane (h : (s.lane l).explid = 0 ∨ mkLid p = (s.lane l).explid) :
    (s.takeMarker l p).lane l = ((s.lane l).marked p).anchored s.cn p := by
  rw [State.takeMarker_of_named h, State.anchor_lane, State.lane_setLane, State.setLane_cn]

variable (hl : l < 64) (hp : p.extractLsb' 0 24 = 0xF628B4#24) (hk : (s.lane l).lock = false) {gap : Nat}
include hl hp hk

theorem execAlignmentMarker_of_acquiring (ha : (s.lane l).acquires p gap = true) :
    execAlignmentMarker l p gap s = .next (s.takeMarker l p) := by
  simp [execAlignmentMarker, markerOk, hl, hp, hk, ha]

theorem execAlignmentMarker_of_candidate (ha : (s.lane l).acquires p gap = false) :
    execAlignmentMarker l p gap s = .next (s.setLane l { s.lane l with cand := some (mkM p), burst := false }) := by
  simp [execAlignmentMarker, markerOk, hl, hp, hk, ha]

end

theorem Lane.acquires_of_burst {x : Lane} {gap : Nat} (p : Dword) (hb : x.burst = true) (hg : 66 * gap ≤ 2048 * x.ui) :
    x.acquires p gap = true := by
  simp [Lane.acquires, hb, hg]

theorem Lane.acquires_of_candidate {x : Lane} {p : Dword} {m : Nat} (hc : x.cand = some m) (hm : mkM p = (m + 1) % 25) :
    x.acquires p 16384 = true := by
  simp [Lane.acquires, hc, hm]

theorem Lane.acquires_of_neither {x : Lane} (p : Dword) (gap : Nat) (hb : x.burst = false) (hc : x.cand = none) : x.acquires p gap = false := by
  simp [Lane.acquires, hb, hc]

/-! ### The loss of lock (09 R286, 15 R405) -/

section
variable (s : State) (l : Nat)

theorem State.abortOnLane_frame : (s.abortOnLane l).lanes = s.lanes ∧ (s.abortOnLane l).evts = s.evts := by
  have hfold (ws : List Waiting) : ((ws.foldl (fun t w => t.abortLong w { code := 0xB00D }) s).lanes,
      (ws.foldl (fun t w => t.abortLong w { code := 0xB00D }) s).evts) = (s.lanes, s.evts) :=
    foldl_same (fun u : State => (u.lanes, u.evts)) _ (fun u w => by simp) ws s
  have h := fun ws => Prod.mk.inj (hfold ws)
  unfold State.abortOnLane
  dsimp only
  split
  · rw [State.setSext_lanes, State.setSext_evts]
    exact h _
  · exact h _

/-- No eye scan of the lane goes on. -/
theorem State.no_scan_of_mem_abortOnLane {w : Waiting} (h : w ∈ (s.abortOnLane l).kly.longs) (hop : w.req.op = 0x0A04) :
    w.req.opd 0 ≠ BitVec.ofNat 64 l := by
  intro hl
  unfold State.abortOnLane at h
  dsimp only at h
  split at h <;> simp [hop, hl] at h

theorem execLockLoss_of_lost {s : State} {l : Nat} (hl : l < 64) (hk : (s.lane l).lock = true)
    (h : 3 ≤ (s.lane l).missed ∨ 8 ≤ (s.lane l).ueRun) :
    execLockLoss l s = .next (((s.setLane l (s.lane l).unlocked).lnkEvt l 4).abortOnLane l) := by
  simp [execLockLoss, hl, hk, h]

end

/-! ### Training bursts (09 R303, 17 R465) -/

section
variable {s : State} {l : Nat} (hl : l < 64)
include hl

theorem execTrainingBurst_of_deaf (h : (s.lane l).wake = false ∨ s.clk.safe = true) : execTrainingBurst l s = .next s := by
  obtain h | h := h <;> simp [execTrainingBurst, hl, h]

theorem execTrainingBurst_of_waking (hw : (s.lane l).wake = true) (hs : s.clk.safe = false) :
    execTrainingBurst l s = .next (s.setLane l { (s.lane l).unlocked with eirx := false, burst := true }) := by
  simp [execTrainingBurst, hl, hw, hs]

end

/-! ### The blocks of a frame (09 R287) -/

/-- One block of a frame put in its place. -/
def packBlock (at_ : Nat) (a : BitVec 1984 × BitVec 31) (p : RxBlk × Nat) : BitVec 1984 × BitVec 31 :=
  (a.1 ||| (p.1.pay.setWidth 1984) <<< (64 * (at_ + p.2)), if p.1.isLost then a.2 ||| (1 : BitVec 31) <<< (at_ + p.2) else a.2)

theorem packFrame_eq (at_ : Nat) (bs : List RxBlk) :
    packFrame at_ bs = bs.zipIdx.foldl (packBlock at_) (0, BitVec.ofNat 31 (2 ^ at_ - 1)) := rfl

/-- A frame of which no block is lost has no bit in its mask. -/
theorem packFrame_mask {bs : List RxBlk} (h : ∀ b ∈ bs, b.isLost = false) : (packFrame 0 bs).2 = 0 := by
  refine List.foldlRecOn (motive := fun a : BitVec 1984 × BitVec 31 => a.2 = 0) bs.zipIdx (packBlock 0) rfl fun a ha p hp => ?_
  have hlost : p.1.isLost = false := h _ (List.fst_mem_of_mem_zipIdx hp)
  simp only [packBlock, hlost, Bool.false_eq_true, if_false, ha]

/-- A block behind the first leaves the first block's bits alone. -/
theorem packBlock_low (a : BitVec 1984 × BitVec 31) {p : RxBlk × Nat} (hp : 1 ≤ p.2) :
    (packBlock 0 a p).1.extractLsb' 0 64 = a.1.extractLsb' 0 64 := by
  ext i hi
  simp [packBlock]
  omega

theorem packFrame_low (m : RxBlk) (bs : List RxBlk) : (packFrame 0 (m :: bs)).1.extractLsb' 0 64 = m.pay := by
  rw [packFrame_eq, List.zipIdx_cons, List.foldl_cons]
  refine List.foldlRecOn (motive := fun a : BitVec 1984 × BitVec 31 => a.1.extractLsb' 0 64 = m.pay) _ (packBlock 0) ?_ fun a ha p hp => ?_
  · ext i hi
    simp [packBlock, hi]
    omega
  · rw [packBlock_low a (List.le_snd_of_mem_zipIdx hp), ha]

/-! ### A frame enters the elastic buffer (09 R287 to R291) -/

theorem RxBlk.not_data_of_isMark {b : RxBlk} (h : b.isMark = true) : b.isData = false ∧ b.isLost = false := by
  have hk : b.2.2.kind = .marker := by simpa [RxBlk.isMark] using h
  simp [RxBlk.isData, RxBlk.isLost, hk]

theorem RxBlk.not_lost_of_isData {b : RxBlk} (h : b.isData = true) : b.isLost = false := by
  have hk : b.2.2.kind = .data := by simpa [RxBlk.isData] using h
  simp [RxBlk.isLost, hk]

/-- The received blocks of lane x begin with a whole frame of an anchored, undamaged input or chain lane: marker m, the data blocks of body, and
behind them tl, which goes on with no data block. -/
structure Lane.HasFrame (x : Lane) (m : RxBlk) (body tl : List RxBlk) : Prop where
  anchor : x.anchor = true
  whole : x.dmg = false
  role : x.role = 1 ∨ x.role = 2
  blocks : x.blocks = m :: (body ++ tl)
  mark : m.isMark = true
  data : ∀ b ∈ body, b.isData = true
  length : body.length = x.blen - 1
  ends : ∀ b, tl.head? = some b → b.isData = false

/-- The frame of number n whose marker is m and whose further blocks are body. -/
def rxFrameOf (n : CN) (m : RxBlk) (body : List RxBlk) : RxFrame :=
  { x := n, pay := (packFrame 0 (m :: body)).1, mask := (packFrame 0 (m :: body)).2
    cn := ((m :: body).getLastD m).1, tick := ((m :: body).getLastD m).2.1 }

section
variable {s : State} {l : Nat} {x : Lane} {m : RxBlk} {body tl : List RxBlk}

theorem takeWhile_isData_of_ends (h : ∀ b, tl.head? = some b → b.isData = false) : tl.takeWhile RxBlk.isData = [] := by
  cases tl with
  | nil => rfl
  | cons b r => simp [h b rfl]

theorem Lane.role_ne_three (h : x.role = 1 ∨ x.role = 2) : x.role ≠ 3 := by omega

theorem Lane.HasFrame.blen (h : x.HasFrame m body tl) : body.length + 1 = x.blen := by
  have hb : x.blen = max 1 x.blk := if_neg (Lane.role_ne_three h.role)
  have hl := h.length
  omega

theorem Lane.HasFrame.number (h : x.HasFrame m body tl) : x.number [] = some { n := x.nextX, k := 1, slip := false } := by
  simp [Lane.number, h.anchor, h.whole]

theorem Lane.HasFrame.mask (h : x.HasFrame m body tl) (n : CN) : (rxFrameOf n m body).mask = 0 := by
  refine packFrame_mask fun b hb => ?_
  obtain rfl | hb := List.mem_cons.1 hb
  · exact (RxBlk.not_data_of_isMark h.mark).2
  · exact RxBlk.not_lost_of_isData (h.data b hb)

/-- The frame at the head is taken, and none of its blocks is excess. -/
theorem State.rxFrame_of_hasFrame (h : (s.lane l).HasFrame m body tl) :
    s.rxFrame l = (s.setLane l (s.lane l)).frameAt l [] m body tl := by
  have hmark := (RxBlk.not_data_of_isMark h.mark).1
  have hbody : ((body ++ tl).take ((s.lane l).blen - 1)).takeWhile (fun b => RxBlk.isData b || RxBlk.isLost b) = body := by
    rw [← h.length, List.take_left, List.takeWhile_eq_self_iff]
    exact fun b hb => by simp [h.data b hb]
  have hxs : (s.lane l).blocks.takeWhile RxBlk.isData = [] := by simp [h.blocks, hmark]
  have hs : (if (s.lane l).dist ≠ 0 then s.dropExcess l ([] : List RxBlk).length else s) = s := ite_self s
  have hx : ({ s.lane l with blocks := (s.lane l).blocks.drop ([] : List RxBlk).length
                             dist := (s.lane l).dist + ([] : List RxBlk).length } : Lane) = s.lane l := rfl
  have hpre : (s.lane l).blocks.takeWhile (fun b => !RxBlk.isMark b) = [] := by simp [h.blocks, h.mark]
  unfold State.rxFrame
  dsimp only
  rw [hxs, hs, hx, List.length_nil, List.drop_zero, hpre, List.length_nil, List.drop_zero, h.blocks]
  dsimp only
  rw [hbody, if_neg (by rw [h.length]; exact fun hc => lt_irrefl _ hc.1), List.drop_left]

/-- Lane x when frame f has entered its buffer. -/
def Lane.holding (x : Lane) (f : RxFrame) (cn : CN) (rofs : Nat) : Lane :=
  let y := x.pruneLate f.x cn rofs
  { y with buf := y.buf ++ [f] }

/-- A frame that is neither late nor early nor held already is held for its release (R291). -/
theorem State.holdFrame_lane {first : CN} {f : RxFrame} (hrole : (s.lane l).role ≠ 3)
    (hrel : ((tget [] s.chan.ring l).head?.map fun e => cnLe f.x e.x).getD false = false)
    (hearly : cnLt first (cnSub (cnAdd f.x (s.lane l).rofs) 8) = false)
    (hnew : ((s.lane l).buf.any fun g => decide (g.x = f.x)) = false) :
    (s.holdFrame l first f).lane l = (s.lane l).holding f s.cn s.hdr.rofs := by
  have hrole' : ((s.lane l).pruneLate f.x s.cn s.hdr.rofs).role ≠ 3 := hrole
  have hrel' : (s.setLane l ((s.lane l).pruneLate f.x s.cn s.hdr.rofs)).released l ((s.lane l).pruneLate f.x s.cn s.hdr.rofs) f.x = false := by
    rw [State.released, if_neg hrole']
    exact hrel
  have hofs : s.relOfs ((s.lane l).pruneLate f.x s.cn s.hdr.rofs) = (s.lane l).rofs := if_neg hrole'
  have hnew' : (((s.lane l).pruneLate f.x s.cn s.hdr.rofs).buf.any fun g => decide (g.x = f.x)) = false := hnew
  unfold State.holdFrame Lane.holding
  dsimp only
  rw [hrel', hofs, hearly, hnew', if_neg (by decide), if_neg (by decide), State.lane_setLane]

/-- The lane behind the frame of number nextX: what follows it stays received, and the next number is predicted. -/
theorem State.frameAt_lane (h : (s.lane l).HasFrame m body tl)
    (hrel : ((tget [] s.chan.ring l).head?.map fun e => cnLe (s.lane l).nextX e.x).getD false = false)
    (hearly : cnLt m.1 (cnSub (cnAdd (s.lane l).nextX (s.lane l).rofs) 8) = false)
    (hnew : ((s.lane l).buf.any fun g => decide (g.x = (s.lane l).nextX)) = false) :
    ((s.frameAt l [] m body tl).lane l).nextX = (s.lane l).nextX + 1 ∧ ((s.frameAt l [] m body tl).lane l).blocks = tl ∧
      ((s.frameAt l [] m body tl).lane l).buf = (s.lane l).buf ++ [rxFrameOf (s.lane l).nextX m body] := by
  have hshort : decide (body.length + 1 < (s.lane l).blen) = false := by rw [h.blen]; simp
  have hhold := State.holdFrame_lane (f := rxFrameOf (s.lane l).nextX m body) (Lane.role_ne_three h.role) hrel hearly hnew
  unfold State.frameAt
  dsimp only
  rw [hshort, h.number, takeWhile_isData_of_ends h.ends]
  dsimp only
  simp only [Bool.false_eq_true, if_false, List.length_nil, List.drop_zero, State.dropExcess, if_true, State.lane_setLane, ge_iff_le,
    show ¬ 2 ≤ 1 by decide, true_and]
  rw [← rxFrameOf, hhold]
  rfl

theorem execCrossingFrameReceive_of_hasFrame (hl : l < 64) (hk : (s.lane l).lock = true) (h : (s.lane l).HasFrame m body tl) :
    execCrossingFrameReceive l s = .next ((s.setLane l (s.lane l)).frameAt l [] m body tl) := by
  have hf : (s.lane l).framed = true := by obtain hr | hr := h.role <;> simp [Lane.framed, hr]
  simp [execCrossingFrameReceive, hl, hk, hf, State.rxFrame_of_hasFrame h]

end

/-! ### Each command, where it has an effect -/

section
variable {s : State} {l : Nat} (hl : l < 64)
include hl

/-- A codeword that can be corrected: its wrong symbols counted (R284). -/
theorem execCodewordReceive_corrects {syms w : List Nat} (hs : syms.length = 173) (hk : (s.lane l).lock = true)
    (hw : gfLane.decode 8 (syms.map (· % 1024)) = some w) :
    GoesTo (execCodewordReceive l syms s) fun t =>
      t.ctr (.lnk l 0) = satAdd (s.ctr (.lnk l 0)) (symDiff (syms.map (· % 1024)) w) ∧ (t.lane l).ueRun = 0 ∧
      (∀ k, k ≠ l → t.lane k = s.lane k) ∧ t.evts = s.evts := by
  refine ⟨_, execCodewordReceive_of_locked hl hs hk, ?_⟩
  rw [State.rxCodeword_of_corrected hw]
  refine ⟨State.lnkCount_ctr _ _ _ _, ?_, fun k hne => ?_, rfl⟩
  · rw [State.lnkCount_lane, State.lane_setLane, Lane.take_ueRun]
    rfl
  · rw [State.lnkCount_lane, State.lane_setLane_ne _ _ hne]

/-- A codeword that cannot be corrected: counted as lost (R284). -/
theorem execCodewordReceive_loses {syms : List Nat} (hs : syms.length = 173) (hk : (s.lane l).lock = true)
    (hw : gfLane.decode 8 (syms.map (· % 1024)) = none) :
    GoesTo (execCodewordReceive l syms s) fun t =>
      t.ctr (.lnk l 1) = satAdd (s.ctr (.lnk l 1)) 1 ∧ (t.lane l).ueRun = (s.lane l).ueRun + 1 ∧
      t.shows (.lnk l) 0 = true ∧ ∀ k, k ≠ l → t.lane k = s.lane k := by
  refine ⟨_, execCodewordReceive_of_locked hl hs hk, ?_⟩
  rw [State.rxCodeword_of_lost hw]
  refine ⟨?_, ?_, State.shows_lnkEvt _ _ (by decide), fun k hne => ?_⟩
  · rw [State.lnkEvt_ctr, State.lnkCount_ctr, State.setLane_ctr]
  · rw [State.lnkEvt_lane, State.lnkCount_lane, State.lane_setLane, Lane.take_ueRun]
    rfl
  · rw [State.lnkEvt_lane, State.lnkCount_lane, State.lane_setLane_ne _ _ hne]

/-- A marker that gives lock and names the lane: lock and numbering (R286, R288). -/
theorem execAlignmentMarker_locks {p : Dword} {gap : Nat} (hp : p.extractLsb' 0 24 = 0xF628B4#24) (hk : (s.lane l).lock = false)
    (ha : (s.lane l).acquires p gap = true) (hn : (s.lane l).explid = 0 ∨ mkLid p = (s.lane l).explid) :
    GoesTo (execAlignmentMarker l p gap s) fun t => (t.lane l).lock = true ∧ (t.lane l).anchor = true ∧ (t.lane l).lid = mkLid p ∧
      (t.lane l).nextM = (mkM p + 1) % 25 ∧ (t.lane l).nextX.extractLsb' 0 24 = mkCnx p + (t.lane l).cnofs ∧ (t.lane l).burst = false := by
  obtain ⟨hlock, hlid, hnext, hburst⟩ := (s.lane l).marked_fields p
  obtain ⟨alock, alid, anext, aburst⟩ := ((s.lane l).marked p).anchored_fields s.cn p
  refine ⟨_, execAlignmentMarker_of_acquiring hl hp hk ha, ?_⟩
  beta_reduce
  rw [State.takeMarker_lane hn]
  exact ⟨alock.trans hlock, rfl, alid.trans hlid, anext.trans hnext, Lane.anchored_nextX _ _ _, aburst.trans hburst⟩

/-- A marker that would give lock but names another lane: no lock, and the event WIRE (R286). -/
theorem execAlignmentMarker_rejects {p : Dword} {gap : Nat} (hp : p.extractLsb' 0 24 = 0xF628B4#24) (hk : (s.lane l).lock = false)
    (ha : (s.lane l).acquires p gap = true) (h0 : (s.lane l).explid ≠ 0) (hn : mkLid p ≠ (s.lane l).explid) :
    GoesTo (execAlignmentMarker l p gap s) fun t => (t.lane l).lock = false ∧ t.shows (.lnk l) 7 = true ∧ (t.lane l).lid = mkLid p := by
  obtain ⟨-, hlid, -, -⟩ := (s.lane l).marked_fields p
  refine ⟨_, execAlignmentMarker_of_acquiring hl hp hk ha, ?_⟩
  rw [State.takeMarker_of_misnamed h0 hn]
  refine ⟨?_, State.shows_lnkEvt _ _ (by decide), ?_⟩
  · rw [State.lnkEvt_lane, State.lane_setLane]
    rfl
  · rw [State.lnkEvt_lane, State.lane_setLane]
    exact hlid

/-- A lane that has missed too much loses its lock, its blocks and its eye scan (R286, 15 R405). -/
theorem execLockLoss_unlocks (hk : (s.lane l).lock = true) (h : 3 ≤ (s.lane l).missed ∨ 8 ≤ (s.lane l).ueRun) :
    GoesTo (execLockLoss l s) fun t => (t.lane l).lock = false ∧ (t.lane l).anchor = false ∧ (t.lane l).blocks = [] ∧
      t.shows (.lnk l) 4 = true ∧ (∀ k, k ≠ l → t.lane k = s.lane k) ∧
      ∀ w ∈ t.kly.longs, w.req.op = 0x0A04 → w.req.opd 0 ≠ BitVec.ofNat 64 l := by
  obtain ⟨hlanes, hevts⟩ := ((s.setLane l (s.lane l).unlocked).lnkEvt l 4).abortOnLane_frame l
  have hlane (k : Nat) := (State.lane_congr hlanes k).trans (State.lnkEvt_lane _ _ _ _)
  refine ⟨_, execLockLoss_of_lost hl hk h, ?_⟩
  beta_reduce
  rw [hlane, State.lane_setLane]
  refine ⟨rfl, rfl, rfl, ?_, fun k hne => ?_, fun w hw hop => State.no_scan_of_mem_abortOnLane _ _ hw hop⟩
  · rw [State.shows_congr hevts]
    exact State.shows_lnkEvt _ _ (by decide)
  · rw [hlane, State.lane_setLane_ne _ _ hne]

/-- A whole frame in time enters the elastic buffer (R287 to R291). -/
theorem execCrossingFrameReceive_holds {m : RxBlk} {body tl : List RxBlk} (hk : (s.lane l).lock = true) (h : (s.lane l).HasFrame m body tl)
    (hrel : ((tget [] s.chan.ring l).head?.map fun e => cnLe (s.lane l).nextX e.x).getD false = false)
    (hearly : cnLt m.1 (cnSub (cnAdd (s.lane l).nextX (s.lane l).rofs) 8) = false)
    (hnew : ((s.lane l).buf.any fun g => decide (g.x = (s.lane l).nextX)) = false) :
    GoesTo (execCrossingFrameReceive l s) fun t => (t.lane l).nextX = (s.lane l).nextX + 1 ∧ (t.lane l).blocks = tl ∧
      ∃ f, (t.lane l).buf = (s.lane l).buf ++ [f] ∧ f.x = (s.lane l).nextX ∧ f.mask = 0 ∧ f.pay.extractLsb' 0 64 = m.pay := by
  have hsame : (s.setLane l (s.lane l)).lane l = s.lane l := s.lane_setLane _ _
  have hf := State.frameAt_lane (s := s.setLane l (s.lane l)) (l := l) (m := m) (body := body) (tl := tl)
  rw [hsame] at hf
  obtain ⟨hnext, hblocks, hbuf⟩ := hf h hrel hearly hnew
  exact ⟨_, execCrossingFrameReceive_of_hasFrame hl hk h, hnext, hblocks, _, hbuf, rfl, h.mask _, packFrame_low m body⟩

end

end Sys2Proof.Machine

open Sys2Proof Sys2Proof.Machine

/-- Settles O43: each command has the effect of its part of the chapter: a codeword is corrected or lost (rxCodeword), a marker that gives lock
numbers the next crossing marker or names another lane (takeMarker), a loss of lock ends the lane's scan (abortOnLane), and a whole frame in time is
held for its release (frameAt_lane). -/
theorem lanesLockAndReceive : Obligations.LanesLockAndReceive := by
  refine ⟨fun s l syms hl hs hk => ⟨fun w hw => execCodewordReceive_corrects hl hs hk hw, fun hw => execCodewordReceive_loses hl hs hk hw⟩,
    fun s l p gap hl hp hk hacq => ?_, fun s l p gap hl hp hk hb hc => ?_, fun s l hl hk h => execLockLoss_unlocks hl hk h,
    fun s l hl h => execTrainingBurst_of_deaf hl h, fun s l hl hw hs => ?_,
    fun s l m body tl hl hk ha hd hr hbl hm hbody hlen htl hrel hearly hnew =>
      execCrossingFrameReceive_holds hl hk ⟨ha, hd, hr, hbl, hm, hbody, hlen, htl⟩ hrel hearly hnew⟩
  · have ha : (s.lane l).acquires p gap = true := by
      obtain ⟨hb, hg⟩ | ⟨m, hc, rfl, hm⟩ := hacq
      · exact Lane.acquires_of_burst p hb hg
      · exact Lane.acquires_of_candidate hc hm
    exact ⟨fun hn => execAlignmentMarker_locks hl hp hk ha hn, fun h0 hn => execAlignmentMarker_rejects hl hp hk ha h0 hn⟩
  · refine (execAlignmentMarker_of_candidate hl hp hk (Lane.acquires_of_neither p gap hb hc)).trans ?_
    rw [← hb]
    rfl
  · refine ⟨_, execTrainingBurst_of_waking hl hw hs, ?_⟩
    beta_reduce
    rw [State.lane_setLane]
    exact ⟨rfl, rfl, rfl, rfl, fun k hne => State.lane_setLane_ne _ _ hne, rfl⟩

end

section
/-! PROOFS. The release of frames from the elastic buffer and the Sextant's watch (01 R32, 09 R291 to R295, R301, R306). -/

namespace Sys2Proof.Machine

/-- A counter of a lane leaves the lane's other counters alone (09 R305). -/
theorem State.lnkCount_ctr_ne {s : State} {l c k : Nat} (h : k ≠ c) (n : Nat) : (s.lnkCount l c n).ctr (.lnk l k) = s.ctr (.lnk l k) := by
  have hcode : CtrId.code (.lnk l k) ≠ CtrId.code (.lnk l c) := by
    simp only [CtrId.code]
    omega
  exact s.ctr_count_ne hcode n

/-! ### A release recorded (14 R390, R391) -/

/-- A lane apart from what it sends. -/
def Lane.received (x : Lane) : Lane := { x with txLast := [], txCn := 0, txq := [] }

theorem Lane.fields_of_received {x y : Lane} (h : x.received = y.received) : x.cfg = y.cfg ∧ x.buf = y.buf ∧ x.slackLast = y.slackLast :=
  ⟨(congrArg Lane.cfg h :), (congrArg Lane.buf h :), (congrArg Lane.slackLast h :)⟩

section
variable (s : State) (l : Nat)

theorem State.sendFrame_received (k : Nat) (num : CN) (d : List Dword) : ((s.sendFrame k num d).lane l).received = (s.lane l).received := by
  by_cases h : l = k
  · subst h
    rw [State.sendFrame, State.lane_setLane]
    rfl
  · rw [State.sendFrame, State.lane_setLane_ne _ _ h]

theorem State.logLoss_frame (e : LogEvt) : ∃ log, s.logLoss e = { s with log := log } := by
  unfold State.logLoss
  split
  · exact ⟨_, rfl⟩
  · split <;> exact ⟨_, rfl⟩

theorem State.putFrame_frame (n : CN) (r : Released) : ∃ cap, s.putFrame l n r = { s with cap := cap } := by
  have hcap (c : Prop) [Decidable c] (x : CapState) : ∃ cap, (if c then s else { s with cap := x }) = { s with cap := cap } := by
    split <;> exact ⟨_, rfl⟩
  exact hcap _ _

/-- A recording writes the log, the wake buffer and what lanes send. -/
theorem State.recordFrame_frame (n : CN) (r : Released) :
    ∃ log cap lanes, s.recordFrame l n r = { s with log := log, cap := cap, lanes := lanes } ∧
      ∀ k, ((s.recordFrame l n r).lane k).received = (s.lane k).received := by
  unfold State.recordFrame
  split
  · exact ⟨_, _, _, rfl, fun _ => rfl⟩
  · dsimp only
    have hloss : ∃ log, (if r.mask23 ≠ 0 then ({ s with log := { s.log with lastX := n } } : State).logLoss (.loss n l r.mask23)
        else { s with log := { s.log with lastX := n } }) = { s with log := log } := by
      split
      · obtain ⟨log, h⟩ := State.logLoss_frame { s with log := { s.log with lastX := n } } (.loss n l r.mask23)
        exact ⟨log, h⟩
      · exact ⟨_, rfl⟩
    obtain ⟨log, hlog⟩ := hloss
    rw [hlog]
    split
    · obtain ⟨cap, hcap⟩ := State.putFrame_frame { s with log := log } l n r
      rw [hcap]
      exact ⟨_, _, _, rfl, fun _ => rfl⟩
    · exact ⟨_, _, _, rfl, fun k => State.sendFrame_received _ _ _ _ _⟩

end

/-! ### What a released frame delivers (09 R294) -/

/-- The lost bits of one block joined to those of the blocks before. -/
def lostBlock (m : BitVec 23) (w : BitVec 1472) (j : Nat) : BitVec 1472 :=
  if m.getLsbD j then w ||| ((BitVec.allOnes 64).setWidth 1472) <<< (64 * j) else w

theorem lostBits_eq (m : BitVec 23) : lostBits m = (List.range 23).foldl (lostBlock m) 0 := rfl

/-- Bit i of the lost bits of the first n blocks is the mask's bit of its block. -/
theorem foldl_lostBlock_bit (m : BitVec 23) (n : Nat) {i : Nat} (hi : i < 1472) :
    ((List.range n).foldl (lostBlock m) 0).getLsbD i = (decide (i < 64 * n) && m.getLsbD (i / 64)) := by
  induction n with
  | zero => simp
  | succ n ih =>
    rw [List.range_succ, List.foldl_concat, lostBlock]
    by_cases hn : i / 64 = n
    · have hlow : ¬ i < 64 * n := by omega
      have hhigh : i < 64 * (n + 1) := by omega
      have hin : i - 64 * n < 64 := by omega
      have hin' : i - 64 * n < 1472 := by omega
      cases hm : m.getLsbD n
      · rw [if_neg Bool.false_ne_true, ih, hn, hm, Bool.and_false, Bool.and_false]
      · rw [if_pos rfl, BitVec.getLsbD_or, ih, BitVec.getLsbD_shiftLeft, BitVec.getLsbD_setWidth, BitVec.getLsbD_allOnes, hn, hm]
        simp only [hi, hlow, hhigh, hin, hin', decide_true, decide_false, Bool.not_false, Bool.and_self, Bool.or_true]
    · have hiff : i < 64 * (n + 1) ↔ i < 64 * n := by omega
      have hout : i < 64 * n ∨ ¬ i - 64 * n < 64 := by omega
      have hstep : decide (i < 64 * (n + 1)) = decide (i < 64 * n) := decide_eq_decide.2 hiff
      split
      · rw [BitVec.getLsbD_or, ih, BitVec.getLsbD_shiftLeft, BitVec.getLsbD_setWidth, BitVec.getLsbD_allOnes, hstep]
        obtain h | h := hout <;>
          simp only [h, decide_true, decide_false, Bool.not_true, Bool.and_false, Bool.false_and, Bool.or_false]
      · rw [ih, hstep]

theorem lostBits_bit (m : BitVec 23) {i : Nat} (hi : i < 1472) : (lostBits m).getLsbD i = m.getLsbD (i / 64) := by
  have hin : i < 64 * 23 := hi
  rw [lostBits_eq, foldl_lostBlock_bit m 23 hi, decide_eq_true hin, Bool.true_and]

theorem lostBits_zero : lostBits 0 = 0 := by
  ext i hi
  rw [← BitVec.getLsbD_eq_getElem, lostBits_bit 0 hi]
  simp

theorem lostBits_allOnes : lostBits (BitVec.allOnes 23) = BitVec.allOnes 1472 := by
  ext i hi
  have hblock : i / 64 < 23 := by omega
  rw [← BitVec.getLsbD_eq_getElem, lostBits_bit _ hi, BitVec.getLsbD_allOnes, BitVec.getElem_allOnes, decide_eq_true hblock]

/-- Nothing delivered is wholly lost (R291). -/
theorem Released.nothing_payload : Released.nothing.payload = { data := 0, lost := BitVec.allOnes 1472 } := by
  have hmask : Released.nothing.mask23 = BitVec.allOnes 23 := by decide
  have hdata : Released.nothing.data.setWidth 1472 = 0 := BitVec.setWidth_zero _ _
  rw [Released.payload, hmask, hdata, lostBits_allOnes]

/-- A frame without a lost block delivers its payload and no lost bit. -/
theorem Released.payload_of_whole {r : Released} (h : r.mask = 0) : r.payload = { data := r.data.setWidth 1472, lost := 0 } := by
  have hmask : r.mask23 = 0 := by rw [Released.mask23, h]; rfl
  rw [Released.payload, hmask, lostBits_zero]

/-! ### Faults leave counters, channels, lanes and the Sextant alone (09 R295) -/

section
variable (s : State)

/-- A management packet of the health log goes where it has room, so none is dropped (15 R417). -/
theorem State.healthAdd_ctrs (kind src : Nat) (regs : List Byte) : (s.healthAdd kind src regs).ctrs = s.ctrs := by
  unfold State.healthAdd
  dsimp only
  split
  next k hk =>
    have hroom := List.find?_some hk
    rw [State.sideQueue, if_pos hroom, State.setHub_ctrs]
  next => rfl

theorem State.fault_ctrs (cause : BitVec 8) (src : Nat) : (s.fault cause src).ctrs = s.ctrs := by
  obtain ⟨run, pair, hf⟩ := s.fault_eq cause src
  rw [hf]
  exact s.healthAdd_ctrs 2 src [cause]

theorem State.laneFault_ctrs (l : Nat) : (s.laneFault l).ctrs = s.ctrs := by
  rw [State.laneFault, State.fault_ctrs, State.lnkEvt, State.raiseBit_ctrs]

theorem State.laneFault_chan (l : Nat) : (s.laneFault l).chan = s.chan := by simp [State.laneFault, State.lnkEvt]
theorem State.laneFault_lanes (l : Nat) : (s.laneFault l).lanes = s.lanes := by simp [State.laneFault, State.lnkEvt]
theorem State.laneFault_sext (l : Nat) : (s.laneFault l).sext = s.sext := by simp [State.laneFault, State.lnkEvt]

theorem State.shows_laneFault (l : Nat) : (s.laneFault l).shows (.lnk l) 5 = true :=
  State.shows_fault_of_shows (s.shows_lnkEvt l (by decide)) _ _

theorem State.shows_laneFault_of_shows {s : State} {i : EvtId} {b : Nat} (h : s.shows i b = true) (l : Nat) :
    (s.laneFault l).shows i b = true :=
  State.shows_fault_of_shows (State.shows_raise_of_shows h _ _) _ _

end

/-! ### Substitution in the history of an input lane (09 R294, R295) -/

/-- The lane with one more release in its history: substituted or not. -/
def Lane.histPush (x : Lane) (sub : Bool) : Lane := { x with hist := (sub :: x.hist).take 1024 }

section
variable {s : State} {l : Nat} {n : CN} {r : Released} (hr : (s.lane l).role = 1)
include hr

theorem State.noteSubst_of_whole (hm : r.mask23 = 0) : s.noteSubst l n r = s.setLane l ((s.lane l).histPush false) := by
  simp [State.noteSubst, State.histBegins, hm, hr, Lane.histPush]

/-- A substituted frame is counted, and perhaps brings the history to its limit. -/
theorem State.noteSubst_of_lost (hm : r.mask23 ≠ 0) :
    let t := (s.lnkCount l 2 1).setLane l ((s.lane l).histPush true)
    s.noteSubst l n r = t ∨ s.noteSubst l n r = t.laneFault l := by
  have hsub : decide (r.mask23 ≠ 0) = true := decide_eq_true hm
  have hbegins : (s.lnkCount l 2 1).histBegins l n r = true := by simp [State.histBegins, hr]
  have hchain (b : Bool) : ¬ ((s.lane l).role = 2 ∧ (!b) = true) := by simp [hr]
  unfold State.noteSubst
  dsimp only
  rw [hsub, if_pos rfl, hbegins, Bool.not_true, if_neg Bool.false_ne_true, State.lnkCount_lane]
  rw [if_neg (hchain _)]
  split
  · exact Or.inr rfl
  · exact Or.inl rfl

theorem State.chainSide_of_input : s.chainSide l n r = s := by simp [State.chainSide, hr]

end

/-! ### What a release takes from the elastic buffer (09 R291, 01 R32) -/

/-- The lane whose buffer holds no frame up to n any more. -/
def Lane.dropped (x : Lane) (n : CN) : Lane := { x with buf := x.buf.filter fun f => !cnLe f.x n }

theorem Lane.cnLe_of_mem_dropped {x : Lane} {n : CN} {g : RxFrame} (h : g ∈ (x.dropped n).buf) : cnLe g.x n = false := by
  simpa using (List.mem_filter.1 h).2

/-- The lane with the slack of a released frame recorded. -/
def Lane.slacked (x : Lane) (k : Nat) : Lane :=
  { x with slackLast := BitVec.ofNat 16 k, slackMin := BitVec.ofNat 16 (min k x.slackMin.toNat) }

/-- The lane with crossing n among its late ones. -/
def Lane.addLate (x : Lane) (n : CN) : Lane := { x with late := n :: x.late }

section
variable {s : State} {l : Nat}

theorem State.takeHeld_of_held {n : CN} {f : RxFrame} (hf : ((s.lane l).buf.find? fun f => decide (f.x = n)) = some f) :
    s.takeHeld l n = (((s.setLane l ((s.lane l).dropped n)).noteSlack l (s.slackOf f)), { data := f.pay, mask := f.mask }) := by
  simp only [State.takeHeld, hf]
  rfl

variable (hr : (s.lane l).role = 1)
include hr

theorem State.noteSlack_of_input (k : Nat) : s.noteSlack l k = (s.setLane l ((s.lane l).slacked k)).alignSlack k := if_pos hr

theorem State.countLate_of_input (n : CN) :
    s.countLate l n = (((s.setLane l ((s.lane l).addLate n)).lnkCount l 3 1).lnkEvt l 1).lateInput n := if_pos hr

theorem State.takeHeld_of_late {n : CN} (hf : ((s.lane l).buf.find? fun f => decide (f.x = n)) = none)
    (hlock : (s.lane l).lock = true) (hanchor : (s.lane l).anchor = true) (hnext : cnLe (s.lane l).nextX n = true) :
    s.takeHeld l n = (((s.setLane l ((s.lane l).dropped n)).alignSlack 0).countLate l n, Released.nothing) := by
  have hdue : ((s.lane l).lock && (s.lane l).anchor && cnLe (s.lane l).nextX n) = true := by simp [hlock, hanchor, hnext]
  simp only [State.takeHeld, hf]
  rw [if_pos hdue, if_pos hr]
  rfl

end

/-- A late payload of an input lane sets LANE_LATE; besides this it writes the deviation's counter and its record. -/
theorem State.lateInput_frame (s : State) (n : CN) : ∃ out ctrs, s.lateInput n = { s.raiseBit .runLat 0 with out := out, ctrs := ctrs } ∧
    ∀ i : CtrId, i.code ≠ CtrId.code .deviation → (s.lateInput n).ctr i = s.ctr i := by
  have hraise (i : CtrId) : (s.raiseBit .runLat 0).ctr i = s.ctr i := State.ctr_congr (s.raiseBit_ctrs _ _) i
  unfold State.lateInput
  dsimp only
  split
  · exact ⟨_, _, rfl, fun i hi => (State.ctr_count_ne (s := s.raiseBit .runLat 0) hi 1).trans (hraise i)⟩
  · exact ⟨_, _, rfl, fun i _ => hraise i⟩

/-! ### The release of an input lane (09 R291, R294) -/

section
variable {s u : State} {l : Nat} {n : CN} {r : Released}

/-- What a release has taken, entered in the ring and in the recording. -/
def State.entered (u : State) (l : Nat) (n : CN) (r : Released) : State := (u.ringPush l n r.payload).recordFrame l n r

theorem State.entered_frame : (u.entered l n r).chan = (u.ringPush l n r.payload).chan ∧ (u.entered l n r).ctrs = u.ctrs ∧
    (u.entered l n r).evts = u.evts ∧ ((u.entered l n r).lane l).received = (u.lane l).received := by
  obtain ⟨log, cap, lanes, heq, hlane⟩ := (u.ringPush l n r.payload).recordFrame_frame l n r
  refine ⟨?_, ?_, ?_, hlane l⟩ <;> rw [State.entered, heq] <;> rfl

theorem Lane.role_of_received {x y : Lane} (h : x.received = y.received) : x.role = y.role := by
  rw [Lane.role, Lane.role, (Lane.fields_of_received h).1]

theorem State.entered_role (hr : (u.lane l).role = 1) : ((u.entered l n r).lane l).role = 1 := by
  obtain ⟨-, -, -, hlane⟩ := State.entered_frame (u := u) (l := l) (n := n) (r := r)
  rw [Lane.role_of_received hlane, hr]

theorem State.ring_of_chan {t : State} (h : t.chan = (u.ringPush l n r.payload).chan) :
    tget [] t.chan.ring l = ({ x := n, pay := r.payload } :: tget [] u.chan.ring l).take 16 := by
  rw [h, State.ringPush, tget_tset_same]

variable (hrep : s.run.replay = false) (htake : s.takeHeld l n = (u, r))
include hrep htake

/-- Outside a replay a release enters what it takes from the elastic buffer. -/
theorem State.release_eq : s.release l n = ((u.entered l n r).noteSubst l n r).chainSide l n r := by
  have hlive : s.replays l = false := by simp [State.replays, hrep]
  unfold State.release
  rw [hlive, if_neg Bool.false_ne_true, htake]
  rfl

variable (hr : (u.lane l).role = 1)
include hr

theorem State.release_of_whole (hm : r.mask23 = 0) :
    s.release l n = (u.entered l n r).setLane l (((u.entered l n r).lane l).histPush false) := by
  rw [State.release_eq hrep htake, State.noteSubst_of_whole (State.entered_role hr) hm]
  refine State.chainSide_of_input ?_
  rw [State.lane_setLane]
  exact State.entered_role hr

/-- A frame released with a lost block is entered as one delivered whole is, and counted as substituted. -/
theorem State.release_of_lost (hm : r.mask23 ≠ 0) : (s.release l n).chan = (u.ringPush l n r.payload).chan ∧
    (∀ i, (s.release l n).ctr i = (u.lnkCount l 2 1).ctr i) ∧ ∀ i b, u.shows i b = true → (s.release l n).shows i b = true := by
  obtain ⟨hchan, hctrs, hevts, -⟩ := State.entered_frame (u := u) (l := l) (n := n) (r := r)
  have hnote := State.noteSubst_of_lost (n := n) (r := r) (State.entered_role (n := n) (r := r) hr) hm
  have hcount (i : CtrId) : ((u.entered l n r).lnkCount l 2 1).ctr i = (u.lnkCount l 2 1).ctr i := by
    simp only [State.lnkCount, State.count, State.ctr, hctrs]
  have hshow (i : EvtId) (b : Nat) (h : u.shows i b = true) :
      (((u.entered l n r).lnkCount l 2 1).setLane l (((u.entered l n r).lane l).histPush true)).shows i b = true :=
    (State.shows_congr hevts).trans h
  rw [State.release_eq hrep htake]
  obtain h | h := hnote <;> rw [h, State.chainSide_of_input]
  · exact ⟨hchan, hcount, hshow⟩
  · rw [State.lane_setLane]
    exact State.entered_role hr
  · refine ⟨(State.laneFault_chan _ _).trans hchan, fun i => ?_, fun i b hb => State.shows_laneFault_of_shows (hshow i b hb) l⟩
    exact (State.ctr_congr (State.laneFault_ctrs _ _) i).trans (hcount i)
  · rw [State.lane_congr (State.laneFault_lanes _ _), State.lane_setLane]
    exact State.entered_role hr

end

section
variable {s : State} {l : Nat} {n : CN} (hr : (s.lane l).role = 1)
include hr

/-- The state that the release of a held frame leaves before it is entered anywhere. -/
theorem State.held_frame (k : Nat) : let u := (s.setLane l ((s.lane l).dropped n)).noteSlack l k
    u.lane l = ((s.lane l).dropped n).slacked k ∧ u.chan = s.chan ∧ u.ctrs = s.ctrs := by
  have hdrop : ((s.setLane l ((s.lane l).dropped n)).lane l).role = 1 := by
    rw [State.lane_setLane]
    exact hr
  dsimp only
  rw [State.noteSlack_of_input hdrop, State.lane_setLane]
  exact ⟨State.lane_setLane _ _ _, rfl, rfl⟩

/-- A late frame of an input lane: counted, noted and shown as a late payload. -/
theorem State.countLate_frame : ((s.countLate l n).lane l).role = 1 ∧ (s.countLate l n).chan = s.chan ∧
    (s.countLate l n).ctr (.lnk l 3) = satAdd (s.ctr (.lnk l 3)) 1 ∧ (s.countLate l n).ctr (.lnk l 2) = s.ctr (.lnk l 2) ∧
    (s.countLate l n).shows (.lnk l) 1 = true ∧ (s.countLate l n).shows .runLat 0 = true := by
  have hne (k : Nat) : CtrId.code (.lnk l k) ≠ CtrId.code .deviation := by
    simp only [CtrId.code]
    omega
  rw [State.countLate_of_input hr]
  obtain ⟨out, ctrs, heq, hctr⟩ := State.lateInput_frame (((s.setLane l ((s.lane l).addLate n)).lnkCount l 3 1).lnkEvt l 1) n
  have hlanes : ((((s.setLane l ((s.lane l).addLate n)).lnkCount l 3 1).lnkEvt l 1).lateInput n).lanes =
      (s.setLane l ((s.lane l).addLate n)).lanes := by
    rw [heq]
    exact (State.raiseBit_lanes _ _ _).trans ((State.raiseBit_lanes _ _ _).trans (State.count_lanes _ _ _))
  refine ⟨?_, ?_, ?_, ?_, ?_, ?_⟩
  · rw [State.lane_congr hlanes, State.lane_setLane]
    exact hr
  · rw [heq]
    exact (State.raiseBit_chan _ _ _).trans ((State.raiseBit_chan _ _ _).trans (State.count_chan _ _ _))
  · rw [hctr _ (hne 3), State.lnkEvt_ctr, State.lnkCount_ctr, State.setLane_ctr]
  · rw [hctr _ (hne 2), State.lnkEvt_ctr, State.lnkCount_ctr_ne (by decide), State.setLane_ctr]
  · rw [heq]
    exact State.shows_raise_of_shows (State.shows_lnkEvt _ _ (by decide)) _ _
  · rw [heq]
    exact State.shows_raiseBit _ _ (by decide)

/-- The release of a held frame of which no block is lost. -/
theorem State.release_of_held (hrep : s.run.replay = false) {f : RxFrame}
    (hf : ((s.lane l).buf.find? fun f => decide (f.x = n)) = some f) (hm : f.mask = 0) :
    tget [] (s.release l n).chan.ring l =
        ({ x := n, pay := { data := f.pay.setWidth 1472, lost := 0 } } :: tget [] s.chan.ring l).take 16 ∧
      ((s.release l n).lane l).slackLast = BitVec.ofNat 16 (s.slackOf f) ∧ (∀ g ∈ ((s.release l n).lane l).buf, cnLe g.x n = false) ∧
      (s.release l n).ctrs = s.ctrs := by
  have htake := State.takeHeld_of_held hf
  obtain ⟨hulane, huchan, huctrs⟩ := State.held_frame hr (n := n) (s.slackOf f)
  generalize (s.setLane l ((s.lane l).dropped n)).noteSlack l (s.slackOf f) = u at htake hulane huchan huctrs
  have hrole : (u.lane l).role = 1 := by
    rw [hulane]
    exact hr
  have hmask : ({ data := f.pay, mask := f.mask } : Released).mask23 = 0 := by rw [Released.mask23, hm]; rfl
  obtain ⟨hchan, hctrs, -, hlane⟩ := State.entered_frame (u := u) (l := l) (n := n) (r := { data := f.pay, mask := f.mask })
  obtain ⟨-, hbuf, hslack⟩ := Lane.fields_of_received hlane
  rw [State.release_of_whole hrep htake hrole hmask, State.lane_setLane]
  refine ⟨?_, ?_, fun g hg => ?_, hctrs.trans huctrs⟩
  · rw [← huchan, ← Released.payload_of_whole (r := { data := f.pay, mask := f.mask }) hm]
    exact State.ring_of_chan hchan
  · rw [hulane] at hslack
    exact hslack
  · rw [hulane] at hbuf
    refine Lane.cnLe_of_mem_dropped (x := s.lane l) ?_
    change g ∈ ((u.entered l n { data := f.pay, mask := f.mask }).lane l).buf at hg
    rwa [hbuf] at hg

/-- The release of a frame that has not arrived on a locked and anchored lane. -/
theorem State.release_of_late (hrep : s.run.replay = false) (hf : ((s.lane l).buf.find? fun f => decide (f.x = n)) = none)
    (hlock : (s.lane l).lock = true) (hanchor : (s.lane l).anchor = true) (hnext : cnLe (s.lane l).nextX n = true) :
    tget [] (s.release l n).chan.ring l =
        ({ x := n, pay := { data := 0, lost := BitVec.allOnes 1472 } } :: tget [] s.chan.ring l).take 16 ∧
      (s.release l n).ctr (.lnk l 3) = satAdd (s.ctr (.lnk l 3)) 1 ∧ (s.release l n).ctr (.lnk l 2) = satAdd (s.ctr (.lnk l 2)) 1 ∧
      (s.release l n).shows (.lnk l) 1 = true ∧ (s.release l n).shows .runLat 0 = true := by
  have htake := State.takeHeld_of_late hr hf hlock hanchor hnext
  have hdrop : (((s.setLane l ((s.lane l).dropped n)).alignSlack 0).lane l).role = 1 := by
    change ((s.setLane l ((s.lane l).dropped n)).lane l).role = 1
    rw [State.lane_setLane]
    exact hr
  obtain ⟨hrole, huchan, hlate, hsub, hlnk, hrun⟩ := State.countLate_frame hdrop (n := n)
  generalize ((s.setLane l ((s.lane l).dropped n)).alignSlack 0).countLate l n = u at htake hrole huchan hlate hsub hlnk hrun
  obtain ⟨hchan, hctr, hshow⟩ := State.release_of_lost hrep htake hrole (by decide)
  refine ⟨?_, ?_, ?_, hshow _ _ hlnk, hshow _ _ hrun⟩
  · rw [State.ring_of_chan hchan, huchan, Released.nothing_payload]
    rfl
  · rw [hctr, State.lnkCount_ctr_ne (by decide), hlate]
    rfl
  · rw [hctr, State.lnkCount_ctr, hsub]
    rfl

end

/-! ### The Sextant's watch (09 R301, R306) -/

/-- The smaller of the minimum so far and a new value; the new value where none has been measured. -/
def Sext.lower (x : Sext) (a b : BitVec 8) : BitVec 8 := if x.seen && decide (a.toNat ≤ b.toNat) then a else b

theorem Sext.lower_toNat {x : Sext} (h : x.seen = true) (a b : BitVec 8) : (x.lower a b).toNat = min a.toNat b.toNat := by
  by_cases hab : a.toNat ≤ b.toNat
  · simp [Sext.lower, h, hab]
  · rw [Sext.lower, h, decide_eq_false hab, Bool.and_false, if_neg Bool.false_ne_true, min_eq_right (by omega)]

section
variable (x : Sext) (w h : BitVec 8)

theorem Sext.measured_margin : (x.measured w h).margin =
    w ++ h ++ x.lower (x.margin.extractLsb' 8 8) w ++ x.lower (x.margin.extractLsb' 0 8) h := rfl

/-- The four bytes of SXT_MARGIN. -/
theorem margin_bytes (a b c d : BitVec 8) : (a ++ b ++ c ++ d).extractLsb' 24 8 = a ∧ (a ++ b ++ c ++ d).extractLsb' 16 8 = b ∧
    (a ++ b ++ c ++ d).extractLsb' 8 8 = c ∧ (a ++ b ++ c ++ d).extractLsb' 0 8 = d := by
  refine ⟨?_, ?_, ?_, BitVec.extractLsb'_append_eq_right⟩
  · rw [BitVec.extractLsb'_append_eq_of_le (by decide), BitVec.extractLsb'_append_eq_of_le (by decide)]
    exact BitVec.extractLsb'_append_eq_left
  · rw [BitVec.extractLsb'_append_eq_of_le (by decide), BitVec.extractLsb'_append_eq_of_le (by decide)]
    exact BitVec.extractLsb'_append_eq_right
  · rw [BitVec.extractLsb'_append_eq_of_le (by decide)]
    exact BitVec.extractLsb'_append_eq_right

/-- A scan in progress leaves the watch's values alone (R302). -/
theorem Sext.advance_watch (last : BitVec 2) : (x.advance last).margin = x.margin ∧ (x.advance last).limit = x.limit ∧
    (x.advance last).seen = x.seen ∧ (x.advance last).streak = x.streak := by
  unfold Sext.advance
  split
  · exact ⟨rfl, rfl, rfl, rfl⟩
  · split
    · exact ⟨rfl, rfl, rfl, rfl⟩
    · split <;> exact ⟨rfl, rfl, rfl, rfl⟩

/-- A measurement below a hard limit. -/
def Sext.belowHard : Bool := decide (w.toNat < x.whard ∨ h.toNat < x.hhard)

/-- A measurement below a warning limit. -/
def Sext.belowWarn : Bool := decide (w.toNat < x.wwarn ∨ h.toNat < x.hwarn)

/-- Measurements in a row below a hard limit, this one taken in. -/
def Sext.streakAfter : Nat := if x.belowHard w h then x.streak + 1 else 0

end

section
variable (s : State) (l : Nat) (w h : BitVec 8)

/-- The margins after a measurement, with the count of those in a row below a hard limit. -/
def Sext.watched (x : Sext) (w h : BitVec 8) : Sext := { x.measured w h with streak := x.streakAfter w h }

/-- The events of a measurement. -/
def Sext.alerts (x : Sext) (w h : BitVec 8) : Word :=
  (if x.belowWarn w h then 1 else 0) ||| (if 2 ≤ x.streakAfter w h then 2 else 0)

/-- A health entry made under a condition keeps margins and events. -/
theorem State.healthAdd_if_frame (c : Prop) [Decidable c] (kind src : Nat) (regs : List Byte) :
    (if c then s.healthAdd kind src regs else s).sext = s.sext ∧
      ∀ i b, s.shows i b = true → (if c then s.healthAdd kind src regs else s).shows i b = true := by
  split
  · exact ⟨State.healthAdd_sext _ _ _ _, fun i b hb => State.shows_healthAdd_of_shows hb _ _ _⟩
  · exact ⟨rfl, fun _ _ hb => hb⟩

/-- A measurement writes the lane's margins, shows its events, and makes the second in a row below a hard limit a lane fault. -/
theorem State.measure_frame : ∃ u : State, u.sextOf l = (s.sextOf l).watched w h ∧
    (∀ b, ((s.sextOf l).alerts w h).getLsbD b = true → u.shows (.sxt l) b = true) ∧
    s.measure l w h = if 2 ≤ (s.sextOf l).streakAfter w h then u.laneFault l else u := by
  let s1 := (s.setSext l ((s.sextOf l).watched w h)).raise (.sxt l) ((s.sextOf l).alerts w h)
  let regs := leBytes 4 ((s.sextOf l).measured w h).margin.toNat ++ leBytes 4 ((s.sextOf l).measured w h).limit.toNat
  let s2 := if (s.sextOf l).belowWarn w h then s1.healthAdd 1 l regs else s1
  obtain ⟨hsext2, hshow2⟩ := s1.healthAdd_if_frame ((s.sextOf l).belowWarn w h) 1 l regs
  obtain ⟨hsext3, hshow3⟩ := s2.healthAdd_if_frame (2 ≤ (s.sextOf l).streakAfter w h) 1 l regs
  refine ⟨_, ?_, fun b hb => hshow3 _ _ (hshow2 _ _ (State.shows_raise _ _ hb)), rfl⟩
  rw [State.sextOf, hsext3, hsext2, State.raise_sext]
  exact tget_tset_same _ _ _ _

theorem State.measure_sextOf : (s.measure l w h).sextOf l = (s.sextOf l).watched w h := by
  obtain ⟨u, hsext, -, heq⟩ := s.measure_frame l w h
  rw [heq]
  split
  · rw [State.sextOf, State.laneFault_sext]
    exact hsext
  · exact hsext

/-- A measurement below a warning limit is shown. -/
theorem State.shows_measure_of_warn (hw : (s.sextOf l).belowWarn w h = true) : (s.measure l w h).shows (.sxt l) 0 = true := by
  obtain ⟨u, -, hshow, heq⟩ := s.measure_frame l w h
  have hbit : u.shows (.sxt l) 0 = true := by
    refine hshow 0 ?_
    rw [Sext.alerts, if_pos hw]
    split <;> rfl
  rw [heq]
  split
  · exact State.shows_laneFault_of_shows hbit l
  · exact hbit

/-- The second measurement in a row below a hard limit is shown, and is a lane fault. -/
theorem State.shows_measure_of_hard (hw : (s.sextOf l).belowHard w h = true) (hs : (s.sextOf l).streak ≠ 0) :
    (s.measure l w h).shows (.sxt l) 1 = true ∧ (s.measure l w h).shows (.lnk l) 5 = true := by
  obtain ⟨u, -, hshow, heq⟩ := s.measure_frame l w h
  have htwo : 2 ≤ (s.sextOf l).streakAfter w h := by
    rw [Sext.streakAfter, if_pos hw]
    omega
  have hbit : u.shows (.sxt l) 1 = true := by
    refine hshow 1 ?_
    rw [Sext.alerts, if_pos htwo]
    split <;> rfl
  rw [heq, if_pos htwo]
  exact ⟨State.shows_laneFault_of_shows hbit l, u.shows_laneFault l⟩

end

/-- The margins after a measurement are its width and height and the minima so far. -/
theorem Sext.watched_margin (x : Sext) (w h : BitVec 8) : (x.watched w h).margin.extractLsb' 24 8 = w ∧
    (x.watched w h).margin.extractLsb' 16 8 = h ∧
    (x.seen = true → ((x.watched w h).margin.extractLsb' 8 8).toNat = min (x.margin.extractLsb' 8 8).toNat w.toNat ∧
      ((x.watched w h).margin.extractLsb' 0 8).toNat = min (x.margin.extractLsb' 0 8).toNat h.toNat) := by
  obtain ⟨hwidth, hheight, hminw, hminh⟩ := margin_bytes w h (x.lower (x.margin.extractLsb' 8 8) w) (x.lower (x.margin.extractLsb' 0 8) h)
  change (x.measured w h).margin.extractLsb' 24 8 = w ∧ (x.measured w h).margin.extractLsb' 16 8 = h ∧
    (_ → ((x.measured w h).margin.extractLsb' 8 8).toNat = _ ∧ ((x.measured w h).margin.extractLsb' 0 8).toNat = _)
  rw [Sext.measured_margin, hwidth, hheight, hminw, hminh]
  exact ⟨rfl, rfl, fun hseen => ⟨Sext.lower_toNat hseen _ _, Sext.lower_toNat hseen _ _⟩⟩

/-- A measurement within both hard limits ends the row of those below one. -/
theorem Sext.streakAfter_of_within {x : Sext} {w h : BitVec 8} (hw : x.whard ≤ w.toNat) (hh : x.hhard ≤ h.toNat) : x.streakAfter w h = 0 := by
  simp [Sext.streakAfter, Sext.belowHard, hw, hh]

/-! ### The two commands -/

theorem execFrameRelease_of_due {s : State} {l : Nat} (hl : l < 64) (h : s.releaseDue l = true) :
    execFrameRelease l s = .next (s.release l (cnSub s.cn (s.lane l).rofs)) := by
  simp [execFrameRelease, hl, h]

theorem execSextantMeasurement_of_watching {s : State} {l : Nat} (hl : l < 64) (ha : s.armed = true) (hr : (s.lane l).role ≠ 0)
    (w h : BitVec 8) : execSextantMeasurement l w h s =
      .next ((s.setSext l ((s.sextOf l).advance (s.lane l).lastEye)).measure l w h) := by
  have hwatch : (s.setSext l ((s.sextOf l).advance (s.lane l).lastEye)).watching l = true := by
    have ha' : (s.setSext l ((s.sextOf l).advance (s.lane l).lastEye)).armed = true := ha
    have hr' : ((s.setSext l ((s.sextOf l).advance (s.lane l).lastEye)).lane l).role ≠ 0 := hr
    simp [State.watching, ha', hr']
  simp [execSextantMeasurement, hl, hwatch]

end Sys2Proof.Machine
open Sys2Proof Sys2Proof.Machine

/-- Settles O44: a release takes the frame held for its number with its slack, or enters nothing as wholly lost and counts it late and substituted;
a measurement replaces the present margins, lowers the minima, and its mask of events holds the warning and the second one below a hard limit. -/
theorem laneReleasesAndMargins : Obligations.LaneReleasesAndMargins := by
  unfold Obligations.LaneReleasesAndMargins
  refine ⟨fun s l hl hr hdue hrep => ⟨fun f hf hm => ?_, fun hf hlock hanchor hnext => ?_⟩, fun s l w h hl ha hr => ?_⟩
  · obtain ⟨hring, hslack, hbuf, hctr⟩ := State.release_of_held hr hrep hf hm
    exact ⟨_, execFrameRelease_of_due hl hdue, hring, hslack, hbuf, State.ctr_congr hctr _⟩
  · exact ⟨_, execFrameRelease_of_due hl hdue, State.release_of_late hr hrep hf hlock hanchor hnext⟩
  · obtain ⟨hmargin, hlimit, hseen, hstreak⟩ := (s.sextOf l).advance_watch (s.lane l).lastEye
    refine ⟨_, execSextantMeasurement_of_watching hl ha hr w h, ?_⟩
    dsimp only
    rw [State.measure_sextOf, State.sextOf_setSext]
    have hsext := s.sextOf_setSext l ((s.sextOf l).advance (s.lane l).lastEye)
    generalize s.setSext l ((s.sextOf l).advance (s.lane l).lastEye) = u at hsext ⊢
    generalize (s.sextOf l).advance (s.lane l).lastEye = y at hmargin hlimit hseen hstreak hsext ⊢
    rw [Sext.wwarn, Sext.whard, Sext.hhard, ← hmargin, ← hlimit, ← hseen, ← hstreak]
    subst hsext
    obtain ⟨hwidth, hheight, hmin⟩ := (u.sextOf l).watched_margin w h
    exact ⟨hwidth, hheight, rfl, hmin, fun hw => u.shows_measure_of_warn l w h (decide_eq_true (Or.inl hw)),
      fun hw hs => u.shows_measure_of_hard l w h (decide_eq_true (Or.inl hw)) hs, fun hw hh => Sext.streakAfter_of_within hw hh⟩

end

section
/-! PROOFS. The lane services: LANEIDLE, LANETUNE, MGMTSEND and DESKEW (08 R255, R259, 09 R298, R303, 12 R335, 15 R418, 17 R465). -/

namespace Sys2Proof.Machine

/-! ### Commands that name no crossing and are not mirrored (15 R400 to R405) -/

theorem asksPair_iff {h : CmdHdr} {len : Nat} {at_ : Bool} {s : State} :
    asksPair h len at_ s = true ↔ s.takes h.mbx = true ∧ s.isAwake = true ∧ h.len = len ∧ h.at_ = at_ ∧ h.rsvd = false := by
  simp [asksPair, hdrSays, and_assoc]

/-- The checks of R405 pass on an awake device where the command's own row and the pair role's are met. -/
theorem kCheck_awake {c : CmdSpec} {m : Nat} {r : KReq} {s : State} (ho : s.isAwake = true) (hp : c.pairCode s = 0) (hl : c.lenOk r = true)
    (hb : c.badOp r = none) (hr : r.hdr.rsvd = false) (ha : r.hdr.at_ = c.cross (c.opds r)) (hz : c.zeroOp r = none)
    (hn : c.runCode s = 0) (ht : c.late s r = false) : kCheck c m r s = none := by
  simp only [State.isAwake, Bool.and_eq_true, decide_eq_true_eq, Bool.not_eq_true'] at ho
  obtain ⟨⟨⟨hsst, howned⟩, hbrd⟩, hstand⟩ := ho
  have hsleep : c.sleepOk s = true := by simp [CmdSpec.sleepOk, hsst]
  have hpolicy : c.policyBars s m = false := by simp [CmdSpec.policyBars, howned, hbrd, hstand]
  simp [kCheck, hl, hb, hr, ha, hz, hn, ht, hsleep, hp, hpolicy]

/-- A command that names no crossing passes the checks on an awake device where operands, run state and pair role allow it. -/
theorem kCheck_prompt_awake {c : CmdSpec} {h : CmdHdr} {op : Nat} {ops : List Dword} {s : State} (hc : c.Prompt) (hawake : s.isAwake = true)
    (hp : c.pairCode s = 0) (hlen : h.len = 8 * ops.length) (hat : h.at_ = false) (hrsvd : h.rsvd = false) (hs : ops.length ≤ 504)
    (hr : inRange ops c.maxs) (hn : c.runCode s = 0) : kCheck c h.mbx (mkReq op h ops []) s = none :=
  kCheck_awake hawake hp (CmdSpec.lenOk_of_plain (c := { c with cross := fun _ => true }) hc.plain hr.length_eq hlen (by omega))
    (CmdSpec.badOp_of_inRange (c := { c with cross := fun _ => true }) hc.plain hr) hrsvd
    (hat.trans (hc.cross _).symm) (by rw [CmdSpec.zeroOp, hc.plain.zero]; rfl) hn (CmdSpec.not_late_of_prompt hc _ _)

/-- A command that is neither mirrored nor DESKEW meets no pair refusal, but in LOST (12 R338, R352). -/
theorem CmdSpec.pairCode_of_unmirrored {c : CmdSpec} {s : State} (hm : c.mir = false) (hop : c.op ≠ 0x0A01)
    (h : s.pairMode = false ∨ s.pair.st ≠ .lost) : c.pairCode s = 0 := by
  have hhelm : c.helmOnly = false := by simp [CmdSpec.helmOnly, hm, hop]
  obtain h | h := h <;> simp [CmdSpec.pairCode, hhelm, h]

theorem State.mirrors_of_unmirrored {c : CmdSpec} (hm : c.mir = false) (s : State) : s.mirrors c = false := by simp [State.mirrors, hm]

theorem kFinish_jnl_head {c : CmdSpec} {u : State} (hm : u.mirrors c = false) (w : Waiting) (d : Dword) (l : List Byte) :
    (kFinish c u w d l).jnl.head = u.jnl.head := by
  simp only [kFinish, hm, Bool.false_eq_true, if_false]
  split <;> split <;> simp [State.jEnd]

/-- The owning chapter of a journaled command is asked in a state whose mailboxes and journal alone are others than before. -/
theorem KCmd.asked_frame {c : KCmd} (hj : c.spec.jrn = true) (r : KReq) (s : State) :
    ∃ mbx jnl, c.asked r s = { s with mbx := mbx, jnl := jnl } ∧ mbx = (s.submitted r).mbx ∧ jnl.head = s.jnl.head + 1 :=
  ⟨_, _, if_pos hj, rfl, rfl⟩

/-- A command accepted at once, none of its row's flags but J set: it completes, stands in the journal, and its results in its buffer. -/
theorem kSubmit_accepted {c : KCmd} {r : KReq} {s u : State} {d : Dword} {l : List Byte} {op : Nat} (hm : c.spec.mir = false)
    (hj : c.spec.jrn = true) (hx : ∀ o, c.spec.cross o = false) (hact : c.act = noAct) (hop : r.op = BitVec.ofNat 16 op)
    (ht : s.takes r.hdr.mbx = true) (hk : kCheck c.spec r.hdr.mbx r (s.submitted r) = none)
    (ho : c.own (c.asked r s) (c.entry r s) = .now u d l) (hbox : u.mbx = (c.asked r s).mbx) (hjnl : u.jnl = (c.asked r s).jnl) :
    GoesTo (kSubmit c r s) fun t => Completes s t r.hdr op d ∧ Journals s t ∧ u.AnswerOf t ∧
      (t.mbxOf r.hdr.mbx).buf = ((((s.mbxOf r.hdr.mbx).submit r)).filled l).buf := by
  have hmir := State.mirrors_of_unmirrored hm u
  have hasked : c.asked r s = _ := if_pos hj
  have hsub := kSubmit_now ht hk ho (hx _)
  have hsubmitted : u.mbxOf r.hdr.mbx = (s.submitted r).mbxOf r.hdr.mbx := by
    rw [State.mbxOf, State.mbxOf, hbox, hasked]
    rfl
  have hmbx : u.mbxOf r.hdr.mbx = (s.mbxOf r.hdr.mbx).submit r := hsubmitted.trans (by simp [State.submitted])
  rw [hact] at hsub
  obtain ⟨hlt, -, -, hheld, -, hused⟩ := State.takes_iff.1 ht
  have hused' : (u.mbxOf r.hdr.mbx).used < 64 := by
    rw [hmbx]
    exact Nat.lt_of_le_of_lt hused (by decide)
  have hheld' : (u.mbxOf r.hdr.mbx).held = [] := by
    rw [hmbx]
    exact hheld
  obtain ⟨-, -, -, -, -, hbuf, -⟩ := c.answered_mbx (c.entry r s) d l hmir hlt hused' hheld'
  refine ⟨_, hsub, completes_answered ht hmir hsubmitted hop rfl, ?_, ?_, ?_⟩
  · change (c.answered u _ d l).jnl.head = _
    rw [KCmd.answered, KCmd.note_jnl, kFinish_jnl_head hmir, hjnl, hasked]
    rfl
  · rw [State.AnswerOf, State.served, noAct, c.answered_eq _ d l hmir]
  · rw [← hmbx]
    exact hbuf

/-! ### LANEIDLE (09 R303, 12 R335, 17 R465) -/

/-- A lane in or out of electrical idle keeps no lock. -/
theorem Lane.idle_unlocked (x : Lane) (enter : Bool) : (x.idle enter).lock = false ∧ (x.idle enter).anchor = false := by
  unfold Lane.idle
  dsimp only
  split
  · exact ⟨rfl, rfl⟩
  · split <;> exact ⟨rfl, rfl⟩

/-- The receiver goes into electrical idle on request, and on request waits for a burst. -/
theorem Lane.idle_received (x : Lane) (enter : Bool) : (x.idle enter).eirx = (x.eirx || enter) ∧ (x.idle enter).wake = !enter := by
  unfold Lane.idle
  dsimp only
  split
  · exact ⟨rfl, rfl⟩
  · split <;> exact ⟨rfl, rfl⟩

/-- The transmitter goes into electrical idle on request and on input lanes, and comes out of it with a burst of 1,024 UI. -/
theorem Lane.idle_sent (x : Lane) (enter : Bool) : (x.idle enter).eitx = (enter || x.role == 1) ∧
    (enter = false → x.role ≠ 1 → x.eitx = true → (x.idle enter).txBurst = 1024) := by
  unfold Lane.idle
  dsimp only
  split
  next h => 
    refine ⟨?_, fun he hr => ?_⟩
    · rw [h]
      rfl
    · simp [he, hr] at h
  next h =>
    have hstay : (enter || x.role == 1) = false := by simpa using h
    rw [hstay]
    split
    next => exact ⟨rfl, fun _ _ _ => rfl⟩
    next ht => exact ⟨by simpa [Lane.unlocked] using ht, fun _ _ he => absurd he ht⟩

/-- A lane taken into electrical idle. -/
theorem Lane.idle_true (x : Lane) : (x.idle true).eitx = true ∧ (x.idle true).eirx = true := by
  obtain ⟨hsent, -⟩ := x.idle_sent true
  obtain ⟨hrecv, -⟩ := x.idle_received true
  exact ⟨by rw [hsent, Bool.true_or], by rw [hrecv, Bool.or_true]⟩

section
variable (s : State) (x : Lane) (enter : Bool)

theorem State.idleLane_unlocked : (s.idleLane x enter).lock = false ∧ (s.idleLane x enter).anchor = false := by
  unfold State.idleLane
  split
  · exact x.idle_unlocked true
  · split
    · exact x.idle_unlocked true
    · exact x.idle_unlocked enter

/-- A mirror lane of a solo device, and every lane in the clock safe state, is in electrical idle. -/
theorem State.idleLane_of_stays (h : (x.role = 3 ∧ s.pairMode = false) ∨ s.clk.safe = true) :
    (s.idleLane x enter).eitx = true ∧ (s.idleLane x enter).eirx = true := by
  unfold State.idleLane
  split
  · exact x.idle_true
  next hsolo =>
    have hsafe : s.clk.safe = true := h.resolve_left fun h => hsolo (by simp [h])
    rw [if_pos hsafe]
    exact x.idle_true

section
variable {s x} (h : ¬ (x.role = 3 ∧ s.pairMode = false))
include h

theorem State.idleLane_wake : (s.idleLane x enter).wake = !enter := by
  unfold State.idleLane
  rw [if_neg (by simpa using h)]
  split
  · rfl
  · obtain ⟨-, hwake⟩ := x.idle_received enter
    exact hwake

theorem State.idleLane_of_free (hsafe : s.clk.safe = false) : s.idleLane x enter = x.idle enter := by
  unfold State.idleLane
  rw [if_neg (by simpa using h), hsafe, if_neg Bool.false_ne_true]

end

end

theorem cmdLaneidle_spec : cmdLaneidle.spec.Prompt := CmdSpec.prompt_row _ _ _ _

/-- The owning chapter accepts LANEIDLE of a lane that no run uses. -/
theorem ownLaneidle_of_unused {s : State} {w : Waiting} (h : s.armed = false ∨ (s.lane (w.req.opd 0).toNat).role = 0) :
    ownLaneidle s w = .now ((s.setLane (w.req.opd 0).toNat (s.idleLane (s.lane (w.req.opd 0).toNat) (w.req.opd 1 == 1))).flushCrossing 2 1
      (s.lane (w.req.opd 0).toNat).buf.length) 0 [] := by
  have hfree : ¬ (s.armed = true ∧ (s.lane (w.req.opd 0).toNat).role ≠ 0) := by
    obtain h | h := h <;> simp [h]
  simp only [ownLaneidle, if_neg hfree]

theorem State.flushCrossing_lane (s : State) (reset peer n l : Nat) : (s.flushCrossing reset peer n).lane l = s.lane l := by
  refine State.lane_congr ?_ l
  simp [State.flushCrossing]

/-- LANEIDLE of an unused lane completes and leaves the lane as its chapter has it. -/
theorem execLaneidle_of_unused {h : CmdHdr} {lane enter : Dword} {s : State} (ha : asksPair h 16 false s = true)
    (hp : s.pairMode = false ∨ s.pair.st ≠ .lost) (hl : lane.toNat < 64) (he : enter.toNat ≤ 1)
    (hu : s.armed = false ∨ (s.lane lane.toNat).role = 0) :
    GoesTo (execLaneidle h lane enter s) fun t => Completes s t h 0x0A07 0 ∧ Journals s t ∧
      t.lane lane.toNat = s.idleLane (s.lane lane.toNat) (enter == 1) ∧ ∀ l, l ≠ lane.toNat → t.lane l = s.lane l := by
  obtain ⟨ht, hawake, hlen, hat, hrsvd⟩ := asksPair_iff.1 ha
  have hr : inRange [lane, enter] [63, 1] := .cons (by omega) (.cons he .nil)
  have hcheck : kCheck cmdLaneidle.spec h.mbx (mkReq 0x0A07 h [lane, enter] []) (s.submitted (mkReq 0x0A07 h [lane, enter] [])) = none :=
    kCheck_prompt_awake (s := s.submitted _) cmdLaneidle_spec hawake (CmdSpec.pairCode_of_unmirrored (s := s.submitted _) rfl (by decide) hp)
      hlen hat hrsvd (by simp) hr (CmdSpec.runCode_any rfl)
  obtain ⟨mbx, jnl, hasked, -, -⟩ := KCmd.asked_frame (c := cmdLaneidle) rfl (mkReq 0x0A07 h [lane, enter] []) s
  have hown := ownLaneidle_of_unused (s := { s with mbx := mbx, jnl := jnl })
    (w := cmdLaneidle.entry (mkReq 0x0A07 h [lane, enter] []) s) (by rw [KCmd.entry_req, opd_mkReq0]; exact hu)
  rw [KCmd.entry_req, opd_mkReq0, opd_mkReq1, ← hasked] at hown
  refine GoesTo.mono (kSubmit_accepted (c := cmdLaneidle) (op := 0x0A07) rfl rfl (fun _ => rfl) rfl rfl ht hcheck hown ?_ ?_) fun t => ?_
  · simp [State.flushCrossing]
  · simp [State.flushCrossing]
  · rintro ⟨hcomp, hjnl, hans, -⟩
    rw [hasked] at hans
    refine ⟨hcomp, hjnl, ?_, fun l hne => ?_⟩
    · rw [hans.lane, State.flushCrossing_lane, State.lane_setLane]
      rfl
    · rw [hans.lane, State.flushCrossing_lane, State.lane_setLane_ne _ _ hne]
      rfl

/-! ### LANETUNE (09 R298) -/

theorem bytesAt_length (l : List Byte) (i n : Nat) : (bytesAt l i n).length = n := by simp [bytesAt]

/-- A mailbox's buffer holds the results put in it. -/
theorem Mbx.body_filled {b : Mbx} {l : List Byte} (hl : l ≠ []) (hn : l.length ≤ 4032) : bytesAt (b.filled l).buf 64 l.length = l := by
  have hlen : (bytesAt b.buf 0 64 ++ l).length ≤ 4096 := by
    rw [List.length_append, bytesAt_length]
    omega
  have hpast := bytesAt_append_right (bytesAt b.buf 0 64) (l ++ (b.buf.drop (64 + l.length)).take (4096 - (bytesAt b.buf 0 64 ++ l).length))
    0 l.length
  rw [bytesAt_length] at hpast
  rw [Mbx.filled, if_neg hl, Mbx.write]
  dsimp only
  rw [List.take_append, List.take_of_length_le hlen, List.append_assoc, hpast, bytesAt_append]

theorem ownLanetune_of_assigned {s : State} {w : Waiting} (h : (s.lane (w.req.opd 0).toNat).role ≠ 0) :
    ∃ tx rx df : Word, ownLanetune s w =
        .now { s with freeCtr := s.freeCtr + 3 } 0 (leBytes 4 tx.toNat ++ leBytes 4 rx.toNat ++ leBytes 4 df.toNat) ∧
      tx &&& 0xC0000000 = 0 ∧ rx &&& 0x0000FFFF = 0 ∧ df &&& 0xC0000000 = 0 := by
  have hand (a b c : Word) (hbc : b &&& c = 0) : a &&& b &&& c = 0 := by
    rw [BitVec.and_assoc, hbc]
    exact BitVec.and_zero
  exact ⟨_, _, _, if_neg h, hand _ _ _ (by decide), hand _ _ _ (by decide), hand _ _ _ (by decide)⟩

/-- LANETUNE of a lane with a role completes with three setting words in its buffer. -/
theorem execLanetune_of_assigned {h : CmdHdr} {lane : Dword} {s : State} (ha : asks h 8 false s = true) (hl : lane.toNat < 64)
    (harm : s.armed = false) (hrole : (s.lane lane.toNat).role ≠ 0) :
    GoesTo (execLanetune h lane s) fun t => Completes s t h 0x0A05 0 ∧ Journals s t ∧ t.lanes = s.lanes ∧
      ∃ tx rx df : Word, (t.mbxOf h.mbx).body 12 = leBytes 4 tx.toNat ++ leBytes 4 rx.toNat ++ leBytes 4 df.toNat ∧
        tx &&& 0xC0000000 = 0 ∧ rx &&& 0x0000FFFF = 0 ∧ df &&& 0xC0000000 = 0 := by
  obtain ⟨ht, hopen, hlen, hat, hrsvd⟩ := asks_iff.1 ha
  have hr : inRange [lane] [63] := .cons (by omega) .nil
  have hcheck : kCheck cmdLanetune.spec h.mbx (mkReq 0x0A05 h [lane] []) (s.submitted (mkReq 0x0A05 h [lane] [])) = none :=
    kCheck_prompt (s := s.submitted _) (CmdSpec.prompt_row _ _ _ _) hopen hlen hat hrsvd (by simp) hr (CmdSpec.runCode_no rfl harm)
  obtain ⟨mbx, jnl, hasked, -, -⟩ := KCmd.asked_frame (c := cmdLanetune) rfl (mkReq 0x0A05 h [lane] []) s
  obtain ⟨tx, rx, df, hown, hmasks⟩ := ownLanetune_of_assigned (s := { s with mbx := mbx, jnl := jnl })
    (w := cmdLanetune.entry (mkReq 0x0A05 h [lane] []) s) (by rw [KCmd.entry_req, opd_mkReq0]; exact hrole)
  rw [← hasked] at hown
  refine GoesTo.mono (kSubmit_accepted (c := cmdLanetune) (op := 0x0A05) rfl rfl (fun _ => rfl) rfl rfl ht hcheck hown rfl rfl) fun t => ?_
  rintro ⟨hcomp, hjnl, hans, hbuf⟩
  have hthree : (leBytes 4 tx.toNat ++ leBytes 4 rx.toNat ++ leBytes 4 df.toNat).length = 12 := by simp [leBytes_length]
  rw [hasked] at hans
  refine ⟨hcomp, hjnl, ?_, tx, rx, df, ?_, hmasks⟩
  · rw [hans]
  · rw [mkReq_hdr] at hbuf
    rw [Mbx.body, hbuf, ← hthree]
    exact Mbx.body_filled (List.ne_nil_of_length_pos (by omega)) (by omega)

/-! ### MGMTSEND (15 R418) -/

theorem State.sideQueue_of_room {s : State} {l : Nat} {p : Pkt} (h : (s.hubOf l).room p = true) :
    s.sideQueue l p = s.setHub l { s.hubOf l with side := (s.hubOf l).side ++ [p] } := if_pos h

theorem ownMgmtsend_of_room {s : State} {w : Waiting} (hr : (s.lane (w.req.opd 0).toNat).role = 4)
    (h : (s.hubOf (w.req.opd 0).toNat).room (mgmtPkt 0x10 (w.req.list 1)) = true) :
    ownMgmtsend s w = .now (s.setHub (w.req.opd 0).toNat { s.hubOf (w.req.opd 0).toNat with
      side := (s.hubOf (w.req.opd 0).toNat).side ++ [mgmtPkt 0x10 (w.req.list 1)] }) 0 [] := by
  rw [← State.sideQueue_of_room h]
  exact if_neg (not_not.2 hr)

theorem kCheck_mgmtsend {h : CmdHdr} {lane : Dword} {lst : List Byte} {s : State} (hopen : s.isOpen = true) (hlen : h.len = 8 + lst.length)
    (hat : h.at_ = false) (hrsvd : h.rsvd = false) (hl : lane.toNat < 64) (hlst : lst.length ≤ 2032) :
    kCheck cmdMgmtsend.spec h.mbx (mkReq 0x0D01 h [lane] lst) s = none := by
  have hr : inRange [lane] [63] := .cons (by omega) .nil
  have hlenOk : cmdMgmtsend.spec.lenOk (mkReq 0x0D01 h [lane] lst) = true := by
    simp [CmdSpec.lenOk, cmdMgmtsend, hlen, hlst]
    omega
  exact kCheck_open hopen hlenOk (CmdSpec.badOp_of_inRange (c := { cmdMgmtsend.spec with cross := fun _ => true, list := fun _ n => n == 0 })
    (CmdSpec.plain_row _ _ _ _) hr) hrsvd hat rfl (CmdSpec.runCode_any rfl) rfl

/-- MGMTSEND on a hub lane with room completes and queues its packet behind those of the lane. -/
theorem execMgmtsend_of_room {h : CmdHdr} {lane : Dword} {lst : List Byte} {s : State} (ha : asks h (8 + lst.length) false s = true)
    (hl : lane.toNat < 64) (hlst : lst.length ≤ 2032) (hrole : (s.lane lane.toNat).role = 4)
    (hroom : (s.hubOf lane.toNat).room (mgmtPkt 0x10 lst) = true) :
    GoesTo (execMgmtsend h lane lst s) fun t => Completes s t h 0x0D01 0 ∧ Journals s t ∧
      (t.hubOf lane.toNat).side = (s.hubOf lane.toNat).side ++ [mgmtPkt 0x10 lst] := by
  obtain ⟨ht, hopen, hlen, hat, hrsvd⟩ := asks_iff.1 ha
  obtain ⟨mbx, jnl, hasked, -, -⟩ := KCmd.asked_frame (c := cmdMgmtsend) rfl (mkReq 0x0D01 h [lane] lst) s
  have hlist : (cmdMgmtsend.entry (mkReq 0x0D01 h [lane] lst) s).req.list 1 = lst := list_mkReq 0x0D01 h [lane] lst
  have hown := ownMgmtsend_of_room (s := { s with mbx := mbx, jnl := jnl }) (w := cmdMgmtsend.entry (mkReq 0x0D01 h [lane] lst) s)
    (by rw [KCmd.entry_req, opd_mkReq0]; exact hrole) (by rw [hlist, KCmd.entry_req, opd_mkReq0]; exact hroom)
  rw [hlist, KCmd.entry_req, opd_mkReq0, ← hasked] at hown
  refine GoesTo.mono (kSubmit_accepted (c := cmdMgmtsend) (op := 0x0D01) rfl rfl (fun _ => rfl) rfl rfl ht
    (kCheck_mgmtsend (s := s.submitted _) hopen hlen hat hrsvd hl hlst) hown rfl rfl) fun t => ?_
  rintro ⟨hcomp, hjnl, hans, -⟩
  rw [hasked] at hans
  refine ⟨hcomp, hjnl, ?_⟩
  have hhub : t.hub = tset s.hub lane.toNat { s.hubOf lane.toNat with side := (s.hubOf lane.toNat).side ++ [mgmtPkt 0x10 lst] } := by
    rw [hans]
    rfl
  rw [State.hubOf, hhub, tget_tset_same]

/-! ### DESKEW (08 R255, R259) -/

/-- The lanes below n that p picks, as bits. -/
theorem foldl_pick_getLsbD (p : Nat → Bool) (n i : Nat) (hi : i < 64) :
    ((List.range n).foldl (fun m l => if p l then m ||| (1 : Dword) <<< l else m) 0).getLsbD i = (decide (i < n) && p i) := by
  induction n with
  | zero => simp
  | succ n ih =>
    rw [List.range_succ, List.foldl_concat]
    by_cases hin : i = n
    · subst hin
      have hlt : decide (i < i + 1) = true := decide_eq_true (Nat.lt_succ_self i)
      rw [hlt, Bool.true_and]
      cases hp : p i
      · rw [if_neg Bool.false_ne_true, ih, hp, Bool.and_false]
      · simp [hi]
    · have hstep : decide (i < n + 1) = decide (i < n) := decide_eq_decide.2 (by omega)
      have hbit : ((1 : Dword) <<< n).getLsbD i = false := by
        rw [BitVec.getLsbD_shiftLeft]
        by_cases hlt : i < n
        · simp [hlt]
        · have hpos : i - n ≠ 0 := by omega
          simp [hpos]
      rw [hstep, ← ih]
      split
      · rw [BitVec.getLsbD_or, hbit, Bool.or_false]
      · rfl

/-- A selection is narrowed to the input lanes once. -/
theorem State.inputLanes_idem (s : State) (sel : Dword) : s.inputLanes (s.inputLanes sel) = s.inputLanes sel := by
  have hbit (m : Dword) (i : Nat) (hi : i < 64) :
      (s.inputLanes m).getLsbD i = (decide (i < 64) && (m.getLsbD i && (s.lane i).role == 1)) :=
    foldl_pick_getLsbD (fun l => m.getLsbD l && (s.lane l).role == 1) 64 i hi
  refine BitVec.eq_of_getLsbD_eq fun i hi => ?_
  rw [hbit _ i hi, hbit _ i hi]
  simp [hi]

theorem capDepth_bounds (lanes : Dword) : 2 ≤ capDepth lanes ∧ capDepth lanes ≤ 8192 := by
  unfold capDepth
  split <;> decide

/-! ### Commands of Klowyn's own that wait for a crossing of a run (15 R406, R409, R413) -/

theorem State.logEvent_frame (s : State) (e : LogEvt) : ∃ log, s.logEvent e = { s with log := log } := by
  unfold State.logEvent
  split
  · exact ⟨_, rfl⟩
  · split <;> exact ⟨_, rfl⟩

theorem KCmd.note_frame (c : KCmd) (w : Waiting) (u : State) : ∃ log, c.note w u = { u with log := log } := by
  unfold KCmd.note
  split
  · exact u.logEvent_frame _
  · exact ⟨_, rfl⟩

/-- A command of Klowyn's own, accepted in a run with nothing changed, enters journal and recording and waits for its crossing. -/
theorem kRun_own_waits {c : KCmd} {m : Nat} {r : KReq} {s : State} (hm : 16 ≤ m) (hp : s.pairMode = false) (harm : s.armed = true)
    (hj : c.spec.jrn = true) (hx : ∀ o, c.spec.cross o = true) (hk : kCheck c.spec m r s = none)
    (ho : ∀ jnl, c.own { s with jnl := jnl } (s.mkWaiting c.spec m r) = .now { s with jnl := jnl } 0 []) :
    ∃ jnl log, jnl.head = s.jnl.head + 1 ∧ kRun c m r s =
      { s with jnl := jnl, log := log, kly := { s.kly with waiting := s.kly.waiting ++ [s.mkWaiting c.spec m r] } } := by
  have hasked : c.askedBy m r s = s.jAdd (s.jEntry c.spec m r 0) := if_pos hj
  have hown : c.own (c.askedBy m r s) (s.mkWaiting c.spec m r) = .now (c.askedBy m r s) 0 [] := by
    rw [hasked]
    exact ho _
  have hwait : c.spec.atOnce s r = false := by simp [CmdSpec.atOnce, hx, harm]
  obtain ⟨log, hnote⟩ := c.note_frame (s.mkWaiting c.spec m r) (c.askedBy m r s)
  refine ⟨(s.jAdd (s.jEntry c.spec m r 0)).jnl, log, rfl, ?_⟩
  rw [kRun_of_no_box hm hp hk (hx _) hown, hwait, if_neg Bool.false_ne_true, hnote, hasked]
  rfl

/-- The checks that a command of Klowyn's own at crossing a passes on an open device in a run: its operands and its lead. -/
theorem kCheck_ownReq {c : CmdSpec} {op : Nat} {a : CN} {ops : List Dword} {s : State} (hc : CmdSpec.Plain { c with zero := [] })
    (hopen : s.isOpen = true) (hs : ops.length ≤ 504) (hr : inRange ops c.maxs) (hz : c.zeroOp (ownReq op a ops) = none)
    (hn : c.run = .any) (hnear : s.lead c.op (8 * ops.length) ≤ (a - s.cn).toNat) (hfar : (a - s.cn).toNat ≤ 2 ^ 47 - 1) :
    kCheck c 253 (ownReq op a ops) s = none := by
  refine kCheck_open hopen (CmdSpec.lenOk_of_plain (c := { c with zero := [] }) hc hr.length_eq rfl ?_)
    (CmdSpec.badOp_of_inRange (c := { c with zero := [] }) hc hr) rfl (hc.cross _).symm hz (CmdSpec.runCode_any hn)
    (CmdSpec.not_late (decide_eq_true ⟨hnear, hfar⟩))
  change 8 * ops.length ≤ 4032
  omega

/-! ### The capture of a deskew calibration (08 R255, R259) -/

/-- The arming of a calibration's capture: half of its window before the reference. -/
def deskewArm (ref : CN) (win : Nat) (ls : Dword) : KReq :=
  ownReq 0x0601 (cnSub ref (win / 2)) [BitVec.ofNat 64 (win / 2), BitVec.ofNat 64 (win - win / 2), ls, 0, 0, 0]

def deskewTrig (ref : CN) : KReq := ownReq 0x0602 ref []

section
variable {s : State}

theorem ownDeskew_of_uncovered {w : Waiting} (hsum : (w.req.opd 0).toNat + (w.req.opd 1).toNat ≤ 65536)
    (hwin : (w.req.opd 3).toNat ≤ capDepth (s.inputLanes (cmapLanes (s.deskewCtxs w)))) (hst : s.cap.st = .idle) (hlog : s.logHolds = false)
    (hes : s.deskewCtxs w = []) : ownDeskew s w = .now s 0 [] := by
  have hfree : (decide (s.cap.st ≠ .idle) || s.logHolds) = false := by simp [hst, hlog]
  unfold ownDeskew
  dsimp only
  rw [if_neg (Nat.not_lt.2 hsum), if_neg (Nat.not_lt.2 hwin), hfree, if_neg Bool.false_ne_true, if_pos hes]

theorem ownDeskew_of_covered {w : Waiting} (hsum : (w.req.opd 0).toNat + (w.req.opd 1).toNat ≤ 65536)
    (hwin : (w.req.opd 3).toNat ≤ capDepth (s.inputLanes (cmapLanes (s.deskewCtxs w)))) (hst : s.cap.st = .idle) (hlog : s.logHolds = false)
    (hes : s.deskewCtxs w ≠ [])
    (harm : kCheck cmdCaparm.spec 253 (deskewArm w.ref (w.req.opd 3).toNat (s.inputLanes (cmapLanes (s.deskewCtxs w)))) s = none)
    (htrig : kCheck cmdCaptrig.spec 253 (deskewTrig w.ref) s = none) :
    ownDeskew s w = .long (kRun cmdCaptrig 253 (deskewTrig w.ref)
      (kRun cmdCaparm 253 (deskewArm w.ref (w.req.opd 3).toNat (s.inputLanes (cmapLanes (s.deskewCtxs w)))) s)) := by
  have hfree : (decide (s.cap.st ≠ .idle) || s.logHolds) = false := by simp [hst, hlog]
  have hfirst : firstOf [kCheck cmdCaparm.spec 253 (deskewArm w.ref (w.req.opd 3).toNat (s.inputLanes (cmapLanes (s.deskewCtxs w)))) s,
      kCheck cmdCaptrig.spec 253 (deskewTrig w.ref) s] = none := by
    rw [harm, htrig]
    rfl
  unfold deskewArm deskewTrig at hfirst ⊢
  unfold ownDeskew
  dsimp only
  rw [if_neg (Nat.not_lt.2 hsum), if_neg (Nat.not_lt.2 hwin), hfree, if_neg Bool.false_ne_true, if_neg hes, hfirst]

/-- The capture of a calibration keeps the depth of its lanes. -/
theorem ownCaparm_of_deskew {w : Waiting} {ref : CN} {win : Nat} {sel : Dword} (hreq : w.req = deskewArm ref win (s.inputLanes sel))
    (hwin : win ≤ capDepth (s.inputLanes sel)) (hst : s.cap.st = .idle) (hlog : s.logHolds = false) : ownCaparm s w = .now s 0 [] := by
  obtain ⟨hlow, hhigh⟩ := capDepth_bounds (s.inputLanes sel)
  have hpre : (w.req.opd 0).toNat = win / 2 := by
    rw [hreq, deskewArm, ownReq, opd_mkReq0, BitVec.toNat_ofNat]
    omega
  have hpost : (w.req.opd 1).toNat = win - win / 2 := by
    rw [hreq, deskewArm, ownReq, opd_mkReq1, BitVec.toNat_ofNat]
    omega
  have hlanes : w.req.opd 2 = s.inputLanes sel := by rw [hreq, deskewArm, ownReq, opd_mkReq2]
  have hctl : w.req.opd 5 = 0 := by rw [hreq, deskewArm, ownReq, opd_mkReq5]
  have hbit : ¬ ((w.req.opd 5).getLsbD 0 = true ∧ win / 2 + (w.req.opd 4).toNat + 1 > capDepth (s.inputLanes sel)) := by simp [hctl]
  have hfree : (decide (s.cap.st ≠ .idle) || s.logHolds) = false := by simp [hst, hlog]
  unfold ownCaparm
  dsimp only
  rw [hpre, hpost, hlanes, s.inputLanes_idem, if_neg (by omega), if_neg (by omega), if_neg hbit, hfree, if_neg Bool.false_ne_true]

theorem cmdCaparm_zeroOp {r : KReq} (hpost : r.opd 1 ≠ 0) (hlanes : r.opd 2 ≠ 0) : cmdCaparm.spec.zeroOp r = none := by
  simp only [CmdSpec.zeroOp, cmdCaparm]
  rw [List.find?_cons, decide_eq_false hpost, List.find?_cons, decide_eq_false hlanes]
  rfl

theorem kCheck_deskewArm {ref : CN} {win : Nat} {ls : Dword} (hopen : s.isOpen = true) (hpos : win ≠ 0) (hwin : win ≤ 8192) (hls : ls ≠ 0)
    (hnear : s.lead 0x0601 48 ≤ (cnSub ref (win / 2) - s.cn).toNat) (hfar : (cnSub ref (win / 2) - s.cn).toNat ≤ 2 ^ 47 - 1) :
    kCheck cmdCaparm.spec 253 (deskewArm ref win ls) s = none := by
  have hpre : (BitVec.ofNat 64 (win / 2)).toNat = win / 2 := by
    rw [BitVec.toNat_ofNat]
    omega
  have hpost : (BitVec.ofNat 64 (win - win / 2)).toNat = win - win / 2 := by
    rw [BitVec.toNat_ofNat]
    omega
  have hr : inRange [BitVec.ofNat 64 (win / 2), BitVec.ofNat 64 (win - win / 2), ls, 0, 0, 0] [8191, 8192, 2 ^ 64 - 1, 65535, 4095, 15] :=
    .cons (hpre.trans_le (by omega)) (.cons (hpost.trans_le (by omega)) (.cons (Nat.le_pred_of_lt ls.isLt)
      (.cons (Nat.zero_le _) (.cons (Nat.zero_le _) (.cons (Nat.zero_le _) .nil)))))
  have hne : BitVec.ofNat 64 (win - win / 2) ≠ 0 := by
    intro h
    rw [h] at hpost
    have hzero : (0 : Dword).toNat = 0 := rfl
    omega
  have hz : cmdCaparm.spec.zeroOp (deskewArm ref win ls) = none :=
    cmdCaparm_zeroOp (by rw [deskewArm, ownReq, opd_mkReq1]; exact hne) (by rw [deskewArm, ownReq, opd_mkReq2]; exact hls)
  exact kCheck_ownReq (CmdSpec.plain_row _ _ _ _) hopen (by simp) hr hz rfl hnear hfar

theorem kCheck_deskewTrig {ref : CN} (hopen : s.isOpen = true) (hnear : s.lead 0x0602 0 ≤ (ref - s.cn).toNat)
    (hfar : (ref - s.cn).toNat ≤ 2 ^ 47 - 1) : kCheck cmdCaptrig.spec 253 (deskewTrig ref) s = none :=
  kCheck_ownReq (CmdSpec.plain_row _ _ _ _) hopen (by simp) .nil rfl rfl hnear hfar

theorem cmdCaparm_own : cmdCaparm.own = ownCaparm := by rw [cmdCaparm]

/-- In a run, a command of Klowyn's own waits for the crossing it names. -/
theorem mkWaiting_ownReq_at {c : CmdSpec} (hx : ∀ o, c.cross o = true) (hrun : s.armed = true) (m op : Nat) (a : CN) (ops : List Dword) :
    (s.mkWaiting c m (ownReq op a ops)).at_ = a := by
  have hwait : c.atOnce s (ownReq op a ops) = false := by simp [CmdSpec.atOnce, hx, hrun]
  simp only [State.mkWaiting, hwait]
  rfl

/-- Klowyn can announce command op of length len for crossing c (15 R408). -/
def State.reaches (s : State) (op len : Nat) (c : CN) : Prop := s.lead op len ≤ (c - s.cn).toNat ∧ (c - s.cn).toNat ≤ 2 ^ 47 - 1

/-- Both commands of a calibration are accepted and wait, the arming before the trigger. -/
theorem kRun_deskew {ref : CN} {win : Nat} {sel : Dword} (hopen : s.isOpen = true) (hrun : s.armed = true)
    (hwin : win ≤ capDepth (s.inputLanes sel)) (hst : s.cap.st = .idle) (hlog : s.logHolds = false)
    (harm : kCheck cmdCaparm.spec 253 (deskewArm ref win (s.inputLanes sel)) s = none) (htrig : s.reaches 0x0602 0 ref) :
    ∃ jnl log x y, jnl.head = s.jnl.head + 2 ∧
      kRun cmdCaptrig 253 (deskewTrig ref) (kRun cmdCaparm 253 (deskewArm ref win (s.inputLanes sel)) s) =
        { s with jnl := jnl, log := log, kly := { s.kly with waiting := s.kly.waiting ++ [x, y] } } ∧
      x.req = deskewArm ref win (s.inputLanes sel) ∧ x.at_ = cnSub ref (win / 2) ∧ y.req = deskewTrig ref ∧ y.at_ = ref := by
  have hp : s.pairMode = false := State.pairMode_of_isOpen hopen
  obtain ⟨hnear, hfar⟩ := htrig
  obtain ⟨jnl1, log1, hhead1, heq1⟩ := kRun_own_waits (c := cmdCaparm) (m := 253) (by decide) hp hrun rfl (fun _ => rfl) harm
    fun jnl => by
      have hls : ({ s with jnl := jnl } : State).inputLanes sel = s.inputLanes sel := rfl
      rw [cmdCaparm_own]
      exact ownCaparm_of_deskew (ref := ref) (win := win) (sel := sel) (by rw [hls]; rfl) (by rw [hls]; exact hwin) hst hlog
  let x := s.mkWaiting cmdCaparm.spec 253 (deskewArm ref win (s.inputLanes sel))
  let s1 : State := { s with jnl := jnl1, log := log1, kly := { s.kly with waiting := s.kly.waiting ++ [x] } }
  obtain ⟨jnl2, log2, hhead2, heq2⟩ := kRun_own_waits (c := cmdCaptrig) (m := 253) (r := deskewTrig ref) (s := s1) (by decide) hp hrun rfl
    (fun _ => rfl) (kCheck_deskewTrig (s := s1) hopen hnear hfar) fun jnl => rfl
  refine ⟨jnl2, log2, x, s1.mkWaiting cmdCaptrig.spec 253 (deskewTrig ref), ?_, ?_, rfl, mkWaiting_ownReq_at (fun _ => rfl) hrun _ _ _ _, rfl,
    mkWaiting_ownReq_at (s := s1) (fun _ => rfl) hrun _ _ _ _⟩
  · rw [hhead2]
    exact congrArg (· + 1) hhead1
  · rw [heq1, heq2]
    simp only [s1, List.append_assoc]
    rfl

/-- A calibration that covers a mapped context of a run goes on, with its arming and its trigger among the commands that wait. -/
theorem ownDeskew_announces {w : Waiting} {win : Nat} {sel : Dword} (hw : (w.req.opd 3).toNat = win) (hsel : cmapLanes (s.deskewCtxs w) = sel)
    (hopen : s.isOpen = true) (hrun : s.armed = true) (hsum : (w.req.opd 0).toNat + (w.req.opd 1).toNat ≤ 65536) (hpos : win ≠ 0)
    (hwin : win ≤ capDepth (s.inputLanes sel)) (hst : s.cap.st = .idle) (hlog : s.logHolds = false) (hes : s.deskewCtxs w ≠ [])
    (hls : s.inputLanes sel ≠ 0) (harm : s.reaches 0x0601 48 (cnSub w.ref (win / 2))) (htrig : s.reaches 0x0602 0 w.ref) :
    ∃ jnl log x y, jnl.head = s.jnl.head + 2 ∧
      ownDeskew s w = .long { s with jnl := jnl, log := log, kly := { s.kly with waiting := s.kly.waiting ++ [x, y] } } ∧
      x.req = deskewArm w.ref win (s.inputLanes sel) ∧ x.at_ = cnSub w.ref (win / 2) ∧ y.req = deskewTrig w.ref ∧ y.at_ = w.ref := by
  subst hw hsel
  obtain ⟨-, hdeep⟩ := capDepth_bounds (s.inputLanes (cmapLanes (s.deskewCtxs w)))
  obtain ⟨hnear, hfar⟩ := harm
  obtain ⟨hnearT, hfarT⟩ := htrig
  have hcheck := kCheck_deskewArm hopen hpos (hwin.trans hdeep) hls hnear hfar
  obtain ⟨jnl, log, x, y, hhead, hruns, hxy⟩ := kRun_deskew hopen hrun hwin hst hlog hcheck ⟨hnearT, hfarT⟩
  refine ⟨jnl, log, x, y, hhead, ?_, hxy⟩
  rw [ownDeskew_of_covered hsum hwin hst hlog hes hcheck (kCheck_deskewTrig hopen hnearT hfarT), hruns]

/-! ### DESKEW itself -/

theorem cmdDeskew_zeroOp {r : KReq} (hcount : r.opd 1 ≠ 0) (hwin : r.opd 3 ≠ 0) : cmdDeskew.spec.zeroOp r = none := by
  simp only [CmdSpec.zeroOp, cmdDeskew]
  rw [List.find?_cons, decide_eq_false hcount, List.find?_cons, decide_eq_false hwin]
  rfl

theorem cmdDeskew_own : cmdDeskew.own = ownDeskew := by rw [cmdDeskew]

theorem kCheck_deskew {h : CmdHdr} {first count ref window : Dword} (hopen : s.isOpen = true) (hlen : h.len = 32) (hat : h.at_ = false)
    (hrsvd : h.rsvd = false) (hcount : count.toNat ≠ 0) (hwin : window.toNat ≠ 0) (hsum : first.toNat + count.toNat ≤ 65536)
    (hfirst : first.toNat < 65536) (href : ref.toNat < 2 ^ 48) :
    kCheck cmdDeskew.spec h.mbx (mkReq 0x0A01 h [first, count, ref, window] []) s = none := by
  have hr : inRange [first, count, ref, window] [65535, 65536, 2 ^ 48 - 1, 2 ^ 64 - 1] :=
    .cons (by omega) (.cons (by omega) (.cons (by omega) (.cons (Nat.le_pred_of_lt window.isLt) .nil)))
  have hne {d : Dword} (hd : d.toNat ≠ 0) : d ≠ 0 := fun h => hd (congrArg BitVec.toNat h)
  have hz : cmdDeskew.spec.zeroOp (mkReq 0x0A01 h [first, count, ref, window] []) = none :=
    cmdDeskew_zeroOp (by rw [opd_mkReq1]; exact hne hcount) (by rw [opd_mkReq3]; exact hne hwin)
  have hplain : CmdSpec.Plain { cmdDeskew.spec with zero := [], cross := fun _ => true } := CmdSpec.plain_row _ _ _ _
  exact kCheck_open hopen (CmdSpec.lenOk_of_plain (c := { cmdDeskew.spec with zero := [], cross := fun _ => true }) hplain rfl hlen (by omega))
    (CmdSpec.badOp_of_inRange (c := { cmdDeskew.spec with zero := [], cross := fun _ => true }) hplain hr) hrsvd hat hz
    (CmdSpec.runCode_any rfl) rfl

/-- The mapped enabled contexts of the run that a DESKEW names. -/
def State.namedCtxs (s : State) (first count : Dword) : List CmapEnt :=
  s.img.cmap.filter fun e => s.armed && decide (first.toNat ≤ e.ctx ∧ e.ctx < first.toNat + count.toNat) && (s.ctxOf e.ctx).en

/-- In a state with other mailboxes and journal the chapter sees the same contexts. -/
theorem State.deskewCtxs_entry (h : CmdHdr) (first count ref window : Dword) (mbx : Tbl Mbx) (jnl : Jnl) :
    ({ s with mbx := mbx, jnl := jnl } : State).deskewCtxs (cmdDeskew.entry (mkReq 0x0A01 h [first, count, ref, window] []) s) =
      s.namedCtxs first count := by
  rw [State.deskewCtxs, KCmd.entry_req, opd_mkReq0, opd_mkReq1]
  rfl

variable {h : CmdHdr} {first count ref window : Dword} (ha : asks h 32 false s = true) (hcount : count.toNat ≠ 0) (hpos : window.toNat ≠ 0)
  (hsum : first.toNat + count.toNat ≤ 65536) (hfirst : first.toNat < 65536) (href : ref.toNat < 2 ^ 48)
  (hwin : window.toNat ≤ capDepth (s.inputLanes (cmapLanes (s.namedCtxs first count)))) (hst : s.cap.st = .idle) (hlog : s.logHolds = false)
include ha hcount hpos hsum hfirst href hwin hst hlog

/-- A calibration that covers nothing ends at once. -/
theorem execDeskew_of_uncovered (hes : s.namedCtxs first count = []) :
    GoesTo (execDeskew h first count ref window s) fun t => Completes s t h 0x0A01 0 ∧ Journals s t ∧ t.cap = s.cap := by
  obtain ⟨ht, hopen, hlen, hat, hrsvd⟩ := asks_iff.1 ha
  obtain ⟨mbx, jnl, hasked, -, -⟩ := KCmd.asked_frame (c := cmdDeskew) rfl (mkReq 0x0A01 h [first, count, ref, window] []) s
  have hctxs := s.deskewCtxs_entry h first count ref window mbx jnl
  have hown : cmdDeskew.own (cmdDeskew.asked (mkReq 0x0A01 h [first, count, ref, window] []) s)
      (cmdDeskew.entry (mkReq 0x0A01 h [first, count, ref, window] []) s) = .now { s with mbx := mbx, jnl := jnl } 0 [] := by
    rw [cmdDeskew_own, hasked]
    refine ownDeskew_of_uncovered ?_ ?_ hst hlog (hctxs.trans hes)
    · rw [KCmd.entry_req, opd_mkReq0, opd_mkReq1]
      exact hsum
    · rw [hctxs, KCmd.entry_req, opd_mkReq3]
      exact hwin
  refine GoesTo.mono (kSubmit_accepted (c := cmdDeskew) (op := 0x0A01) rfl rfl (fun _ => rfl) rfl rfl ht
    (kCheck_deskew (s := s.submitted _) hopen hlen hat hrsvd hcount hpos hsum hfirst href) hown (by rw [hasked]) (by rw [hasked])) fun t => ?_
  rintro ⟨hcomp, hjnl, hans, -⟩
  exact ⟨hcomp, hjnl, hans.cap⟩

/-- A calibration that covers a mapped context of a run goes on, its arming and its trigger announced. -/
theorem execDeskew_of_covered (hes : s.namedCtxs first count ≠ []) (hls : s.inputLanes (cmapLanes (s.namedCtxs first count)) ≠ 0)
    (harm : s.reaches 0x0601 48 (cnSub (ref.setWidth 48) (window.toNat / 2))) (htrig : s.reaches 0x0602 0 (ref.setWidth 48)) :
    GoesTo (execDeskew h first count ref window s) fun t => WorksOn s t h 0x0A01 ∧ t.jnl.head = s.jnl.head + 3 ∧ t.cap = s.cap ∧
      ∃ x y, t.kly.waiting = s.kly.waiting ++ [x, y] ∧
        x.req = deskewArm (ref.setWidth 48) window.toNat (s.inputLanes (cmapLanes (s.namedCtxs first count))) ∧
        x.at_ = cnSub (ref.setWidth 48) (window.toNat / 2) ∧ y.req = deskewTrig (ref.setWidth 48) ∧ y.at_ = ref.setWidth 48 := by
  obtain ⟨ht, hopen, hlen, hat, hrsvd⟩ := asks_iff.1 ha
  obtain ⟨mbx, jnl, hasked, hbox, hhead⟩ := KCmd.asked_frame (c := cmdDeskew) rfl (mkReq 0x0A01 h [first, count, ref, window] []) s
  have hctxs := s.deskewCtxs_entry h first count ref window mbx jnl
  have hrun : s.armed = true := by
    obtain ⟨e, he⟩ := List.exists_mem_of_ne_nil _ hes
    have hcovers := (List.mem_filter.1 he).2
    simp only [Bool.and_eq_true] at hcovers
    obtain ⟨⟨hrun, -⟩, -⟩ := hcovers
    exact hrun
  obtain ⟨jnl2, log2, x, y, hhead2, hown, hxy⟩ := ownDeskew_announces (s := { s with mbx := mbx, jnl := jnl })
    (w := cmdDeskew.entry (mkReq 0x0A01 h [first, count, ref, window] []) s) (win := window.toNat)
    (sel := cmapLanes (s.namedCtxs first count)) (by rw [KCmd.entry_req, opd_mkReq3]) (by rw [hctxs]) hopen hrun
    (by rw [KCmd.entry_req, opd_mkReq0, opd_mkReq1]; exact hsum) hpos hwin hst hlog (by rw [hctxs]; exact hes) hls
    (by rw [Waiting.ref, KCmd.entry_req, opd_mkReq2]; exact harm) (by rw [Waiting.ref, KCmd.entry_req, opd_mkReq2]; exact htrig)
  rw [Waiting.ref, KCmd.entry_req, opd_mkReq2] at hxy
  have howned := (congrArg₂ cmdDeskew.own hasked rfl).trans ((congrFun (congrFun cmdDeskew_own _) _).trans hown)
  refine ⟨_, kSubmit_long ht (kCheck_deskew (s := s.submitted _) hopen hlen hat hrsvd hcount hpos hsum hfirst href) howned
    (State.mirrors_of_unmirrored rfl _), ⟨?_, _, rfl, rfl, rfl, rfl⟩, ?_, ?_, x, y, rfl, hxy⟩
  · change (tget Mbx.reset mbx h.mbx).busy = true
    rw [hbox]
    change ((s.submitted (mkReq 0x0A01 h [first, count, ref, window] [])).mbxOf h.mbx).busy = true
    simp [State.submitted, Mbx.submit, Mbx.accept]
  · change jnl2.head = s.jnl.head + 3
    rw [hhead2]
    exact congrArg (· + 2) hhead
  · rfl

end

end Sys2Proof.Machine
open Sys2Proof Sys2Proof.Machine

/-- Settles O26: each command passes the checks of its row and its chapter, and the answer leaves what that chapter left; DESKEW's chapter runs
two commands of Klowyn's own, which pass their checks and wait. -/
theorem laneServicesComplete : Obligations.LaneServicesComplete := by
  unfold Obligations.LaneServicesComplete
  refine ⟨fun h lane enter s ha hp hl he hu => ?_, fun h lane s ha hl harm hrole => execLanetune_of_assigned ha hl harm hrole,
    fun h lane lst s ha hl hlst hrole hroom => execMgmtsend_of_room ha hl hlst hrole hroom,
    fun h first count ref window s ha hcount hpos hsum hfirst href hwin hst hlog => ⟨fun hes => ?_, fun hes hls harm htrig => ?_⟩⟩
  · refine (execLaneidle_of_unused ha hp hl he hu).mono fun t => ?_
    rintro ⟨hcomp, hjnl, hlane, hothers⟩
    dsimp only
    rw [hlane]
    have hnotone : (!(enter == 1)) = decide (enter = 0) := by
      obtain rfl | rfl : enter = 0 ∨ enter = 1 := by bv_omega
      · rfl
      · rfl
    obtain ⟨hlock, hanchor⟩ := s.idleLane_unlocked (s.lane lane.toNat) (enter == 1)
    refine ⟨hcomp, hjnl, hlock, hanchor, fun hstay => s.idleLane_of_stays _ _ hstay, fun hnot => ?_, fun hnot hsafe => ?_, hothers⟩
    · rw [State.idleLane_wake _ hnot, hnotone]
    · rw [State.idleLane_of_free _ hnot hsafe]
      obtain ⟨hsent, hburst⟩ := (s.lane lane.toNat).idle_sent (enter == 1)
      obtain ⟨hrecv, -⟩ := (s.lane lane.toNat).idle_received (enter == 1)
      refine ⟨hsent, hrecv, fun hleave => hburst ?_⟩
      rw [hleave]
      rfl
  · exact execDeskew_of_uncovered ha hcount hpos hsum hfirst href hwin hst hlog hes
  · refine (execDeskew_of_covered ha hcount hpos hsum hfirst href hwin hst hlog hes hls harm htrig).mono fun t => ?_
    rintro ⟨hworks, hjnl, hcap, x, y, hwait, hx, hxat, hy, hyat⟩
    refine ⟨hworks, hjnl, hcap, x, y, hwait, ?_, hxat, ?_, ?_, ?_, ?_, hyat⟩
    · rw [hx]
      rfl
    · rw [hx, deskewArm, ownReq, opd_mkReq0]
    · rw [hx, deskewArm, ownReq, opd_mkReq1]
    · rw [hx, deskewArm, ownReq, opd_mkReq2]
      rfl
    · rw [hy]
      rfl

end

section
/-! PROOFS. The frames that hub and chain lanes send (09 R287, 10 R310 to R314, R317, R320). -/

namespace Sys2Proof.Machine

/-! ### A frame handed to the transmit buffer (09 R287, R296) -/

/-- What a frame handed over leaves on its lane. -/
theorem Lane.send_fields (x : Lane) (cn num : CN) (blocks : List Dword) : (x.send cn num blocks).txLast = blocks ∧
    (x.send cn num blocks).txCn = cn ∧ (x.eitx = false → (x.send cn num blocks).txq = x.txq ++ txBlocks num blocks) :=
  ⟨rfl, rfl, fun h => by rw [Lane.send, h, if_neg Bool.false_ne_true]⟩

theorem State.sendFrame_lane (s : State) (l : Nat) (num : CN) (blocks : List Dword) :
    (s.sendFrame l num blocks).lane l = (s.lane l).send s.cn num blocks := State.lane_setLane _ _ _

/-- A list filled up with zeros to n entries. -/
theorem length_fill {α : Type} {l : List α} {n : Nat} (z : α) (h : l.length ≤ n) : (l ++ List.replicate (n - l.length) z).length = n := by
  rw [List.length_append, List.length_replicate]
  omega

/-! ### Chain frames (10 R310, R311, R314) -/

theorem flitBlocks_length (r : Option OutRec) (l nf : Nat) : (flitBlocks r l nf).length = 8 * nf := by
  simp [flitBlocks, List.length_flatMap, Nat.mul_comm]

/-- The flits that a frame of input crossing c carries on lane l. -/
def Image.flits (i : Image) (l : Nat) (c : CN) : Nat := ((i.sendLoop l).map fun p => p.nf (c.toNat % 2)).getD 0

/-- CX of the reverse direction that lane l carries. -/
def State.chainCx (s : State) (l : Nat) : BitVec 24 := ((s.img.recvLoop l).map fun p => s.creditMark l p.upl).getD 0

/-- The first block of a chain frame (R311). -/
def chainHead (cx : BitVec 24) (nf : Nat) : Dword := cx ++ (0 : BitVec 38) ++ BitVec.ofNat 2 nf

theorem chainHead_fields (cx : BitVec 24) (nf : Nat) :
    (chainHead cx nf).extractLsb' 0 2 = BitVec.ofNat 2 nf ∧ (chainHead cx nf).extractLsb' 40 24 = cx := by
  refine ⟨BitVec.extractLsb'_append_eq_right, ?_⟩
  rw [chainHead, BitVec.extractLsb'_append_eq_of_le (by decide)]
  exact BitVec.extractLsb'_append_eq_left

/-- The blocks of the frame of input crossing c on chain lane l. -/
def State.chainBlocks (s : State) (l : Nat) (c : CN) : List Dword :=
  let body := flitBlocks (s.out.recs.find? fun r => decide (r.c = c)) l (s.img.flits l c)
  chainHead (s.chainCx l) (s.img.flits l c) :: (body ++ List.replicate (s.img.sendLen l - 1 - body.length) 0)

section
variable (s : State) (l : Nat) (c : CN)

theorem Image.flits_le (i : Image) : 8 * i.flits l c ≤ i.sendLen l - 1 := by
  unfold Image.flits Image.sendLen
  cases i.sendLoop l with
  | none => simp
  | some lp =>
    simp only [Option.map_some, Option.getD_some, Loop.nf]
    split <;> omega

theorem State.chainBlocks_length : (s.chainBlocks l c).length = s.img.sendLen l := by
  have hfit : (flitBlocks (s.out.recs.find? fun r => decide (r.c = c)) l (s.img.flits l c)).length ≤ s.img.sendLen l - 1 := by
    rw [flitBlocks_length]
    exact Image.flits_le l c s.img
  have hpos : 1 ≤ s.img.sendLen l := Nat.le_add_right _ _
  rw [State.chainBlocks, List.length_cons, length_fill _ hfit]
  omega

theorem State.chainSend_lane : (s.chainSend l c).lane l = (s.lane l).send s.cn c (s.chainBlocks l c) := s.sendFrame_lane l c _

end

theorem execChainFrameTransmit_of_due {s : State} {l : Nat} (hl : l < 64) (hlive : s.live = true) (ht : s.tick = 0) (hr : (s.lane l).role = 2)
    (hs : s.sentNow l = false) : execChainFrameTransmit l s = .next (s.chainSend l (cnSub s.cn (s.latL + 3))) := by
  simp [execChainFrameTransmit, hl, hlive, ht, hr, hs]

/-! ### The side stream of a hub frame (10 R320, R321) -/

/-- The side stream fills no more than its room. -/
theorem fillSide_length (k : Chrono) (d : Nat) (ps : List Pkt) (pos room ofs : Nat) : (fillSide k d ps pos room ofs).bytes.length ≤ room := by
  induction ps generalizing pos room ofs with
  | nil => exact Nat.zero_le _
  | cons p ps ih =>
    rw [fillSide]
    split
    · exact Nat.zero_le _
    · dsimp only
      generalize ((if pos = 0 then p.egress k d else p).bytes.drop pos) = b
      split
      next hfit =>
        have hrest := ih 0 (room - b.length) (ofs + b.length)
        rw [List.length_append]
        omega
      next => exact List.length_take_le _ _

theorem blocksOf_length (l : List Byte) : (blocksOf l).length = (l.length + 7) / 8 := by simp [blocksOf]

/-- Side bytes that fit n blocks make no more than n. -/
theorem blocksOf_length_le {l : List Byte} {n : Nat} (h : l.length ≤ 8 * n) : (blocksOf l).length ≤ n := by
  rw [blocksOf_length]
  omega

theorem hubHead_cn (slen : Nat) (first : Option Nat) (cn : CN) : (hubHead slen first cn).extractLsb' 0 48 = cn :=
  BitVec.extractLsb'_append_eq_right

/-! ### What follows the hand-over of a hub frame (13 R369 to R371) -/

section
variable (s : State)

theorem State.stampTags_frame (d : Nat) (l : List (BitVec 16)) : ∃ chr, s.stampTags d l = { s with chr := chr } := by
  unfold State.stampTags
  split
  · exact ⟨_, rfl⟩
  · exact ⟨_, rfl⟩

/-- Lanes, output and counters, which a frame's stamps leave alone. -/
def State.sending (s : State) : Tbl Lane × OutState × Tbl Dword := (s.lanes, s.out, s.ctrs)

theorem State.launched_sending (d j : Nat) : (s.launched d j).sending = s.sending := by
  unfold State.launched
  dsimp only
  split
  · simp [State.sending]
  · rfl

theorem State.foldl_launched_sending (d : Nat) (js : List Nat) : (js.foldl (fun u j => u.launched d j) s).sending = s.sending :=
  foldl_same State.sending _ (fun u j => u.launched_sending d j) js s

end

/-! ### Hub frames (10 R320) -/

/-- The fragment of record r that lane l carries. -/
def State.hubFragment (s : State) (hs : List Nat) (l : Nat) : Option OutRec → List Dword
  | some r => fragment (blocksOf (s.recBytes r)) hs.length (hs.findIdx (· = l))
  | none => []

/-- What a hub frame's head names: the crossing of its fragment, or none. -/
def hubMark (frag : List Dword) (c : CN) : CN := if frag = [] then BitVec.allOnes 48 else c

/-- The side stream's part of a hub frame that carries frag. -/
def State.hubSide (u : State) (l : Nat) (phase : BitVec 4) (frag : List Dword) : SideOut :=
  fillSide u.chr (phase.toNat * 4096 + u.egressDelay (u.lane l)) (u.hubOf l).side (u.hubOf l).sidePos
    (8 * ((u.lane l).qblk - 2 - frag.length)) 0

/-- The blocks of a hub frame behind its head. -/
def State.hubBody (u : State) (l : Nat) (phase : BitVec 4) (frag : List Dword) : List Dword :=
  frag ++ blocksOf (u.hubSide l phase frag).bytes ++
    List.replicate ((u.lane l).qblk - 2 - frag.length - (blocksOf (u.hubSide l phase frag).bytes).length) 0

/-- The blocks of a hub frame. -/
def State.hubBlocks (u : State) (l : Nat) (c : CN) (phase : BitVec 4) (frag : List Dword) : List Dword :=
  hubHead (u.hubSide l phase frag).bytes.length (u.hubSide l phase frag).first (hubMark frag c) :: u.hubBody l phase frag

section
variable (u : State) (l : Nat) (c : CN) (phase : BitVec 4) (frag : List Dword)

theorem State.hubBody_length : (u.hubBody l phase frag).length = frag.length + ((u.lane l).qblk - 2 - frag.length) := by
  have hfit : (blocksOf (u.hubSide l phase frag).bytes).length ≤ (u.lane l).qblk - 2 - frag.length :=
    blocksOf_length_le (fillSide_length _ _ _ _ _ _)
  rw [State.hubBody, List.append_assoc, List.length_append, length_fill _ hfit]

/-- The frame sent, its fragment counted. -/
def State.hubSent (u : State) (l : Nat) (c : CN) (phase : BitVec 4) (frag : List Dword) : State :=
  if frag = [] then u.sendFrame l u.cn (u.hubBlocks l c phase frag) else (u.sendFrame l u.cn (u.hubBlocks l c phase frag)).count (.hub l 2) 1

theorem State.hubSent_fields : (u.hubSent l c phase frag).lane l = (u.lane l).send u.cn u.cn (u.hubBlocks l c phase frag) ∧
    (u.hubSent l c phase frag).out = u.out := by
  unfold State.hubSent
  split
  · exact ⟨u.sendFrame_lane l _ _, rfl⟩
  · exact ⟨(State.lane_congr (State.count_lanes _ _ _) l).trans (u.sendFrame_lane l _ _), rfl⟩

theorem State.hubSent_ctr_of_none (h : frag = []) (i : CtrId) : (u.hubSent l c phase frag).ctr i = u.ctr i := by
  rw [State.hubSent, if_pos h]
  rfl

theorem State.hubSent_ctr_of_some (h : frag ≠ []) : (u.hubSent l c phase frag).ctr (.hub l 2) = satAdd (u.ctr (.hub l 2)) 1 := by
  rw [State.hubSent, if_neg h, State.ctr_count]
  rfl

/-- The lane's hub state and the stamps of what begins in the frame are apart from lanes, output and counters. -/
theorem State.stamped_sending (h : HubLane) (d : Nat) (tags : List (BitVec 16)) :
    (State.stampTags (if frag = [] then (u.setHub l h).sendFrame l u.cn (u.hubBlocks l c phase frag)
      else ((u.setHub l h).sendFrame l u.cn (u.hubBlocks l c phase frag)).count (.hub l 2) 1) d tags).sending =
      (u.hubSent l c phase frag).sending := by
  obtain ⟨chr, hstamp⟩ := State.stampTags_frame (if frag = [] then (u.setHub l h).sendFrame l u.cn (u.hubBlocks l c phase frag)
    else ((u.setHub l h).sendFrame l u.cn (u.hubBlocks l c phase frag)).count (.hub l 2) 1) d tags
  rw [hstamp]
  unfold State.hubSent
  by_cases hnone : frag = []
  · rw [if_pos hnone, if_pos hnone]
    rfl
  · rw [if_neg hnone, if_neg hnone]
    rfl

end

/-- A hub frame goes out behind the step of its record: lanes, output and counters are as the frame leaves them. -/
theorem State.hubSend_sending {s u : State} {r : Option OutRec} {l : Nat} {c : CN} (hrec : s.hubRecord c = (u, r)) (phase : BitVec 4) :
    (s.hubSend l c phase).sending = (u.hubSent l c phase (u.hubFragment s.hubLanes l r)).sending := by
  unfold State.hubSend
  rw [hrec]
  refine (State.foldl_launched_sending _ _ _).trans ?_
  cases r with
  | none => exact u.stamped_sending l c phase _ _ _ _
  | some r => exact u.stamped_sending l c phase _ _ _ _

theorem execHubFrameTransmit_of_due {s : State} {l : Nat} (hl : l < 64) (hr : (s.lane l).role = 4) (hs : s.sentNow l = false)
    (hdue : s.armed = false ∨ s.tick = s.hubTick (cnSub s.cn (s.latL + 3))) (phase : BitVec 4) :
    execHubFrameTransmit l phase s = .next (s.hubSend l (cnSub s.cn (s.latL + 3)) phase) := by
  obtain h | h := hdue <;> simp [execHubFrameTransmit, hl, hr, hs, h]

section
variable {s u t : State} {r : Option OutRec} {l : Nat} {c : CN} {phase : BitVec 4} {frag : List Dword}

/-- Lane, output and counters after a hub frame that carries frag. -/
theorem State.hubSend_frame (hrec : s.hubRecord c = (u, r)) (hfrag : u.hubFragment s.hubLanes l r = frag) :
    (s.hubSend l c phase).lane l = (u.lane l).send u.cn u.cn (u.hubBlocks l c phase frag) ∧ (s.hubSend l c phase).out = u.out ∧
      ∀ i, (s.hubSend l c phase).ctr i = (u.hubSent l c phase frag).ctr i := by
  have hsend := State.hubSend_sending (l := l) hrec phase
  rw [hfrag] at hsend
  obtain ⟨hlanes, hrest⟩ := Prod.mk.inj hsend
  obtain ⟨hout, hctrs⟩ := Prod.mk.inj hrest
  obtain ⟨hlane, hsame⟩ := u.hubSent_fields l c phase frag
  exact ⟨(State.lane_congr hlanes l).trans hlane, hout.trans hsame, State.ctr_congr hctrs⟩

/-! ### The record of a hub frame (10 R317, R320) -/

theorem State.hubRecord_of_none (h : (s.out.recs.find? fun r => r.asm && decide (r.c = c)) = none) : s.hubRecord c = (s, none) := by
  rw [State.hubRecord, h]

theorem State.hubRecord_of_unsent {r : OutRec} (h : (s.out.recs.find? fun r => r.asm && decide (r.c = c)) = some r) (hs : r.sent = false) :
    s.hubRecord c = ((s.emitRec r).1, some (s.emitRec r).2) := by
  rw [State.hubRecord, h]
  dsimp only
  rw [hs, if_neg Bool.false_ne_true]

/-- A record emitted takes its place among the records with AUTH and the next ICTR. -/
theorem State.emitRec_mem {r : OutRec} (h : r ∈ s.out.recs) : (s.emitRec r).2 ∈ (s.emitRec r).1.out.recs := by
  refine List.mem_map.2 ⟨r, h, ?_⟩
  rw [if_pos rfl]
  rfl

theorem State.recBytes_length (r : OutRec) : 32 ≤ (s.recBytes r).length := by
  simp [State.recBytes]
  omega

theorem fragment_one (blocks : List Dword) : fragment blocks 1 0 = blocks := by
  simp [fragment, Nat.mod_one]

/-- The only hub lane carries the whole of a record, which is never empty. -/
theorem State.hubFragment_ne_nil (r : OutRec) : u.hubFragment [l] l (some r) ≠ [] := by
  have hix : [l].findIdx (· = l) = 0 := by simp
  have hlen := State.recBytes_length (s := u) r
  rw [State.hubFragment, hix, List.length_singleton, fragment_one]
  refine List.ne_nil_of_length_pos ?_
  rw [blocksOf_length]
  omega

/-- The frame of a crossing without a record: as long as a hub frame is, naming no record, and nothing else sent or counted. -/
theorem State.hubSend_of_no_record (hnone : (s.out.recs.find? fun r => r.asm && decide (r.c = c)) = none) (hq : 2 ≤ (s.lane l).qblk) :
    ((s.hubSend l c phase).lane l).txLast.length = (s.lane l).qblk - 1 ∧
      (((s.hubSend l c phase).lane l).txLast.headD 0).extractLsb' 0 48 = BitVec.allOnes 48 ∧ ((s.hubSend l c phase).lane l).txCn = s.cn ∧
      (s.hubSend l c phase).ctr (.hub l 2) = s.ctr (.hub l 2) ∧ (s.hubSend l c phase).out = s.out := by
  obtain ⟨hlane, hout, hctr⟩ := State.hubSend_frame (phase := phase) (l := l) (State.hubRecord_of_none hnone) rfl
  have hlen := s.hubBody_length l phase []
  rw [hlane]
  refine ⟨?_, hubHead_cn _ _ _, rfl, (hctr _).trans (s.hubSent_ctr_of_none l _ phase [] rfl _), hout⟩
  change (s.hubBody l phase []).length + 1 = _
  rw [hlen, List.length_nil]
  omega

/-- The frame of a crossing whose record has not left, on the only hub lane: it names the crossing, counts a fragment, and emits the record. -/
theorem State.hubSend_of_unsent {r : OutRec} (hfind : (s.out.recs.find? fun r => r.asm && decide (r.c = c)) = some r) (hsent : r.sent = false)
    (hhub : s.hubLanes = [l]) : (((s.hubSend l c phase).lane l).txLast.headD 0).extractLsb' 0 48 = c ∧
      ((s.hubSend l c phase).lane l).txCn = s.cn ∧ (s.hubSend l c phase).ctr (.hub l 2) = satAdd (s.ctr (.hub l 2)) 1 ∧
      (s.hubSend l c phase).out = (s.emitRec r).1.out := by
  obtain ⟨hlane, hout, hctr⟩ := State.hubSend_frame (phase := phase) (l := l) (State.hubRecord_of_unsent hfind hsent) rfl
  rw [hhub] at hlane hctr
  have hfrag := State.hubFragment_ne_nil (u := (s.emitRec r).1) (l := l) (s.emitRec r).2
  rw [hlane]
  refine ⟨(hubHead_cn _ _ _).trans ?_, rfl, (hctr _).trans ((s.emitRec r).1.hubSent_ctr_of_some l _ phase _ hfrag), hout⟩
  rw [hubMark, if_neg hfrag]

end

end Sys2Proof.Machine
open Sys2Proof Sys2Proof.Machine

/-- Settles O49: a hub frame is a head, a fragment and a side stream filled up to the frame's length; its only hub lane carries the whole record,
which the frame emits; a chain frame is a head and the flits of its loop filled up to the loop's length. -/
theorem hubAndChainFramesAreSent : Obligations.HubAndChainFramesAreSent := by
  unfold Obligations.HubAndChainFramesAreSent
  refine ⟨fun s l phase hl hr hs hdue => ⟨fun hnone hq => ?_, fun r hfind hsent hhub => ?_⟩, fun s l hl hlive ht hr hs => ?_⟩
  · exact ⟨_, execHubFrameTransmit_of_due hl hr hs hdue phase, State.hubSend_of_no_record hnone hq⟩
  · obtain ⟨hhead, hcn, hctr, hout⟩ := State.hubSend_of_unsent (phase := phase) hfind hsent hhub
    have hmatch := List.find?_some hfind
    simp only [Bool.and_eq_true, decide_eq_true_eq] at hmatch
    obtain ⟨-, hc⟩ := hmatch
    refine ⟨_, execHubFrameTransmit_of_due hl hr hs hdue phase, hhead, hcn, ?_, hctr, (s.emitRec r).2, ?_, hc, rfl, rfl, rfl⟩
    · rw [hout]
      rfl
    · rw [hout]
      exact State.emitRec_mem (List.mem_of_find?_eq_some hfind)
  · have hlen := s.chainBlocks_length l (cnSub s.cn (s.latL + 3))
    obtain ⟨hnf, hcx⟩ := chainHead_fields (s.chainCx l) (s.img.flits l (cnSub s.cn (s.latL + 3)))
    obtain ⟨hlast, hcn, hqueue⟩ := (s.lane l).send_fields s.cn (cnSub s.cn (s.latL + 3)) (s.chainBlocks l (cnSub s.cn (s.latL + 3)))
    refine ⟨_, execChainFrameTransmit_of_due hl hlive ht hr hs, ?_⟩
    beta_reduce
    rw [s.chainSend_lane, hlast]
    refine ⟨hcn, hqueue, fun hloop => ⟨hnf.trans ?_, hlen.trans ?_⟩, fun lp hloop => ⟨hlen.trans ?_, hnf.trans ?_⟩,
      fun hloop => hcx.trans ?_⟩
    · rw [Image.flits, hloop]
      rfl
    · rw [Image.sendLen, hloop]
      rfl
    · rw [Image.sendLen, hloop]
      rfl
    · rw [Image.flits, hloop]
      rfl
    · rw [State.chainCx, hloop]
      rfl

end

section
/-! PROOFS. Packets that hub lanes receive, and launched frames from their time to their egress (10 R321, R322, 13 R364, R368, R371, 15 R418). -/

namespace Sys2Proof.Machine

/-! ### A packet received (10 R322) -/

/-- The packet that received bytes spell. -/
def rxPkt (bytes : List Byte) : Pkt := { typ := leAt bytes 2 1 % 16, body := bytes.drop 8, ingress := none, launch := none }

/-- The bytes make a packet of the length that their header gives. -/
def rxWhole (bytes : List Byte) : Prop := 8 ≤ bytes.length ∧ bytes.length ≤ 2048 ∧ leAt bytes 0 2 = bytes.length

theorem rxPkt_byte (bytes : List Byte) (i : Nat) : (rxPkt bytes).body.getD i 0 = bytes.getD (8 + i) 0 := by
  rw [rxPkt, List.getD_eq_getElem?_getD, List.getElem?_drop, ← List.getD_eq_getElem?_getD]

section
variable {s : State} {lane : Nat} {bytes : List Byte}

theorem execHubPacketReceive_of_lost (hl : lane < 64) (hr : (s.lane lane).role = 4) (phase : BitVec 4) :
    execHubPacketReceive lane bytes true phase s = .next (s.rxDrop lane) := by
  simp [execHubPacketReceive, hl, hr]

theorem execHubPacketReceive_of_whole (hl : lane < 64) (hr : (s.lane lane).role = 4) (hb : rxWhole bytes) (phase : BitVec 4) :
    execHubPacketReceive lane bytes false phase s =
      if leAt bytes 2 1 % 16 = 1 then .next (s.rxTiming lane (rxPkt bytes) phase)
      else if leAt bytes 2 1 % 16 = 3 then .next (s.rxMgmt lane (rxPkt bytes)) else .next (s.rxDrop lane) := by
  obtain ⟨hmin, hmax, hlen⟩ := hb
  have hsound : ¬(false = true ∨ leAt bytes 0 2 ≠ bytes.length ∨ bytes.length < 8 ∨ 2048 < bytes.length) := by
    rintro (hlost | hne | hout)
    · exact Bool.false_ne_true hlost
    · exact hne hlen
    · omega
  rw [execHubPacketReceive, if_neg (by omega), if_neg (not_not.2 hr)]
  dsimp only
  rw [if_neg hsound]
  rfl

theorem execHubPacketReceive_of_timing (hl : lane < 64) (hr : (s.lane lane).role = 4) (hb : rxWhole bytes) (ht : leAt bytes 2 1 % 16 = 1)
    (phase : BitVec 4) : execHubPacketReceive lane bytes false phase s = .next (s.rxTiming lane (rxPkt bytes) phase) := by
  rw [execHubPacketReceive_of_whole hl hr hb, if_pos ht]

theorem execHubPacketReceive_of_mgmt (hl : lane < 64) (hr : (s.lane lane).role = 4) (hb : rxWhole bytes) (ht : leAt bytes 2 1 % 16 = 3)
    (phase : BitVec 4) : execHubPacketReceive lane bytes false phase s = .next (s.rxMgmt lane (rxPkt bytes)) := by
  rw [execHubPacketReceive_of_whole hl hr hb, ht]
  rfl

/-- A packet discarded is counted and shown, and no more. -/
theorem State.rxDrop_reports (s : State) (l : Nat) : (s.rxDrop l).ctr (.hub l 3) = satAdd (s.ctr (.hub l 3)) 1 ∧
    (s.rxDrop l).shows (.chn l) 2 = true ∧ (s.rxDrop l).hub = s.hub ∧ (s.rxDrop l).kly = s.kly :=
  ⟨(State.ctr_congr (State.raiseBit_ctrs _ _ _) _).trans (s.ctr_count _ _), State.shows_raiseBit _ _ (by decide),
    State.raiseBit_hub _ _ _, State.raiseBit_kly _ _ _⟩

/-! ### Management packets (15 R418) -/

variable {l : Nat} {p : Pkt}

theorem State.rxMgmt_of_down (hk : s.kly.up = false) (hroom : ((s.hubOf l).rx.map fun x => x.1.len).sum + p.len ≤ 65536) :
    s.rxMgmt l p = s.setHub l { s.hubOf l with rx := (s.hubOf l).rx ++ [(p, 0)] } := by
  simp only [State.rxMgmt, hk, Bool.not_false, if_true]
  exact if_pos hroom

theorem State.rxMgmt_of_host (hk : s.kly.up = true) (hclass : p.body.headD 0 = 0x10)
    (hroom : (s.kly.hostMgmt.map List.length).sum + (p.body.drop 8).length ≤ 65536) :
    s.rxMgmt l p = { s with kly := { s.kly with hostMgmt := s.kly.hostMgmt ++ [p.body.drop 8] } } := by
  simp only [State.rxMgmt, hk, Bool.not_true, Bool.false_eq_true, if_false]
  exact if_pos ⟨hclass, hroom⟩

/-! ### Timing frames (13 R368) -/

/-- The copy of a timing frame that is handed on: with its ingress stamp on the step-free scale. -/
def State.handedOn (s : State) (l : Nat) (p : Pkt) (phase : BitVec 4) : Pkt :=
  { p with ingress := some ((s.ingress l phase : Int) - s.chr.steps) }

theorem State.forward_of_none (h : p.body.getD 0 0 = 0) : s.forward l p = s := by
  rw [State.forward, h]
  simp

theorem State.forward_of_one {k j : Nat}
    (h : (s.hubLanes.zipIdx.filter fun e => (p.body.getD 0 0).getLsbD e.2 && e.1 != l) = [(k, j)]) : s.forward l p = s.sideQueue k p := by
  rw [State.forward, h]
  rfl

section
variable (hlen : 42 ≤ p.body.length) (hsync : p.msgType = 0)
include hlen hsync

/-- A Sync that names Klowyn alone goes to Klowyn with its ingress stamp. -/
theorem State.rxTiming_delivered (hk : s.kly.up = true) (hto : (p.body.getD 1 0).getLsbD 0 = true) (hfwd : p.body.getD 0 0 = 0)
    (phase : BitVec 4) : s.rxTiming l p phase = s.deliverPkt p (s.chr.layout (s.ingress l phase)) := by
  rw [State.rxTiming, if_neg (by omega)]
  simp only [hsync, hto, hk, OfNat.zero_ne_ofNat, or_false, if_true, if_false]
  exact State.forward_of_none (p := s.handedOn l p phase) hfwd

/-- A Sync that names one other hub lane joins the side stream of that lane with its ingress stamp. -/
theorem State.rxTiming_handedOn {k j : Nat} (hto : (p.body.getD 1 0).getLsbD 0 = false)
    (hfwd : (s.hubLanes.zipIdx.filter fun e => (p.body.getD 0 0).getLsbD e.2 && e.1 != l) = [(k, j)]) (phase : BitVec 4)
    (hroom : (s.hubOf k).room (s.handedOn l p phase) = true) :
    s.rxTiming l p phase = s.setHub k { s.hubOf k with side := (s.hubOf k).side ++ [s.handedOn l p phase] } := by
  rw [← State.sideQueue_of_room hroom, State.rxTiming, if_neg (by omega)]
  simp only [hsync, hto, OfNat.zero_ne_ofNat, or_false, Bool.false_eq_true, if_false]
  exact State.forward_of_one (p := s.handedOn l p phase) hfwd

end

end

/-! ### A launch that is due (13 R371) -/

theorem insertLaunch_perm (p : Pkt) (l : List Pkt) (pos : Nat) : (insertLaunch pos p l).Perm (p :: l) := by
  induction l generalizing pos with
  | nil => exact .refl _
  | cons q r ih =>
    rw [insertLaunch]
    split
    · exact ((ih 0).cons q).trans (.swap p q r)
    · exact .refl _

/-- A frame alone at its launch time goes ahead of all that has not begun. -/
theorem insertLaunch_of_alone {p : Pkt} {l : List Pkt} (h : ∀ x ∈ l, p.sameLaunch x = false) (pos : Nat) :
    insertLaunch pos p l = if pos = 0 then p :: l else l.take 1 ++ p :: l.drop 1 := by
  have hfront (r : List Pkt) (hr : ∀ x ∈ r, p.sameLaunch x = false) : insertLaunch 0 p r = p :: r := by
    cases r with
    | nil => rfl
    | cons y ys => exact if_neg (by simpa using hr)
  by_cases hpos : pos = 0
  · rw [hpos, if_pos rfl, hfront l h]
  · rw [if_neg hpos]
    cases l with
    | nil => rfl
    | cons y ys =>
      rw [insertLaunch, if_pos (.inl hpos), hfront ys fun x hx => h x (List.mem_cons_of_mem y hx)]
      rfl

section
variable (s : State)

theorem State.dropLate_chr : s.dropLate.chr = s.chr := foldl_same State.chr _ (fun u w => (u.dropLong w).abortLong_chr w _) _ s
theorem State.dropLate_hub : s.dropLate.hub = s.hub := foldl_same State.hub _ (fun u w => (u.dropLong w).abortLong_hub w _) _ s
theorem State.dropLate_ctrs : s.dropLate.ctrs = s.ctrs := foldl_same State.ctrs _ (fun u w => (u.dropLong w).abortLong_ctrs w _) _ s
theorem State.dropLate_evts : s.dropLate.evts = s.evts := foldl_same State.evts _ (fun u w => (u.dropLong w).abortLong_evts w _) _ s

/-- The launches without those of command j. -/
def State.unlaunch (j : Nat) : State := { s with chr := { s.chr with launches := s.chr.launches.filter fun r => r.jseq != j } }

end

/-- The packet of a launch. -/
def Launch.pkt (q : Launch) : Pkt := { typ := 2, body := q.body, ingress := none, launch := some q.jseq }

section
variable {s : State} {lane : Nat} {q : Launch} (hl : lane < 64) (hc : s.clk.lrefOk = true) (hd : s.launchDue lane = some q)
include hl hc hd

theorem execTimeLaunch_of_room (hroom : (s.hubOf lane).room q.pkt = true) (phase : BitVec 4) : execTimeLaunch lane phase s =
    .next ((s.unlaunch q.jseq).setHub lane
      { s.hubOf lane with side := insertLaunch (s.hubOf lane).sidePos q.pkt (s.hubOf lane).side }) := by
  rw [execTimeLaunch, if_neg (by omega), hc, hd]
  exact if_pos hroom

theorem execTimeLaunch_of_full (hroom : (s.hubOf lane).room q.pkt = false) (phase : BitVec 4) : execTimeLaunch lane phase s =
    .next ((((s.unlaunch q.jseq).count (.hub lane 4) 1).raiseBit (.chn lane) 2).dropLate) := by
  rw [execTimeLaunch, if_neg (by omega), hc, hd]
  exact if_neg (ne_true_of_eq_false hroom)

end

/-! ### The egress of a launched frame (13 R364, R371) -/

/-- A long command whose work has touched neither mailboxes nor the pair has ended when its success is reported with results l. -/
theorem ends_endLong_results {s u : State} {w : Waiting} {d : Dword} (l : List Byte) (hm : u.mbx = s.mbx) (hp : u.pair = s.pair)
    (hk : u.kly.longs = (s.dropLong w).kly.longs) : Ends s (u.endLong w d l) w d := by
  refine ⟨by rw [State.endLong_kly, hk]; rfl, fun hw hu hh hc => ?_⟩
  have hbox : (u.jEnd w.jseq .done 0 d).mbxOf w.mbx = s.mbxOf w.mbx := (State.mbxOf_jEnd _ _ _ _ _ _).trans (State.mbxOf_congr hm _)
  have hcack : (u.jEnd w.jseq .done 0 d).awaitsCack w.jseq = false := by rwa [State.awaitsCack, State.jEnd_pair, hp]
  have hend : u.endLong w d l = (u.jEnd w.jseq .done 0 d).complete w.mbx w.req w.jseq w.cnAcc d l := by
    rw [State.endLong, hcack]
    exact if_neg Bool.false_ne_true
  rw [hend, State.mbxOf_complete hw (by rwa [hbox]) (by rwa [hbox]), hbox]
  rw [← Mbx.filled_prod (s.mbxOf w.mbx) l]
  exact ⟨rfl, _, tfind_tset_same _ _ _, rfl, rfl, rfl, rfl, rfl⟩

/-- A packet alone in its stream begins in a frame that has room, and its command with it. -/
theorem fillSide_went_of_one (k : Chrono) (d ofs : Nat) {p : Pkt} {room : Nat} (h : room ≠ 0) :
    (fillSide k d [p] 0 room ofs).went = p.launch.toList := by
  rw [fillSide, if_neg h]
  simp only [if_true]
  split
  · exact List.append_nil _
  · rfl

section
variable {s : State} {l : Nat} {c : CN} {w : Waiting}

theorem State.launched_of_long {j : Nat} (h : (s.kly.longs.find? fun w => w.jseq == j) = some w) (d : Nat) : s.launched d j =
    (s.dropLong w).endLong w ((s.chr.layout (s.chr.stampIn d)).extractLsb' 0 64) (leBytes 16 (s.chr.layout (s.chr.stampIn d)).toNat) := by
  rw [State.launched, h]

/-- Stamps passed to Klowyn touch neither its commands nor the time. -/
theorem State.stampTags_same (s : State) (d : Nat) (tags : List (BitVec 16)) :
    (s.stampTags d tags).kly = s.kly ∧ (s.stampTags d tags).mbx = s.mbx ∧ (s.stampTags d tags).pair = s.pair ∧
      ∀ i, (s.stampTags d tags).chr.layout ((s.stampTags d tags).chr.stampIn i) = s.chr.layout (s.chr.stampIn i) := by
  unfold State.stampTags
  split
  · exact ⟨rfl, rfl, rfl, fun _ => rfl⟩
  · exact ⟨rfl, rfl, rfl, fun _ => rfl⟩

/-- The lane's stream and transmit buffer after the frame of a crossing without a record. -/
def State.sideSent (s : State) (l : Nat) (c : CN) (phase : BitVec 4) : State :=
  (s.setHub l { s.hubOf l with
    side := (s.hubSide l phase []).rest, sidePos := (s.hubSide l phase []).pos, last := s.hubBlocks l c phase [] }).sendFrame l s.cn
      (s.hubBlocks l c phase [])

/-- The frame of a crossing without a record, then the stamps asked for, then the end of the commands whose launched frames begin in it. -/
theorem State.hubSend_of_none (hnone : (s.out.recs.find? fun r => r.asm && decide (r.c = c)) = none) (phase : BitVec 4) :
    s.hubSend l c phase = (s.hubSide l phase []).went.foldl (fun u j => u.launched (phase.toNat * 4096 + s.egressDelay (s.lane l)) j)
      ((s.sideSent l c phase).stampTags (phase.toNat * 4096 + s.egressDelay (s.lane l)) (s.hubSide l phase []).tags) := by
  unfold State.hubSend
  rw [State.hubRecord_of_none hnone]
  rfl

/-- The launched frame that is alone in its lane's stream leaves with the next frame, and its command ends with the stamp of that. -/
theorem State.hubSend_ends_launch {p : Pkt} {j : Nat} (hnone : (s.out.recs.find? fun r => r.asm && decide (r.c = c)) = none)
    (hq : 3 ≤ (s.lane l).qblk) (hside : (s.hubOf l).side = [p]) (hpos : (s.hubOf l).sidePos = 0) (hp : p.launch = some j)
    (hw : (s.kly.longs.find? fun w => w.jseq == j) = some w) (phase : BitVec 4) : Ends s (s.hubSend l c phase) w
      ((s.chr.layout (s.chr.stampIn (phase.toNat * 4096 + s.egressDelay (s.lane l)))).extractLsb' 0 64) := by
  obtain ⟨hkly, hmbx, hpair, htime⟩ :=
    (s.sideSent l c phase).stampTags_same (phase.toNat * 4096 + s.egressDelay (s.lane l)) (s.hubSide l phase []).tags
  have hroom : 8 * ((s.lane l).qblk - 2 - ([] : List Dword).length) ≠ 0 := by
    rw [List.length_nil]
    omega
  have hwent : (s.hubSide l phase []).went = [j] := by
    rw [State.hubSide, hside, hpos, fillSide_went_of_one _ _ _ hroom, hp]
    rfl
  rw [State.hubSend_of_none hnone, hwent, List.foldl_cons, List.foldl_nil, State.launched_of_long (by rw [hkly]; exact hw), htime]
  refine ends_endLong_results _ hmbx hpair ?_
  rw [State.dropLong, hkly]
  rfl

end

end Sys2Proof.Machine
open Sys2Proof Sys2Proof.Machine

/-- Settles O50: a packet received is discarded, held, or handed to its reader (execHubPacketReceive_of_whole); a due launch is put into its lane's
stream, which is then the old stream and its packet (insertLaunch_perm); and the frame in which it begins ends its command
(State.hubSend_ends_launch). -/
theorem hubPacketsAndLaunches : Obligations.HubPacketsAndLaunches := by
  unfold Obligations.HubPacketsAndLaunches
  refine ⟨fun s lane bytes phase hl hr => ⟨_, execHubPacketReceive_of_lost hl hr phase, s.rxDrop_reports lane⟩,
    fun s lane bytes phase hl hr hmin hmax hlen => ?_, fun s lane phase q hl hc hd => ⟨fun hroom => ?_, fun hroom => ?_⟩,
    fun s lane phase p j w hl hr hs ha hnone hq hside hpos hp hw =>
      ⟨_, execHubFrameTransmit_of_due hl hr hs (.inl ha) phase, State.hubSend_ends_launch hnone hq hside hpos hp hw phase⟩⟩
  · have hwhole : rxWhole bytes := ⟨hmin, hmax, hlen⟩
    have hbody : (rxPkt bytes).body.length = bytes.length - 8 := List.length_drop
    have hrest : (rxPkt bytes).body.drop 8 = bytes.drop 16 := List.drop_drop
    refine ⟨fun ht hk hroom => ⟨_, execHubPacketReceive_of_mgmt hl hr hwhole ht phase, ?_⟩,
      fun ht hk hclass hroom => ⟨_, execHubPacketReceive_of_mgmt hl hr hwhole ht phase, ?_⟩,
      fun ht h50 hmsg => ⟨fun hk hto hfwd => ⟨_, execHubPacketReceive_of_timing hl hr hwhole ht phase, ?_⟩,
        fun k j hto hfwd hroom => ⟨_, execHubPacketReceive_of_timing hl hr hwhole ht phase, ?_⟩⟩⟩
    · rw [State.rxMgmt_of_down hk (by rwa [Pkt.len, hbody]), rxPkt, ht]
    · rw [State.rxMgmt_of_host hk hclass (by rwa [hrest]), hrest]
      exact ⟨rfl, rfl⟩
    · rw [State.rxTiming_delivered (by omega) (by rwa [Pkt.msgType, rxPkt_byte]) hk (by rwa [rxPkt_byte]) (by rwa [rxPkt_byte])]
      exact ⟨rfl, rfl, rfl⟩
    · have hpkt : s.handedOn lane (rxPkt bytes) phase =
          { typ := 1, body := bytes.drop 8, ingress := some ((s.ingress lane phase : Int) - s.chr.steps), launch := none } := by
        rw [State.handedOn, rxPkt, ht]
      rw [State.rxTiming_handedOn (by omega) (by rwa [Pkt.msgType, rxPkt_byte]) (by rwa [rxPkt_byte]) (by rwa [rxPkt_byte]) phase
        (by rwa [hpkt]), hpkt]
      exact ⟨rfl, congrArg HubLane.side (State.hubOf_setHub _ _ _)⟩
  · have hperm := insertLaunch_perm q.pkt (s.hubOf lane).side (s.hubOf lane).sidePos
    refine ⟨_, execTimeLaunch_of_room hl hc hd hroom phase, rfl, rfl, ?_⟩
    rw [State.hubOf_setHub]
    exact ⟨hperm.mem_iff.2 List.mem_cons_self, fun x hx => hperm.mem_iff.2 (List.mem_cons_of_mem _ hx), fun h => insertLaunch_of_alone h _⟩
  · refine ⟨_, execTimeLaunch_of_full hl hc hd hroom phase, ?_, ?_, ?_, ?_⟩
    · rw [State.dropLate_chr, State.raiseBit_chr]
      rfl
    · rw [State.dropLate_hub, State.raiseBit_hub]
      rfl
    · rw [State.ctr_congr (State.dropLate_ctrs _), State.ctr_congr (State.raiseBit_ctrs _ _ _), State.ctr_count]
      rfl
    · rw [State.shows_congr (State.dropLate_evts _)]
      exact State.shows_raiseBit _ _ (by decide)

end

section
/-! PROOFS. What reset leaves (12 R354, 13 R376), and the commands of the pair: PAIRCFG, YIELD and REJOIN (12 R333, R341, R343, R347, R352, R354). -/

namespace Sys2Proof.Machine

theorem State.AnswerOf.pair {u t : State} (h : u.AnswerOf t) : t.pair = u.pair := by rw [h]

/-- A journaled command that is not mirrored, refused by its owning chapter: its completion says so, and nothing else is changed (15 R405). -/
theorem kSubmit_refused_by_chapter {c : KCmd} {r : KReq} {s : State} {f : Refuse} (ht : s.takes r.hdr.mbx = true)
    (hk : kCheck c.spec r.hdr.mbx r (s.submitted r) = none) (ho : c.own (c.asked r s) (c.entry r s) = .refuse f) :
    kSubmit c r s = .next (((s.submitted r).refuse r.hdr.mbx r f).served r.hdr.mbx) := by
  rw [kSubmit_takes ht, kRun_refused_by_chapter hk ho]
  rfl

/-- The mailbox after a refusal where its ring has room. -/
theorem State.mbxOf_refuse {s : State} {m : Nat} {r : KReq} {f : Refuse} (hm : m < 16) (hu : (s.mbxOf m).used < 64)
    (hh : (s.mbxOf m).held = []) : (s.refuse m r f).mbxOf m =
      { ((s.mbxOf m).push (ringEntry s r .completion f.code 0 s.cn 0 f.record)) with busy := false, cmd := none } := by
  rw [State.refuse, State.post_room _ hm hu hh]
  simp [State.unbusy, hm, Mbx.push, ringEntry]

/-- What a refused command leaves: its mailbox free, its record in the ring, journal and pair as they were. -/
theorem refused_answer {s : State} {r : KReq} (f : Refuse) (ht : s.takes r.hdr.mbx = true) :
    let t := ((s.submitted r).refuse r.hdr.mbx r f).served r.hdr.mbx
    (t.mbxOf r.hdr.mbx).busy = false ∧ t.jnl = s.jnl ∧ t.pair = s.pair ∧
      ∃ e, tfind (t.mbxOf r.hdr.mbx).ring (s.mbxOf r.hdr.mbx).prod.toNat = some e ∧ e.tag = r.hdr.tag ∧ e.kind = .completion ∧
        e.status = BitVec.ofNat 16 f.code := by
  obtain ⟨hm, -, -, hheld, -, hused⟩ := State.takes_iff.1 ht
  have hbox : (s.submitted r).mbxOf r.hdr.mbx = (s.mbxOf r.hdr.mbx).submit r := State.mbxOf_setMbx _ _ _
  have hroom : ((s.mbxOf r.hdr.mbx).submit r).used < 64 := Nat.lt_of_le_of_lt hused (by decide)
  have hpost := State.mbxOf_refuse (s := s.submitted r) (r := r) (f := f) hm (hbox ▸ hroom) (hbox ▸ hheld)
  rw [hbox] at hpost
  refine ⟨?_, ?_, ?_, ?_⟩
  · rw [State.mbxOf_served, hpost]
  · exact State.refuse_jnl _ _ _ _
  · exact State.refuse_pair _ _ _ _
  · rw [State.mbxOf_served, hpost]
    exact ⟨_, tfind_tset_same _ _ _, rfl, rfl, rfl⟩

/-- YIELD meets no refusal of the pair role, in LOST either (12 R338, R352). -/
theorem cmdYield_pairCode (s : State) : cmdYield.spec.pairCode s = 0 := by simp [CmdSpec.pairCode, CmdSpec.helmOnly, cmdYield]

/-! ### PAIRCFG (12 R333, R354) -/

/-- PAIR_CFG as the operands of a PAIRCFG give it (12 R354). -/
def pairWord (mode pid pref mr ar : Dword) : Word :=
  BitVec.ofNat 2 mode.toNat ++ pref.extractLsb' 0 1 ++ mr.extractLsb' 0 4 ++ ar.extractLsb' 0 1 ++ (0 : BitVec 8) ++ pid.extractLsb' 0 16

section
variable (mode pid pref mr ar : Dword)

/-- The fields of PAIR_CFG above the reserved byte. -/
theorem pairWord_high {start len : Nat} (h : 24 ≤ start) : (pairWord mode pid pref mr ar).extractLsb' start len =
    (BitVec.ofNat 2 mode.toNat ++ pref.extractLsb' 0 1 ++ mr.extractLsb' 0 4 ++ ar.extractLsb' 0 1).extractLsb' (start - 16 - 8) len :=
  (BitVec.extractLsb'_append_eq_of_le (w := 16) (by omega)).trans (BitVec.extractLsb'_append_eq_of_le (w := 8) (by omega))

theorem pairWord_mode : (pairWord mode pid pref mr ar).extractLsb' 30 2 = BitVec.ofNat 2 mode.toNat := by
  rw [pairWord_high _ _ _ _ _ (by decide), BitVec.extractLsb'_append_eq_of_le (by decide), BitVec.extractLsb'_append_eq_of_le (by decide)]
  exact BitVec.extractLsb'_append_eq_left

theorem pairWord_pid : (pairWord mode pid pref mr ar).extractLsb' 0 16 = pid.extractLsb' 0 16 := BitVec.extractLsb'_append_eq_right

theorem pairWord_mr : (pairWord mode pid pref mr ar).extractLsb' 25 4 = mr.extractLsb' 0 4 := by
  rw [pairWord_high _ _ _ _ _ (by decide), BitVec.extractLsb'_append_eq_of_le (by decide)]
  exact BitVec.extractLsb'_append_eq_right

theorem pairWord_ar : (pairWord mode pid pref mr ar).getLsbD 24 = ar.getLsbD 0 := by
  simp only [pairWord, BitVec.getLsbD_append]
  simp

theorem pairWord_pref : (pairWord mode pid pref mr ar).getLsbD 29 = pref.getLsbD 0 := by
  simp only [pairWord, BitVec.getLsbD_append]
  simp

end

/-- The lowest bit of a flag operand says whether it is 1. -/
theorem getLsbD_zero_of_flag {d : Dword} (h : d.toNat ≤ 1) : d.getLsbD 0 = decide (d = 1) := by
  have hd : d = 0 ∨ d = 1 := by bv_omega
  obtain rfl | rfl := hd <;> rfl

/-- The low bits of an operand that fits them are its value. -/
theorem extractLsb'_toNat_of_lt {d : Dword} {n : Nat} (h : d.toNat < 2 ^ n) : (d.extractLsb' 0 n).toNat = d.toNat := by
  rw [BitVec.extractLsb'_toNat, Nat.shiftRight_zero, Nat.mod_eq_of_lt h]

section
variable (s : State)

/-- Opening and closing the mirror lanes touches the lanes alone. -/
theorem State.openMirror_lanes : s.openMirror = { s with lanes := s.openMirror.lanes } := by
  unfold State.openMirror
  split
  · exact List.foldlRecOn (motive := fun u : State => u = { s with lanes := u.lanes }) _ _ rfl fun u hu a _ => by rw [hu]; rfl
  · exact List.foldlRecOn (motive := fun u : State => u = { s with lanes := u.lanes }) _ _ rfl fun u hu a _ => by rw [hu]; rfl

theorem State.closeMirror_lanes : s.closeMirror = { s with lanes := s.closeMirror.lanes } :=
  List.foldlRecOn (motive := fun u : State => u = { s with lanes := u.lanes }) _ _ rfl fun u hu a _ => by rw [hu]; rfl

end

/-- PAIRCFG's own chapter accepts operands that name a pair where pair mode is asked for. -/
theorem ownPaircfg_accepts {s : State} {w : Waiting} {mode pid pref mr ar : Dword} (h0 : w.req.opd 0 = mode) (h1 : w.req.opd 1 = pid)
    (h2 : w.req.opd 2 = pref) (h3 : w.req.opd 3 = mr) (h4 : w.req.opd 4 = ar) (hmode : mode.toNat ≤ 1) (hpid : mode = 0 ∨ pid ≠ 0) :
    ∃ u : State, ownPaircfg s w = .now u 0 [] ∧ u.mbx = s.mbx ∧ u.jnl = s.jnl ∧ u.pair.cfg = pairWord mode pid pref mr ar ∧
      (mode = 1 → u.pair.st = .forming ∧ u.pair.auth = false) ∧ (mode = 0 → u.pair.st = .off ∧ u.pair.auth = true) := by
  subst h0 h1 h2 h3 h4
  have hnamed : ¬ (w.req.opd 0 = 1 ∧ w.req.opd 1 = 0) := by
    rintro ⟨hpair, hnone⟩
    obtain hsolo | hsome := hpid
    · simp [hsolo] at hpair
    · exact hsome hnone
  unfold ownPaircfg
  dsimp only
  rw [if_neg hnamed]
  split
  next hpair =>
    refine ⟨_, rfl, ?_, ?_, ?_, fun _ => ?_, fun hsolo => ?_⟩
    · rw [State.covered_mbx, State.openMirror_lanes]
      rfl
    · rw [State.covered_jnl, State.openMirror_lanes]
      rfl
    · rw [State.covered_pair, State.openMirror_lanes]
      rfl
    · rw [State.covered_pair, State.openMirror_lanes]
      exact ⟨rfl, rfl⟩
    · simp [hsolo] at hpair
  next hsolo =>
    refine ⟨_, rfl, ?_, ?_, ?_, fun hpair => absurd hpair hsolo, fun _ => ?_⟩
    · rw [State.covered_mbx, State.closeMirror_lanes]
      rfl
    · rw [State.covered_jnl, State.closeMirror_lanes]
      rfl
    · rw [State.covered_pair, State.closeMirror_lanes]
      rfl
    · rw [State.covered_pair, State.closeMirror_lanes]
      exact ⟨rfl, rfl⟩

theorem cmdPaircfg_own : cmdPaircfg.own = ownPaircfg := by rw [cmdPaircfg]

/-- PAIRCFG passes the checks of its row. -/
theorem kCheck_paircfg {h : CmdHdr} {mode pid pref mr ar : Dword} {s : State} (hawake : s.isAwake = true)
    (hp : s.pairMode = false ∨ s.pair.st ≠ .lost) (harm : s.armed = false) (hlen : h.len = 40) (hat : h.at_ = false) (hrsvd : h.rsvd = false)
    (hmode : mode.toNat ≤ 1) (hpid : pid.toNat < 65536) (hpref : pref.toNat ≤ 1) (hmr : 4 ≤ mr.toNat) (hmr' : mr.toNat ≤ 10)
    (har : ar.toNat ≤ 1) : kCheck cmdPaircfg.spec h.mbx (mkReq 0x0801 h [mode, pid, pref, mr, ar] []) s = none := by
  have hops : cmdPaircfg.spec.badOp (mkReq 0x0801 h [mode, pid, pref, mr, ar] []) = none := by
    refine List.find?_eq_none.2 fun k hk => ?_
    have hcases : k = 0 ∨ k = 1 ∨ k = 2 ∨ k = 3 ∨ k = 4 := by
      have hlt : k < 5 := List.mem_range.1 hk
      omega
    obtain rfl | rfl | rfl | rfl | rfl := hcases <;> simp [cmdPaircfg] <;> omega
  have hlenOk : cmdPaircfg.spec.lenOk (mkReq 0x0801 h [mode, pid, pref, mr, ar] []) = true := by simp [CmdSpec.lenOk, cmdPaircfg, hlen]
  have hprompt : cmdPaircfg.spec.late s (mkReq 0x0801 h [mode, pid, pref, mr, ar] []) = false := by
    simp [CmdSpec.late, CmdSpec.atOnce, cmdPaircfg]
  exact kCheck_awake hawake (CmdSpec.pairCode_of_unmirrored rfl (by decide) hp) hlenOk hops hrsvd hat rfl (CmdSpec.runCode_no rfl harm)
    hprompt

/-- PAIRCFG, accepted: its operands stand in PAIR_CFG, and the member waits for its partner or stands alone (12 R333, R354). -/
theorem execPaircfg_completes {h : CmdHdr} {mode pid pref mr ar : Dword} {s : State} (ha : asksPair h 40 false s = true)
    (hp : s.pairMode = false ∨ s.pair.st ≠ .lost) (harm : s.armed = false) (hmode : mode.toNat ≤ 1) (hpid : pid.toNat < 65536)
    (hpref : pref.toNat ≤ 1) (hmr : 4 ≤ mr.toNat) (hmr' : mr.toNat ≤ 10) (har : ar.toNat ≤ 1) (hnamed : mode = 0 ∨ pid ≠ 0) :
    GoesTo (execPaircfg h mode pid pref mr ar s) fun t => Completes s t h 0x0801 0 ∧ Journals s t ∧
      t.pair.cfg = pairWord mode pid pref mr ar ∧ (mode = 1 → t.pair.st = .forming ∧ t.pair.auth = false) ∧
      (mode = 0 → t.pair.st = .off ∧ t.pair.auth = true) := by
  obtain ⟨ht, hawake, hlen, hat, hrsvd⟩ := asksPair_iff.1 ha
  obtain ⟨u, hown, hmbx, hjnl, hcfg⟩ := ownPaircfg_accepts (s := cmdPaircfg.asked (mkReq 0x0801 h [mode, pid, pref, mr, ar] []) s)
    (w := cmdPaircfg.entry (mkReq 0x0801 h [mode, pid, pref, mr, ar] []) s) (by rw [KCmd.entry_req, opd_mkReq0])
    (by rw [KCmd.entry_req, opd_mkReq1]) (by rw [KCmd.entry_req, opd_mkReq2]) (by rw [KCmd.entry_req, opd_mkReq3])
    (by rw [KCmd.entry_req, opd_mkReq4]) hmode hnamed
  have hcheck : kCheck cmdPaircfg.spec h.mbx (mkReq 0x0801 h [mode, pid, pref, mr, ar] [])
      (s.submitted (mkReq 0x0801 h [mode, pid, pref, mr, ar] [])) = none :=
    kCheck_paircfg (s := s.submitted _) hawake hp harm hlen hat hrsvd hmode hpid hpref hmr hmr' har
  refine GoesTo.mono (kSubmit_accepted (c := cmdPaircfg) (op := 0x0801) rfl rfl (fun _ => rfl) rfl rfl ht hcheck
    ((congrFun (congrFun cmdPaircfg_own _) _).trans hown) hmbx hjnl) fun t => ?_
  rintro ⟨hcomp, hjournal, hans, -⟩
  rw [hans.pair]
  exact ⟨hcomp, hjournal, hcfg⟩

/-! ### YIELD (12 R341, R343, R352) -/

/-- K of a member without a partner that yields in this crossing (12 R343). -/
def State.loneYield (s : State) : PendK := { k := cnAdd s.cn (s.mr + 3), cause := 5, mine := true, both := false, lossOfPeer := false }

/-- The frame that carries a YIELD is the next crossing's. -/
theorem cnAdd_cnAdd (c : CN) (m n : Nat) : cnAdd (cnAdd c m) n = cnAdd c (m + n) := by
  rw [cnAdd, cnAdd, cnAdd, BitVec.ofNat_add, BitVec.add_assoc]

section
variable {s : State} {w : Waiting}

theorem ownYield_of_paired (h : s.paired = true) (hy : s.pair.yieldCause = none) :
    ownYield s w = .now { s with pair := { s.pair with yieldCause := some 5 } } 0 [] := by
  have hmode : s.pairMode = true := by
    simp only [State.paired, Bool.and_eq_true] at h
    exact h.1.1
  simp [ownYield, hmode, h, hy]

theorem ownYield_of_lone (hm : s.pairMode = true) (h : s.paired = false) (hp : s.pair.pend = none) :
    ownYield s w = .now { s with pair := { s.pair with pend := some s.loneYield } } 0 [] := by
  simp [ownYield, hm, h, hp, State.loneYield]

theorem ownYield_of_solo (h : s.pairMode = false) : ownYield s w = .refuse { code := 0xB007 } := by simp [ownYield, h]

end

section
variable {h : CmdHdr} {s : State}

/-- YIELD passes the checks of its row where a run is armed. -/
theorem kCheck_yield (hawake : s.isAwake = true) (harm : s.armed = true) (hlen : h.len = 0) (hat : h.at_ = false)
    (hrsvd : h.rsvd = false) : kCheck cmdYield.spec h.mbx (mkReq 0x0802 h [] []) s = none :=
  kCheck_prompt_awake (CmdSpec.prompt_row _ _ _ _) hawake (cmdYield_pairCode s) hlen hat hrsvd (by decide) .nil
    (CmdSpec.runCode_yes rfl harm (.inr (by decide)))

/-- YIELD in an armed run, accepted: what is left beside the answer is the pair of its owning chapter. -/
theorem execYield_completes {p : PairState} (ha : asksPair h 0 false s = true) (harm : s.armed = true)
    (hown : ∀ (mbx : Tbl Mbx) (jnl : Jnl) (w : Waiting), ownYield { s with mbx := mbx, jnl := jnl } w =
      .now { s with mbx := mbx, jnl := jnl, pair := p } 0 []) :
    GoesTo (execYield h s) fun t => Completes s t h 0x0802 0 ∧ Journals s t ∧ t.pair = p ∧ t.run = s.run := by
  obtain ⟨ht, hawake, hlen, hat, hrsvd⟩ := asksPair_iff.1 ha
  obtain ⟨mbx, jnl, hasked, -, -⟩ := KCmd.asked_frame (c := cmdYield) rfl (mkReq 0x0802 h [] []) s
  have hans := hown mbx jnl (cmdYield.entry (mkReq 0x0802 h [] []) s)
  rw [← hasked] at hans
  refine GoesTo.mono (kSubmit_accepted (c := cmdYield) (op := 0x0802) rfl rfl (fun _ => rfl) rfl rfl ht
    (kCheck_yield (s := s.submitted _) hawake harm hlen hat hrsvd) hans (by rw [hasked]) (by rw [hasked])) fun t => ?_
  rintro ⟨hcomp, hjournal, hanswer, -⟩
  exact ⟨hcomp, hjournal, hanswer.pair, hanswer.run⟩

/-- YIELD of a solo device is refused. -/
theorem execYield_of_solo (ha : asks h 0 false s = true) (harm : s.armed = true) :
    execYield h s = .next (((s.submitted (mkReq 0x0802 h [] [])).refuse h.mbx (mkReq 0x0802 h [] []) { code := 0xB007 }).served h.mbx) := by
  obtain ⟨ht, hopen, hlen, hat, hrsvd⟩ := asks_iff.1 ha
  obtain ⟨mbx, jnl, hasked, -, -⟩ := KCmd.asked_frame (c := cmdYield) rfl (mkReq 0x0802 h [] []) s
  have hsolo := State.pairMode_of_isOpen hopen
  simp only [State.isOpen, Bool.and_eq_true] at hopen
  refine kSubmit_refused_by_chapter (c := cmdYield) (r := mkReq 0x0802 h [] []) ht
    (kCheck_yield (s := s.submitted _) hopen.1 harm hlen hat hrsvd) ?_
  rw [hasked]
  exact ownYield_of_solo (s := { s with mbx := mbx, jnl := jnl }) (w := cmdYield.entry (mkReq 0x0802 h [] []) s) hsolo

end

/-! ### REJOIN (12 R347) -/

/-- A request to the partner stands in the streams of the mirror lanes, and nothing else is changed. -/
theorem State.sendRequest_eq (s : State) (p : List Byte) :
    s.sendRequest p = { s with pair := { s.pair with tx := (s.sendRequest p).pair.tx } } :=
  List.foldlRecOn (motive := fun u : State => u = { s with pair := { s.pair with tx := u.pair.tx } }) _ _ rfl
    fun u hu a _ => by rw [hu]; rfl

/-- The state in which a rejoin from source src begins. -/
def State.rejoining (s : State) (src : Nat) : State :=
  ({ s with pair := { s.pair with rejoin := some (src, false), xferGot := [], xfer := 0, ready := false, defer := [], cack := 0
                                  taken := [], mlanes := 0, rxMiss := 0 } } : State).sendRequest (requestPkt src src 0)

theorem ownRejoin_of_forming {s : State} {w : Waiting} (hm : s.pairMode = true) (hf : s.pair.st = .forming) (hr : s.pair.rejoin = none) :
    ownRejoin s w = .long (s.rejoining (w.req.opd 0).toNat) := by
  simp [ownRejoin, hm, hf, hr, State.rejoining]

theorem State.rejoining_eq (s : State) (src : Nat) : ∃ p : PairState, s.rejoining src = { s with pair := p } ∧ p.rejoin = some (src, false) := by
  rw [State.rejoining, State.sendRequest_eq]
  exact ⟨_, rfl, rfl⟩

/-- REJOIN of a member that forms is taken up. -/
theorem execRejoin_begins {h : CmdHdr} {src : Dword} {s : State} (ha : asksPair h 8 false s = true) (harm : s.armed = false)
    (hsrc : src.toNat ≤ 1) (hm : s.pairMode = true) (hf : s.pair.st = .forming) (hr : s.pair.rejoin = none) :
    GoesTo (execRejoin h src s) fun t => WorksOn s t h 0x0803 ∧ Journals s t ∧ t.pair.rejoin = some (src.toNat, false) := by
  obtain ⟨ht, hawake, hlen, hat, hrsvd⟩ := asksPair_iff.1 ha
  have hcheck : kCheck cmdRejoin.spec h.mbx (mkReq 0x0803 h [src] []) (s.submitted (mkReq 0x0803 h [src] [])) = none :=
    kCheck_prompt_awake (s := s.submitted _) (CmdSpec.prompt_row _ _ _ _) hawake
      (CmdSpec.pairCode_of_unmirrored (s := s.submitted _) rfl (by decide) (.inr (by rw [State.submitted, State.setMbx_pair, hf]; decide)))
      hlen hat hrsvd (by simp) (.cons hsrc .nil) (CmdSpec.runCode_no rfl harm)
  obtain ⟨mbx, jnl, hasked, hbox, hhead⟩ := KCmd.asked_frame (c := cmdRejoin) rfl (mkReq 0x0803 h [src] []) s
  have hown := ownRejoin_of_forming (s := { s with mbx := mbx, jnl := jnl }) (w := cmdRejoin.entry (mkReq 0x0803 h [src] []) s) hm hf hr
  obtain ⟨p, hbegun, hrejoin⟩ := State.rejoining_eq { s with mbx := mbx, jnl := jnl } src.toNat
  rw [KCmd.entry_req, opd_mkReq0, hbegun] at hown
  refine ⟨_, kSubmit_long (c := cmdRejoin) ht hcheck ((congrArg₂ cmdRejoin.own hasked rfl).trans hown) (State.mirrors_of_unmirrored rfl _),
    ⟨?_, _, rfl, rfl, rfl, rfl⟩, hhead, hrejoin⟩
  · change (tget Mbx.reset mbx h.mbx).busy = true
    rw [hbox]
    change ((s.submitted (mkReq 0x0803 h [src] [])).mbxOf h.mbx).busy = true
    simp [State.submitted, Mbx.submit, Mbx.accept]

end Sys2Proof.Machine

open Sys2Proof Sys2Proof.Machine

/-- Settles O3: at reset no table of registers holds an entry, so that a read of one gives the reset value of its unit. -/
theorem resetLeavesStatedValues : Obligations.ResetLeavesStatedValues :=
  ⟨rfl, rfl, rfl, rfl, rfl, rfl, rfl, fun _ => ⟨rfl, rfl⟩, fun _ => ⟨rfl, rfl, rfl⟩, fun _ => ⟨rfl, rfl⟩, fun _ => rfl⟩

/-- Settles O27: each command passes the checks of its row, its owning chapter answers from the state as submitted, and the answer leaves the pair as
that chapter left it; a solo device's YIELD is refused by its chapter. -/
theorem pairCommandsComplete : Obligations.PairCommandsComplete := by
  refine ⟨fun h mode pid pref mr ar s ha hp harm hmode hpid hpref hmr hmr' har hnamed => ?_, fun h s ha harm hp hy => ?_,
    fun h s ha harm hm hp hpend => ?_, fun h s ha harm => ?_, fun h src s ha harm hsrc hm hf hr => ?_⟩
  · refine (execPaircfg_completes ha hp harm hmode hpid hpref hmr hmr' har hnamed).mono fun t => ?_
    rintro ⟨hcomp, hjnl, hcfg, hst⟩
    rw [hcfg, pairWord_mode, pairWord_pid, pairWord_mr, pairWord_ar, pairWord_pref, extractLsb'_toNat_of_lt hpid,
      extractLsb'_toNat_of_lt (by omega), getLsbD_zero_of_flag har, getLsbD_zero_of_flag hpref, BitVec.toNat_ofNat]
    exact ⟨hcomp, hjnl, by omega, rfl, rfl, rfl, rfl, hst⟩
  · refine (execYield_completes (p := { s.pair with yieldCause := some 5 }) ha harm fun mbx jnl w =>
      ownYield_of_paired (s := { s with mbx := mbx, jnl := jnl }) hp hy).mono fun t => ?_
    rintro ⟨hcomp, hjnl, hpair, hrun⟩
    exact ⟨hcomp, hjnl, by rw [hpair], hrun⟩
  · refine (execYield_completes (p := { s.pair with pend := some s.loneYield }) ha harm fun mbx jnl w =>
      ownYield_of_lone (s := { s with mbx := mbx, jnl := jnl }) hm hp hpend).mono fun t => ?_
    rintro ⟨hcomp, hjnl, hpair, -⟩
    refine ⟨hcomp, hjnl, ?_⟩
    rw [hpair, cnAdd_cnAdd, Nat.add_comm 1]
    rfl
  · obtain ⟨hbusy, hjnl, hpair, e, he, htag, hkind, hstatus⟩ := refused_answer (r := mkReq 0x0802 h [] []) { code := 0xB007 } (asks_iff.1 ha).1
    exact ⟨_, execYield_of_solo ha harm, hbusy, hjnl, hpair, e, he, htag, hkind, hstatus⟩
  · exact execRejoin_begins ha harm hsrc hm hf hr

end

section
/-! PROOFS. Mirror frames: the status that a member sends, its release, and the loss of the peer (12 R335 to R343). -/

namespace Sys2Proof.Machine

/-! ### The frames of a crossing (12 R336) -/

theorem MStatus.blocks_length (m : MStatus) : m.blocks.length = 4 := rfl

/-- YIELD and AUTH in the first status block. -/
theorem MStatus.blocks_flags (m : MStatus) : (m.blocks.headD 0).getLsbD 48 = m.yield ∧ (m.blocks.headD 0).getLsbD 51 = m.auth := by
  constructor <;>
  · simp only [MStatus.blocks, List.headD_cons, BitVec.getLsbD_append]
    simp

section
variable (m : MStatus) (s : State) (e : Nat × Nat)

/-- The stream blocks of a mirror lane's frame. -/
def State.mirrorStream : List Dword := blocksOf ((s.mtx e.2).pull ((s.lane e.1).blen - 4)).2

theorem State.sendMirror_lane : (s.sendMirror m e).lane e.1 = (s.lane e.1).send s.cn s.cn (m.blocks ++ s.mirrorStream e) :=
  State.sendFrame_lane _ _ _ _

theorem State.sendMirror_lane_ne {l : Nat} (h : l ≠ e.1) : (s.sendMirror m e).lane l = s.lane l := State.lane_setLane_ne _ _ h

theorem State.sendMirror_cn : (s.sendMirror m e).cn = s.cn := rfl
theorem State.sendMirror_sent : (s.sendMirror m e).pair.sent = s.pair.sent := rfl

end

/-- Lane l has sent a frame of crossing c that begins with status m. -/
def State.sentStatus (s : State) (m : MStatus) (c : CN) (l : Nat) : Prop := (s.lane l).txCn = c ∧ (s.lane l).txLast.take 4 = m.blocks

theorem State.sentStatus_sendMirror (m : MStatus) (s : State) (e : Nat × Nat) : (s.sendMirror m e).sentStatus m s.cn e.1 := by
  rw [State.sentStatus, State.sendMirror_lane]
  exact ⟨rfl, List.take_left' m.blocks_length⟩

/-- The frames of further lanes leave what a lane has sent. -/
theorem State.sentStatus_sendMirror_of_sent {m : MStatus} {s : State} {l : Nat} (h : s.sentStatus m s.cn l) (e : Nat × Nat) :
    (s.sendMirror m e).sentStatus m s.cn l := by
  by_cases hl : l = e.1
  · rw [hl]
    exact s.sentStatus_sendMirror m e
  · rwa [State.sentStatus, s.sendMirror_lane_ne m e hl]

/-- Each lane of the list has sent its frame. -/
theorem State.sentStatus_foldl (m : MStatus) (es : List (Nat × Nat)) (s : State) {e : Nat × Nat} (he : e ∈ es) :
    (es.foldl (State.sendMirror m) s).sentStatus m s.cn e.1 := by
  obtain ⟨a, b, rfl⟩ := List.append_of_mem he
  have hsent : ∀ u : State, u.cn = s.cn → (u.sendMirror m e).cn = s.cn ∧ (u.sendMirror m e).sentStatus m s.cn e.1 := fun u hu =>
    ⟨hu, hu ▸ u.sentStatus_sendMirror m e⟩
  have hall := foldl_middle (f := State.sendMirror m) (a := a) (b := b) (P := fun u => u.cn = s.cn)
    (Q := fun u => u.cn = s.cn ∧ u.sentStatus m s.cn e.1) (fun u x _ hu => hu) hsent
    (fun u x _ hu => ⟨hu.1, hu.1 ▸ State.sentStatus_sendMirror_of_sent (hu.1 ▸ hu.2) x⟩) (s := s) rfl
  exact hall.2

/-- The pair once a member's status has been noted as sent in this crossing. -/
def State.statusNoted (s : State) : PairState :=
  let m := s.ownStatus
  let p := { s.pair with sent := ((s.cn, m) :: s.pair.sent).take 16
                         digs := if m.empty then s.pair.digs else
                           ({ c := m.dcn, odig := m.odig, idig := m.idig, flt := m.flt, subst := m.subst, joined := m.joined }
                             :: s.pair.digs).take 64 }
  if m.yield && !s.paired && !s.armed then p.told else p

theorem State.statusNoted_sent (s : State) : s.statusNoted.sent = ((s.cn, s.ownStatus) :: s.pair.sent).take 16 := by
  unfold State.statusNoted
  dsimp only
  split <;> rfl

theorem State.sendStatus_eq (s : State) :
    s.sendStatus = (s.mirrorLanes.zipIdx).foldl (State.sendMirror s.ownStatus) { s with pair := s.statusNoted } := rfl

theorem State.sendStatus_sent (s : State) : s.sendStatus.pair.sent = ((s.cn, s.ownStatus) :: s.pair.sent).take 16 := by
  rw [State.sendStatus_eq, foldl_same (fun u : State => u.pair.sent) _ (fun u e => u.sendMirror_sent s.ownStatus e)]
  exact s.statusNoted_sent

theorem State.sendStatus_sentStatus (s : State) {l : Nat} (hl : l ∈ s.mirrorLanes) : s.sendStatus.sentStatus s.ownStatus s.cn l := by
  obtain ⟨i, hi⟩ := List.mem_iff_getElem?.1 hl
  exact State.sentStatus_foldl s.ownStatus _ { s with pair := s.statusNoted } (List.mk_mem_zipIdx_iff_getElem?.2 hi)

/-- Outside a rejoin the frames of a crossing carry the status alone. -/
theorem execMirrorFrameSend_of_due {s : State} (hd : s.mirrorDue = true) (hr : s.pair.rejoin = none) (hl : s.pair.latchJ0 = none) :
    execMirrorFrameSend s = .next s.sendStatus := by
  have hready : s.sayReady = s := by rw [State.sayReady, hr]
  have hannounce : s.announce = s := by rw [State.announce, hl]
  rw [execMirrorFrameSend, if_pos hd, hready, hannounce]

/-! ### The stream of a released frame (12 R337) -/

/-- A lane whose stream is idle, or that waits for an idle block. -/
def RxPart.between (p : RxPart) : Prop := p = none ∨ p = some []

theorem streamStep_of_zero {p : RxPart} (hp : p.between) (lost : Bool) : (streamStep p lost 0).1.between ∧ (streamStep p lost 0).2 = none := by
  unfold streamStep
  split
  · exact ⟨.inl rfl, rfl⟩
  · obtain rfl | rfl := hp
    · exact ⟨.inr rfl, rfl⟩
    · exact ⟨.inr rfl, rfl⟩

/-- Zero blocks, lost or not, complete no packet between packets. -/
theorem streamSteps_of_zero {l : List (Bool × Dword)} (h : ∀ b ∈ l, b.2 = 0) {p : RxPart} (hp : p.between) : (streamSteps l p).2 = [] := by
  induction l generalizing p with
  | nil => rfl
  | cons b r ih =>
    obtain ⟨hbetween, hnone⟩ := streamStep_of_zero hp b.1
    rw [streamSteps, h b List.mem_cons_self, hnone]
    exact ih (fun x hx => h x (List.mem_cons_of_mem _ hx)) hbetween

/-- Idle blocks leave a lane between packets where it is. -/
theorem streamSteps_of_idle {l : List (Bool × Dword)} (h : ∀ b ∈ l, b = (false, 0)) : streamSteps l (some []) = (some [], []) := by
  induction l with
  | nil => rfl
  | cons b r ih =>
    have hb : b = (false, 0) := h b List.mem_cons_self
    have hr := ih fun x hx => h x (List.mem_cons_of_mem _ hx)
    subst hb
    simp [streamSteps, streamStep, hr]

/-- Places 4 to n - 1. -/
theorem range_drop_four (n : Nat) : (List.range n).drop 4 = List.range' 4 (n - 4) := by
  rw [List.range_eq_range', List.drop_range', Nat.zero_add, Nat.mul_one]

theorem Released.nothing_block (j : Nat) : Released.nothing.data.extractLsb' (64 * j) 64 = 0 := BitVec.extractLsb'_zero

/-- Of a frame that is not delivered the stream blocks are zero, and the first is lost. -/
theorem streamBlocks_nothing (n : Nat) : streamBlocks Released.nothing n = [] ∨
    ∃ r, streamBlocks Released.nothing n = (true, 0) :: r ∧ ∀ b ∈ r, b.2 = 0 := by
  rw [streamBlocks, range_drop_four]
  cases n - 4 with
  | zero => exact .inl rfl
  | succ k =>
    have hlost : Released.nothing.mask.getLsbD 4 = true := by decide
    rw [List.range'_succ, List.map_cons, hlost, Released.nothing_block]
    refine .inr ⟨_, rfl, fun b hb => ?_⟩
    obtain ⟨j, -, rfl⟩ := List.mem_map.1 hb
    exact Released.nothing_block j

/-- A frame that is not delivered completes no packet. -/
theorem streamSteps_nothing (n : Nat) (p : RxPart) : (streamSteps (streamBlocks Released.nothing n) p).2 = [] := by
  obtain h | ⟨r, h, hr⟩ := streamBlocks_nothing n
  · rw [h]
    rfl
  · rw [h, streamSteps]
    exact streamSteps_of_zero hr (.inl rfl)

/-- A whole frame whose stream blocks are zero has an idle stream. -/
theorem streamBlocks_idle {r : Released} (hm : r.mask = 0) (hz : r.data.extractLsb' 256 1728 = 0) {n : Nat} {b : Bool × Dword}
    (hb : b ∈ streamBlocks r n) : b = (false, 0) := by
  obtain ⟨j, hj, rfl⟩ := List.mem_map.1 hb
  have h4 : 4 ≤ j := by
    rw [range_drop_four] at hj
    exact (List.mem_range'_1.1 hj).1
  have hpay : r.data.extractLsb' (64 * j) 64 = 0 := by
    refine BitVec.eq_of_getLsbD_eq fun i hi => ?_
    have hbit := congrArg (fun w : BitVec 1728 => w.getLsbD (64 * j + i - 256)) hz
    by_cases hin : 64 * j + i < 1984
    · have hsum : 256 + (64 * j + i - 256) = 64 * j + i := by omega
      have hlt : 64 * j + i - 256 < 1728 := by omega
      simpa [hi, hlt, hsum] using hbit
    · simp [BitVec.getLsbD_of_ge _ _ (Nat.le_of_not_lt hin)]
  rw [hm, hpay]
  simp

/-! ### The release of a mirror lane (12 R335, R340) -/

/-- What a release of further mirror lanes depends on: a lane's configuration and the frames that it holds. -/
def State.holding (s : State) (k : Nat) : Word × List RxFrame := ((s.lane k).cfg, (s.lane k).buf)

theorem Lane.role_of_mem_mirrorLanes {s : State} {l : Nat} (h : l ∈ s.mirrorLanes) : (s.lane l).role = 3 := by
  simpa using (List.mem_filter.1 (List.mem_of_mem_take h)).2

section
variable {s : State} {l : Nat} (hr : (s.lane l).role = 3)
include hr

theorem State.noteSlack_of_mirror (k : Nat) : s.noteSlack l k = s.setLane l ((s.lane l).slacked k) := by
  have hinput : ¬ (s.lane l).role = 1 := by omega
  exact if_neg hinput

theorem State.countLate_of_mirror (n : CN) :
    s.countLate l n = ((s.setLane l ((s.lane l).addLate n)).lnkCount l 3 1).lnkEvt l 1 := by
  have hinput : ¬ (s.lane l).role = 1 := by omega
  exact if_neg hinput

/-- A mirror lane that holds nothing delivers nothing; the pair and every lane's frames stay. -/
theorem State.takeHeld_of_silent (hb : (s.lane l).buf = []) (y : CN) : (s.takeHeld l y).2 = Released.nothing ∧
    (s.takeHeld l y).1.pair = s.pair ∧ ∀ k, (s.takeHeld l y).1.holding k = s.holding k := by
  have hdropped : (s.lane l).dropped y = s.lane l := by rw [Lane.dropped, hb, List.filter_nil, ← hb]
  have hsame : ∀ k, (s.setLane l (s.lane l)).lane k = s.lane k := by
    intro k
    by_cases hk : k = l
    · rw [hk, State.lane_setLane]
    · exact State.lane_setLane_ne _ _ hk
  have hnone : (s.lane l).buf.find? (fun f => decide (f.x = y)) = none := by rw [hb, List.find?_nil]
  have hinput : ¬ (s.lane l).role = 1 := by omega
  unfold State.takeHeld
  dsimp only
  rw [← Lane.dropped, hdropped, hnone]
  dsimp only
  split
  · rw [State.countLate_of_mirror (by rw [hsame]; exact hr), hsame]
    refine ⟨rfl, ?_, fun k => ?_⟩
    · rw [State.lnkEvt, State.raiseBit_pair]
      rfl
    · rw [State.holding, State.holding, State.lnkEvt, State.lane_congr (State.raiseBit_lanes _ _ _), State.lnkCount_lane]
      by_cases hk : k = l
      · rw [hk, State.lane_setLane]
        rfl
      · rw [State.lane_setLane_ne _ _ hk, hsame]
  · exact ⟨rfl, rfl, fun k => by rw [State.holding, State.holding, hsame]⟩

end

/-- After releases of lanes that hold nothing: the streams' states and the lanes' misses apart, the pair is as before, and the lanes hold what they
held. -/
structure State.Unheard (s u : State) : Prop where
  pair : u.pair = { s.pair with rxBuf := u.pair.rxBuf, laneMiss := u.pair.laneMiss }
  holding : ∀ k, u.holding k = s.holding k

/-- The release of a mirror lane that holds nothing delivers no status and no packet. -/
theorem State.releaseMirror_of_silent {s : State} {l : Nat} (hr : (s.lane l).role = 3) (hb : (s.lane l).buf = []) (y : CN) (i : Nat) :
    s.Unheard (s.releaseMirror y l i).1 ∧ (s.releaseMirror y l i).2.intact = false ∧ (s.releaseMirror y l i).2.pkts = [] := by
  obtain ⟨hnothing, hpair, hhold⟩ := State.takeHeld_of_silent hr hb y
  have hmask : ¬ Released.nothing.mask = 0 := by decide
  have hlost : decide (Released.nothing.mask.extractLsb' 0 4 = 0) = false := by decide
  unfold State.releaseMirror
  dsimp only
  rw [hnothing, if_neg hmask, hlost]
  refine ⟨⟨?_, fun k => ?_⟩, rfl, streamSteps_nothing _ _⟩
  · dsimp only
    rw [State.lnkCount, State.count_pair, hpair]
  · exact (hhold k).symm ▸ rfl

theorem State.Unheard.trans {s u v : State} (h : s.Unheard u) (h' : u.Unheard v) : s.Unheard v :=
  ⟨by rw [h'.pair, h.pair], fun k => (h'.holding k).trans (h.holding k)⟩

theorem State.Unheard.refl (s : State) : s.Unheard s := ⟨rfl, fun _ => rfl⟩

/-- A lane that holds nothing still does, in the mirror role, after other silent releases. -/
theorem State.Unheard.silent {s u : State} (h : s.Unheard u) {l : Nat} (hr : (s.lane l).role = 3) (hb : (s.lane l).buf = []) :
    (u.lane l).role = 3 ∧ (u.lane l).buf = [] := by
  obtain ⟨hcfg, hbuf⟩ := Prod.mk.injEq .. ▸ h.holding l
  exact ⟨by rw [Lane.role, hcfg]; exact hr, hbuf.trans hb⟩

/-- The release of every mirror lane where none holds a frame. -/
theorem State.releaseAll_of_silent {s : State} (h : ∀ l ∈ s.mirrorLanes, (s.lane l).buf = []) (y : CN) :
    s.Unheard (s.releaseAll y).1 ∧ ∀ r ∈ (s.releaseAll y).2, r.intact = false ∧ r.pkts = [] := by
  refine List.foldlRecOn (motive := fun a : State × List MirRel => s.Unheard a.1 ∧ ∀ r ∈ a.2, r.intact = false ∧ r.pkts = []) _ _
    ⟨.refl s, fun r hr => absurd hr List.not_mem_nil⟩ fun a ha e he => ?_
  obtain ⟨hunheard, hrels⟩ := ha
  have hl := List.fst_mem_of_mem_zipIdx he
  obtain ⟨hrole, hbuf⟩ := hunheard.silent (Lane.role_of_mem_mirrorLanes hl) (h _ hl)
  obtain ⟨hnext, hintact, hpkts⟩ := State.releaseMirror_of_silent hrole hbuf y e.2
  refine ⟨hunheard.trans hnext, fun r hr => ?_⟩
  obtain hr | hr := List.mem_append.1 hr
  · exact hrels r hr
  · rw [List.mem_singleton.1 hr]
    exact ⟨hintact, hpkts⟩

/-! ### The member's own evidence, and the loss of the peer (12 R343) -/

theorem State.pendAt_of_none {s : State} (h : s.pair.pend = none) (p : PendK) :
    s.pendAt p = { s with pair := { s.pair with pend := some p } } := by rw [State.pendAt, h]

/-- A pending change of authority is all that a release without status adds to the pair's counts. -/
theorem State.pendAt_eq (s : State) (p : PendK) : ∃ q, s.pendAt p = { s with pair := { s.pair with pend := q } } := by
  unfold State.pendAt
  split
  · split
    · exact ⟨s.pair.pend, rfl⟩
    · exact ⟨_, rfl⟩
  · exact ⟨_, rfl⟩

theorem State.ownEvidence_eq (s : State) (y : CN) : ∃ q, s.ownEvidence y = { s with pair := { s.pair with pend := q } } := by
  unfold State.ownEvidence
  split
  · split
    · exact s.pendAt_eq _
    · exact ⟨s.pair.pend, rfl⟩
  · exact ⟨s.pair.pend, rfl⟩

/-- A member that has sent no YIELD in a frame has no evidence of its own. -/
theorem State.ownEvidence_of_quiet {s : State} {y : CN} (h : ∀ a, s.sentAt y = some a → a.yield = false) : s.ownEvidence y = s := by
  unfold State.ownEvidence
  split
  next a ha => rw [h a ha, if_neg Bool.false_ne_true]
  next => rfl

/-- K and its cause where this member yields with status a in send crossing y. -/
def State.evidence (s : State) (y : CN) (a : MStatus) : PendK :=
  { k := cnAdd y (s.mr + 2), cause := a.cause, mine := true, both := a.role == 1 && !s.pair.pjoin, lossOfPeer := false }

/-- K where the peer falls silent and y is the second send crossing missed. -/
def State.lossAt (s : State) (y : CN) : PendK :=
  { k := cnAdd (y - 1) (s.mr + 3), cause := 4, mine := false, both := false, lossOfPeer := true }

theorem State.ownEvidence_of_yield {s : State} {y : CN} {a : MStatus} (h : s.sentAt y = some a) (hy : a.yield = true)
    (hp : s.pair.pend = none) : s.ownEvidence y = { s with pair := { s.pair with pend := some (s.evidence y a) } } := by
  rw [State.ownEvidence, h]
  dsimp only
  rw [if_pos hy, State.pendAt_of_none hp]
  rfl

/-- The state with one more release without an intact status. -/
def State.missed (s : State) : State := { s with pair := { s.pair with rxMiss := s.pair.rxMiss + 1 } }

section
variable {s : State} (y : CN)

theorem State.peerMissing_eq : s.peerMissing y =
    if s.missed.paired then
      if s.pair.rxMiss + 1 ≠ 2 then s.missed.ownEvidence y
      else ((s.missed.ownEvidence y).raiseBit .pair 3).pendAt (s.missed.lossAt y)
    else if s.pair.rxMiss + 1 = 2 ∧ s.missed.pairMode ∧ s.missed.pair.rejoin.isSome then s.missed.rejoinStop
    else s.missed := rfl

/-- Such a release counts, and outside a rejoin the pair goes on. -/
theorem State.peerMissing_counts (hr : s.pair.rejoin = none) :
    (s.peerMissing y).pair.relAt = s.pair.relAt ∧ (s.peerMissing y).pair.rxMiss = s.pair.rxMiss + 1 := by
  obtain ⟨q, hown⟩ := s.missed.ownEvidence_eq y
  rw [State.peerMissing_eq]
  split
  · split
    · rw [hown]
      exact ⟨rfl, rfl⟩
    · obtain ⟨q', hpend⟩ := ((s.missed.ownEvidence y).raiseBit .pair 3).pendAt_eq (s.missed.lossAt y)
      rw [hpend]
      dsimp only
      rw [State.raiseBit_pair, hown]
      exact ⟨rfl, rfl⟩
  · have hjoined : s.missed.pair.rejoin = none := hr
    rw [hjoined, if_neg (by simp)]
    exact ⟨rfl, rfl⟩

variable (hp : s.paired = true)
include hp

/-- The first release without a status names K where this member yields in the frame. -/
theorem State.peerMissing_of_first (hn : s.pair.rxMiss = 0) : s.peerMissing y = s.missed.ownEvidence y := by
  have hpaired : s.missed.paired = true := hp
  rw [State.peerMissing_eq, if_pos hpaired, if_pos (by omega)]

/-- The second release in a row without a status is the loss of the peer. -/
theorem State.peerMissing_of_second (hn : s.pair.rxMiss = 1) (hpend : s.pair.pend = none)
    (hown : ∀ a, s.sentAt y = some a → a.yield = false) : s.peerMissing y =
      { s.missed.raiseBit .pair 3 with pair := { s.missed.pair with pend := some (s.lossAt y) } } := by
  have hpaired : s.missed.paired = true := hp
  have hquiet : s.missed.ownEvidence y = s.missed := State.ownEvidence_of_quiet hown
  rw [State.peerMissing_eq, if_pos hpaired, if_neg (by omega), hquiet, State.pendAt_of_none (by rw [State.raiseBit_pair]; exact hpend),
    State.raiseBit_pair]
  rfl

end

/-! ### The peer's status (12 R340) -/

/-- What the pair holds of the latest releases. -/
def PairState.heard (p : PairState) : Option CN × Nat × List (CN × MStatus) := (p.relAt, p.rxMiss, p.rx)

section
variable (s : State)

theorem State.pendAt_heard (p : PendK) : (s.pendAt p).pair.heard = s.pair.heard := by
  obtain ⟨q, h⟩ := s.pendAt_eq p
  rw [h]
  rfl

theorem State.mismatch_heard (c : CN) : (s.mismatch c).pair.heard = s.pair.heard := by
  simp [State.mismatch, PairState.heard]

theorem State.match_heard (c : CN) : (s.match_ c).pair.heard = s.pair.heard := rfl

theorem State.compare_heard (y : CN) (a b : MStatus) : (s.compare y a b).pair.heard = s.pair.heard := by
  have hcounted (c : CN) (p q : Prop) [Decidable p] [Decidable q] :
      (if p then s.mismatch c else if q then s.match_ c else s).pair.heard = s.pair.heard := by
    split
    · exact s.mismatch_heard c
    · split
      · exact s.match_heard c
      · rfl
  unfold State.compare
  dsimp only
  split
  · exact hcounted _ _ _
  · rw [State.pendAt_heard]
    exact hcounted _ _ _

theorem State.release1_heard (c : MirCmd) : (s.release1 c).pair.heard = s.pair.heard := by
  unfold State.release1
  dsimp only
  split
  · rfl
  · split
    · rw [State.complete_pair]
      rfl
    · rw [State.complete_pair, State.jEnd_pair]
      rfl

theorem State.takeCack_heard (q : Word) : (s.takeCack q).pair.heard = s.pair.heard := by
  unfold State.takeCack
  split
  · exact foldl_same (fun u : State => u.pair.heard) _ (fun u c => u.release1_heard c) _ _
  · rfl

theorem State.notePeer_heard (b : MStatus) : (s.notePeer b).pair.heard = s.pair.heard := by
  unfold State.notePeer
  dsimp only
  split
  · rw [State.raiseBit_pair]
    rfl
  · rfl

theorem State.noteLanes_heard (m : BitVec 4) : (s.noteLanes m).pair.heard = s.pair.heard := by
  unfold State.noteLanes
  split <;> rfl

theorem State.noteLanes_rejoin (m : BitVec 4) : (s.noteLanes m).pair.rejoin = s.pair.rejoin := by
  unfold State.noteLanes
  split <;> rfl

/-- The pair that forms has missed no release. -/
theorem State.form_heard (h : s.pair.rxMiss = 0) (b : MStatus) (m : BitVec 4) : (s.form b m).pair.heard = s.pair.heard := by
  unfold State.form
  split
  · dsimp only
    rw [State.raiseBit_pair, PairState.heard, PairState.heard, h]
  · rfl

/-- The state with the peer's status of send crossing y counted. -/
def State.counted (s : State) (y : CN) (b : MStatus) : State :=
  { s with pair := { s.pair with rxMiss := 0, rx := ((y, b) :: s.pair.rx).take 16 } }

/-- Outside a rejoin a status counts, whatever it says. -/
theorem State.peerStatus_heard (hr : s.pair.rejoin = none) (y : CN) (b : MStatus) (m : BitVec 4) :
    (s.peerStatus y b m).pair.heard = (s.pair.relAt, 0, ((y, b) :: s.pair.rx).take 16) := by
  have hcounted : ((s.counted y b).noteLanes m).pair.heard = (s.pair.relAt, 0, ((y, b) :: s.pair.rx).take 16) := State.noteLanes_heard _ m
  have hmiss : ((s.counted y b).noteLanes m).pair.rxMiss = 0 := congrArg (fun h => h.2.1) hcounted
  have hjoined : ((s.counted y b).noteLanes m).pair.rejoin = none := (State.noteLanes_rejoin _ m).trans hr
  rw [← hcounted]
  unfold State.peerStatus
  dsimp only
  rw [← State.counted]
  generalize (s.counted y b).noteLanes m = u at hmiss hjoined ⊢
  split
  · rw [hjoined, Option.isSome_none, if_neg Bool.false_ne_true]
    split
    · exact u.form_heard hmiss b m
    · rfl
  iterate 2
    · split
      · split
        · rfl
        · exact u.form_heard hmiss b m
      · split
        · rw [State.compare_heard, State.takeCack_heard, State.notePeer_heard]
        · rw [State.takeCack_heard, State.notePeer_heard]
  · rfl

end

/-! ### The frames of a send crossing released (12 R340) -/

/-- The state in which the frames of send crossing y are released. -/
def State.releasing (s : State) (y : CN) : State := { s with pair := { s.pair with relAt := some y } }

/-- The state after a release that completes no packet, outside a rejoin. -/
theorem State.mirrorRelease_of_no_packets {s : State} {y : CN} (hp : ∀ r ∈ ((s.releasing y).releaseAll y).2, r.pkts = [])
    (hr : ((s.releasing y).releaseAll y).1.pair.rejoin = none) : s.mirrorRelease y =
      (((s.releasing y).releaseAll y).2.find? MirRel.intact).elim (((s.releasing y).releaseAll y).1.peerMissing y)
        fun m => ((s.releasing y).releaseAll y).1.peerStatus y m.status (intactMask ((s.releasing y).releaseAll y).2) := by
  have hpkts : packetOrder (((s.releasing y).releaseAll y).2.flatMap MirRel.pkts) = [] := by
    rw [List.flatMap_eq_nil_iff.2 hp]
    rfl
  have hstep : ((s.releasing y).releaseAll y).1.checkStepTwo = ((s.releasing y).releaseAll y).1 := by rw [State.checkStepTwo, hr]
  have hask : ((s.releasing y).releaseAll y).1.askAgain = ((s.releasing y).releaseAll y).1 := by rw [State.askAgain, hr]
  unfold State.mirrorRelease
  dsimp only
  rw [← State.releasing, hpkts, List.foldl_nil, hstep, hask, ite_self]
  cases ((s.releasing y).releaseAll y).2.find? MirRel.intact <;> rfl

/-- Where no mirror lane holds a frame, the release is one without a status. -/
theorem State.mirrorRelease_of_silent {s : State} (hr : s.pair.rejoin = none) (hb : ∀ l ∈ s.mirrorLanes, (s.lane l).buf = []) (y : CN) :
    ∃ u : State, (s.releasing y).Unheard u ∧ s.mirrorRelease y = u.peerMissing y := by
  obtain ⟨hunheard, hrels⟩ := State.releaseAll_of_silent (s := s.releasing y) hb y
  refine ⟨_, hunheard, ?_⟩
  have hnone : ((s.releasing y).releaseAll y).2.find? MirRel.intact = none :=
    List.find?_eq_none.2 fun r hm => ne_true_of_eq_false (hrels r hm).1
  rw [State.mirrorRelease_of_no_packets (fun r hm => (hrels r hm).2) (by rw [hunheard.pair]; exact hr), hnone,
    Option.elim_none]

/-- The release of a whole frame with an idle stream: an intact status, and no packet. -/
theorem State.releaseMirror_of_whole {s : State} {l : Nat} {y : CN} {f : RxFrame} (hr : (s.lane l).role = 3)
    (hf : ((s.lane l).buf.find? fun f => decide (f.x = y)) = some f) (hm : f.mask = 0) (hz : f.pay.extractLsb' 256 1728 = 0)
    (hx : s.pair.rxBuf = []) :
    (s.releaseMirror y l 0).2.intact = true ∧ (s.releaseMirror y l 0).2.status = statusOf f.pay ∧ (s.releaseMirror y l 0).2.pkts = [] ∧
      (s.releaseMirror y l 0).1.pair.heard = s.pair.heard ∧ (s.releaseMirror y l 0).1.pair.rejoin = s.pair.rejoin := by
  have hslack : (s.setLane l ((s.lane l).dropped y)).noteSlack l (s.slackOf f) =
      (s.setLane l ((s.lane l).dropped y)).setLane l (((s.lane l).dropped y).slacked (s.slackOf f)) := by
    rw [State.noteSlack_of_mirror (by rw [State.lane_setLane]; exact hr), State.lane_setLane]
  have hidle (n : Nat) : (streamSteps (streamBlocks { data := f.pay, mask := f.mask } n) (some [])).2 = [] := by
    rw [streamSteps_of_idle fun b hb => streamBlocks_idle (r := { data := f.pay, mask := f.mask }) hm hz hb]
  unfold State.releaseMirror
  dsimp only
  rw [State.takeHeld_of_held hf, hslack]
  dsimp only
  rw [if_pos hm, hm]
  refine ⟨rfl, rfl, ?_, rfl, rfl⟩
  have hpart : tget (some []) ((s.setLane l ((s.lane l).dropped y)).setLane l (((s.lane l).dropped y).slacked (s.slackOf f))).pair.rxBuf 0 =
      some [] := by
    rw [State.setLane_pair, State.setLane_pair, hx]
    rfl
  rw [hpart, ← hm]
  exact hidle _

/-- A whole frame with an idle stream on the one mirror lane is the peer's status. -/
theorem State.mirrorRelease_of_whole {s : State} {l : Nat} {y : CN} {f : RxFrame} (hj : s.pair.rejoin = none) (hl : s.mirrorLanes = [l])
    (hf : ((s.lane l).buf.find? fun f => decide (f.x = y)) = some f) (hm : f.mask = 0) (hz : f.pay.extractLsb' 256 1728 = 0)
    (hx : s.pair.rxBuf = []) : (s.mirrorRelease y).pair.heard = (some y, 0, ((y, statusOf f.pay) :: s.pair.rx).take 16) := by
  have hrole : (s.lane l).role = 3 := Lane.role_of_mem_mirrorLanes (by rw [hl]; exact List.mem_cons_self)
  obtain ⟨hintact, hstatus, hpkts, hheard, hrejoin⟩ := State.releaseMirror_of_whole (s := s.releasing y) (l := l) hrole hf hm hz hx
  have hall : (s.releasing y).releaseAll y = (((s.releasing y).releaseMirror y l 0).1, [((s.releasing y).releaseMirror y l 0).2]) := by
    have hlanes : (s.releasing y).mirrorLanes = [l] := hl
    rw [State.releaseAll, hlanes]
    rfl
  have hout : ((s.releasing y).releaseMirror y l 0).1.pair.rejoin = none := hrejoin.trans hj
  have hrel := State.mirrorRelease_of_no_packets (s := s) (y := y)
    (by rw [hall]; exact fun r hr => by rw [List.mem_singleton.1 hr]; exact hpkts) (by rw [hall]; exact hout)
  rw [hall] at hrel
  simp only [List.find?_cons_of_pos hintact, Option.elim_some] at hrel
  rw [hrel, State.peerStatus_heard _ hout, hstatus]
  have hrelAt : ((s.releasing y).releaseMirror y l 0).1.pair.relAt = some y := congrArg Prod.fst hheard
  have hrx : ((s.releasing y).releaseMirror y l 0).1.pair.rx = s.pair.rx := congrArg (fun h => h.2.2) hheard
  rw [hrelAt, hrx]

end Sys2Proof.Machine

open Sys2Proof Sys2Proof.Machine

/-- Settles O51: the frames sent begin with the member's status (sendStatus_sentStatus); a release of silent lanes is one without a status
(mirrorRelease_of_silent), and one of a whole frame counts its status (mirrorRelease_of_whole). -/
theorem mirrorFramesCarryStatus : Obligations.MirrorFramesCarryStatus := by
  refine ⟨fun s hd hr hl => ?_, fun s hd hr hb => ?_, fun s l f hd hj hl hf hm hz hx => ?_⟩
  · refine ⟨_, execMirrorFrameSend_of_due hd hr hl, ?_, fun l hmem => ?_⟩
    · rw [State.sendStatus_sent]
      rfl
    · obtain ⟨hcn, hblocks⟩ := s.sendStatus_sentStatus hmem
      obtain ⟨hyield, hauth⟩ := s.ownStatus.blocks_flags
      have hfirst : (s.sendStatus.lane l).txLast.headD 0 = s.ownStatus.blocks.headD 0 := by
        rw [← hblocks, List.headD_eq_head?_getD, List.headD_eq_head?_getD, List.head?_take, if_neg (by decide)]
      exact ⟨hcn, hblocks, by rw [hfirst, hyield]; rfl, by rw [hfirst, hauth]; rfl⟩
  · obtain ⟨u, hu, hrel⟩ := s.mirrorRelease_of_silent hr hb s.mirrorY
    have hpair := hu.pair
    have hcfg : u.pair.cfg = s.pair.cfg := by rw [hpair]; rfl
    have hmiss : u.pair.rxMiss = s.pair.rxMiss := by rw [hpair]; rfl
    have hpend : u.pair.pend = s.pair.pend := by rw [hpair]; rfl
    have hsent : u.sentAt s.mirrorY = s.sentAt s.mirrorY := by rw [State.sentAt, State.sentAt, hpair]; rfl
    have hpaired : u.paired = s.paired := by rw [State.paired, State.paired, State.pairMode, State.pairMode, hpair]; rfl
    have hmr : u.mr = s.mr := by rw [State.mr, State.mr, hcfg]
    obtain ⟨hat, hcount⟩ := State.peerMissing_counts (s := u) s.mirrorY (by rw [hpair]; exact hr)
    refine ⟨_, if_pos hd, ?_⟩
    dsimp only
    rw [hrel]
    refine ⟨by rw [hat, hpair]; rfl, by rw [hcount, hmiss], fun hn hp hnone hquiet => ?_, fun a hn hp hnone ha hy => ?_⟩
    · rw [State.peerMissing_of_second s.mirrorY (hpaired.trans hp) (hmiss.trans hn) (hpend.trans hnone) (by rw [hsent]; exact hquiet)]
      exact ⟨State.shows_raiseBit _ _ (by decide), _, rfl, by rw [State.lossAt, hmr], rfl, rfl⟩
    · rw [State.peerMissing_of_first s.mirrorY (hpaired.trans hp) (hmiss.trans hn),
        State.ownEvidence_of_yield (s := u.missed) (hsent.trans ha) hy (hpend.trans hnone)]
      exact ⟨_, rfl, by rw [State.evidence, State.mr]; exact congrArg (fun n => cnAdd s.mirrorY (n + 2)) hmr, rfl, rfl, rfl⟩
  · have hheard := State.mirrorRelease_of_whole hj hl hf hm hz hx
    simp only [PairState.heard, Prod.mk.injEq] at hheard
    obtain ⟨hat, hmiss, hrx⟩ := hheard
    exact ⟨_, if_pos hd, hat, hmiss, by rw [hrx]; rfl⟩

end

section
/-! PROOFS. What the end of a run and the health log leave of supplies and events (00 R13, 15 R417). -/

namespace Sys2Proof.Machine

/-! ### What the end of a run leaves of supplies and events (00 R13) -/

/-- The clocks apart from what a stop and a flushed crossing write: ALOCK, the gates of unused Fields, and the record of the flush. -/
def ClkState.sources (c : ClkState) : ClkState := { c with alock := false, gate := 0, cdc := 0 }

/-- Power, package, clock sources, and whether Klowyn runs. -/
def State.supply (s : State) : PwrState × PkgState × ClkState × Bool := (s.pwr, s.pkg, s.clk.sources, s.kly.up)

/-- t has the supplies of s, and every event that showed. -/
structure State.Steady (s t : State) : Prop where
  supply : t.supply = s.supply
  shows : ∀ i b, s.shows i b = true → t.shows i b = true

theorem State.Steady.refl (s : State) : s.Steady s := ⟨rfl, fun _ _ h => h⟩

theorem State.Steady.trans {s t u : State} (h : s.Steady t) (g : t.Steady u) : s.Steady u :=
  ⟨g.supply.trans h.supply, fun i b hb => g.shows i b (h.shows i b hb)⟩

section
variable {s t : State} (h : s.Steady t)
include h

theorem State.Steady.pwr : t.pwr = s.pwr := congrArg Prod.fst h.supply
theorem State.Steady.pkg : t.pkg = s.pkg := congrArg (fun x => x.2.1) h.supply
theorem State.Steady.sources : t.clk.sources = s.clk.sources := congrArg (fun x => x.2.2.1) h.supply
theorem State.Steady.up : t.kly.up = s.kly.up := congrArg (fun x => x.2.2.2) h.supply

end

/-- A change that reaches neither supplies nor events. -/
theorem State.Steady.of_evts {s t : State} (h : t.supply = s.supply) (he : t.evts = s.evts) : s.Steady t :=
  ⟨h, fun _ _ hb => (State.shows_congr he).trans hb⟩

theorem State.Steady.next {s t u : State} (h : s.Steady t) (hs : u.supply = t.supply) (he : u.evts = t.evts) : s.Steady u := h.trans (.of_evts hs he)

theorem State.Steady.after {s t u : State} (g : t.Steady u) (h : s.Steady t) : s.Steady u := h.trans g

theorem State.Steady.foldl {α : Type} {f : State → α → State} {l : List α} {s t : State} (h : s.Steady t) (hf : ∀ u a, State.Steady u (f u a)) :
    s.Steady (l.foldl f t) :=
  List.foldlRecOn _ _ h fun u hu a _ => hu.trans (hf u a)

section
variable (s : State)

theorem State.steady_raise (i : EvtId) (m : Word) : s.Steady (s.raise i m) :=
  ⟨by simp [State.supply], fun _ _ hb => State.shows_raise_of_shows hb i m⟩

theorem State.steady_raiseBit (i : EvtId) (b : Nat) : s.Steady (s.raiseBit i b) := s.steady_raise i _

theorem State.steady_logEvent (e : LogEvt) : s.Steady (s.logEvent e) := .of_evts (by simp [State.supply]) (by simp)

theorem State.steady_abortLong (w : Waiting) (f : Refuse) : s.Steady (s.abortLong w f) := .of_evts (by simp [State.supply]) (by simp)

theorem State.steady_voidNotice (w : Waiting) (st : JSt) (c : Nat) : s.Steady (s.voidNotice w st c) := .of_evts (by simp [State.supply]) (by simp)

theorem State.steady_alm (a : AlmState) : s.Steady { s with alm := a } := .of_evts rfl rfl

theorem State.steady_host (h : HostState) : s.Steady { s with host := h } := .of_evts rfl rfl

theorem State.steady_gives (l : List Byte) : s.Steady (s.gives l) := s.steady_host _

theorem State.steady_freeBytes (n : Nat) : s.Steady (s.freeBytes n).2 := .of_evts rfl rfl

theorem State.steady_setTab (t : Nat) (x : AlmTab) : s.Steady (s.setTab t x) := s.steady_alm _

theorem State.steady_drainLosses : s.Steady s.drainLosses :=
  State.Steady.foldl (.of_evts rfl rfl) State.steady_logEvent

theorem State.steady_voidWaiting : s.Steady s.voidWaiting := by
  unfold State.voidWaiting
  dsimp only
  have hvoid : s.Steady (s.kly.waiting.foldl (fun t w => t.voidNotice w .void 0xB00D) s) :=
    (State.Steady.refl s).foldl fun u w => u.steady_voidNotice w .void 0xB00D
  generalize s.kly.waiting.foldl (fun t w => t.voidNotice w .void 0xB00D) s = u at hvoid ⊢
  have hclear : s.Steady { u with kly := { u.kly with waiting := [] } } := hvoid.next rfl rfl
  have habort := hclear.foldl (l := u.kly.longs.filter fun w => needsRun w.req.op.toNat) fun v w => v.steady_abortLong w { code := 0xB00D }
  exact habort.next rfl rfl

/-! Bursts at the end of a run. -/

theorem State.steady_writeLine (r : LineRef) (d : List Byte) : s.Steady (s.writeLine r d) := by
  rw [State.writeLine_frame]
  exact .of_evts rfl rfl

theorem State.steady_writeBurst (b : WBurst) : s.Steady (s.writeBurst b) := by
  unfold State.writeBurst
  split
  · exact s.steady_writeLine _ _
  · exact .refl s

theorem State.steady_rewriteLine (b : WBurst) : s.Steady (s.rewriteLine b) := by
  unfold State.rewriteLine
  split
  · split
    · exact s.steady_writeLine _ _
    · exact .refl s
  · exact .refl s

theorem State.steady_rewriteFixed (tid : Nat) (face : Bool) : s.Steady (s.rewriteFixed tid face) :=
  State.Steady.foldl (.of_evts rfl rfl) State.steady_rewriteLine

theorem State.steady_queueCatchUp (tid : Nat) : s.Steady (s.queueCatchUp tid) := by
  unfold State.queueCatchUp
  dsimp only
  have hset := s.steady_setTab tid
    { s.tab tid with upd := (s.alm.writes.filter fun w => w.tid == tid && w.copy == 0).map fun w => (w.row, w.data) }
  generalize s.setTab tid _ = u at hset ⊢
  have hfixed := (hset.trans (u.steady_alm { u.alm with swaps := u.alm.swaps.filter fun w => w.tid != tid })).trans
    (State.steady_rewriteFixed _ tid (!(s.tab tid).active))
  split
  · exact .after (State.steady_alm _ _) hfixed
  · exact hfixed.foldl State.steady_writeBurst

theorem State.steady_readPiece (p : Piece) (noise : BitVec 288) : s.Steady (s.readPiece p noise) := by
  have hfree : s.Steady ((s.freeBytes p.len).2.gives (s.freeBytes p.len).1) := .after (State.steady_gives _ _) (s.steady_freeBytes _)
  unfold State.readPiece
  split
  · exact hfree
  · split
    · split
      · exact hfree
      · exact s.steady_gives _
    · exact .after (State.steady_host _ _) hfree

theorem State.steady_readBurst (b : HostBurst) : s.Steady (s.readBurst b) := by
  have hread := State.steady_readPiece { s with host := { s.host with bdata := [], poison := false } } { addr := b.addr, len := b.len } b.noise
  unfold State.readBurst
  dsimp only
  generalize State.readPiece _ _ _ = u at hread ⊢
  have hs : s.Steady u := hread.after (.of_evts rfl rfl)
  split
  · exact .after (State.steady_raiseBit _ _ _) (hs.next rfl rfl)
  · exact hs.next rfl rfl

theorem State.steady_writeHost (b : HostBurst) (keepOut : Bool) : s.Steady (s.writeHost b keepOut) := by
  unfold State.writeHost
  dsimp only
  have hput : s.Steady (s.putPiece { addr := b.addr, len := b.len } b.data keepOut) := by
    rw [State.putPiece_frame]
    exact .of_evts rfl rfl
  split
  · exact hput.trans (.after (State.steady_raiseBit _ _ _) (.of_evts rfl rfl))
  · exact hput

theorem State.steady_hostBurst (b : HostBurst) : s.Steady (s.hostBurst b) := by
  unfold State.hostBurst
  dsimp only
  split
  · exact .after (State.steady_readBurst _ _) (.of_evts rfl rfl)
  · exact .after (State.steady_writeHost _ _ _) (.of_evts rfl rfl)

theorem State.steady_drainHost : s.Steady s.drainHost := (State.Steady.refl s).foldl State.steady_hostBurst

theorem State.steady_rewriteAll : s.Steady s.rewriteAll := State.Steady.foldl (.of_evts rfl rfl) State.steady_rewriteLine

theorem State.steady_settleSwaps : s.Steady s.settleSwaps := by
  unfold State.settleSwaps
  dsimp only
  have hqueue : s.Steady ((s.alm.swaps.filter Swap.done).foldl (fun t w => t.queueCatchUp w.tid) s) :=
    (State.Steady.refl s).foldl fun u w => u.steady_queueCatchUp w.tid
  generalize (s.alm.swaps.filter Swap.done).foldl (fun t w => t.queueCatchUp w.tid) s = u at hqueue ⊢
  have hclear : s.Steady { u with alm := { u.alm with catchUp := [], writes := [], swaps := [] } } := hqueue.next rfl rfl
  have hwrite := hclear.foldl (l := u.alm.catchUp ++ u.alm.writes) State.steady_writeBurst
  exact (hwrite.trans ((State.steady_drainHost _).trans (State.steady_rewriteAll _))).next rfl rfl

theorem State.steady_settled : s.Steady s.settled :=
  s.steady_drainLosses.trans (s.drainLosses.steady_voidWaiting.trans (State.steady_settleSwaps _))

theorem State.steady_quietArray : s.Steady s.quietArray := .of_evts rfl rfl

theorem State.steady_flushCrossing (i j n : Nat) : s.Steady (s.flushCrossing i j n) := by
  unfold State.flushCrossing
  exact .after (State.steady_raiseBit _ _ _) (.of_evts rfl rfl)

theorem State.steady_peerReset (i j : Nat) : s.Steady (s.peerReset i j) := by
  unfold State.peerReset
  exact .after (State.steady_flushCrossing _ _ _ _) (.of_evts rfl rfl)

/-- The end of a run leaves supplies and events. -/
theorem State.steady_stopRun (why : StopReason) : s.Steady (s.stopRun why) := by
  have hquiet := s.steady_settled.trans s.settled.steady_quietArray
  unfold State.stopRun
  dsimp only
  rw [← State.settled]
  generalize s.settled.quietArray = u at hquiet ⊢
  have hstop (v : State) (hv : v.supply = u.supply) (he : v.evts = u.evts) : s.Steady ((v.peerReset 0 1).coverChange false) :=
    ((hquiet.next hv he).trans (v.steady_peerReset 0 1)).next rfl rfl
  split
  · exact hstop _ rfl rfl
  · exact hquiet.next rfl rfl

theorem State.steady_sideQueue (l : Nat) (p : Pkt) : s.Steady (s.sideQueue l p) :=
  ⟨by simp [State.supply], fun _ _ hb => State.shows_sideQueue_of_shows hb l p⟩

theorem State.steady_healthAdd (kind src : Nat) (regs : List Byte) : s.Steady (s.healthAdd kind src regs) := by
  refine ⟨?_, fun _ _ hb => State.shows_healthAdd_of_shows hb kind src regs⟩
  unfold State.healthAdd
  dsimp only
  split
  · exact (State.steady_sideQueue _ _ _).supply
  · rfl

theorem State.steady_fault (cause : BitVec 8) (src : Nat) : s.Steady (s.fault cause src) := by
  obtain ⟨run, pair, hf⟩ := s.fault_eq cause src
  rw [hf]
  exact (s.steady_healthAdd 2 src [cause]).trans (.of_evts rfl rfl)

end

end Sys2Proof.Machine
end

section
/-! PROOFS. The clock safe state and its end: monitor failures and recoveries (13 R355, 17 R464 to R466). -/

namespace Sys2Proof.Machine

/-! ### Pulses and the time clock (13 R355, R375) -/

/-- t is s but for the chronometer, events with their vectors, and what the integrity engine has noted; every event that showed still shows. -/
def State.TimeSide (s t : State) : Prop :=
  t = { s with chr := t.chr, evts := t.evts, host := t.host, cig := t.cig } ∧ ∀ i b, s.shows i b = true → t.shows i b = true

theorem State.TimeSide.refl (s : State) : s.TimeSide s := ⟨rfl, fun _ _ h => h⟩

theorem State.TimeSide.trans {s t u : State} (h : s.TimeSide t) (g : t.TimeSide u) : s.TimeSide u := by
  obtain ⟨ht, hts⟩ := h
  obtain ⟨hu, hus⟩ := g
  refine ⟨?_, fun i b hb => hus i b (hts i b hb)⟩
  rw [ht] at hu
  exact hu

theorem State.timeSide_of_eq {s t : State} (h : t = { s with chr := t.chr, cig := t.cig }) : s.TimeSide t := by
  rw [h]
  exact ⟨rfl, fun _ _ hb => hb⟩

section
variable (s : State)

theorem State.raise_frame (i : EvtId) (m : Word) :
    s.raise i m = { s with evts := (s.raise i m).evts, host := (s.raise i m).host } := by
  unfold State.raise State.signal
  dsimp only
  split
  · rfl
  · split
    · rfl
    · split <;> rfl

theorem State.timeSide_raise (i : EvtId) (m : Word) : s.TimeSide (s.raise i m) :=
  ⟨by rw [s.raise_frame i m], fun _ _ hb => State.shows_raise_of_shows hb i m⟩

theorem State.timeSide_raiseBit (i : EvtId) (b : Nat) : s.TimeSide (s.raiseBit i b) := s.timeSide_raise i _

theorem State.timeSide_coverPulse (p : Nat) (old : Pulse) : s.TimeSide (s.coverPulse p old) := by
  unfold State.coverPulse
  dsimp only
  split
  · exact State.timeSide_of_eq rfl
  · exact .refl s

theorem State.timeSide_setPulse (p : Nat) (x : Pulse) : s.TimeSide (s.setPulse p x) := State.timeSide_of_eq rfl

theorem State.timeSide_pulseLow (p : Nat) : s.TimeSide (s.pulseLow p) := by
  unfold State.pulseLow
  dsimp only
  generalize hu : s.setPulse p _ = u
  have hset : s.TimeSide u := hu ▸ s.timeSide_setPulse p _
  split
  · exact ((hset.trans (u.timeSide_setPulse p _)).trans (State.timeSide_raise _ _ _)).trans (State.timeSide_coverPulse _ _ _)
  · exact hset

theorem State.timeSide_pulsesLow : s.TimeSide s.pulsesLow := by
  refine List.foldlRecOn _ _ (.refl s) fun u hu p _ => ?_
  split
  · exact hu.trans (u.timeSide_pulseLow p)
  · exact hu

/-- The time clock's source is LREFCLK, else the crystal, else none (13 R355). -/
theorem State.timeSource_spec : s.timeSource.chr.srcX = !s.clk.lrefOk ∧ s.timeSource.chr.stopped = (!s.clk.lrefOk && !s.clk.xtalOk) ∧
    s.timeSource = { s with chr := s.timeSource.chr, evts := s.timeSource.evts, host := s.timeSource.host } ∧ s.TimeSide s.timeSource := by
  unfold State.timeSource
  dsimp only
  split
  · exact ⟨rfl, rfl, rfl, State.timeSide_of_eq rfl⟩
  · unfold State.raiseBit
    refine ⟨by rw [State.raise_chr], by rw [State.raise_chr], ?_, State.TimeSide.trans (State.timeSide_of_eq ?_) (State.timeSide_raise _ _ _)⟩
    · rw [State.raise_frame]
    · rfl

end

/-! ### The clock safe state (17 R465, R466) -/

section
variable (s : State) (src : ClkSrc)

/-- The sources in window. -/
def ClkState.good (c : ClkState) : Bool × Bool × Bool := (c.mclkOk, c.lrefOk, c.xtalOk)

theorem State.Steady.good {s t : State} (h : s.Steady t) : t.clk.good = s.clk.good :=
  (congrArg ClkState.good h.sources : t.clk.sources.good = s.clk.sources.good)

/-- The report of a monitor failure: a fault, or a mark for the end of the transition that it meets (17 R479). -/
def State.monitorFault : State := if s.pwr.busy = .none then s.fault 6 0 else { s with pwr := { s.pwr with failed := true } }

/-- A member of a pair after its yield in a clock stop. -/
def PairState.clockYielded (p : PairState) : PairState :=
  { p with st := .yielding, auth := false, cause := 6, side := false, pend := none, yieldCause := none, serving := false }

def State.clockYield : State :=
  let u := ((s.healthAdd 3 0 [6]).raiseBit .pair 1).stopRun .clock
  { u with pair := u.pair.clockYielded }

theorem State.clockStop_eq : s.clockStop =
    if !s.armed then s.monitorFault else if s.paired then s.monitorFault.clockYield else s.monitorFault.stopRun .clock := rfl

theorem State.monitorFault_armed : s.monitorFault.armed = s.armed := by
  unfold State.monitorFault
  split
  · rw [State.armed, State.fault_run_phase]
    rfl
  · rfl

theorem State.monitorFault_clk : s.monitorFault.clk = s.clk := by
  unfold State.monitorFault
  split
  · exact s.fault_clk 6 0
  · rfl

theorem State.monitorFault_failed (h : s.pwr.busy ≠ .none) : s.monitorFault.pwr.failed = true := by
  rw [State.monitorFault, if_neg h]

theorem State.steady_clockYield : s.Steady s.clockYield := by
  have h := ((s.steady_healthAdd 3 0 [6]).trans (State.steady_raiseBit _ .pair 1)).trans (State.steady_stopRun _ .clock)
  unfold State.clockYield
  exact h.next rfl rfl

theorem State.clockYield_run : s.clockYield.armed = false ∧ s.clockYield.run.reason = .clock ∧ s.clockYield.shows .pair 1 = true := by
  refine ⟨State.stopRun_armed _ _, State.stopRun_reason _ _, ?_⟩
  exact (State.steady_stopRun _ .clock).shows _ _ (State.shows_raiseBit _ _ (by decide))

/-- What a clock stop leaves: the sources as they were, a monitor failure noted, the run over, a member of a pair in its yield. -/
structure State.ClockStopped (t : State) : Prop where
  good : t.clk.good = s.clk.good
  failed : s.pwr.busy ≠ .none → t.pwr.failed = true
  idle : t.armed = false
  reason : s.armed = true → t.run.reason = .clock
  yielded : s.armed = true → s.paired = true → t.pair.st = .yielding ∧ t.pair.auth = false ∧ t.pair.cause = 6 ∧ t.shows .pair 1 = true

theorem State.clockStop_stopped : s.ClockStopped s.clockStop := by
  have hclk : s.monitorFault.clk.good = s.clk.good := congrArg ClkState.good s.monitorFault_clk
  rw [State.clockStop_eq]
  cases ha : s.armed with
  | false =>
    rw [Bool.not_false, if_pos rfl]
    exact ⟨hclk, s.monitorFault_failed, s.monitorFault_armed.trans ha, fun h => absurd (ha.symm.trans h) (by decide),
      fun h => absurd (ha.symm.trans h) (by decide)⟩
  | true =>
    rw [Bool.not_true, if_neg (by decide)]
    cases hp : s.paired with
    | false =>
      have hs := s.monitorFault.steady_stopRun .clock
      rw [if_neg (by decide)]
      refine ⟨hs.good.trans hclk, fun h => ?_, State.stopRun_armed _ _, fun _ => State.stopRun_reason _ _,
        fun _ h => absurd (hp.symm.trans h) (by decide)⟩
      rw [hs.pwr]
      exact s.monitorFault_failed h
    | true =>
      have hs := s.monitorFault.steady_clockYield
      obtain ⟨harm, hreason, hshow⟩ := s.monitorFault.clockYield_run
      rw [if_pos rfl]
      refine ⟨hs.good.trans hclk, fun h => ?_, harm, fun _ => hreason, fun _ _ => ⟨rfl, rfl, rfl, hshow⟩⟩
      rw [hs.pwr]
      exact s.monitorFault_failed h

theorem State.ClockStopped.timeSide {s t u : State} (h : s.ClockStopped t) (g : t.TimeSide u) : s.ClockStopped u := by
  obtain ⟨hframe, hshow⟩ := g
  refine ⟨?_, fun hb => ?_, ?_, fun ha => ?_, fun ha hp => ?_⟩
  · rw [hframe]; exact h.good
  · rw [hframe]; exact h.failed hb
  · rw [hframe]; exact h.idle
  · rw [hframe]; exact h.reason ha
  · obtain ⟨hst, hauth, hcause, hyield⟩ := h.yielded ha hp
    refine ⟨?_, ?_, ?_, hshow _ _ hyield⟩ <;> rw [hframe] <;> assumption

/-- t is in the clock safe state for source src, from s (17 R465, R466). -/
structure State.SafeFor (t : State) : Prop where
  stopped : s.ClockStopped t
  safe : t.clk.safe = true
  waits : src ∈ t.clk.wait
  fdec : t.out.fdec = 0
  alert : t.pkg.alert = true

theorem State.clockSafe_safeFor : s.SafeFor src (s.clockSafe src) := by
  have hstop : s.ClockStopped s.clockStop.darkLanes.pulsesLow :=
    State.ClockStopped.timeSide (t := s.clockStop.darkLanes) ⟨s.clockStop_stopped.good, s.clockStop_stopped.failed, s.clockStop_stopped.idle,
      s.clockStop_stopped.reason, s.clockStop_stopped.yielded⟩ (State.timeSide_pulsesLow _)
  unfold State.clockSafe
  generalize s.clockStop.darkLanes.pulsesLow = u at hstop ⊢
  refine ⟨⟨hstop.good, hstop.failed, hstop.idle, hstop.reason, hstop.yielded⟩, rfl, ?_, rfl, rfl⟩
  by_cases h : src ∈ u.clk.wait
  · simp [h]
  · simp [h]

theorem State.SafeFor.timeSide {s t u : State} {src : ClkSrc} (h : s.SafeFor src t) (g : t.TimeSide u) : s.SafeFor src u := by
  refine ⟨h.stopped.timeSide g, ?_, ?_, ?_, ?_⟩ <;> rw [g.1]
  exacts [h.safe, h.waits, h.fdec, h.alert]

end

section
variable {s : State}

theorem execMclkMonitorFail_spec (h : s.clk.mclkOk = true) : GoesTo (execMclkMonitorFail s) fun t => t.clk.mclkOk = false ∧
    State.SafeFor { s with clk := { s.clk with mclkOk := false, freq := 0, mclk := 0 } } .mclk t ∧ t.shows .clk 0 = true := by
  rw [execMclkMonitorFail, if_pos h]
  have hsafe := (State.clockSafe_safeFor { s with clk := { s.clk with mclkOk := false, freq := 0, mclk := 0 } } .mclk).timeSide
    (State.timeSide_raiseBit _ .clk 0)
  exact ⟨_, rfl, congrArg Prod.fst hsafe.stopped.good, hsafe, State.shows_raiseBit _ _ (by decide)⟩

theorem execLrefclkMonitorFail_spec (h : s.clk.lrefOk = true) : GoesTo (execLrefclkMonitorFail s) fun t => t.clk.lrefOk = false ∧
    State.SafeFor { s with clk := { s.clk with lrefOk := false } } .lrefclk t ∧ t.shows .clk 1 = true ∧
    t.chr.srcX = true ∧ t.chr.stopped = !s.clk.xtalOk := by
  rw [execLrefclkMonitorFail, if_pos h]
  have hsafe := (State.clockSafe_safeFor { s with clk := { s.clk with lrefOk := false } } .lrefclk).timeSide
    (State.timeSide_raiseBit _ .clk 1)
  have hshow := State.shows_raiseBit (State.clockSafe { s with clk := { s.clk with lrefOk := false } } .lrefclk) .clk (b := 1) (by decide)
  generalize (State.clockSafe _ _).raiseBit .clk 1 = u at hsafe hshow ⊢
  obtain ⟨hsrc, hstop, -, hside⟩ := u.timeSource_spec
  have hlref : u.clk.lrefOk = false := congrArg (fun x => x.2.1) hsafe.stopped.good
  have hxtal : u.clk.xtalOk = s.clk.xtalOk := congrArg (fun x => x.2.2) hsafe.stopped.good
  have hend := hsafe.timeSide hside
  refine ⟨_, rfl, congrArg (fun x => x.2.1) hend.stopped.good, hend, hside.2 _ _ hshow, ?_, ?_⟩
  · rw [hsrc, hlref]; rfl
  · rw [hstop, hlref, hxtal]; rfl

theorem execCrystalMonitorFail_spec (h : s.clk.xtalOk = true) : GoesTo (execCrystalMonitorFail s) fun t => t.clk.xtalOk = false ∧
    State.SafeFor { s with clk := { s.clk with xtalOk := false } } .crystal t ∧ t.shows .clk 2 = true := by
  rw [execCrystalMonitorFail, if_pos h]
  have hsafe := (State.clockSafe_safeFor { s with clk := { s.clk with xtalOk := false } } .crystal).timeSide
    (State.timeSide_raiseBit _ .clk 2)
  have hshow := State.shows_raiseBit (State.clockSafe { s with clk := { s.clk with xtalOk := false } } .crystal) .clk (b := 2) (by decide)
  dsimp only
  generalize (State.clockSafe _ _).raiseBit .clk 2 = u at hsafe hshow ⊢
  split
  · have hend := hsafe.timeSide u.timeSource_spec.2.2.2
    exact ⟨_, rfl, congrArg (fun x => x.2.2) hend.stopped.good, hend, u.timeSource_spec.2.2.2.2 _ _ hshow⟩
  · exact ⟨_, rfl, congrArg (fun x => x.2.2) hsafe.stopped.good, hsafe, hshow⟩

/-! ### Recovery (17 R464, R466) -/

theorem State.startLanes_eq (s : State) : ∃ l, s.startLanes = { s with lanes := l } := by
  unfold State.startLanes
  split
  · exact ⟨_, rfl⟩
  · exact ⟨_, rfl⟩

/-- The last source that the safe state waited for ends it. -/
theorem State.clocksReturn_last (s : State) (hs : s.clk.safe = true) (hw : s.clk.wait = []) : s.clocksReturn.clk = { s.clk with safe := false } := by
  have hreturn : (s.clk.safe && decide (s.clk.wait = [])) = true := by rw [hs, hw]; rfl
  obtain ⟨l, hl⟩ := State.startLanes_eq { s with clk := { s.clk with safe := false } }
  rw [State.clocksReturn, if_pos hreturn]
  dsimp only
  rw [hl]
  split <;> rfl

/-- The clocks with a source in window. -/
def ClkState.withSource (c : ClkState) (freq : Nat) : ClkSrc → ClkState
  | .mclk => { c with mclkOk := true, mclk := freq }
  | .lrefclk => { c with lrefOk := true }
  | .crystal => { c with xtalOk := true }

theorem State.timeSource_if_clk (s : State) (b : Bool) : (if b = true then s.timeSource else s).clk = s.clk := by
  split
  · rw [s.timeSource_spec.2.2.1]
  · rfl

theorem State.sourceGood_clk (s : State) (src : ClkSrc) (freq : Nat) : (s.sourceGood src freq).clk = s.clk.withSource freq src := by
  cases src with
  | mclk => rfl
  | lrefclk => exact State.timeSource_if_clk _ _
  | crystal => exact State.timeSource_if_clk _ _

theorem execMonitorRecovery_last {src : ClkSrc} {freq : Nat} (hs : s.clk.safe = true) (hw : s.clk.wait = [src])
    (hf : src = .mclk → mclkInWindow freq = true) : GoesTo (execMonitorRecovery src freq s) fun t =>
      t.clk = { s.clk.withSource freq src with wait := [], safe := false } ∧ t.shows .clk 5 = true := by
  have hwindow : ¬(src = .mclk ∧ (!mclkInWindow freq) = true) := by
    rintro ⟨hm, hn⟩
    rw [hf hm] at hn
    exact absurd hn (by decide)
  have hcontains : s.clk.wait.contains src = true := by simp [hw]
  have hclk := s.sourceGood_clk src freq
  rw [execMonitorRecovery, if_neg hwindow, if_pos hcontains]
  generalize s.sourceGood src freq = u at hclk ⊢
  have hsafe : u.clk.safe = true := by rw [hclk]; cases src <;> exact hs
  have hnone : u.clk.wait.filter (fun x => decide (x ≠ src)) = [] := by
    rw [hclk]
    cases src <;> exact congrArg _ hw
  refine ⟨_, rfl, ?_, State.shows_raiseBit _ _ (by decide)⟩
  have hreturn := State.clocksReturn_last { u with clk := { u.clk with wait := u.clk.wait.filter fun x => decide (x ≠ src) } } hsafe hnone
  refine (State.raiseBit_clk _ _ _).trans (hreturn.trans ?_)
  dsimp only
  rw [hnone, hclk]

end

/-- Monitor failures (17 R464 to R466, 13 R355, 12 R341). -/
theorem clockFailures (s : State) :
    (s.clk.mclkOk = true → GoesTo (exec .mclkMonitorFail s) fun t => t.clk.mclkOk = false ∧ t.clk.safe = true ∧ ClkSrc.mclk ∈ t.clk.wait ∧
      t.out.fdec = 0 ∧ t.pkg.alert = true ∧ t.shows .clk 0 = true ∧ t.armed = false ∧ (s.armed = true → t.run.reason = .clock) ∧
      (s.pwr.busy ≠ .none → t.pwr.failed = true) ∧
      (s.armed = true → s.paired = true → t.pair.st = .yielding ∧ t.pair.auth = false ∧ t.pair.cause = 6 ∧ t.shows .pair 1 = true)) ∧
    (s.clk.lrefOk = false → GoesTo (exec .lrefclkMonitorFail s) fun t => t.chr.srcX = true ∧ t.chr.stopped = !s.clk.xtalOk ∧
      t = { s with chr := t.chr, evts := t.evts, host := t.host }) ∧
    (s.clk.lrefOk = true → GoesTo (exec .lrefclkMonitorFail s) fun t => t.clk.lrefOk = false ∧ t.clk.safe = true ∧
      ClkSrc.lrefclk ∈ t.clk.wait ∧ t.shows .clk 1 = true ∧ t.armed = false ∧ t.chr.srcX = true ∧ t.chr.stopped = !s.clk.xtalOk) ∧
    (s.clk.xtalOk = true → GoesTo (exec .crystalMonitorFail s) fun t => t.clk.xtalOk = false ∧ t.clk.safe = true ∧
      ClkSrc.crystal ∈ t.clk.wait ∧ t.shows .clk 2 = true ∧ t.armed = false) := by
  refine ⟨fun h => ?_, fun h => ?_, fun h => ?_, fun h => ?_⟩
  · refine (execMclkMonitorFail_spec h).mono fun t ⟨hgood, hsafe, hshow⟩ => ?_
    exact ⟨hgood, hsafe.safe, hsafe.waits, hsafe.fdec, hsafe.alert, hshow, hsafe.stopped.idle, hsafe.stopped.reason, hsafe.stopped.failed,
      hsafe.stopped.yielded⟩
  · obtain ⟨hsrc, hstop, hframe, -⟩ := s.timeSource_spec
    have hexec : execLrefclkMonitorFail s = .next s.timeSource := if_neg (by rw [h]; decide)
    refine ⟨_, hexec, ?_, ?_, hframe⟩
    · rw [hsrc, h]; rfl
    · rw [hstop, h]; rfl
  · refine (execLrefclkMonitorFail_spec h).mono fun t ⟨hgood, hsafe, hshow, hsrc, hstop⟩ => ?_
    exact ⟨hgood, hsafe.safe, hsafe.waits, hshow, hsafe.stopped.idle, hsrc, hstop⟩
  · refine (execCrystalMonitorFail_spec h).mono fun t ⟨hgood, hsafe, hshow⟩ => ?_
    exact ⟨hgood, hsafe.safe, hsafe.waits, hshow, hsafe.stopped.idle⟩

/-- Recoveries (17 R464, R466). -/
theorem clockRecoveries (s : State) (freq : Nat) (hs : s.clk.safe = true) :
    (mclkInWindow freq = false → exec (.monitorRecovery .mclk freq) s = .next s) ∧
    (mclkInWindow freq = true → s.clk.wait = [.mclk] → GoesTo (exec (.monitorRecovery .mclk freq) s) fun t => t.clk.mclkOk = true ∧
      t.clk.mclk = freq ∧ t.clk.wait = [] ∧ t.clk.safe = false ∧ t.shows .clk 5 = true) ∧
    (s.clk.wait = [.lrefclk] → GoesTo (exec (.monitorRecovery .lrefclk freq) s) fun t => t.clk.lrefOk = true ∧ t.clk.wait = [] ∧
      t.clk.safe = false ∧ t.shows .clk 5 = true) ∧
    (s.clk.wait = [.crystal] → GoesTo (exec (.monitorRecovery .crystal freq) s) fun t => t.clk.xtalOk = true ∧ t.clk.wait = [] ∧
      t.clk.safe = false ∧ t.shows .clk 5 = true) := by
  refine ⟨fun hf => if_pos ⟨rfl, by rw [hf]; rfl⟩, fun hf hw => ?_, fun hw => ?_, fun hw => ?_⟩
  · refine (execMonitorRecovery_last hs hw fun _ => hf).mono fun t ⟨hclk, hshow⟩ => ?_
    rw [hclk]
    exact ⟨rfl, rfl, rfl, rfl, hshow⟩
  · refine (execMonitorRecovery_last hs hw nofun).mono fun t ⟨hclk, hshow⟩ => ?_
    rw [hclk]
    exact ⟨rfl, rfl, rfl, hshow⟩
  · refine (execMonitorRecovery_last hs hw nofun).mono fun t ⟨hclk, hshow⟩ => ?_
    rw [hclk]
    exact ⟨rfl, rfl, rfl, hshow⟩

end Sys2Proof.Machine
end

section
/-! PROOFS. Levels and sleep states: the end of a transition, with the command that asked for it (17 R474 to R479). -/

namespace Sys2Proof.Machine

/-! ### The end of a transition (17 R474, R476, R479) -/

/-- Ends speaks of the long commands and the mailboxes alone. -/
theorem Ends.congr {s t u : State} {w : Waiting} {d : Dword} (h : Ends s t w d) (hk : u.kly.longs = t.kly.longs) (hm : u.mbx = t.mbx) :
    Ends s u w d := by
  rw [Ends, hk, State.mbxOf_congr hm]
  exact h

/-- As ends_endLong, where the pair's state has changed but not which commands wait for their CACK. -/
theorem ends_endLong_of_waitCack {s u : State} {w : Waiting} {d : Dword} (hm : u.mbx = s.mbx) (hp : u.pair.waitCack = s.pair.waitCack)
    (hk : u.kly.longs = (s.dropLong w).kly.longs) : Ends s (u.endLong w d []) w d := by
  have h : Ends { s with pair := u.pair } (u.endLong w d []) w d := ends_endLong hm rfl hk
  obtain ⟨hlongs, hbox⟩ := h
  refine ⟨hlongs, fun hw hu hh hc => hbox hw hu hh ?_⟩
  rw [← hc, State.awaitsCack, State.awaitsCack, hp]

section
variable (s : State)

theorem State.healthAdd_longs (kind src : Nat) (regs : List Byte) : (s.healthAdd kind src regs).kly.longs = s.kly.longs := by
  unfold State.healthAdd
  dsimp only
  split
  · simp
  · rfl

theorem State.healthAdd_up (kind src : Nat) (regs : List Byte) : (s.healthAdd kind src regs).kly.up = s.kly.up :=
  (s.steady_healthAdd kind src regs).up

/-- What the report of a failure changes. -/
theorem State.reportFailure_pwr : s.reportFailure.pwr = { s.pwr with failed := false } := by
  unfold State.reportFailure
  split
  · exact State.healthAdd_pwr _ _ _ _
  · next h => cases hp : s.pwr; simp_all

theorem State.reportFailure_longs : s.reportFailure.kly.longs = s.kly.longs := by
  unfold State.reportFailure
  split
  · exact State.healthAdd_longs _ _ _ _
  · rfl

/-- The report of a failure leaves these. -/
theorem State.reportFailure_same : s.reportFailure.mbx = s.mbx ∧ s.reportFailure.pkg = s.pkg ∧ s.reportFailure.mem = s.mem ∧
    s.reportFailure.run = s.run ∧ s.reportFailure.pair = s.pair ∧ s.reportFailure.cn = s.cn ∧ s.reportFailure.clk = s.clk ∧
    s.reportFailure.out = s.out := by
  unfold State.reportFailure
  split
  · simp
  · simp

theorem State.reportFailure_up : s.reportFailure.kly.up = s.kly.up := by
  unfold State.reportFailure
  split
  · exact State.healthAdd_up _ _ _ _
  · rfl

theorem State.shows_reportFailure {i : EvtId} {b : Nat} (h : s.shows i b = true) : s.reportFailure.shows i b = true := by
  unfold State.reportFailure
  split
  · refine State.shows_healthAdd_of_shows ?_ 2 0 [6]
    exact (State.shows_congr (s := s) rfl).trans h
  · exact h

end

theorem State.dropLong_longs (s : State) (w : Waiting) :
    (s.dropLong w).kly.longs = s.kly.longs.filter fun x => x.jseq != w.jseq || x.mbx != w.mbx := rfl

/-- The end of a transition with its command. -/
theorem ends_endOf {s u : State} (w : Waiting) (hm : u.mbx = s.mbx) (hp : u.pair = s.pair) (hk : u.kly.longs = s.kly.longs) :
    Ends s (u.endOf (some w)).reportFailure w 0 := by
  have hdrop : (u.dropLong w).kly.longs = (s.dropLong w).kly.longs := by rw [State.dropLong_longs, State.dropLong_longs, hk]
  have hend : Ends s ((u.dropLong w).endLong w 0 []) w 0 := ends_endLong (u := u.dropLong w) hm hp hdrop
  exact hend.congr (State.reportFailure_longs _) (State.reportFailure_same _).1

/-- The rest of the state after the end of a transition: what the command's end and the report leave. -/
theorem State.endOf_reported (u : State) (w : Waiting) : (u.endOf (some w)).reportFailure.pwr = { u.pwr with failed := false } ∧
    (u.endOf (some w)).reportFailure.mem = u.mem ∧ ∀ i b, u.shows i b = true → (u.endOf (some w)).reportFailure.shows i b = true := by
  obtain ⟨-, -, hmem, -⟩ := (u.endOf (some w)).reportFailure_same
  refine ⟨?_, hmem.trans (State.endLong_mem _ _ _ _), fun i b h => State.shows_reportFailure _ ?_⟩
  · rw [State.reportFailure_pwr, State.endOf, State.endLong_pwr, State.dropLong_pwr]
  · rwa [State.endOf, State.shows_congr (State.endLong_evts _ _ _ _), State.shows_congr (State.dropLong_evts _ _)]

/-! ### Levels and sleep states (17 R474 to R477) -/

/-- LEVEL_CHANGE_COMPLETE (17 R474). -/
theorem levelChanges (s : State) (pl : Nat) (w : Waiting) (hb : s.pwr.busy = .level pl (some w)) (hw : s.clk.wait = []) :
    GoesTo (exec .levelChangeComplete s) fun t => t.pwr.pl = pl ∧ t.pwr.busy = .none ∧ t.shows .pwr 1 = true ∧ Ends s t w 0 := by
  have hgood : s.clocksGood = true := decide_eq_true hw
  have hexec : execLevelChangeComplete s = .next (((s.endLevel pl).endOf (some w)).reportFailure) := by
    rw [execLevelChangeComplete, hb]
    exact if_pos hgood
  have hpwr : (s.endLevel pl).pwr.pl = pl ∧ (s.endLevel pl).pwr.busy = .none := by
    rw [State.endLevel, State.raiseBit_pwr]
    exact ⟨rfl, rfl⟩
  obtain ⟨hp, -, hshow⟩ := (s.endLevel pl).endOf_reported w
  refine ⟨_, hexec, by rw [hp]; exact hpwr.1, by rw [hp]; exact hpwr.2, hshow _ _ (State.shows_raiseBit _ _ (by decide)), ends_endOf w ?_ ?_ ?_⟩
  · rw [State.endLevel, State.raiseBit_mbx]; rfl
  · rw [State.endLevel, State.raiseBit_pair]; rfl
  · rw [State.endLevel, State.raiseBit_kly]; rfl

/-- t has the mailboxes, the pair, the commands in progress and the waiting WAKE of s, as the rails' changes of a transition leave them. -/
structure State.Rails (s t : State) : Prop where
  mbx : t.mbx = s.mbx
  pair : t.pair = s.pair
  longs : t.kly.longs = s.kly.longs
  wakeReq : t.pwr.wakeReq = s.pwr.wakeReq

theorem State.Rails.trans {s t u : State} (h : s.Rails t) (g : t.Rails u) : s.Rails u :=
  ⟨g.mbx.trans h.mbx, g.pair.trans h.pair, g.longs.trans h.longs, g.wakeReq.trans h.wakeReq⟩

/-- Steps 3, 4 and 6 of the power-up (17 R471). -/
theorem State.railsOn_stepSix (s : State) : ∃ l g, s.railsOn.stepSix = { s with
    pwr := s.railsOn.pwr, pkg := { s.pkg with quayOut := true }, out := { s.out with fdec := 0, fdecZ := false }
    clk := { s.clk with gate := g }, lanes := l } := by
  obtain ⟨l, hl⟩ := State.startLanes_eq { s.railsOn with
    pkg := { s.railsOn.pkg with quayOut := true }, out := { s.railsOn.out with fdec := 0, fdecZ := false }
    clk := { s.railsOn.clk with gate := s.railsOn.bootGate } }
  exact ⟨l, _, hl⟩

/-- The return to S0 (17 R476). -/
theorem State.toS0_spec (s : State) : s.Rails s.toS0 ∧ s.toS0.pwr.sst = 0 ∧
    (s.pwr.sst = 3 → s.toS0.pwr.railok = 0xFF ∧ s.toS0.pkg.quayOut = true) := by
  unfold State.toS0
  dsimp only
  split
  · next h => exact ⟨⟨rfl, rfl, rfl, rfl⟩, rfl, fun h3 => absurd h (by rw [h3]; decide)⟩
  · next h => exact ⟨⟨rfl, rfl, rfl, rfl⟩, rfl, fun h3 => absurd h (by rw [h3]; decide)⟩
  · next h => exact ⟨⟨rfl, rfl, rfl, rfl⟩, rfl, fun h3 => absurd h (by rw [h3]; decide)⟩
  · obtain ⟨l, g, hl⟩ := State.railsOn_stepSix { s with pwr := { s.pwr with sst := 0, retain := false, selfRef := false } }
    rw [hl]
    exact ⟨⟨rfl, rfl, rfl, rfl⟩, rfl, fun _ => ⟨rfl, rfl⟩⟩

/-- No launch waits: none is discarded. -/
theorem State.dropLate_of_none (s : State) (h : ∀ x ∈ s.kly.longs, x.req.op.toNat ≠ 0x0902) : s.dropLate = s := by
  have hlate : (s.kly.longs.filter fun w => w.req.op.toNat == 0x0902 && !s.launchWaits w.jseq) = [] := by
    simp only [List.filter_eq_nil_iff, Bool.and_eq_true, beq_iff_eq]
    exact fun x hx ⟨hop, _⟩ => h x hx hop
  rw [State.dropLate, hlate]
  rfl

/-- A sleep state entered (17 R476). -/
theorem State.toSleep_spec (s : State) {st : Nat} (h1 : 1 ≤ st) (h3 : st ≤ 3) (hl : st = 3 → ∀ x ∈ s.kly.longs, x.req.op.toNat ≠ 0x0902) :
    s.Rails (s.toSleep st) ∧ (s.toSleep st).pwr.sst = BitVec.ofNat 2 st ∧ (st = 1 → (s.toSleep st).pwr.bias = -200) ∧
    (st = 2 → (s.toSleep st).pwr.bias = -300 ∧ (s.toSleep st).pwr.retain = true ∧ (s.toSleep st).pwr.selfRef = true) ∧
    (st = 3 → (s.toSleep st).pwr.railok = 0x80 ∧ (s.toSleep st).mem = []) := by
  obtain rfl | rfl | rfl : st = 1 ∨ st = 2 ∨ st = 3 := by omega
  · exact ⟨⟨rfl, rfl, rfl, rfl⟩, rfl, fun _ => rfl, nofun, nofun⟩
  · exact ⟨⟨rfl, rfl, rfl, rfl⟩, rfl, nofun, fun _ => ⟨rfl, rfl, rfl⟩, nofun⟩
  · have hlate : s.fieldRailsOff.darkLanes.loseQuay.dropLate = s.fieldRailsOff.darkLanes.loseQuay := State.dropLate_of_none _ (hl rfl)
    unfold State.toSleep State.railsOff
    dsimp only
    rw [hlate]
    exact ⟨⟨rfl, rfl, rfl, rfl⟩, rfl, nofun, nofun, fun _ => ⟨rfl, rfl⟩⟩

/-- The report that a sleep state is reached, and the transition that follows it: a WAKE that waits begins (17 R476, R479). -/
def State.slept (s : State) : State :=
  let u := s.raiseBit .pwr 2
  { u with pwr := { u.pwr with busy := if u.pwr.wakeReq then .wake else .none, wakeReq := false } }

theorem State.slept_spec (s : State) (h : s.pwr.wakeReq = false) : s.slept.pwr = { s.pwr with busy := .none, wakeReq := false } ∧
    s.slept.mem = s.mem ∧ s.slept.shows .pwr 2 = true ∧ s.slept.mbx = s.mbx ∧ s.slept.pair = s.pair ∧ s.slept.kly = s.kly := by
  refine ⟨?_, State.raiseBit_mem _ _ _, State.shows_raiseBit s _ (by decide), State.raiseBit_mbx _ _ _, State.raiseBit_pair _ _ _,
    State.raiseBit_kly _ _ _⟩
  unfold State.slept
  dsimp only
  rw [State.raiseBit_pwr, h]
  rfl

/-- SLEEP_REACHED with no WAKE that waits (17 R476, R477). -/
theorem sleepStates (s : State) (st : Nat) (w : Waiting) (hb : s.pwr.busy = .sleep st (some w)) (hw : s.clk.wait = []) (h1 : 1 ≤ st) (h3 : st ≤ 3)
    (hwake : s.pwr.wakeReq = false) (hl : st = 3 → ∀ x ∈ s.kly.longs, x.req.op.toNat ≠ 0x0902) :
    GoesTo (exec .sleepReached s) fun t => t.pwr.sst = BitVec.ofNat 2 st ∧ t.pwr.busy = .none ∧ t.shows .pwr 2 = true ∧ Ends s t w 0 ∧
      (st = 1 → t.pwr.bias = -200) ∧ (st = 2 → t.pwr.bias = -300 ∧ t.pwr.retain = true ∧ t.pwr.selfRef = true) ∧
      (st = 3 → t.pwr.railok = 0x80 ∧ t.mem = []) := by
  have hgood : s.clocksGood = true := decide_eq_true hw
  have hexec : execSleepReached s = .next ((s.toS0.toSleep st).slept.endOf (some w)).reportFailure := by
    rw [execSleepReached, hb]
    exact if_pos hgood
  obtain ⟨h0, -, -⟩ := s.toS0_spec
  obtain ⟨hr, hsst, hs1, hs2, hs3⟩ := s.toS0.toSleep_spec h1 h3 (fun h => by rw [h0.longs]; exact hl h)
  have hrails := h0.trans hr
  generalize s.toS0.toSleep st = u at hexec hsst hs1 hs2 hs3 hrails
  obtain ⟨hpwr, hmem, hshow, hmbx, hpair, hkly⟩ := u.slept_spec (hrails.wakeReq.trans hwake)
  have hlongs : u.slept.kly.longs = s.kly.longs := by rw [hkly, hrails.longs]
  obtain ⟨hp, hm, hs⟩ := u.slept.endOf_reported w
  refine ⟨_, hexec, ?_, ?_, hs _ _ hshow, ends_endOf w (hmbx.trans hrails.mbx) (hpair.trans hrails.pair) hlongs, ?_, ?_, ?_⟩
  · rw [hp, hpwr]; exact hsst
  · rw [hp, hpwr]
  · rw [hp, hpwr]; exact hs1
  · rw [hp, hpwr]; exact hs2
  · rw [hp, hm, hpwr, hmem]; exact hs3

/-- WAKE and WOKE (17 R477, R479). -/
theorem wakes (s : State) : (s.answers .host = true →
      (s.pwr.busy = .none → s.pwr.sst ≠ 0 → exec .wake s = .next { s with pwr := { s.pwr with busy := .wake } }) ∧
      ∀ st w, s.pwr.busy = .sleep st w → exec .wake s = .next { s with pwr := { s.pwr with wakeReq := true } }) ∧
    (s.pwr.busy = .wake → s.clk.wait = [] → GoesTo (exec .woke s) fun t => t.pwr.sst = 0 ∧ t.pwr.busy = .none ∧
      t.shows .pwr 3 = true ∧ (s.pwr.sst = 3 → t.pwr.railok = 0xFF ∧ t.pkg.quayOut = true)) := by
  refine ⟨fun ha => ?_, fun hb hw => ?_⟩
  · have hexec : exec .wake s = .next s.wake := by
      rw [exec, execWake, State.access, if_pos ha]
    refine ⟨fun hb hs => ?_, fun st w hb => ?_⟩
    · rw [hexec, State.wake, hb]
      dsimp only
      rw [if_neg hs]
    · rw [hexec, State.wake, hb]
  · have hgood : s.clocksGood = true := decide_eq_true hw
    obtain ⟨-, hsst, h3⟩ := s.toS0_spec
    have hexec : execWoke s = .next ({ s.toS0 with pwr := { s.toS0.pwr with busy := .none } }.raiseBit .pwr 3).reportFailure := by
      rw [execWoke, hb]
      exact if_pos hgood
    refine ⟨_, hexec, ?_, ?_, State.shows_reportFailure _ (State.shows_raiseBit _ _ (by decide)), ?_⟩
    · rw [State.reportFailure_pwr, State.raiseBit_pwr]; exact hsst
    · rw [State.reportFailure_pwr, State.raiseBit_pwr]
    · rw [State.reportFailure_pwr, (State.reportFailure_same _).2.1, State.raiseBit_pwr, State.raiseBit_pkg]; exact h3

end Sys2Proof.Machine
end

section
/-! PROOFS. Rails, temperatures, and eye scans (09 R301, R302, 15 R417, 17 R475, 19 R518 to R523). -/

namespace Sys2Proof.Machine

/-! ### Rails (17 R475) -/

/-- RAIL_TELEMETRY of a rail that is on, while its controller is clocked (17 R463, R475). -/
theorem railReadings (s : State) (rail mv : Nat) (fault : Bool) (hr : rail < 13) (hon : s.pwr.railok.getLsbD (railBit rail) = true) (hmv : mv < 65536)
    (hp : s.periph 2 = true) :
    (fault = true ∨ offTarget mv (s.railTarget rail) = true → GoesTo (exec (.railTelemetry rail mv fault) s) fun t =>
      tfind t.pwr.read rail = some mv ∧ t.shows .pwr 0 = true) ∧
    (fault = false → offTarget mv (s.railTarget rail) = false → exec (.railTelemetry rail mv fault) s =
      .next { s with pwr := { s.pwr with read := tset s.pwr.read rail mv } }) := by
  have hexec : execRailTelemetry rail mv fault s =
      if (fault || offTarget mv (s.railTarget rail)) = true
      then .next (({ s with pwr := { s.pwr with read := tset s.pwr.read rail mv } }.raiseBit .pwr 0).fault 2 (railBit rail))
      else .next { s with pwr := { s.pwr with read := tset s.pwr.read rail mv } } := by
    rw [execRailTelemetry, if_neg (by omega), hon, Bool.not_true, if_neg (by decide), hp, if_pos rfl, Nat.mod_eq_of_lt hmv, Bool.and_true]
  refine ⟨fun h => ?_, fun hf ho => ?_⟩
  · have hbad : (fault || offTarget mv (s.railTarget rail)) = true := by rwa [Bool.or_eq_true]
    rw [if_pos hbad] at hexec
    refine ⟨_, hexec, ?_, State.shows_fault_of_shows (State.shows_raiseBit _ _ (by decide)) _ _⟩
    rw [State.fault_pwr, State.raiseBit_pwr]
    exact tfind_tset_same _ _ _
  · have hgood : ¬(fault || offTarget mv (s.railTarget rail)) = true := by rw [hf, ho]; decide
    rw [if_neg hgood] at hexec
    exact hexec

/-! ### Temperatures (15 R417, 19 R518 to R523) -/

/-- What temperatures act on beside the rails: the package, the run, and whether Klowyn and a partner run. -/
def State.heat (s : State) : PkgState × RunState × CN × Bool × Bool := (s.pkg, s.run, s.cn, s.kly.up, s.paired)

theorem State.paired_congr {s t : State} (hc : t.pair.cfg = s.pair.cfg) (hs : t.pair.st = s.pair.st) (hp : t.pair.pst = s.pair.pst) :
    t.paired = s.paired := by
  rw [State.paired, State.paired, State.pairMode, State.pairMode, hc, hs, hp]

section
variable (s : State)

theorem State.abortLong_pair (w : Waiting) (f : Refuse) : (s.abortLong w f).pair =
    { s.pair with waitCack := s.pair.waitCack.filter fun c => c.w.jseq != w.jseq } := by
  simp [State.abortLong]

theorem State.abortLong_heat (w : Waiting) (f : Refuse) : (s.abortLong w f).heat = s.heat := by
  have hp : (s.abortLong w f).paired = s.paired := by
    refine State.paired_congr ?_ ?_ ?_ <;> rw [State.abortLong_pair]
  simp [State.heat, hp]

/-- The abandoned transitions' commands end ABORTED. -/
theorem State.foldl_abort_heat (l : List Waiting) :
    (l.foldl (fun u w => (u.dropLong w).abortLong w { code := 0xB00D }) s).heat = s.heat :=
  foldl_same State.heat _ (fun u w => (u.dropLong w).abortLong_heat w _) l s

theorem State.reportFailure_heat : s.reportFailure.heat = s.heat := by
  obtain ⟨-, hpkg, -, hrun, hpair, hcn, -, -⟩ := s.reportFailure_same
  have hp : s.reportFailure.paired = s.paired := by refine State.paired_congr ?_ ?_ ?_ <;> rw [hpair]
  rw [State.heat, hpkg, hrun, hcn, s.reportFailure_up, hp]
  rfl

theorem State.abandon_heat : s.abandon.heat = s.heat := by
  unfold State.abandon
  rw [State.reportFailure_heat]
  exact s.foldl_abort_heat _

theorem State.abandon_busy : s.abandon.pwr.busy = .none := by
  unfold State.abandon
  rw [State.reportFailure_pwr]

theorem State.dropLate_heat : s.dropLate.heat = s.heat := s.foldl_abort_heat _

theorem State.railsOff_heat : s.railsOff.pkg = { s.pkg with quayOut := false } ∧ s.railsOff.run = s.run ∧ s.railsOff.pwr.railok = 0x80 ∧
    s.railsOff.out.fdecZ = true := by
  have hheat := s.fieldRailsOff.darkLanes.loseQuay.dropLate_heat
  unfold State.railsOff
  dsimp only
  generalize s.fieldRailsOff.darkLanes.loseQuay.dropLate = u at hheat ⊢
  have hpkg : u.pkg = s.pkg := congrArg Prod.fst hheat
  have hrun : u.run = s.run := congrArg (fun x => x.2.1) hheat
  exact ⟨by rw [hpkg], hrun, rfl, rfl⟩

/-- The thermal shutdown (19 R521, R523). -/
theorem State.thermalOff_spec : s.thermalOff.pkg = { s.pkg with quayOut := false, alert := true, cool := true } ∧ s.thermalOff.run = s.run ∧
    s.thermalOff.pwr.railok = 0x80 ∧ s.thermalOff.pwr.sst = 0 ∧ s.thermalOff.out.fdecZ = true := by
  have hpkg : s.abandon.pkg = s.pkg := congrArg Prod.fst s.abandon_heat
  have hrun : s.abandon.run = s.run := congrArg (fun x => x.2.1) s.abandon_heat
  obtain ⟨hp, hr, hrail, hz⟩ := s.abandon.railsOff_heat
  refine ⟨?_, hr.trans hrun, hrail, rfl, hz⟩
  rw [State.thermalOff, hp, hpkg]

theorem State.fault_faultAt_of_solo (cause : BitVec 8) (src : Nat) (ha : s.armed = true) (hp : s.paired = false) :
    (s.fault cause src).run.faultAt = some s.cn := by
  have harmed : ((s.healthAdd 2 src [cause]).flagWindow 0x002).armed = true := by
    rw [State.armed, State.flagWindow_run, State.healthAdd_run]
    exact ha
  have hpaired : ((s.healthAdd 2 src [cause]).flagWindow 0x002).paired = false := by
    refine (State.paired_congr ?_ ?_ ?_).trans hp <;> rw [State.flagWindow_pair, State.healthAdd_pair]
  unfold State.fault
  dsimp only
  rw [if_pos harmed, hpaired, if_neg Bool.false_ne_true, State.flagWindow_cn, State.healthAdd_cn]

/-- A sensor at 105 °C (19 R521). -/
theorem State.emergency_spec (i : Nat) : (s.emergency i).pkg = { s.pkg with emerg := true } ∧ (s.emergency i).armed = s.armed ∧
    (s.emergency i).kly.up = s.kly.up ∧ (s.emergency i).pwr.busy = .none ∧
    (s.armed = true → s.paired = false → (s.emergency i).run.faultAt = some s.cn) := by
  have hheat := State.abandon_heat { s with pkg := { s.pkg with emerg := true } }
  have hbusy := State.abandon_busy { s with pkg := { s.pkg with emerg := true } }
  unfold State.emergency
  generalize State.abandon _ = u at hheat hbusy ⊢
  have hpkg : u.pkg = { s.pkg with emerg := true } := congrArg Prod.fst hheat
  have hrun : u.run = s.run := congrArg (fun x => x.2.1) hheat
  have hcn : u.cn = s.cn := congrArg (fun x => x.2.2.1) hheat
  have hup : u.kly.up = s.kly.up := congrArg (fun x => x.2.2.2.1) hheat
  have hpaired : u.paired = s.paired := congrArg (fun x => x.2.2.2.2) hheat
  have harmed : u.armed = s.armed := by rw [State.armed, State.armed, hrun]
  refine ⟨?_, ?_, ?_, ?_, fun ha hp => ?_⟩
  · rw [State.fault_pkg, hpkg]
  · rw [← harmed, State.armed, State.fault_run_phase]; rfl
  · rw [(u.steady_fault 3 i).up, hup]
  · rw [State.fault_pwr, hbusy]
  · rw [u.fault_faultAt_of_solo 3 i (harmed.trans ha) (hpaired.trans hp), hcn]

end

/-- The state after the sensors have been compared with 105 °C. -/
def State.alarmed (s : State) (temps : List Int) : State :=
  (temps.findIdx? fun t => decide (t ≥ 105)).elim { s with pkg := { s.pkg with temps := temps } } fun i =>
    if s.pkg.emerg then { s with pkg := { s.pkg with temps := temps } } else State.emergency { s with pkg := { s.pkg with temps := temps } } i

/-- What the hardware does at 115 °C: the run ends and every controlled rail goes off (19 R522). -/
def State.tripped (s : State) : State :=
  let u := (if s.armed then s.stopRun .thermal else s).thermalOff
  { u with pkg := { u.pkg with trip := true } }

theorem execThermalCheck_eq {s : State} {temps : List Int} (h : temps.length = 21) : execThermalCheck temps s =
    if (temps.any fun t => decide (t ≥ 115)) = true then .next (s.alarmed temps).tripped
    else if ((s.alarmed temps).pkg.emerg && !(s.alarmed temps).armed && (s.alarmed temps).kly.up && !(s.alarmed temps).pkg.cool) = true
      then .next (s.alarmed temps).thermalOff else .next (s.alarmed temps) := by
  rw [execThermalCheck, if_neg (not_not_intro h)]
  unfold State.alarmed
  cases temps.findIdx? fun t => decide (t ≥ 105) <;> rfl

theorem State.alarmed_of_cool {s : State} {temps : List Int} (h : ∀ x ∈ temps, x < 105) :
    s.alarmed temps = { s with pkg := { s.pkg with temps := temps } } := by
  have hnone : (temps.findIdx? fun t => decide (t ≥ 105)) = none := by
    simpa [List.findIdx?_eq_none_iff] using h
  rw [State.alarmed, hnone]
  rfl

/-- A sensor at 105 °C leaves the device in its emergency, whether it stood in it or not (19 R521). -/
theorem State.alarmed_of_hot {s : State} {temps : List Int} (h : ∃ x ∈ temps, 105 ≤ x) :
    (s.alarmed temps).pkg = { s.pkg with temps := temps, emerg := true } ∧ (s.alarmed temps).armed = s.armed ∧
    (s.alarmed temps).kly.up = s.kly.up ∧ (s.pkg.emerg = false → (s.alarmed temps).pwr.busy = .none ∧
      (s.armed = true → s.paired = false → (s.alarmed temps).run.faultAt = some s.cn)) := by
  obtain ⟨i, hi⟩ : ∃ i, (temps.findIdx? fun t => decide (t ≥ 105)) = some i := by
    rw [← Option.isSome_iff_exists, List.findIdx?_isSome]
    simpa using h
  rw [State.alarmed, hi]
  dsimp only [Option.elim]
  split
  · next he => exact ⟨by rw [← he], rfl, rfl, fun hn => absurd (he.symm.trans hn) (by decide)⟩
  · obtain ⟨hpkg, harmed, hup, hbusy, hfault⟩ := State.emergency_spec { s with pkg := { s.pkg with temps := temps } } i
    exact ⟨hpkg, harmed, hup, fun _ => ⟨hbusy, hfault⟩⟩

theorem State.tripped_spec (s : State) : s.tripped.pkg.trip = true ∧ s.tripped.pkg.alert = true ∧ s.tripped.pwr.railok = 0x80 ∧
    s.tripped.pwr.sst = 0 ∧ s.tripped.armed = false ∧ s.tripped.out.fdecZ = true := by
  have hidle : (if s.armed then s.stopRun .thermal else s).armed = false := by
    split
    · exact State.stopRun_armed s .thermal
    · next h => exact Bool.not_eq_true _ ▸ h
  unfold State.tripped
  dsimp only
  generalize (if s.armed then s.stopRun .thermal else s) = u at hidle ⊢
  obtain ⟨hpkg, hrun, hrail, hsst, hz⟩ := u.thermalOff_spec
  refine ⟨rfl, ?_, hrail, hsst, ?_, hz⟩
  · rw [hpkg]
  · rw [State.armed] at hidle ⊢
    dsimp only
    rw [hrun]
    exact hidle

theorem not_any_tripping {temps : List Int} (h : ∀ x ∈ temps, x < 115) : ¬(temps.any fun t => decide (t ≥ 115)) = true := by
  simpa using h

/-- TEMPERATURE_READ and THERMAL_CHECK (15 R417, 19 R518 to R523). -/
theorem temperatures (s : State) (temps : List Int) (hl : temps.length = 21) :
    (s.kly.up = true → GoesTo (exec (.temperatureRead temps) s) fun t => t.pkg.temps = temps ∧ t.run = s.run) ∧
    ((∀ x ∈ temps, x < 105) → s.pkg.emerg = false →
      exec (.thermalCheck temps) s = .next { s with pkg := { s.pkg with temps := temps } }) ∧
    ((∃ x ∈ temps, 105 ≤ x) → (∀ x ∈ temps, x < 115) → s.pkg.emerg = false → s.armed = true → s.paired = false →
      GoesTo (exec (.thermalCheck temps) s) fun t => t.pkg.emerg = true ∧ t.run.faultAt = some s.cn ∧ t.pwr.busy = .none) ∧
    ((∃ x ∈ temps, 105 ≤ x) → (∀ x ∈ temps, x < 115) → s.armed = false → s.kly.up = true → s.pkg.cool = false →
      GoesTo (exec (.thermalCheck temps) s) fun t => t.pkg.emerg = true ∧ t.pkg.alert = true ∧ t.pkg.cool = true ∧ t.pwr.railok = 0x80 ∧
        t.pwr.sst = 0) ∧
    ((∃ x ∈ temps, 115 ≤ x) → GoesTo (exec (.thermalCheck temps) s) fun t => t.pkg.trip = true ∧ t.pkg.alert = true ∧
      t.pwr.railok = 0x80 ∧ t.pwr.sst = 0 ∧ t.armed = false ∧ t.out.fdecZ = true) := by
  have hcheck : exec (.thermalCheck temps) s = _ := execThermalCheck_eq hl
  refine ⟨fun hu => ?_, fun hc he => ?_, fun hh hc he ha hp => ?_, fun hh hc ha hu hn => ?_, fun ⟨x, hx, hx115⟩ => ?_⟩
  · have hread : execTemperatureRead temps s = .next (temps.zipIdx.foldl State.logTemp { s with pkg := { s.pkg with temps := temps } }) := by
      rw [execTemperatureRead, if_neg (not_not_intro hl), if_pos hu]
    have hlog (u : State) (e : Int × Nat) : ((u.logTemp e).pkg, (u.logTemp e).run) = (u.pkg, u.run) := by
      unfold State.logTemp
      split
      · rw [State.healthAdd_pkg, State.healthAdd_run]
      · rfl
    have hsame := foldl_same (fun u : State => (u.pkg, u.run)) State.logTemp hlog temps.zipIdx { s with pkg := { s.pkg with temps := temps } }
    exact ⟨_, hread, congrArg (fun p => p.1.temps) hsame, congrArg Prod.snd hsame⟩
  · have hcool := State.alarmed_of_cool (s := s) hc
    rw [hcheck, if_neg (not_any_tripping fun x hx => (hc x hx).trans (by decide)), hcool]
    dsimp only
    rw [he]
    rfl
  · obtain ⟨hpkg, harmed, -, hrest⟩ := State.alarmed_of_hot (s := s) hh
    obtain ⟨hbusy, hfault⟩ := hrest he
    rw [hcheck, if_neg (not_any_tripping hc), harmed, ha, Bool.not_true, Bool.and_false, Bool.false_and, Bool.false_and, if_neg Bool.false_ne_true]
    exact ⟨_, rfl, by rw [hpkg], hfault ha hp, hbusy⟩
  · obtain ⟨hpkg, harmed, hup, -⟩ := State.alarmed_of_hot (s := s) hh
    have hoff : ((s.alarmed temps).pkg.emerg && !(s.alarmed temps).armed && (s.alarmed temps).kly.up && !(s.alarmed temps).pkg.cool) = true := by
      rw [hpkg, harmed, hup, ha, hu, hn]
      rfl
    obtain ⟨hp, -, hrail, hsst, -⟩ := (s.alarmed temps).thermalOff_spec
    rw [hcheck, if_neg (not_any_tripping hc), if_pos hoff]
    refine ⟨_, rfl, ?_, ?_, ?_, hrail, hsst⟩ <;> rw [hp]
    rw [hpkg]
  · rw [hcheck, if_pos (List.any_eq_true.2 ⟨x, hx, decide_eq_true hx115⟩)]
    exact ⟨_, rfl, (s.alarmed temps).tripped_spec⟩

/-- Klowyn goes down without a change of rails or package but ALERT_N (17 R469). -/
theorem State.klowynDown_spec (s : State) : s.klowynDown.pwr.railok = s.pwr.railok ∧ s.klowynDown.pkg.quayOut = s.pkg.quayOut ∧
    s.klowynDown.kly.up = false := by
  have hlost : s.loseCommands.pwr.railok = s.pwr.railok ∧ s.loseCommands.pkg = s.pkg ∧ s.loseCommands.kly.up = false := ⟨rfl, rfl, rfl⟩
  unfold State.klowynDown
  dsimp only
  generalize s.loseCommands = u at hlost ⊢
  obtain ⟨hrail, hpkg, hup⟩ := hlost
  have hstop (why : StopReason) : (u.stopRun why).pwr.railok = s.pwr.railok ∧ (u.stopRun why).pkg.quayOut = s.pkg.quayOut ∧
      (u.stopRun why).kly.up = false := by
    have hs := u.steady_stopRun why
    exact ⟨by rw [hs.pwr, hrail], by rw [hs.pkg, hpkg], hs.up.trans hup⟩
  split
  · exact ⟨hrail, by rw [hpkg], hup⟩
  · split
    · exact hstop .fault
    · exact hstop .none

/-- THERMAL_RECOVERY (19 R521). -/
theorem thermalRecoveries (s : State) (h : s.cooled = true) : GoesTo (exec .thermalRecovery s) fun t => t.pwr.railok = 0xFF ∧
    t.pkg.quayOut = true ∧ t.pkg.emerg = false ∧ t.pkg.trip = false ∧ t.pkg.cool = false ∧ t.kly.up = false := by
  have hexec : execThermalRecovery s = .next { s.railsOn.stepSix.klowynDown with
      pkg := { s.railsOn.stepSix.klowynDown.pkg with emerg := false, trip := false, cool := false } } := by
    rw [execThermalRecovery, if_pos h]
  obtain ⟨l, g, hon⟩ := s.railsOn_stepSix
  obtain ⟨hrail, hquay, hup⟩ := s.railsOn.stepSix.klowynDown_spec
  refine ⟨_, hexec, hrail.trans ?_, hquay.trans ?_, rfl, rfl, rfl, hup⟩ <;> rw [hon]
  rfl

/-! ### Eye scans (09 R301, R302) -/

/-- What a measurement of the watch leaves alone: mailboxes, commands in progress, and host memory. -/
def State.beyondWatch (s : State) : Tbl Mbx × List MirCmd × List Waiting × Tbl Byte := (s.mbx, s.pair.waitCack, s.kly.longs, s.host.dma)

section
variable (s : State)

theorem State.raise_beyondWatch (i : EvtId) (m : Word) : (s.raise i m).beyondWatch = s.beyondWatch := by
  unfold State.raise
  dsimp only
  split
  · rfl
  · split
    · rfl
    · rw [State.beyondWatch, State.signal_dma, State.signal_mbx, State.signal_pair, State.signal_kly]
      rfl

theorem State.sideQueue_beyondWatch (l : Nat) (p : Pkt) : (s.sideQueue l p).beyondWatch = s.beyondWatch := by
  unfold State.sideQueue State.raiseBit
  dsimp only
  split
  · rfl
  · rw [State.raise_beyondWatch]
    rfl

theorem State.healthAdd_beyondWatch (kind src : Nat) (regs : List Byte) : (s.healthAdd kind src regs).beyondWatch = s.beyondWatch := by
  unfold State.healthAdd
  dsimp only
  split
  · rw [State.sideQueue_beyondWatch]
    rfl
  · rfl

theorem State.fault_beyondWatch (cause : BitVec 8) (src : Nat) : (s.fault cause src).beyondWatch = s.beyondWatch := by
  rw [← s.healthAdd_beyondWatch 2 src [cause]]
  unfold State.fault
  dsimp only
  generalize s.healthAdd 2 src [cause] = u
  split
  · split
    · rfl
    · unfold State.beyondWatch
      dsimp only
      split <;> rfl
  · rfl

theorem State.measure_beyondWatch (l : Nat) (w h : BitVec 8) : (s.measure l w h).beyondWatch = s.beyondWatch := by
  unfold State.measure State.laneFault State.lnkEvt State.raiseBit
  simp only [apply_ite State.beyondWatch, State.fault_beyondWatch, State.healthAdd_beyondWatch, State.raise_beyondWatch, ite_self]
  rfl

theorem State.measureScan_beyondWatch (l : Nat) (counts : List (BitVec 32)) : (s.measureScan l counts).beyondWatch = s.beyondWatch := by
  unfold State.measureScan
  dsimp only
  split
  · exact s.measure_beyondWatch _ _ _
  · rfl

/-- The watch measurement leaves the progress of the lane's scan. -/
theorem State.measureScan_scan (l : Nat) (counts : List (BitVec 32)) :
    ((s.measureScan l counts).sextOf l).busy = (s.sextOf l).busy ∧ ((s.measureScan l counts).sextOf l).done = (s.sextOf l).done := by
  unfold State.measureScan
  dsimp only
  split
  · rw [State.measure_sextOf]
    exact ⟨rfl, rfl⟩
  · exact ⟨rfl, rfl⟩

/-- A lane at a PAM4 rate has three eyes (09 R302). -/
theorem Lane.points_eq (x : Lane) : x.points = if x.rate ≤ 1 then 12288 else 4096 := by
  unfold Lane.points Lane.ui
  split <;> rfl

end

/-- The lane's scan has come to its last point. -/
def State.scanEnded (s : State) (lane : Nat) : State :=
  s.setSext lane { s.sextOf lane with busy := false, done := 4096, eye := (s.lane lane).lastEye }

/-- EYESCAN_COMPLETE of a scan in progress (09 R302). -/
theorem eyeScans (s : State) (lane : Nat) (counts : List (BitVec 32)) (w : Waiting) (hl : lane < 64)
    (hw : (s.kly.longs.find? fun w => w.req.op.toNat == 0x0A04 && w.req.opd 0 == BitVec.ofNat 64 lane) = some w) :
    GoesTo (exec (.eyescanComplete lane counts) s) fun t => Ends s t w 0 ∧ (t.sextOf lane).busy = false ∧
      (t.sextOf lane).done = 4096 ∧ t.shows (.sxt lane) 2 = true ∧
      t.host.dma = tputs 0 s.host.dma (w.req.opd 3).toNat
        ((counts.take (if (s.lane lane).rate ≤ 1 then 12288 else 4096)).flatMap fun c => leBytes 4 c.toNat) := by
  have hexec : execEyescanComplete lane counts s = .next (((((s.scanEnded lane).measureScan lane counts).hostWrite (w.req.opd 3).toNat
      ((counts.take (s.lane lane).points).flatMap fun c => leBytes 4 c.toNat)).raiseBit (.sxt lane) 2).dropLong w |>.endLong w 0 []) := by
    rw [execEyescanComplete, if_neg (by omega), hw]
    rfl
  have hscan := (s.scanEnded lane).measureScan_scan lane counts
  have hrest := (s.scanEnded lane).measureScan_beyondWatch lane counts
  rw [State.scanEnded, State.sextOf_setSext, ← State.scanEnded] at hscan
  generalize State.measureScan _ lane counts = u at hexec hscan hrest
  have hmbx : u.mbx = s.mbx := congrArg Prod.fst hrest
  have hcack : u.pair.waitCack = s.pair.waitCack := congrArg (fun x => x.2.1) hrest
  have hlongs : u.kly.longs = s.kly.longs := congrArg (fun x => x.2.2.1) hrest
  have hdma : u.host.dma = s.host.dma := congrArg (fun x => x.2.2.2) hrest
  generalize hv : (u.hostWrite _ _).raiseBit (.sxt lane) 2 = v at hexec
  refine ⟨_, hexec, ends_endLong_of_waitCack (u := v.dropLong w) ?_ ?_ ?_, ?_, ?_, ?_, ?_⟩
  · rw [State.dropLong_mbx, ← hv, State.raiseBit_mbx]; exact hmbx
  · rw [State.dropLong_pair, ← hv, State.raiseBit_pair]; exact hcack
  · rw [State.dropLong_longs, State.dropLong_longs, ← hv, State.raiseBit_kly]
    exact congrArg (List.filter _) hlongs
  · rw [State.sextOf, State.endLong_sext, State.dropLong_sext, ← hv, State.raiseBit_sext]; exact hscan.1
  · rw [State.sextOf, State.endLong_sext, State.dropLong_sext, ← hv, State.raiseBit_sext]; exact hscan.2
  · rw [State.shows_congr (State.endLong_evts _ _ _ _), State.shows_congr (State.dropLong_evts _ _), ← hv]
    exact State.shows_raiseBit _ _ (by decide)
  · rw [State.endLong_dma, State.dropLong_host, ← hv, State.raiseBit_dma, ← Lane.points_eq, ← hdma]
    rfl

end Sys2Proof.Machine

open Sys2Proof Sys2Proof.Machine

/-- Settles O60: clause by clause, each transition by what its end leaves (a stopped run leaves supplies and events, a report of a failure the
commands, a measurement of the watch the mailboxes). -/
theorem clocksPowerAndHeat : Obligations.ClocksPowerAndHeat := by
  unfold Obligations.ClocksPowerAndHeat
  exact ⟨clockFailures, clockRecoveries, sleepStates, wakes, levelChanges, railReadings, temperatures, thermalRecoveries, eyeScans⟩

end

section
/-! PROOFS. One step of the block: the queue of commands that wait, and a cycle on an empty one outside a run (13 R355, R357, 09 R296). -/

namespace Sys2Proof.Machine

/-! ### One cycle of the lanes' transmitters (09 R280, R296) -/

/-- The lane without what its transmitter writes as it sends (09 R296). -/
def Lane.lessSent (x : Lane) : Lane := { x with txq := [], txPos := 0, txScr := 0, txCw := [], txOut := [], txBurst := 0, txFrac := 0 }

/-- The lane with what the transmitter of y has sent. -/
def Lane.withSentOf (x y : Lane) : Lane :=
  { x with txq := y.txq, txPos := y.txPos, txScr := y.txScr, txCw := y.txCw, txOut := y.txOut, txBurst := y.txBurst, txFrac := y.txFrac }

theorem sendsOnly_of_lessSent {s t : State} {l : Nat} (h : (t.lane l).lessSent = (s.lane l).lessSent) : SendsOnly s t l := by
  have hw := congrArg (fun x : Lane => x.withSentOf (t.lane l)) h
  exact hw

/-- A lane replaced by one that differs in what is sent alone leaves every lane as it was but for that. -/
theorem State.setLane_lessSent {s : State} {k : Nat} {x : Lane} (h : x.lessSent = (s.lane k).lessSent) (l : Nat) :
    ((s.setLane k x).lane l).lessSent = (s.lane l).lessSent := by
  by_cases hl : l = k
  · subst hl
    rw [State.lane_setLane, h]
  · rw [State.lane_setLane_ne _ _ hl]

section
variable (s : State) (k : Nat)

theorem State.txBlock_lessSent (l : Nat) : ((s.txBlock k).lane l).lessSent = (s.lane l).lessSent := by
  simp only [State.txBlock]
  split
  · rfl
  · split <;> exact State.setLane_lessSent (by rfl) l

theorem State.lineCycle_lessSent (l : Nat) : ((s.lineCycle k).lane l).lessSent = (s.lane l).lessSent :=
  (foldl_same (fun u : State => (u.lane l).lessSent) (fun v _ => v.txBlock k) (fun v _ => v.txBlock_lessSent k l) _ _).trans
    (State.setLane_lessSent (by rfl) l)

theorem State.lineTick_lessSent (l : Nat) : (s.lineTick.lane l).lessSent = (s.lane l).lessSent := by
  unfold State.lineTick
  split
  · exact foldl_same (fun u : State => (u.lane l).lessSent) State.lineCycle (fun v k => v.lineCycle_lessSent k l) _ s
  · rfl

/-- The state with nothing on its lanes. -/
def State.lessLanes : State := { s with lanes := [] }

theorem State.lineCycle_lessLanes : (s.lineCycle k).lessLanes = s.lessLanes :=
  foldl_same State.lessLanes (fun v _ => v.txBlock k) (fun v _ => by
    simp only [State.txBlock]
    split
    · rfl
    · split <;> rfl) _ _

/-- A cycle of the lanes changes nothing but the lanes. -/
theorem State.lineTick_frame : s.lineTick = { s with lanes := s.lineTick.lanes } := by
  have h : s.lineTick.lessLanes = s.lessLanes := by
    unfold State.lineTick
    split
    · exact foldl_same State.lessLanes State.lineCycle (fun v k => v.lineCycle_lessLanes k) _ s
    · rfl
  exact congrArg (fun u : State => { u with lanes := s.lineTick.lanes }) h

end

/-! ### A cycle outside a run (17 R459, 13 R355, R357) -/

section
variable {s : State}

theorem State.live_of_not_armed (h : s.armed = false) : s.live = false := by
  rw [State.live, of_not_not (of_decide_eq_false h)]

theorem State.arrayTick_of_not_armed (h : s.armed = false) : s.arrayTick = s := by
  simp [State.arrayTick, h, State.live_of_not_armed h]

theorem State.almTick_of_not_armed (h : s.armed = false) : s.almTick = s := by
  simp [State.almTick, State.live_of_not_armed h]

/-- In counter mode a cycle of the time clock counts 1 ns, 65,536 units. -/
theorem Chrono.cycle_of_counter {k : Chrono} (h : k.cal = false) : k.cycle = { k with c := k.c + 65536 } := by
  simp [Chrono.cycle, h]

/-- Outside a run a cycle of every running clock is one of the lanes and one of the time. -/
theorem idle_of_not_armed (h : s.armed = false) : idle s = s.lineTick.chrTick := by
  have ha : s.lineTick.armed = false := by
    rw [s.lineTick_frame]
    exact h
  rw [idle, State.arrayTick_of_not_armed ha, State.almTick_of_not_armed ha]

theorem idle_of_counter (hr : s.timeRuns = true) (hc : s.chr.cal = false) (h : s.armed = false) :
    idle s = { s with chr := { s.chr with c := s.chr.c + 65536 }, lanes := s.lineTick.lanes } := by
  have ht : s.lineTick.chr = s.chr ∧ s.lineTick.timeRuns = s.timeRuns := by
    rw [s.lineTick_frame]
    exact ⟨rfl, rfl⟩
  rw [idle_of_not_armed h, State.chrTick, if_pos (ht.2.trans hr), ht.1, Chrono.cycle_of_counter hc]
  exact congrArg (fun u : State => { u with chr := { s.chr with c := s.chr.c + 65536 } }) s.lineTick_frame

end

/-! ### A command of an opcode outside the set (15 R405) -/

/-- Such a command is refused by Klowyn before any chapter is asked. -/
theorem execUnlistedOpcodeCommand_refused {h : CmdHdr} {op : BitVec 16} {lst : List Byte} {s : State} (ht : s.takes h.mbx = true)
    (hop : kFind op = none) :
    let r : KReq := { op := op, hdr := h, body := lst }
    execUnlistedOpcodeCommand h op lst s =
      .next (((s.submitted r).refuse h.mbx r { code := 0xB001, found := op.toNat }).served h.mbx) := by
  obtain ⟨hm, hbusy, -, -, hup, hused⟩ := State.takes_iff.1 ht
  have hcan : (s.submitted { op := op, hdr := h, body := lst }).canTake h.mbx = true := by
    simp [State.canTake, State.submitted, Mbx.submit, Mbx.accept, Mbx.write, hup, hused]
  have htake : ∀ u : State, kTake h.mbx { op := op, hdr := h, body := lst } u =
      u.refuse h.mbx { op := op, hdr := h, body := lst } { code := 0xB001, found := op.toNat } := fun u => by simp only [kTake, hop]
  simp only [execUnlistedOpcodeCommand, htake]
  rw [if_neg (by omega), if_neg (by simp [hbusy])]
  exact if_pos hcan

/-- A refusal changes mailboxes and interrupts alone. -/
theorem State.refuse_frame (s : State) (m : Nat) (r : KReq) (f : Refuse) :
    s.refuse m r f = { s with mbx := (s.refuse m r f).mbx, host := (s.refuse m r f).host } := by
  have h := State.answer_of (s := s) (u := s.refuse m r f) (by simp) (by simp) (by simp) (by simp) (by simp) (by simp) (by simp) (by simp)
    (by simp) (by simp) (by simp) (by simp) (by simp) (by simp) (by simp) (by simp) (by simp) (by simp) (by simp) (by simp) (by simp)
    (by simp) (by simp) (by simp) (by simp) (by simp) (by simp) (by simp) (by simp)
  rwa [State.refuse_jnl, State.refuse_log] at h

/-- The completion that a refusal posts (15 R404, R405). -/
theorem refused_entry {s : State} {r : KReq} (f : Refuse) (ht : s.takes r.hdr.mbx = true) :
    let t := ((s.submitted r).refuse r.hdr.mbx r f).served r.hdr.mbx
    ∃ e, tfind (t.mbxOf r.hdr.mbx).ring (s.mbxOf r.hdr.mbx).prod.toNat = some e ∧
      e = { ringEntry s r .completion f.code 0 s.cn 0 f.record with phase := (s.mbxOf r.hdr.mbx).phase } := by
  obtain ⟨hm, -, -, hheld, -, hused⟩ := State.takes_iff.1 ht
  have hbox : (s.submitted r).mbxOf r.hdr.mbx = (s.mbxOf r.hdr.mbx).submit r := State.mbxOf_setMbx _ _ _
  have hroom : ((s.mbxOf r.hdr.mbx).submit r).used < 64 := Nat.lt_of_le_of_lt hused (by decide)
  have hpost := State.mbxOf_refuse (s := s.submitted r) (r := r) (f := f) hm (hbox ▸ hroom) (hbox ▸ hheld)
  rw [hbox] at hpost
  dsimp only
  rw [State.mbxOf_served, hpost]
  exact ⟨_, tfind_tset_same _ _ _, rfl⟩

end Sys2Proof.Machine

open Sys2Proof Sys2Proof.Machine

/-- Settles O6: no scope of a command takes in the queue (exec_kept). -/
theorem commandsLeaveTheQueue : Obligations.CommandsLeaveTheQueue := fun _ _ _ h => congrArg Kept.pending (exec_kept h)

/-- Settles O1: on a queue with a command at its front the step is that command. -/
theorem stepRunsTheFrontCommand : Obligations.StepRunsTheFrontCommand := fun _ _ _ => rfl

/-- Settles O2: outside a run the step on an empty queue is one cycle of the lanes, which sends alone, and one of the time (idle_of_counter). -/
theorem idleStepAdvancesTheTime : Obligations.IdleStepAdvancesTheTime := by
  intro s hp hr hc h
  refine ⟨idle s, by rw [step, hp], ?_⟩
  rw [idle_of_counter hr hc h]
  refine ⟨rfl, fun l => sendsOnly_of_lessSent (s.lineTick_lessSent l), fun hl => ?_⟩
  show s.lineTick.lanes = s.lanes
  simp [State.lineTick, hl]

/-- Settles O29: the command is refused (execUnlistedOpcodeCommand_refused), and a refusal writes its mailbox and the interrupts alone. -/
theorem unlistedOpcodesAreRefused : Obligations.UnlistedOpcodesAreRefused := by
  intro h op lst s ht hop
  obtain ⟨hbusy, hj, -, -⟩ := refused_answer (r := ⟨op, h, lst⟩) { code := 0xB001, found := op.toNat } ht
  refine ⟨_, execUnlistedOpcodeCommand_refused ht hop, hbusy, hj, ?_, ?_⟩
  · rw [State.served, State.refuse_frame]
    rfl
  · obtain ⟨e, he, hentry⟩ := refused_entry (r := ⟨op, h, lst⟩) { code := 0xB001, found := op.toNat } ht
    rw [hentry] at he
    exact ⟨_, he, rfl, rfl, rfl, rfl, rfl⟩

end

section
/-! PROOFS. The queries (15 R407): what they answer, what they leave alone, and how they end the journal entry of sequence 0, which no command has. -/

namespace Sys2Proof.Machine

/-! ### Interrupts (16 R428) -/

/-- The endpoint without the pending bits and the messages sent. -/
def HostState.lessSignals (h : HostState) : HostState := { h with pend := 0, sent := [] }

theorem HostState.of_lessSignals {a b : HostState} (h : a.lessSignals = b.lessSignals) : a = { b with pend := a.pend, sent := a.sent } := by
  have hw := congrArg (fun x : HostState => { x with pend := a.pend, sent := a.sent }) h
  exact hw

section
variable (s : State) (m : Nat)

@[simp] theorem State.signal_lessSignals (v : Nat) : (s.signal v).host.lessSignals = s.host.lessSignals := by
  unfold State.signal
  split <;> rfl

@[simp] theorem State.post_lessSignals (e : RingEntry) : (s.post m e).host.lessSignals = s.host.lessSignals := by
  unfold State.post
  dsimp only
  split
  · split
    · exact State.signal_lessSignals _ _
    · split <;> rfl
  · rfl

@[simp] theorem State.complete_lessSignals (r : KReq) (q : Nat) (c : CN) (d : Dword) (l : List Byte) :
    (s.complete m r q c d l).host.lessSignals = s.host.lessSignals := by
  rw [State.complete, State.unbusy_host, State.post_lessSignals, State.setBuf_host]

@[simp] theorem State.refuse_lessSignals (r : KReq) (f : Refuse) : (s.refuse m r f).host.lessSignals = s.host.lessSignals := by
  rw [State.refuse, State.unbusy_host, State.post_lessSignals]

/-- A completion changes mailboxes and interrupts alone. -/
theorem State.complete_frame (r : KReq) (q : Nat) (c : CN) (d : Dword) (l : List Byte) :
    s.complete m r q c d l = { s with mbx := (s.complete m r q c d l).mbx, host := (s.complete m r q c d l).host } := by
  have h := State.answer_of (s := s) (u := s.complete m r q c d l) (by simp) (by simp) (by simp) (by simp) (by simp) (by simp) (by simp)
    (by simp) (by simp) (by simp) (by simp) (by simp) (by simp) (by simp) (by simp) (by simp) (by simp) (by simp) (by simp) (by simp)
    (by simp) (by simp) (by simp) (by simp) (by simp) (by simp) (by simp) (by simp) (by simp)
  rwa [State.complete_jnl, State.complete_log] at h

theorem State.mbxOf_refuse_ne {i : Nat} (h : i ≠ m) (r : KReq) (f : Refuse) : (s.refuse m r f).mbxOf i = s.mbxOf i := by
  rw [State.refuse, State.mbxOf_unbusy_ne _ h, State.mbxOf_post_ne _ h]

end

/-! ### Journal entries by sequence (15 R413, R414) -/

/-- No entry of the journal that stands ACCEPTED has sequence 0: entries are numbered from 1. -/
def Jnl.Numbered (j : Jnl) : Prop := ∀ e ∈ j.ents, ¬(e.seq = 0 ∧ e.st = .accepted)

theorem State.jEnd_zero_of_numbered {s : State} (h : s.jnl.Numbered) (st : JSt) (c : BitVec 16) (r : Dword) : s.jEnd 0 st c r = s := by
  have hents : (s.jEnd 0 st c r).jnl.ents = s.jnl.ents := (List.map_congr_left fun e he => if_neg (h e he)).trans (List.map_id _)
  exact congrArg (fun l => { s with jnl := { s.jnl with ents := l } }) hents

/-! ### Results in the command buffer (15 R400) -/

/-- A mailbox's buffer holds the first bytes of the results put in it. -/
theorem Mbx.body_filled_prefix (b : Mbx) {l p rest : List Byte} (hl : l = p ++ rest) (hp : p.length ≤ 4032) : (b.filled l).body p.length = p := by
  subst hl
  unfold Mbx.filled
  split
  case isTrue h =>
    obtain rfl := (List.append_eq_nil_iff.1 h).1
    rfl
  case isFalse =>
    have hhead : (bytesAt b.buf 0 64).length = 64 := bytesAt_length _ _ _
    have hcut : ∀ x : List Byte, (bytesAt b.buf 0 64 ++ (p ++ rest) ++ x).take 4096 =
        bytesAt b.buf 0 64 ++ (p ++ (rest ++ x).take (4032 - p.length)) := fun x => by
      rw [List.append_assoc, List.append_assoc, List.take_append, List.take_append, hhead, List.take_of_length_le (by omega),
        List.take_of_length_le (by omega)]
    show bytesAt ((bytesAt b.buf 0 64 ++ (p ++ rest) ++ b.buf.drop (64 + (p ++ rest).length)).take 4096) 64 p.length = p
    rw [hcut]
    have hat := bytesAt_append_right (bytesAt b.buf 0 64) (p ++ (rest ++ b.buf.drop (64 + (p ++ rest).length)).take (4032 - p.length)) 0 p.length
    rw [hhead, Nat.add_zero] at hat
    rw [hat, bytesAt_append]

/-! ### Queries (15 R407) -/

/-- The row of a query: no journal entry, no mirroring, no crossing, in any run state; no list, and operands bounded from above alone. -/
structure CmdSpec.IsQuery (c : CmdSpec) : Prop where
  plain : CmdSpec.Plain { c with zero := [], cross := fun _ => true, jrn := true }
  cross : ∀ o, c.cross o = false
  jrn : c.jrn = false
  mir : c.mir = false
  run : c.run = .any

theorem CmdSpec.query_row (op : Nat) (maxs zero : List Nat) : CmdSpec.IsQuery { op := op, maxs := maxs, zero := zero, run := .any, jrn := false } :=
  ⟨CmdSpec.plain_row op maxs .any false, fun _ => rfl, rfl, rfl, rfl⟩

/-- The owning chapter refuses, or answers with the state that it was asked in, one more free value taken at the most. -/
def KCmd.JustAnswers (c : KCmd) : Prop :=
  ∀ u w, (∃ f, c.own u w = .refuse f) ∨ ∃ v d l, c.own u w = .now v d l ∧ (v = u ∨ v = u.bumpFree)

section
variable {c : KCmd} {r : KReq} {s : State}

theorem KCmd.asked_of_query (hc : c.spec.IsQuery) : c.asked r s = s.submitted r := by
  rw [KCmd.asked, hc.jrn]
  rfl

theorem KCmd.entry_jseq_of_query (hc : c.spec.IsQuery) : (c.entry r s).jseq = 0 := by
  simp [KCmd.entry, State.mkWaiting, hc.jrn]

/-- A query that is answered ends the journal entry of sequence 0 and completes. -/
theorem KCmd.answered_of_query (hc : c.spec.IsQuery) (hm : r.hdr.mbx < 16) (u : State) (d : Dword) (l : List Byte) :
    c.answered u (c.entry r s) d l = (u.jEnd 0 .done 0 d).complete r.hdr.mbx r 0 (c.entry r s).cnAcc d l := by
  simp [KCmd.answered, KCmd.note, hc.mir, kFinish, State.mirrors, hc.cross, hm, KCmd.entry_jseq_of_query hc]

/-- What becomes of a query that Klowyn takes: it is refused, or answered. -/
theorem kSubmit_of_query (hc : c.spec.IsQuery) (hact : c.act = noAct) (hown : c.JustAnswers) (ht : s.takes r.hdr.mbx = true) :
    (∃ f, kSubmit c r s = .next (((s.submitted r).refuse r.hdr.mbx r f).served r.hdr.mbx)) ∨
    ∃ u d l, (u = s.submitted r ∨ u = (s.submitted r).bumpFree) ∧
      kSubmit c r s = .next (((u.jEnd 0 .done 0 d).complete r.hdr.mbx r 0 (c.entry r s).cnAcc d l).served r.hdr.mbx) := by
  obtain hk | ⟨f, hk⟩ := Option.eq_none_or_eq_some (kCheck c.spec r.hdr.mbx r (s.submitted r))
  · obtain ⟨f, ho⟩ | ⟨u, d, l, ho, hu⟩ := hown (s.submitted r) (c.entry r s)
    · exact .inl ⟨f, kSubmit_refused_by_chapter ht hk (by rwa [KCmd.asked_of_query hc])⟩
    · refine .inr ⟨u, d, l, hu, ?_⟩
      have hsub := kSubmit_now ht hk (by rw [KCmd.asked_of_query hc]; exact ho) (hc.cross _)
      rwa [hact, noAct, KCmd.answered_of_query hc (State.takes_iff.1 ht).1] at hsub
  · refine .inl ⟨f, ?_⟩
    rw [kSubmit_takes ht, kRun_refused hk]
    rfl

/-- The state that a query leaves is the one before it but for mailboxes, interrupts, the free-value index, the mailbox served last, and the end of
journal entry 0. -/
theorem kSubmit_query_frame (hc : c.spec.IsQuery) (hact : c.act = noAct) (hown : c.JustAnswers) (ht : s.takes r.hdr.mbx = true)
    {t : State} (h : kSubmit c r s = .next t) :
    ∃ j, (j = s.jnl ∨ ∃ d, j = (s.jEnd 0 .done 0 d).jnl) ∧
      t = { s with mbx := t.mbx, host := t.host, freeCtr := t.freeCtr, jnl := j, kly := { s.kly with lastMbx := r.hdr.mbx } } ∧
      t.host.lessSignals = s.host.lessSignals ∧ ∀ m, m ≠ r.hdr.mbx → t.mbxOf m = s.mbxOf m := by
  have hsub : ∀ m, m ≠ r.hdr.mbx → (s.submitted r).mbxOf m = s.mbxOf m := fun m hm => State.mbxOf_setMbx_ne _ _ hm
  obtain ⟨f, hq⟩ | ⟨u, d, l, hu, hq⟩ := kSubmit_of_query hc hact hown ht
  · obtain rfl := Host.Outcome.next.inj (hq.symm.trans h)
    refine ⟨s.jnl, .inl rfl, ?_, State.refuse_lessSignals _ _ _ _, fun m hm => ?_⟩
    · rw [State.served, State.refuse_frame]
      rfl
    · rw [State.mbxOf_served, State.mbxOf_refuse_ne _ _ hm, hsub m hm]
  · obtain rfl := Host.Outcome.next.inj (hq.symm.trans h)
    have hbox : ∀ m, u.mbxOf m = (s.submitted r).mbxOf m := by obtain rfl | rfl := hu <;> exact fun _ => rfl
    refine ⟨_, .inr ⟨d, rfl⟩, ?_, ?_, fun m hm => ?_⟩
    · rw [State.served, State.complete_frame]
      obtain rfl | rfl := hu <;> rfl
    · show (State.complete _ _ _ _ _ _ _).host.lessSignals = _
      rw [State.complete_lessSignals]
      obtain rfl | rfl := hu <;> rfl
    · rw [State.mbxOf_served, State.mbxOf_complete_ne _ hm, State.mbxOf_jEnd, hbox, hsub m hm]

end

/-- A query that the checks common to all commands pass and its chapter answers: it completes, with its results in the command buffer, and the journal
is as before but for the end of entry 0. -/
theorem kSubmit_query_answers {c : KCmd} {h : CmdHdr} {op : Nat} {ops : List Dword} {s u : State} {d : Dword} {l : List Byte}
    (hc : c.spec.IsQuery) (hact : c.act = noAct) (ha : asks h (8 * ops.length) false s = true) (hs : ops.length ≤ 504)
    (hr : inRange ops c.spec.maxs) (hz : c.spec.zeroOp (mkReq op h ops []) = none)
    (ho : c.own (s.submitted (mkReq op h ops [])) (c.entry (mkReq op h ops []) s) = .now u d l)
    (hu : u = s.submitted (mkReq op h ops []) ∨ u = (s.submitted (mkReq op h ops [])).bumpFree) :
    GoesTo (kSubmit c (mkReq op h ops []) s) fun t => Completes s t h op d ∧ t.jnl = (s.jEnd 0 .done 0 d).jnl ∧
      (t.mbxOf h.mbx).buf = (((s.mbxOf h.mbx).submit (mkReq op h ops [])).filled l).buf := by
  obtain ⟨ht, hopen, hlen, hat, hrsvd⟩ := asks_iff.1 ha
  obtain ⟨hm, -, -, hheld, -, hused⟩ := State.takes_iff.1 ht
  have hlong : h.len ≤ 4032 := by omega
  have hcheck : kCheck c.spec h.mbx (mkReq op h ops []) (s.submitted (mkReq op h ops [])) = none :=
    kCheck_open (s := s.submitted _) hopen (CmdSpec.lenOk_of_plain (c := { c.spec with zero := [], cross := fun _ => true, jrn := true }) hc.plain hr.length_eq hlen hlong)
      (CmdSpec.badOp_of_inRange (c := { c.spec with zero := [], cross := fun _ => true, jrn := true }) hc.plain hr) hrsvd
      (hat.trans (hc.cross _).symm) hz (CmdSpec.runCode_any hc.run) (by simp [CmdSpec.late, CmdSpec.atOnce, hc.cross])
  have hsub := kSubmit_now ht hcheck (by rw [KCmd.asked_of_query hc]; exact ho) (hc.cross _)
  have hmir := State.mirrors_of_unmirrored hc.mir u
  have hbox : u.mbxOf h.mbx = (s.mbxOf h.mbx).submit (mkReq op h ops []) := by
    obtain rfl | rfl := hu <;> exact State.mbxOf_setMbx s h.mbx _
  have hroom : ((s.mbxOf h.mbx).submit (mkReq op h ops [])).used < 64 := Nat.lt_of_le_of_lt hused (by decide)
  obtain ⟨-, -, -, -, -, hbuf, -⟩ := c.answered_mbx (c.entry (mkReq op h ops []) s) d l hmir hm (hbox ▸ hroom) (hbox ▸ hheld)
  rw [hact] at hsub
  refine ⟨_, hsub, completes_answered ht hmir (hbox.trans (State.mbxOf_setMbx _ _ _).symm) rfl rfl, ?_, ?_⟩
  · show (c.answered u _ d l).jnl = _
    rw [KCmd.answered_of_query hc hm, State.complete_jnl]
    obtain rfl | rfl := hu <;> rfl
  · rw [← hbox]
    exact hbuf

section
variable {h : CmdHdr} {s : State}

/-! ### Each query, answered (15 R407) -/

theorem cmdLibquery_isQuery : cmdLibquery.spec.IsQuery := CmdSpec.query_row _ _ _
theorem cmdHealth_isQuery : cmdHealth.spec.IsQuery := CmdSpec.query_row _ _ _
theorem cmdPedestal_isQuery : cmdPedestal.spec.IsQuery := CmdSpec.query_row _ _ _
theorem cmdTmap_isQuery : cmdTmap.spec.IsQuery := CmdSpec.query_row _ _ _
theorem cmdAttest_isQuery : cmdAttest.spec.IsQuery := CmdSpec.query_row _ _ _

/-- LIBQUERY of a slot in use: the image index, and both digests. -/
theorem execLibquery_answers {slot : Dword} (ha : asks h 8 false s = true) (hslot : slot.toNat < 64)
    (hu : (s.libSlot slot.toNat).used = true) :
    GoesTo (execLibquery h slot s) fun t => Completes s t h 0x0103 (BitVec.ofNat 64 (s.imgIndex slot.toNat).toNat) ∧
      t.jnl = (s.jEnd 0 .done 0 (BitVec.ofNat 64 (s.imgIndex slot.toNat).toNat)).jnl ∧
      ((s.libSlot slot.toNat).meas.length = 48 → (s.libSlot slot.toNat).frame.length = 48 →
        (t.mbxOf h.mbx).body 96 = (s.libSlot slot.toNat).meas ++ (s.libSlot slot.toNat).frame) := by
  have hopd : (cmdLibquery.entry (mkReq 0x0103 h [slot] []) s).req.opd 0 = slot := opd_mkReq0 _ _ _ _ _
  refine (kSubmit_query_answers cmdLibquery_isQuery rfl ha (by simp) (.cons (by omega) .nil) rfl (u := s.submitted _)
    (d := BitVec.ofNat 64 (s.imgIndex slot.toNat).toNat) (l := (s.libSlot slot.toNat).meas ++ (s.libSlot slot.toNat).frame)
    ?_ (.inl rfl)).mono fun t ⟨hd, hj, hbuf⟩ => ⟨hd, hj, fun hmeas hframe => ?_⟩
  · have hu' : ((s.submitted (mkReq 0x0103 h [slot] [])).libSlot slot.toNat).used = true := hu
    show ownLibquery _ _ = _
    simp only [ownLibquery, hopd]
    rw [if_neg (by simp [hu'])]
    rfl
  · have hlen : ((s.libSlot slot.toNat).meas ++ (s.libSlot slot.toNat).frame).length = 96 := by rw [List.length_append, hmeas, hframe]
    rw [Mbx.body, hbuf, ← hlen]
    exact Mbx.body_filled_prefix _ (List.append_nil _).symm (by omega)

theorem HEnt.bytes_length (e : HEnt) : e.bytes.length = 32 := by
  simp only [HEnt.bytes, List.length_append, leBytes_length, bytesAt_length]

theorem flatMap_length_const {α : Type} {f : α → List Byte} {n : Nat} (hf : ∀ a, (f a).length = n) (l : List α) :
    (l.flatMap f).length = n * l.length := by
  induction l with
  | nil => rfl
  | cons a l ih => rw [List.flatMap_cons, List.length_append, hf, ih, List.length_cons, Nat.mul_succ, Nat.add_comm]

/-- HEALTH: the entries from FIRST on. -/
theorem execHealth_answers {first : Dword} (ha : asks h 8 false s = true) :
    GoesTo (execHealth h first s) fun t => Completes s t h 0x0A08 0 ∧ t.jnl = (s.jEnd 0 .done 0 0).jnl ∧
      (t.mbxOf h.mbx).body (32 * (s.healthFrom first.toNat).length) = (s.healthFrom first.toNat).flatMap HEnt.bytes := by
  have hopd : (cmdHealth.entry (mkReq 0x0A08 h [first] []) s).req.opd 0 = first := opd_mkReq0 _ _ _ _ _
  refine (kSubmit_query_answers cmdHealth_isQuery rfl ha (by simp) (.cons (by omega) .nil) rfl (u := s.submitted _) (d := 0)
    (l := (s.healthFrom first.toNat).flatMap HEnt.bytes) ?_ (.inl rfl)).mono fun t ⟨hd, hj, hbuf⟩ => ⟨hd, hj, ?_⟩
  · show ownHealth _ _ = _
    simp only [ownHealth, hopd]
    rfl
  · have hmany : (s.healthFrom first.toNat).length ≤ 125 := List.length_take_le _ _
    have hlen := flatMap_length_const HEnt.bytes_length (s.healthFrom first.toNat)
    rw [Mbx.body, hbuf, ← hlen]
    exact Mbx.body_filled_prefix _ (List.append_nil _).symm (by omega)

theorem cmdPedestal_own : cmdPedestal.own = ownPedestal := by
  unfold cmdPedestal
  with_reducible rfl

/-- PEDESTAL: the words CTX_DONE of the contexts named. -/
theorem execPedestal_answers {first count : Dword} (ha : asks h 16 false s = true) (hlo : 1 ≤ count.toNat) (hhi : count.toNat ≤ 500)
    (hend : first.toNat + count.toNat ≤ 65536) :
    GoesTo (execPedestal h first count s) fun t => Completes s t h 0x0A02 0 ∧ t.jnl = (s.jEnd 0 .done 0 0).jnl ∧
      (t.mbxOf h.mbx).body (8 * count.toNat) =
        (List.range count.toNat).flatMap fun i => leBytes 8 (s.ctxOf (first.toNat + i)).done.toNat := by
  have hopd0 : (cmdPedestal.entry (mkReq 0x0A02 h [first, count] []) s).req.opd 0 = first := opd_mkReq0 _ _ _ _ _
  have hopd1 : (cmdPedestal.entry (mkReq 0x0A02 h [first, count] []) s).req.opd 1 = count := opd_mkReq1 _ _ _ _ _ _
  have hne : ¬count = 0#64 := by
    rintro rfl
    exact absurd hlo (by decide)
  have hctx : ∀ i, (s.submitted (mkReq 0x0A02 h [first, count] [])).ctxOf i = s.ctxOf i := fun _ => rfl
  refine (kSubmit_query_answers cmdPedestal_isQuery rfl ha (by simp) (.cons (by omega) (.cons (by omega) .nil)) ?_ (u := s.submitted _)
    (d := 0) (l := (List.range count.toNat).flatMap fun i => leBytes 8 (s.ctxOf (first.toNat + i)).done.toNat) ?_ (.inl rfl)).mono
    fun t ⟨hd, hj, hbuf⟩ => ⟨hd, hj, ?_⟩
  · simpa [CmdSpec.zeroOp, cmdPedestal] using hne
  · rw [cmdPedestal_own]
    have hfit : ¬first.toNat + count.toNat > 65536 := by omega
    simp only [ownPedestal, hopd0, hopd1, hctx, hfit, if_false]
  · have hlen := flatMap_length_const (fun i => leBytes_length 8 (s.ctxOf (first.toNat + i)).done.toNat) (List.range count.toNat)
    rw [List.length_range] at hlen
    rw [Mbx.body, hbuf, ← hlen]
    exact Mbx.body_filled_prefix _ (List.append_nil _).symm (by omega)

/-- TMAP: the time that two captured orbit markers give the crossing (13 R366). -/
theorem execTmap_answers {cn : Dword} {m : BitVec 128} (ha : asks h 8 false s = true) (hcn : cn.toNat < 2 ^ 48)
    (hm : s.chr.mapCn (cn.extractLsb' 0 48) = some m) :
    GoesTo (execTmap h cn s) fun t => Completes s t h 0x0903 0 ∧ t.jnl = (s.jEnd 0 .done 0 0).jnl ∧
      (t.mbxOf h.mbx).body 16 = leBytes 16 m.toNat := by
  have hopd : (cmdTmap.entry (mkReq 0x0903 h [cn] []) s).req.opd 0 = cn := opd_mkReq0 _ _ _ _ _
  have hmap : (s.submitted (mkReq 0x0903 h [cn] [])).chr.mapCn (cn.extractLsb' 0 48) = some m := hm
  refine (kSubmit_query_answers cmdTmap_isQuery rfl ha (by simp) (.cons (by omega) .nil) rfl (u := s.submitted _) (d := 0)
    (l := leBytes 16 m.toNat) ?_ (.inl rfl)).mono fun t ⟨hd, hj, hbuf⟩ => ⟨hd, hj, ?_⟩
  · show ownTmap _ _ = _
    simp only [ownTmap, hopd, hmap]
  · rw [Mbx.body, hbuf]
    exact Mbx.body_filled_prefix _ (List.append_nil _).symm (by simp)

/-- The head of an attestation report: its magic, version, length and nonce (18 R496). -/
def reportHead (lo hi : Dword) : List Byte :=
  [0x4E, 0x59, 0x41, 0x54] ++ leBytes 2 1 ++ leBytes 2 888 ++ leBytes 8 lo.toNat ++ leBytes 8 hi.toNat

theorem State.reportBody_head (s : State) (lo hi : Dword) : ∃ rest, s.reportBody lo hi = reportHead lo hi ++ rest := by
  unfold State.reportBody
  simp only [reportHead, List.append_assoc]
  with_reducible exact ⟨_, rfl⟩

/-- ATTEST with a PUF that checks: a report of the nonce given. -/
theorem execAttest_answers {lo hi : Dword} (ha : asks h 16 false s = true) (hp : s.boot.pufOk = true) :
    GoesTo (execAttest h lo hi s) fun t => Completes s t h 0x0C01 0 ∧ t.jnl = (s.jEnd 0 .done 0 0).jnl ∧
      (t.mbxOf h.mbx).body 24 = reportHead lo hi := by
  have hopd0 : (cmdAttest.entry (mkReq 0x0C01 h [lo, hi] []) s).req.opd 0 = lo := opd_mkReq0 _ _ _ _ _
  have hopd1 : (cmdAttest.entry (mkReq 0x0C01 h [lo, hi] []) s).req.opd 1 = hi := opd_mkReq1 _ _ _ _ _ _
  obtain ⟨rest, hrest⟩ := (s.submitted (mkReq 0x0C01 h [lo, hi] [])).reportBody_head lo hi
  have hown : ∃ l, ownAttest (s.submitted (mkReq 0x0C01 h [lo, hi] [])) (cmdAttest.entry (mkReq 0x0C01 h [lo, hi] []) s) =
      .now (s.submitted (mkReq 0x0C01 h [lo, hi] [])).bumpFree 0 (reportHead lo hi ++ l) := by
    have hp' : (s.submitted (mkReq 0x0C01 h [lo, hi] [])).boot.pufOk = true := hp
    simp only [ownAttest, hopd0, hopd1, hrest, List.append_assoc]
    rw [if_neg (by simp [hp'])]
    exact ⟨_, rfl⟩
  obtain ⟨l, hown⟩ := hown
  refine (kSubmit_query_answers cmdAttest_isQuery rfl ha (by simp) (.cons (by omega) (.cons (by omega) .nil)) rfl hown (.inr rfl)).mono
    fun t ⟨hd, hj, hbuf⟩ => ⟨hd, hj, ?_⟩
  rw [Mbx.body, hbuf]
  exact Mbx.body_filled_prefix _ rfl (by simp [reportHead])

end

/-! ### What a query leaves alone (15 R407, R413) -/

theorem cmdLibquery_justAnswers : cmdLibquery.JustAnswers := by
  intro u w
  show (∃ f, ownLibquery u w = _) ∨ ∃ v d l, ownLibquery u w = _ ∧ _
  simp only [ownLibquery]
  split
  · exact .inl ⟨_, rfl⟩
  · exact .inr ⟨_, _, _, rfl, .inl rfl⟩

theorem cmdHealth_justAnswers : cmdHealth.JustAnswers := fun _ _ => .inr ⟨_, _, _, rfl, .inl rfl⟩

theorem cmdPedestal_justAnswers : cmdPedestal.JustAnswers := by
  intro u w
  rw [cmdPedestal_own]
  simp only [ownPedestal]
  split
  · exact .inl ⟨_, rfl⟩
  · exact .inr ⟨_, _, _, rfl, .inl rfl⟩

theorem cmdTmap_justAnswers : cmdTmap.JustAnswers := by
  intro u w
  show (∃ f, ownTmap u w = _) ∨ ∃ v d l, ownTmap u w = _ ∧ _
  unfold ownTmap
  split
  · exact .inr ⟨_, _, _, rfl, .inl rfl⟩
  · exact .inl ⟨_, rfl⟩

theorem cmdAttest_justAnswers : cmdAttest.JustAnswers := by
  intro u w
  show (∃ f, ownAttest u w = _) ∨ ∃ v d l, ownAttest u w = _ ∧ _
  unfold ownAttest
  split
  · exact .inl ⟨_, rfl⟩
  · exact .inr ⟨_, _, _, rfl, .inr rfl⟩

/-- Where journal entries are numbered from 1, a query, answered or refused, changes mailboxes, interrupts and the free-value index alone. -/
theorem exec_query_frame {h : CmdHdr} {a b : Dword} {c : Instr} {s t : State} (ht : s.takes h.mbx = true) (hn : s.jnl.Numbered)
    (hq : c = .libquery h a ∨ c = .health h a ∨ c = .pedestal h a b ∨ c = .tmap h a ∨ c = .attest h a b) (he : exec c s = .next t) :
    t = { s with mbx := t.mbx, host := t.host, freeCtr := t.freeCtr, kly := { s.kly with lastMbx := h.mbx } } ∧
    t.host = { s.host with pend := t.host.pend, sent := t.host.sent } ∧ ∀ m, m ≠ h.mbx → t.mbxOf m = s.mbxOf m := by
  have key : ∀ (q : KCmd) (op : Nat) (ops : List Dword), q.spec.IsQuery → q.act = noAct → q.JustAnswers →
      exec c s = kSubmit q (mkReq op h ops []) s →
      t = { s with mbx := t.mbx, host := t.host, freeCtr := t.freeCtr, kly := { s.kly with lastMbx := h.mbx } } ∧
      t.host = { s.host with pend := t.host.pend, sent := t.host.sent } ∧ ∀ m, m ≠ h.mbx → t.mbxOf m = s.mbxOf m := by
    intro q op ops hc hact hown hexec
    obtain ⟨j, hj, hframe, hhost, hbox⟩ := kSubmit_query_frame hc hact hown ht (hexec.symm.trans he)
    have hjnl : j = s.jnl := by
      obtain rfl | ⟨d, rfl⟩ := hj
      · rfl
      · rw [State.jEnd_zero_of_numbered hn]
    rw [hjnl] at hframe
    exact ⟨hframe, HostState.of_lessSignals hhost, hbox⟩
  obtain rfl | rfl | rfl | rfl | rfl := hq
  · exact key cmdLibquery _ _ cmdLibquery_isQuery rfl cmdLibquery_justAnswers rfl
  · exact key cmdHealth _ _ cmdHealth_isQuery rfl cmdHealth_justAnswers rfl
  · exact key cmdPedestal _ _ cmdPedestal_isQuery rfl cmdPedestal_justAnswers rfl
  · exact key cmdTmap _ _ cmdTmap_isQuery rfl cmdTmap_justAnswers rfl
  · exact key cmdAttest _ _ cmdAttest_isQuery rfl cmdAttest_justAnswers rfl

/-! ### A journal with an entry of sequence 0 -/

/-- A device open to its host whose journal holds an entry of sequence 0 that stands ACCEPTED. -/
def entryZero : State :=
  { State.reset with
    kly := { Klowyn.reset with up := true }
    boot := { BootState.reset with owned := true, brdOk := true }
    jnl := { epoch := 1, head := 0, page := 0
             ents := [{ seq := 0, mbx := 0, st := .accepted, op := 0x0202, status := 0, tag := 0, cnAcc := 0, len := 0, acn := 0, flags := 0
                        digest := 0, result := 0, cnDone := 0 }] } }

def healthHdr : CmdHdr := { mbx := 0, tag := 0, len := 8, acn := 0, at_ := false, rel := false, rsvd := false }

theorem entryZero_asks : asks healthHdr 8 false entryZero = true := by decide

theorem entryZero_jnl : (entryZero.jEnd 0 .done 0 0).jnl ≠ entryZero.jnl := by decide

end Sys2Proof.Machine

open Sys2Proof Sys2Proof.Machine

/-- Refutes O21: a query is no journaled command and carries sequence 0, and its completion ends the journal entry of that sequence. In the state entryZero
such an entry stands ACCEPTED, and HEALTH changes the journal. Where entries are numbered from 1, as every command numbers them, the journal stays
(jEnd_zero_of_numbered) and each query answers as stated (execLibquery_answers, execHealth_answers, execPedestal_answers, execTmap_answers,
execAttest_answers). -/
theorem not_queriesAnswer : ¬ Obligations.QueriesAnswer := by
  unfold Obligations.QueriesAnswer
  rintro ⟨-, h, -⟩
  obtain ⟨t, ht, -, hj, -⟩ := h healthHdr 0 entryZero entryZero_asks
  obtain ⟨u, hu, -, hend, -⟩ := execHealth_answers (first := 0) entryZero_asks
  obtain rfl := Host.Outcome.next.inj (ht.symm.trans hu)
  exact entryZero_jnl (hend.symm.trans hj)

/-- Refutes O22 in the same state: HEALTH ends the journal entry of sequence 0. Where entries are numbered from 1 the frame holds
(exec_query_frame). -/
theorem not_queryFrame : ¬ Obligations.QueryFrame := by
  unfold Obligations.QueryFrame
  intro h
  obtain ⟨u, hu, -, hend, -⟩ := execHealth_answers (first := 0) entryZero_asks
  obtain ⟨hframe, -⟩ := h healthHdr 0 0 (.health healthHdr 0) entryZero u (by decide) (.inr (.inl rfl)) hu
  have hjnl : u.jnl = entryZero.jnl := by rw [hframe]
  exact entryZero_jnl (hend.symm.trans hjnl)

end

section
/-! PROOFS. The chronometer's pulses, the PPS signals and the owner's commits (13 R356 to R375, 16 R448). -/

namespace Sys2Proof.Machine

/-! ### What an access leaves unchanged (16 R426, R454) -/

section
variable {s : State}

theorem State.access_of_answers {req : Requester} (h : s.answers req = true) (f : State → State) : s.access req f = .next (f s) := by
  simp [State.access, h]

theorem State.coverChange_frame (b : Bool) : s.coverChange b = { s with cig := (s.coverChange b).cig } := rfl

/-- What the integrity engine notes of an access is in its own registers. -/
theorem State.noted_frame (old : State) (ws : List Nat) : s.noted old ws = { s with cig := (s.noted old ws).cig } := by
  unfold State.noted State.covered
  split
  · rfl
  · split <;> rfl

@[simp] theorem State.noted_chr (old : State) (ws : List Nat) : (s.noted old ws).chr = s.chr := by rw [State.noted_frame]

@[simp] theorem State.noted_pulse (old : State) (ws : List Nat) (p : Nat) : (s.noted old ws).pulse p = s.pulse p := by rw [State.noted_frame]; rfl

@[simp] theorem State.noted_shows (old : State) (ws : List Nat) (i : EvtId) (b : Nat) : (s.noted old ws).shows i b = s.shows i b := by
  rw [State.noted_frame]
  rfl

/-! ### Pulse generators (13 R372, R373, R375) -/

@[simp] theorem chrEvents_chr (r : State × Word) : (chrEvents r).chr = r.1.chr := State.raise_chr _ _ _

@[simp] theorem chrEvents_pulse (r : State × Word) (p : Nat) : (chrEvents r).pulse p = r.1.pulse p := by
  rw [State.pulse, chrEvents_chr, State.pulse]

theorem chrEvents_shows {r : State × Word} {b : Nat} (h : r.2.getLsbD b = true) : (chrEvents r).shows .chr b = true := State.shows_raise _ _ h

theorem chrEvents_none (s : State) : chrEvents (s, 0) = s := by
  show s.raise .chr 0 = s
  unfold State.raise
  exact if_pos rfl

theorem State.pulse_setPulse_ne (s : State) {p q : Nat} (h : q ≠ p) (x : Pulse) : (s.setPulse p x).pulse q = s.pulse q := tget_tset_ne _ _ _ h

theorem State.coverPulse_frame (p : Nat) (old : Pulse) : s.coverPulse p old = { s with cig := (s.coverPulse p old).cig } := by
  simp only [State.coverPulse]
  split <;> rfl

@[simp] theorem State.coverPulse_pulse (p : Nat) (old : Pulse) (q : Nat) : (s.coverPulse p old).pulse q = s.pulse q := by
  rw [State.coverPulse_frame]
  rfl

theorem Pulse.pass_one (x : Pulse) (counted : Bool) :
    x.pass 1 counted = { x with nextK := x.nextK + 1, done := x.done || decide (x.per = 0), skip := if counted then satAdd x.skip 1 else x.skip } :=
  rfl

/-- Edges passed leave the schedule, EN and the output alone. -/
theorem Pulse.pass_keeps (x : Pulse) (n : Nat) (counted : Bool) : (x.pass n counted).start = x.start ∧ (x.pass n counted).per = x.per ∧
    (x.pass n counted).wid = x.wid ∧ (x.pass n counted).defer = x.defer ∧ (x.pass n counted).high = x.high := by
  unfold Pulse.pass
  split <;> exact ⟨rfl, rfl, rfl, rfl, rfl⟩

/-- A schedule in force: its start, period and width are the generator's, none waits, and the other generators are as before. -/
theorem State.applyPulse_spec (p : Nat) (c : Schedule) : ((s.applyPulse p c).1.pulse p).start = c.1 ∧ ((s.applyPulse p c).1.pulse p).per = c.2.1 ∧
    ((s.applyPulse p c).1.pulse p).wid = c.2.2 ∧ ((s.applyPulse p c).1.pulse p).defer = none ∧
    ((s.applyPulse p c).1.pulse p).high = (s.pulse p).high ∧ ∀ q, q ≠ p → (s.applyPulse p c).1.pulse q = s.pulse q := by
  unfold State.applyPulse
  dsimp only
  rw [State.pulse_setPulse]
  obtain ⟨hs, hp, hw, hd, hh⟩ := Pulse.pass_keeps { s.pulse p with
    start := c.1, per := c.2.1, wid := c.2.2, done := false, nextK := 0, firedK := 0, defer := none } _ (decide (c.2.1 = 0))
  exact ⟨hs, hp, hw, hd, hh, fun q hq => State.pulse_setPulse_ne _ hq _⟩

/-- An edge that the time has reached: the output goes high for a width that is not zero, and the next edge is the one after. -/
theorem execPulseEdge_fires {p : Nat} (hp : p < 8) (hl : (s.pulse p).live = true) (hh : (s.pulse p).high = false)
    (ht : s.chr.edgeAt (s.pulse p) ≤ s.chr.now) (hheld : s.pulsesHeld = false) :
    GoesTo (execPulseEdge p s) fun t => (t.pulse p).high = decide ((s.pulse p).wid ≠ 0) ∧ (t.pulse p).nextK = (s.pulse p).nextK + 1 ∧
      (t.pulse p).skip = (s.pulse p).skip ∧ ∀ q, q ≠ p → t.pulse q = s.pulse q := by
  simp only [execPulseEdge, if_neg (Nat.not_le.2 hp), hl, hh, ht, hheld]
  exact ⟨_, rfl, by rw [State.pulse_setPulse], by rw [State.pulse_setPulse]; rfl, by rw [State.pulse_setPulse]; rfl,
    fun q hq => State.pulse_setPulse_ne _ hq _⟩

/-- An edge while the outputs are held low: skipped and counted. -/
theorem execPulseEdge_skips {p : Nat} (hp : p < 8) (hl : (s.pulse p).live = true) (hh : (s.pulse p).high = false)
    (ht : s.chr.edgeAt (s.pulse p) ≤ s.chr.now) (hheld : s.pulsesHeld = true) :
    GoesTo (execPulseEdge p s) fun t => (t.pulse p).high = false ∧ (t.pulse p).skip = satAdd (s.pulse p).skip 1 ∧
      (t.pulse p).nextK = (s.pulse p).nextK + 1 ∧ t.shows .chr 5 = true := by
  simp only [execPulseEdge, if_neg (Nat.not_le.2 hp), hl, hh, ht, hheld]
  refine ⟨_, rfl, ?_⟩
  show ((chrEvents _).pulse p).high = _ ∧ ((chrEvents _).pulse p).skip = _ ∧ ((chrEvents _).pulse p).nextK = _ ∧ _
  rw [chrEvents_pulse, show s.skipEdges p 1 = (s.setPulse p ((s.pulse p).pass 1 true), 0x20) from rfl, State.pulse_setPulse, Pulse.pass_one]
  exact ⟨hh, rfl, rfl, chrEvents_shows (show (0x20 : Word).getLsbD 5 = true by decide)⟩

theorem State.pulseLow_of_none {p : Nat} (hd : (s.pulse p).defer = none) : s.pulseLow p = s.setPulse p { s.pulse p with high := false } := by
  simp only [State.pulseLow, hd]

/-- The end of a pulse that a schedule waits for: it takes force. -/
theorem State.pulseLow_of_some {p : Nat} {c : Schedule} (hd : (s.pulse p).defer = some c) :
    ((s.pulseLow p).pulse p).high = false ∧ ((s.pulseLow p).pulse p).start = c.1 ∧ ((s.pulseLow p).pulse p).per = c.2.1 ∧
    ((s.pulseLow p).pulse p).wid = c.2.2 ∧ ((s.pulseLow p).pulse p).defer = none ∧ ∀ q, q ≠ p → (s.pulseLow p).pulse q = s.pulse q := by
  obtain ⟨hs, hp, hw, hn, hh, hq⟩ := State.applyPulse_spec (s := s.setPulse p { s.pulse p with high := false }) p c
  have heq : s.pulseLow p = (chrEvents ((s.setPulse p { s.pulse p with high := false }).applyPulse p c)).coverPulse p (s.pulse p) := by
    unfold State.pulseLow
    dsimp only
    split
    next d hsome => rw [Option.some.inj (hsome.symm.trans hd)]
    next hnone => exact absurd (hnone.symm.trans hd) (by simp)
  simp only [heq, State.coverPulse_pulse, chrEvents_pulse]
  exact ⟨by rw [hh, State.pulse_setPulse], hs, hp, hw, hn, fun q hne => (hq q hne).trans (State.pulse_setPulse_ne _ hne _)⟩

theorem execPulseWidthEnd_ends {p : Nat} (hp : p < 8) (hh : (s.pulse p).high = true) (he : ((s.pulse p).endAt : Int) ≤ s.chr.free) :
    execPulseWidthEnd p s = .next (s.pulseLow p) := by
  simp [execPulseWidthEnd, Nat.not_le.2 hp, hh, he]

/-! ### PPS (13 R374) -/

/-- Each run of seconds driven ends no earlier than it begins. -/
def Chrono.RunsOrdered (k : Chrono) : Prop := ∀ r ∈ k.ppsRuns, r.1 ≤ r.2

/-- The seconds driven after n has joined them contain n, where their runs are ordered. -/
theorem addRun_contains (n : Nat) {l : List (Nat × Nat)} (h : ∀ r ∈ l, r.1 ≤ r.2) : (addRun n l).any (fun r => decide (r.1 ≤ n ∧ n ≤ r.2)) = true := by
  cases l with
  | nil => simp [addRun]
  | cons r l =>
    have hr : r.1 ≤ r.2 := h r (List.mem_cons_self ..)
    simp only [addRun]
    split
    · have hn : r.1 ≤ n := by omega
      simp [hn]
    · simp

theorem addRun_ordered (n : Nat) {l : List (Nat × Nat)} (h : ∀ r ∈ l, r.1 ≤ r.2) : ∀ r ∈ addRun n l, r.1 ≤ r.2 := by
  cases l with
  | nil =>
    intro q hq
    obtain rfl := List.mem_singleton.1 hq
    exact Nat.le_refl n
  | cons r l =>
    intro q hq
    have hr : r.1 ≤ r.2 := h r (List.mem_cons_self ..)
    simp only [addRun] at hq
    split at hq
    case isTrue hn =>
      obtain rfl | hq := List.mem_cons.1 hq
      · show r.1 ≤ n
        omega
      · exact h q (List.mem_cons_of_mem _ hq)
    case isFalse =>
      obtain rfl | hq := List.mem_cons.1 hq
      · exact Nat.le_refl n
      · exact h q hq

/-- PPS_OUT at a whole second that the time has reached: it rises once, and where the seconds driven stand in order they hold this one from then on. -/
theorem execPpsOutEdge_marks (hen : s.chr.pps.getLsbD 31 = true) (hl : s.chr.ppsLast < s.chr.wholeSec) :
    GoesTo (execPpsOutEdge s) fun t => t.chr.ppsLast = s.chr.wholeSec ∧ t = { s with chr := t.chr } ∧
      (s.pulsesHeld = false → s.chr.ppsWidth ≠ 0 → s.chr.drove s.chr.wholeSec = false → t.chr.ppsHigh = true ∧
        (s.chr.RunsOrdered → t.chr.drove s.chr.wholeSec = true ∧ t.chr.RunsOrdered)) ∧
      (s.chr.drove s.chr.wholeSec = true → t.chr.ppsHigh = s.chr.ppsHigh) := by
  simp only [execPpsOutEdge, hen, hl]
  refine ⟨_, rfl, rfl, rfl, fun hheld hw hd => ?_, fun hd => ?_⟩
  · have hhigh : (decide (s.chr.ppsWidth ≠ 0) && !s.pulsesHeld && !s.chr.drove s.chr.wholeSec) = true := by simp [hheld, hw, hd]
    simp only [hhigh]
    exact ⟨rfl, fun ho => ⟨addRun_contains _ ho, addRun_ordered _ ho⟩⟩
  · simp [hd]

theorem execPpsOutWidthEnd_falls (hh : s.chr.ppsHigh = true) (he : (s.chr.ppsEnd : Int) ≤ s.chr.free) :
    execPpsOutWidthEnd s = .next { s with chr := { s.chr with ppsHigh := false } } := by
  simp [execPpsOutWidthEnd, hh, he]

theorem execPpsIn_stamps {phase : BitVec 4} (hen : s.chr.pps.getLsbD 30 = true) :
    GoesTo (execPpsIn phase s) fun t => t.chr = { s.chr with ppsIn := s.chr.layout (s.chr.stamp phase) } ∧ t.shows .chr 3 = true := by
  simp only [execPpsIn, hen]
  exact ⟨_, rfl, State.raise_chr _ _ _, State.shows_raiseBit _ _ (by decide)⟩

end

/-- One second, PPS_OUT enabled, and a run of seconds driven that ends before it begins. -/
def runReversed : State :=
  { State.reset with
    clk := { ClkState.reset with safe := false, lrefOk := true }
    chr := { Chrono.reset with c := BitVec.ofNat 96 (1000000000 * 65536), pps := 0xC6400000, ppsRuns := [(5, 0)] } }

theorem runReversed_due : runReversed.chr.pps.getLsbD 31 = true ∧ runReversed.chr.ppsLast < runReversed.chr.wholeSec ∧
    runReversed.pulsesHeld = false ∧ runReversed.chr.ppsWidth ≠ 0 ∧ runReversed.chr.drove runReversed.chr.wholeSec = false := by decide

/-- Second 1 joins the run of seconds 5 to 0 as a run of seconds 5 to 1, which does not hold it. -/
theorem runReversed_forgets : ∃ t, execPpsOutEdge runReversed = .next t ∧ t.chr.drove runReversed.chr.wholeSec = false :=
  ⟨_, rfl, by decide⟩

end Sys2Proof.Machine

open Sys2Proof Sys2Proof.Machine

/-- Refutes O54 in its clause on PPS_OUT: where the list of seconds driven holds a run that ends just before the second reached but begins after it (the
state runReversed: the run 5 to 0, second 1), the run is prolonged and still does not hold that second. No operation of the model makes such a run
(addRun_ordered); where the runs are ordered the clause holds (execPpsOutEdge_marks), and so do the others (execPulseEdge_fires, execPulseEdge_skips,
execPulseWidthEnd_ends with State.pulseLow_of_none and State.pulseLow_of_some, execPpsOutWidthEnd_falls, execPpsIn_stamps). -/
theorem not_pulsesAndPps : ¬ Obligations.PulsesAndPps := by
  unfold Obligations.PulsesAndPps
  rintro ⟨-, -, hpps, -⟩
  obtain ⟨hen, hlast, hheld, hwidth, hdrove⟩ := runReversed_due
  obtain ⟨t, ht, -, -, hmark, -⟩ := hpps runReversed hen hlast
  obtain ⟨u, hu, hforgets⟩ := runReversed_forgets
  obtain rfl := Host.Outcome.next.inj (ht.symm.trans hu)
  have hholds := (hmark hheld hwidth hdrove).2
  rw [hforgets] at hholds
  exact absurd hholds (by decide)

end

section
/-! PROOFS. The corrections of the time (13 R356 to R363, R372, 16 R448): ARM, steps, rates, a change of mode, and schedules of pulses. -/

namespace Sys2Proof.Machine

section
variable {s : State}

/-! ### The time under each correction (13 R356 to R359) -/

/-- The chronometer without its pulse generators. -/
def Chrono.lessPulses (k : Chrono) : Chrono := { k with pulses := [] }

theorem State.stepPulses_lessPulses (d : Int) : (s.stepPulses d).1.chr.lessPulses = s.chr.lessPulses :=
  foldl_same (fun a : State × Word => a.1.chr.lessPulses) _ (fun a p => by
    dsimp only
    split
    · rfl
    · split
      · unfold State.skipEdges
        split <;> rfl
      · rfl) _ _

/-- A step in counter mode moves the time by as much. -/
theorem Chrono.now_stepped {k : Chrono} (hcal : k.cal = false) (d : Int) : (k.stepped d).now = k.now + d := by
  have hc : ({ k with ofs := k.ofs + d } : Chrono).cal = false := hcal
  simp only [Chrono.stepped, hcal, Chrono.now, hc, Chrono.drift, Bool.false_eq_true, if_false]
  omega

/-- The time base on a new rate from the present cycle on. -/
def Chrono.withRate (k : Chrono) (i : BitVec 42) : Chrono := { k with ofs := k.ofs + k.drift, a := k.c, inc := i }

/-- A new rate leaves the time as it is. -/
theorem Chrono.now_withRate {k : Chrono} (hcal : k.cal = false) (i : BitVec 42) : (k.withRate i).now = k.now := by
  have hc : (k.withRate i).cal = false := hcal
  have hd : (k.withRate i).drift = 0 := by simp [Chrono.drift, Chrono.withRate]
  have hofs : (k.withRate i).ofs = k.ofs + k.drift := rfl
  have hcyc : (k.withRate i).c = k.c := rfl
  simp only [Chrono.now, hc, hd, hofs, hcyc, hcal, Bool.false_eq_true, if_false]
  omega

/-! ### Commits (13 R357, R359, R361, R362) -/

theorem Chrono.stepBad_iff (k : Chrono) (d : Int) :
    k.stepBad d = true ↔ k.now + d < 0 ∨ (k.st = .locked ∧ (k.sthr = 0 ∨ k.sthr * 65536 < d.natAbs)) := by
  simp [Chrono.stepBad, or_comm]

/-- A step that may be applied. -/
theorem State.commitStep_applied (hcal : s.chr.cal = false) (hgood : s.chr.stepBad s.chr.stStep.toInt = false) :
    s.commitStep.1.chr.now = s.chr.now + s.chr.stStep.toInt ∧ s.commitStep.1.chr.free = s.chr.free ∧ s.commitStep.1.chr.stStep = 0 ∧
    s.commitStep.1.chr.st = (if s.chr.st = .armed then .locked else s.chr.st) ∧ s.commitStep.2.getLsbD 0 = true := by
  let k : Chrono := { s.chr with stStep := 0 }
  let k2 : Chrono := { k.stepped s.chr.stStep.toInt with
    steps := k.steps + s.chr.stStep.toInt, st := if k.st = .armed then .locked else k.st
    ppsLast := (k.stepped s.chr.stStep.toInt).wholeSec, captures := [] }
  have heq : s.commitStep = ((({ s with chr := k2 } : State).stepPulses s.chr.stStep.toInt).1,
      1 ||| (({ s with chr := k2 } : State).stepPulses s.chr.stStep.toInt).2) := by
    unfold State.commitStep
    exact if_neg (ne_true_of_eq_false hgood)
  have hless : s.commitStep.1.chr.lessPulses = k2.lessPulses := by
    rw [heq]
    exact State.stepPulses_lessPulses _
  have hnow : s.commitStep.1.chr.now = s.chr.now + s.chr.stStep.toInt :=
    (congrArg Chrono.now hless).trans (Chrono.now_stepped (k := k) hcal _)
  have hsteps : s.commitStep.1.chr.steps = s.chr.steps + s.chr.stStep.toInt := congrArg Chrono.steps hless
  have hst : s.commitStep.1.chr.st = (if s.chr.st = .armed then .locked else s.chr.st) := congrArg Chrono.st hless
  have hzero : s.commitStep.1.chr.stStep = 0 := by
    refine (congrArg Chrono.stStep hless).trans ?_
    show (k.stepped _).stStep = 0
    unfold Chrono.stepped
    split <;> rfl
  refine ⟨hnow, ?_, hzero, hst, ?_⟩
  · rw [Chrono.free, Chrono.free, hnow, hsteps]
    omega
  · rw [heq, BitVec.getLsbD_or]
    rfl

/-- A step that may not be applied: refused, and counted. -/
theorem State.commitStep_refused (hbad : s.chr.stepBad s.chr.stStep.toInt = true) :
    s.commitStep.1.chr = { s.chr with stStep := 0, refCnt := satAdd s.chr.refCnt 1, lastRef := refNs s.chr.stStep.toInt } ∧ s.commitStep.2 = 2 := by
  have heq : s.commitStep = ((({ s with chr := { s.chr with stStep := 0, refCnt := satAdd s.chr.refCnt 1, lastRef := refNs s.chr.stStep.toInt } } :
      State).healthAdd 4 0 (leBytes 8 (refNs s.chr.stStep.toInt).toNat)), 2) := by
    unfold State.commitStep
    exact if_pos hbad
  rw [heq]
  exact ⟨State.healthAdd_chr _ _ _ _, rfl⟩

theorem State.commitRate_applied (hcal : s.chr.cal = false) (hlo : 2 ^ 40 - 2 ^ 31 ≤ s.chr.stInc.toNat) (hhi : s.chr.stInc.toNat ≤ 2 ^ 40 + 2 ^ 31) :
    s.commitRate = ({ s with chr := s.chr.withRate s.chr.stInc }, 0) := by
  simp only [State.commitRate, hcal, Chrono.withRate]
  rw [if_neg (by omega), if_neg Bool.false_ne_true]

theorem State.commitRate_refused (h : s.chr.stInc.toNat < 2 ^ 40 - 2 ^ 31 ∨ 2 ^ 40 + 2 ^ 31 < s.chr.stInc.toNat) :
    s.commitRate = ({ s with chr := { s.chr with refCnt := satAdd s.chr.refCnt 1 } }, 2) := if_pos h

/-! ### CHR_CMD (13 R363, 16 R448) -/

theorem State.chrOwner_iff {req : Requester} : s.chrOwner req = true ↔ decide (req = .binnacle) = s.kly.timeEn := by
  simp [State.chrOwner]

theorem State.writeChrCmd_arm (owner : Bool) : s.writeChrCmd owner 4 = s.chrArm := rfl

theorem State.writeChrCmd_step : s.writeChrCmd true 1 = chrEvents s.commitStep := by
  show chrEvents (s.commitStep.1, 0 ||| s.commitStep.2) = _
  exact congrArg (fun m => chrEvents (s.commitStep.1, m)) (BitVec.zero_or ..)

theorem State.writeChrCmd_rate : s.writeChrCmd true 2 = chrEvents s.commitRate := by
  show chrEvents (s.commitRate.1, s.commitRate.2 ||| 0) = _
  exact congrArg (fun m => chrEvents (s.commitRate.1, m)) (BitVec.or_zero ..)

/-- A commit by a requester that does not own the group (16 R448). -/
theorem State.writeChrCmd_notOwner {v : Word} (h2 : v.getLsbD 2 = false) (hv : v.extractLsb' 0 2 ≠ 0) : s.writeChrCmd false v = s.notOwner := by
  rw [State.writeChrCmd, h2, if_neg hv]
  rfl

@[simp] theorem State.notOwner_chr : s.notOwner.chr = s.chr := State.raise_chr _ _ _

theorem State.notOwner_shows : s.notOwner.shows .hst 3 = true := State.shows_raiseBit _ _ (by decide)

section
variable {req : Requester}

theorem execChrStepCommit_next (ha : s.answers req = true) (ho : s.chrOwner req = true) :
    execChrStepCommit req s = .next ((chrEvents s.commitStep).noted s (touchedBy 0x40038)) := by
  rw [execChrStepCommit, State.access_of_answers ha, State.commitChr, ho, State.writeChrCmd_step]

theorem execChrRateCommit_next (ha : s.answers req = true) (ho : s.chrOwner req = true) :
    execChrRateCommit req s = .next ((chrEvents s.commitRate).noted s (touchedBy 0x40038)) := by
  rw [execChrRateCommit, State.access_of_answers ha, State.commitChr, ho, State.writeChrCmd_rate]

/-- A step committed by the owner. -/
theorem execChrStepCommit_applies (ha : s.answers req = true) (ho : s.chrOwner req = true) (hcal : s.chr.cal = false)
    (hgood : s.chr.stepBad s.chr.stStep.toInt = false) :
    GoesTo (execChrStepCommit req s) fun t => t.chr.now = s.chr.now + s.chr.stStep.toInt ∧ t.chr.free = s.chr.free ∧ t.chr.stStep = 0 ∧
      t.chr.st = (if s.chr.st = .armed then .locked else s.chr.st) ∧ t.shows .chr 0 = true := by
  obtain ⟨hnow, hfree, hstep, hst, hevt⟩ := State.commitStep_applied hcal hgood
  refine ⟨_, execChrStepCommit_next ha ho, ?_⟩
  simp only [State.noted_chr, chrEvents_chr, State.noted_shows]
  exact ⟨hnow, hfree, hstep, hst, chrEvents_shows hevt⟩

theorem execChrStepCommit_refuses (ha : s.answers req = true) (ho : s.chrOwner req = true) (hbad : s.chr.stepBad s.chr.stStep.toInt = true) :
    GoesTo (execChrStepCommit req s) fun t => t.chr.now = s.chr.now ∧ t.chr.st = s.chr.st ∧ t.chr.refCnt = satAdd s.chr.refCnt 1 ∧
      t.shows .chr 1 = true := by
  obtain ⟨hchr, hevt⟩ := State.commitStep_refused hbad
  refine ⟨_, execChrStepCommit_next ha ho, ?_⟩
  simp only [State.noted_chr, chrEvents_chr, State.noted_shows, hchr]
  exact ⟨rfl, trivial, trivial, chrEvents_shows (by rw [hevt]; decide)⟩

theorem execChrRateCommit_applies (ha : s.answers req = true) (ho : s.chrOwner req = true) (hcal : s.chr.cal = false)
    (hlo : 2 ^ 40 - 2 ^ 31 ≤ s.chr.stInc.toNat) (hhi : s.chr.stInc.toNat ≤ 2 ^ 40 + 2 ^ 31) :
    GoesTo (execChrRateCommit req s) fun t => t.chr.now = s.chr.now ∧ t.chr.inc = s.chr.stInc ∧ t.chr.c = s.chr.c := by
  refine ⟨_, execChrRateCommit_next ha ho, ?_⟩
  simp only [State.noted_chr, chrEvents_chr, State.commitRate_applied hcal hlo hhi]
  exact ⟨Chrono.now_withRate hcal _, rfl, rfl⟩

theorem execChrRateCommit_refuses (ha : s.answers req = true) (ho : s.chrOwner req = true)
    (h : s.chr.stInc.toNat < 2 ^ 40 - 2 ^ 31 ∨ 2 ^ 40 + 2 ^ 31 < s.chr.stInc.toNat) :
    GoesTo (execChrRateCommit req s) fun t => t.chr = { s.chr with refCnt := satAdd s.chr.refCnt 1 } ∧ t.shows .chr 1 = true := by
  refine ⟨_, execChrRateCommit_next ha ho, ?_⟩
  simp only [State.noted_chr, chrEvents_chr, State.noted_shows, State.commitRate_refused h]
  exact ⟨trivial, chrEvents_shows (show (2 : Word).getLsbD 1 = true by decide)⟩

/-- A commit by a requester that does not own the group changes nothing of the Chronometer and sets OWNER. -/
theorem commitChr_notOwner {v : Word} (h2 : v.getLsbD 2 = false) (hv : v.extractLsb' 0 2 ≠ 0) (ha : s.answers req = true)
    (ho : s.chrOwner req = false) :
    GoesTo (s.access req fun u => u.commitChr req v) fun t => t.chr = s.chr ∧ t.shows .hst 3 = true := by
  refine ⟨_, State.access_of_answers ha _, ?_⟩
  dsimp only
  rw [State.commitChr, ho, State.writeChrCmd_notOwner h2 hv, State.noted_chr, State.noted_shows]
  exact ⟨State.notOwner_chr, State.notOwner_shows⟩

end

/-! ### ARM (13 R361, R363) -/

theorem State.chrArm_arms : s.chrArm.chr.st = .armed ∧ s.chrArm.chr.refCnt = 0 ∧ s.chrArm.chr.lateCnt = 0 ∧ s.chrArm.chr.now = s.chr.now :=
  ⟨rfl, rfl, rfl, rfl⟩

/-- CHR_CMD is a plain word of the Chronometer's block: a write of it acts as the register does, and covered words are noted (13 R376, 16 R435, R454). -/
theorem State.writeWord_chrCmd (req : Requester) (v : Word) :
    s.writeWord req 0x40038 v = (s.writeChrCmd (s.chrOwner req) v).noted s (touchedBy 0x40038) := by
  have hreg : s.regAt 0x40038 = none := by
    simp [State.regAt, State.block, State.regsChr, Reg.plain, Reg.events, Reg.staged, Reg.latch]
  have hmap : s.mapped 0x40038 = true := by simp [State.mapped, State.block]
  have halias : s.aliasOf 0x40038 = none := by rw [State.aliasOf, hreg]
  have hstaged : s.isStaged 0x40038 = false := by rw [State.isStaged, hreg]
  simp [State.writeWord, hmap, halias, hstaged, State.writeReg]

theorem execRegisterWrite_arms : GoesTo (execRegisterWrite .binnacle 0x40038 [4] true s) fun t => t.chr.st = .armed ∧ t.chr.refCnt = 0 ∧
    t.chr.lateCnt = 0 ∧ t.chr.now = s.chr.now := by
  refine ⟨(s.chrArm).noted s (touchedBy 0x40038), ?_, ?_⟩
  · show Host.Outcome.next (s.writeWord .binnacle 0x40038 4) = _
    rw [State.writeWord_chrCmd, State.writeChrCmd_arm]
  · simp only [State.noted_chr]
    exact State.chrArm_arms

/-! ### A change of mode (13 R356) -/

theorem State.dropLaunches_chr : s.dropLaunches.chr = { s.chr with launches := [] } := by
  have hfold : ∀ ws : List Waiting, (ws.foldl (fun u w => (u.dropLong w).abortLong w { code := 0xB00D }) s).chr = s.chr := fun ws =>
    foldl_same State.chr _ (fun u w => (u.dropLong w).abortLong_chr w _) ws s
  unfold State.dropLaunches
  dsimp only
  rw [hfold]

/-- The time base after a change of mode: time 0 on the same step-free scale, at the nominal rate, no launch left and no generator running. -/
theorem State.changeMode_spec (v : Word) : (s.changeMode v).chr.cal = v.getLsbD 31 ∧ (s.changeMode v).chr.now = 0 ∧
    (s.changeMode v).chr.free = s.chr.free ∧ (s.changeMode v).chr.st = .unset ∧ (s.changeMode v).chr.launches = [] ∧
    (s.changeMode v).chr.inc = 0x10000000000 ∧ ∀ p, ((s.changeMode v).pulse p).en = false := by
  have hcal : (s.changeMode v).chr.cal = v.getLsbD 31 := by simp [Chrono.cal, State.changeMode]
  have hnow : (s.changeMode v).chr.now = 0 := by simp [Chrono.now, State.changeMode, Chrono.drift]
  have hfree : (s.changeMode v).chr.free = s.chr.free := by
    have hsteps : (s.changeMode v).chr.steps = -s.dropLaunches.chr.free := rfl
    rw [Chrono.free, hnow, hsteps, State.dropLaunches_chr, Int.zero_sub, Int.neg_neg]
    rfl
  have hlaunch : (s.changeMode v).chr.launches = s.dropLaunches.chr.launches := rfl
  refine ⟨hcal, hnow, hfree, rfl, by rw [hlaunch, State.dropLaunches_chr], rfl, fun p => ?_⟩
  have hfind := tfind_map (fun q : Nat × Pulse => (q.1, { q.2 with en := false })) (fun _ => rfl) s.dropLaunches.chr.pulses p
  show (tget Pulse.reset (s.dropLaunches.chr.pulses.map fun q => (q.1, { q.2 with en := false })) p).en = false
  rw [tget, hfind]
  cases tfind s.dropLaunches.chr.pulses p <;> rfl

theorem execChrModeChange_next {req : Requester} (val : Word) (ha : s.answers req = true) :
    execChrModeChange ⟨req, val⟩ s = .next ((s.writeChrCfg val).noted s (touchedBy 0x40000)) := State.access_of_answers ha _

theorem execChrModeChange_changes {req : Requester} {val : Word} (ha : s.answers req = true) (hv : val.getLsbD 31 ≠ s.chr.cal) :
    GoesTo (execChrModeChange ⟨req, val⟩ s) fun t => t.chr.cal = val.getLsbD 31 ∧ t.chr.now = 0 ∧ t.chr.free = s.chr.free ∧ t.chr.st = .unset ∧
      t.chr.launches = [] ∧ t.chr.inc = 0x10000000000 ∧ ∀ p, (t.pulse p).en = false := by
  refine ⟨_, execChrModeChange_next val ha, ?_⟩
  simp only [State.noted_chr, State.noted_pulse, show s.writeChrCfg val = s.changeMode val from if_pos hv]
  exact State.changeMode_spec val

theorem execChrModeChange_keeps_mode {req : Requester} {val : Word} (ha : s.answers req = true) (hv : val.getLsbD 31 = s.chr.cal) :
    GoesTo (execChrModeChange ⟨req, val⟩ s) fun t => t.chr = { s.chr with cfg := val &&& 0x800FFFFF } := by
  refine ⟨_, execChrModeChange_next val ha, ?_⟩
  dsimp only
  rw [State.noted_chr, show s.writeChrCfg val = { s with chr := { s.chr with cfg := val &&& 0x800FFFFF } } from if_neg (not_not.2 hv)]

/-! ### Schedules of pulses (13 R372, 16 R448) -/

section
variable {p : Nat}

theorem execPulseCommit_host (hp : p < 8) (ha : s.answers .host = true) :
    execPulseCommit .host p s = .next ((chrEvents (s.commitPulse p)).noted s (touchedBy (0x41018 + 0x40 * p))) := by
  rw [execPulseCommit, if_neg (Nat.not_le.2 hp), State.access_of_answers ha]
  rfl

theorem execPulseCommit_applies (hp : p < 8) (ha : s.answers .host = true) (hb : (s.pulse p).stBad = false) (hh : (s.pulse p).high = false) :
    GoesTo (execPulseCommit .host p s) fun t => (t.pulse p).start = (s.pulse p).stStart ∧ (t.pulse p).per = (s.pulse p).stPer ∧
      (t.pulse p).wid = (s.pulse p).stWid ∧ ∀ q, q ≠ p → t.pulse q = s.pulse q := by
  refine ⟨_, execPulseCommit_host hp ha, ?_⟩
  have heq : s.commitPulse p = s.applyPulse p (s.pulse p).staged := by simp [State.commitPulse, hb, hh]
  obtain ⟨hstart, hper, hwid, -, -, hothers⟩ := State.applyPulse_spec (s := s) p (s.pulse p).staged
  simp only [State.noted_pulse, chrEvents_pulse, heq]
  exact ⟨hstart, hper, hwid, hothers⟩

theorem execPulseCommit_defers (hp : p < 8) (ha : s.answers .host = true) (hb : (s.pulse p).stBad = false) (hh : (s.pulse p).high = true) :
    GoesTo (execPulseCommit .host p s) fun t => t.chr = (s.setPulse p { s.pulse p with defer := some (s.pulse p).staged }).chr ∧
      t = { s with chr := t.chr, cig := t.cig } := by
  refine ⟨_, execPulseCommit_host hp ha, ?_⟩
  have heq : chrEvents (s.commitPulse p) = s.setPulse p { s.pulse p with defer := some (s.pulse p).staged } := by
    rw [show s.commitPulse p = (s.setPulse p { s.pulse p with defer := some (s.pulse p).staged }, 0) by simp [State.commitPulse, hb, hh], chrEvents_none]
  dsimp only
  rw [heq, State.noted_chr]
  exact ⟨rfl, by rw [State.noted_frame]; rfl⟩

theorem execPulseCommit_refuses (hp : p < 8) (ha : s.answers .host = true) (hb : (s.pulse p).stBad = true) :
    GoesTo (execPulseCommit .host p s) fun t => t.chr = s.chr ∧ t.shows .chr 6 = true := by
  refine ⟨_, execPulseCommit_host hp ha, ?_⟩
  have heq : s.commitPulse p = (s, 0x40) := by simp [State.commitPulse, hb]
  simp only [State.noted_chr, State.noted_shows, chrEvents_chr, heq]
  exact ⟨trivial, chrEvents_shows (show (0x40 : Word).getLsbD 6 = true by decide)⟩

theorem execPulseCommit_binnacle (hp : p < 8) : GoesTo (execPulseCommit .binnacle p s) fun t => t.chr = s.chr ∧ t.shows .hst 3 = true := by
  refine ⟨s.notOwner, ?_, State.notOwner_chr, State.notOwner_shows⟩
  rw [execPulseCommit, if_neg (Nat.not_le.2 hp), State.access_of_answers rfl]
  rfl

end

end

end Sys2Proof.Machine

open Sys2Proof Sys2Proof.Machine

/-- Settles O55: one correction after the other. -/
theorem chronometerCommits : Obligations.ChronometerCommits := by
  unfold Obligations.ChronometerCommits
  refine ⟨fun s ha => ⟨s.chrArm, State.access_of_answers ha _, State.chrArm_arms⟩, fun s => execRegisterWrite_arms, fun s req ha hown => ?_,
    fun s req ha hown => ?_, fun s req val ha => ⟨execChrModeChange_changes ha, execChrModeChange_keeps_mode ha⟩, fun s p hp ha =>
    ⟨execPulseCommit_applies hp ha, execPulseCommit_defers hp ha, execPulseCommit_refuses hp ha, execPulseCommit_binnacle hp⟩⟩
  · have ho : s.chrOwner req = true := State.chrOwner_iff.2 hown
    refine ⟨fun hcal hpos hfit => execChrStepCommit_applies ha ho hcal ?_, fun hbad => execChrStepCommit_refuses ha ho ((s.chr.stepBad_iff _).2 hbad),
      fun hcal hlo hhi => execChrRateCommit_applies ha ho hcal hlo hhi, execChrRateCommit_refuses ha ho⟩
    refine Bool.eq_false_iff.2 fun hbad => ?_
    obtain hneg | ⟨hlock, hfar⟩ := (s.chr.stepBad_iff _).1 hbad
    · omega
    · obtain hst | ⟨hsthr, hnear⟩ := hfit
      · exact hst hlock
      · omega
  · have ho : s.chrOwner req = false := Bool.eq_false_iff.2 fun h => hown (State.chrOwner_iff.1 h)
    exact ⟨commitChr_notOwner (by decide) (by decide) ha ho, commitChr_notOwner (by decide) (by decide) ha ho⟩

end

section
/-! PROOFS. The long commands as Klowyn takes them up (15 R400, R403, R405, R407). -/

namespace Sys2Proof.Machine

/-! ### What a row asks of operands and list (15 R403, R405) -/

/-- Operand by operand, no value is below its bound; operands past the bounds are free. -/
def atLeast : List Nat → List Dword → Prop
  | m :: ms, d :: ds => m ≤ d.toNat ∧ atLeast ms ds
  | [], _ => True
  | _ :: _, [] => False

theorem atLeast_get {ms : List Nat} {ds : List Dword} (h : atLeast ms ds) {k : Nat} (hk : k < ds.length) : ms.getD k 0 ≤ ds[k].toNat := by
  induction ms generalizing ds k with
  | nil => simp
  | cons m ms ih =>
    cases ds with
    | nil => cases hk
    | cons d ds =>
      obtain ⟨hm, hms⟩ := h
      cases k with
      | zero => exact hm
      | succ k => exact ih hms (Nat.lt_of_succ_lt_succ hk)

/-- The operands and the list that a row admits: in range, of valid values, no starred one zero, and the list of the length that they ask for. -/
structure CmdSpec.Admits (c : CmdSpec) (ops : List Dword) (lst : List Byte) : Prop where
  fits : 8 * ops.length + lst.length ≤ 4032
  most : inRange ops c.maxs
  least : atLeast c.mins ops
  valid : ∀ k d, ops[k]? = some d → c.ok k d = true
  list : c.list ops lst.length = true
  zero : ∀ k ∈ c.zero, ops.getD k 0 ≠ 0

section
variable {c : CmdSpec} {ops : List Dword} {lst : List Byte} {op : Nat} {h : CmdHdr}

theorem CmdSpec.opds_mkReq (hn : ops.length = c.maxs.length) : c.opds (mkReq op h ops lst) = ops := by
  refine List.ext_getElem (by simp [CmdSpec.opds, hn]) fun k hk hk' => ?_
  simp only [CmdSpec.opds, List.getElem_map, List.getElem_range]
  exact opd_mkReq op h ops lst k hk'

theorem CmdSpec.lenOk_of_admits (ha : c.Admits ops lst) (hlen : h.len = 8 * ops.length + lst.length) : c.lenOk (mkReq op h ops lst) = true := by
  have hn := ha.most.length_eq
  have hfits := ha.fits
  simp only [CmdSpec.lenOk, mkReq_body_length, CmdSpec.opds_mkReq hn, ← hn, Nat.add_sub_cancel_left, ha.list, Bool.and_true, decide_eq_true_eq]
  exact ⟨hlen, by rw [mkReq_hdr, hlen]; exact hfits, Nat.le_add_right _ _⟩

theorem CmdSpec.badOp_of_admits (ha : c.Admits ops lst) : c.badOp (mkReq op h ops lst) = none := by
  refine List.find?_eq_none.2 fun k hk => ?_
  have hm : k < c.maxs.length := List.mem_range.1 hk
  have ho : k < ops.length := ha.most.length_eq.symm ▸ hm
  have hle : ops[k].toNat ≤ c.maxs[k] := ha.most.get ho hm
  have hge := Nat.not_lt.2 (atLeast_get ha.least ho)
  have hok := ha.valid k ops[k] (List.getElem?_eq_getElem ho)
  have hmax : ¬ops[k].toNat > c.maxs.getD k 0 := by
    rw [List.getD_eq_getElem _ _ hm]
    omega
  simp only [opd_mkReq op h ops lst k ho, hok, decide_eq_false hge, decide_eq_false hmax]
  decide

theorem CmdSpec.zeroOp_of_admits (ha : c.Admits ops lst) (hz : ∀ k ∈ c.zero, k < ops.length) : c.zeroOp (mkReq op h ops lst) = none := by
  refine List.find?_eq_none.2 fun k hk => ?_
  have hne := ha.zero k hk
  rw [List.getD_eq_getElem _ _ (hz k hk)] at hne
  rw [opd_mkReq op h ops lst k (hz k hk)]
  simpa using hne

/-- The checks of R405 pass for operands that the row admits, in a run state and with a lead that it allows. -/
theorem kCheck_of_admits {s : State} (m : Nat) (ha : c.Admits ops lst) (hz : ∀ k ∈ c.zero, k < ops.length) (hopen : s.isOpen = true)
    (hlen : h.len = 8 * ops.length + lst.length) (hat : h.at_ = c.cross ops) (hrsvd : h.rsvd = false) (hrun : c.runCode s = 0)
    (hlate : c.late s (mkReq op h ops lst) = false) : kCheck c m (mkReq op h ops lst) s = none :=
  kCheck_open hopen (CmdSpec.lenOk_of_admits ha hlen) (CmdSpec.badOp_of_admits ha) hrsvd
    (hat.trans (by rw [CmdSpec.opds_mkReq ha.most.length_eq])) (CmdSpec.zeroOp_of_admits ha hz) hrun hlate

end

/-! ### Long commands (15 R400, R407) -/

/-- What an owning chapter that takes up a long command leaves of the state it was asked in. -/
structure State.TakesUp (s u : State) : Prop where
  mbx : u.mbx = s.mbx
  jnl : u.jnl = s.jnl
  longs : u.kly.longs = s.kly.longs
  pairCfg : u.pair.cfg = s.pair.cfg

section
variable {c : KCmd} {h : CmdHdr} {op : Nat} {ops : List Dword} {lst : List Byte} {s : State}

/-- The row of a long command: it names no crossing, and its starred operands are among those that it has. -/
structure CmdSpec.Long (c : CmdSpec) (n : Nat) : Prop where
  cross : ∀ o, c.cross o = false
  zero : ∀ k ∈ c.zero, k < n

theorem CmdSpec.not_late_of_uncrossed {c : CmdSpec} {r : KReq} (hx : ∀ o, c.cross o = false) : c.late s r = false := by
  simp [CmdSpec.late, CmdSpec.atOnce, hx]

/-- The state with the mailboxes and the journal of another. -/
def State.asking (s v : State) : State := { s with mbx := v.mbx, jnl := v.jnl }

/-- The state in which Klowyn begins with a command differs in its mailbox and the journal alone. -/
theorem KCmd.asked_eq (c : KCmd) (r : KReq) (s : State) : c.asked r s = s.asking (c.asked r s) := by
  unfold KCmd.asked
  split <;> rfl

theorem KCmd.asked_mbx (c : KCmd) (r : KReq) (s : State) : (c.asked r s).mbx = (s.submitted r).mbx := by
  unfold KCmd.asked
  split <;> rfl

theorem KCmd.asked_jnl_head {r : KReq} (hj : c.spec.jrn = true) : (c.asked r s).jnl.head = s.jnl.head + 1 := by
  rw [KCmd.asked, if_pos hj]
  rfl

theorem KCmd.asked_jnl_of_query {r : KReq} (hj : c.spec.jrn = false) : (c.asked r s).jnl = s.jnl := by
  rw [KCmd.asked, hj]
  rfl

/-- A long command that the common checks pass and its chapter takes up: its mailbox stays BUSY, Klowyn works on it, and the rest is as the chapter
left it. -/
theorem kSubmit_takenUp {u : State} (hc : c.spec.Long ops.length) (hadm : c.spec.Admits ops lst)
    (ha : asks h (8 * ops.length + lst.length) false s = true) (hrun : c.spec.runCode s = 0)
    (ho : c.own (s.asking (c.asked (mkReq op h ops lst) s)) (c.entry (mkReq op h ops lst) s) = .long u)
    (hu : (s.asking (c.asked (mkReq op h ops lst) s)).TakesUp u) :
    GoesTo (kSubmit c (mkReq op h ops lst) s) fun t => WorksOn s t h op ∧ t.jnl = (c.asked (mkReq op h ops lst) s).jnl ∧
      t = { u with kly := t.kly, log := t.log } ∧
      t.kly = { u.kly with longs := u.kly.longs ++ [{ c.entry (mkReq op h ops lst) s with long := true }], lastMbx := h.mbx } := by
  obtain ⟨ht, hopen, hlen, hat, hrsvd⟩ := asks_iff.1 ha
  have hasked := c.asked_eq (mkReq op h ops lst) s
  have hpair : u.pairMode = false := by
    rw [State.pairMode, hu.pairCfg]
    exact State.pairMode_of_isOpen hopen
  have hcheck := kCheck_of_admits (op := op) (s := s.submitted (mkReq op h ops lst)) h.mbx hadm hc.zero hopen hlen (hat.trans (hc.cross ops).symm)
    hrsvd hrun (CmdSpec.not_late_of_uncrossed hc.cross)
  obtain ⟨log, hnote⟩ := c.note_frame (c.entry (mkReq op h ops lst) s) u
  have hsub := kSubmit_long ht hcheck ((congrArg₂ c.own hasked rfl).trans ho) (mirrors_alone c.spec hpair)
  rw [hnote] at hsub
  refine ⟨_, hsub, ⟨?_, { c.entry (mkReq op h ops lst) s with long := true }, ?_, rfl, rfl, rfl⟩, hu.jnl, rfl, rfl⟩
  · show (u.mbxOf h.mbx).busy = true
    rw [State.mbxOf, hu.mbx]
    show (tget Mbx.reset (c.asked _ s).mbx h.mbx).busy = true
    rw [c.asked_mbx]
    exact congrArg Mbx.busy (State.mbxOf_setMbx s h.mbx _)
  · show u.kly.longs ++ _ = _
    rw [hu.longs]
    rfl

/-- The same for a command that is journaled. -/
theorem kSubmit_takenUp_journaled {u : State} (hj : c.spec.jrn = true) (hc : c.spec.Long ops.length) (hadm : c.spec.Admits ops lst)
    (ha : asks h (8 * ops.length + lst.length) false s = true) (hrun : c.spec.runCode s = 0)
    (ho : c.own (s.asking (c.asked (mkReq op h ops lst) s)) (c.entry (mkReq op h ops lst) s) = .long u)
    (hu : (s.asking (c.asked (mkReq op h ops lst) s)).TakesUp u) :
    GoesTo (kSubmit c (mkReq op h ops lst) s) fun t => WorksOn s t h op ∧ Journals s t ∧ t = { u with kly := t.kly, log := t.log } ∧
      t.kly = { u.kly with longs := u.kly.longs ++ [{ c.entry (mkReq op h ops lst) s with long := true }], lastMbx := h.mbx } :=
  (kSubmit_takenUp hc hadm ha hrun ho hu).mono fun _ ⟨hworks, hjnl, ht, hk⟩ =>
    ⟨hworks, (congrArg Jnl.head hjnl).trans (KCmd.asked_jnl_head hj), ht, hk⟩

end

/-! ### What the owning chapters take up -/

section
variable {s : State} {w : Waiting}

/-- An admission of the bytes b into a slot, as its command names it (06 R182, R183). -/
def admissionOf (w : Waiting) (slot len : Nat) (b : List Byte) : Admission :=
  { w := w, slot := slot, img := parseImage b, meas := sha384 (digestInput b measIds), frame := sha384 (digestInput b frameIds)
    bytes := len, raw := b }

theorem ownAdmit_of_good {slot src o len : Nat} (hslot : (w.req.opd 0).toNat = slot) (hsrc : (w.req.opd 1).toNat = src)
    (ho : (if src = 0 then w.staged (w.req.opd 2).toNat else (w.req.opd 2).toNat) = o) (hlen : (w.req.opd 3).toNat = len)
    (huse : s.slotInUse slot = false) (hbytes : s.sourceBad src o len = false) (hroom : s.libHeld slot + granules len ≤ s.kly.cfg.libg)
    (hsig : s.sigBad (s.imageBytes src o len) = false)
    (hgood : admitBad s.dev.nc12 (if s.dev.nc12 then s.dev.dis else none) s.kly.cfg.libg s.boot.board (s.imageBytes src o len) len = none) :
    ownAdmit s w = .long { s with kly := { s.kly with admits := s.kly.admits ++ [admissionOf w slot len (s.imageBytes src o len)] } } := by
  simp only [ownAdmit, hslot, hsrc, ho, hlen, huse, hbytes, hsig, hgood, if_neg (Nat.not_lt.2 hroom)]
  rfl

theorem ownTload_of_staged {d : TblDesc × List CopyRec} (hd : s.loadDesc (w.req.opd 0).toNat = some d)
    (hf : ¬((w.req.opd 1).toNat.testBit 1 = true ∧ d.1.faces = 1)) (hfit : w.staged (w.req.opd 2).toNat + (w.req.opd 3).toNat ≤ 2 ^ 38)
    (hlen : (w.req.opd 3).toNat = loadLen d.1 (w.req.opd 1).toNat) : ownTload s w = .long s := by
  simp only [ownTload, hd]
  rw [if_neg hf, if_neg (Nat.not_lt.2 hfit), if_neg (not_not.2 hlen)]

/-- The rows staged for a TWRITE, with their bytes. -/
def State.stagedRows (s : State) (a n : Nat) : List (Nat × List Byte) :=
  (List.range n).map fun i => ((stagedRow s a i).1, (stagedRow s a i).2.2)

/-- The state with a TWRITE's bursts queued; while a swap of the table is in flight its rows are no updates yet (07 R236, R238). -/
def State.writeQueued (s : State) (j tid : Nat) (rows : List (Nat × List Byte)) : State :=
  let s1 := { s with alm := { s.alm with writes := s.alm.writes ++ (s.tab tid).bursts j tid (s.idleFace tid) rows } }
  if s.swapping tid then s1 else s1.setTab tid { s.tab tid with upd := (s.tab tid).upd ++ rows }

theorem State.writeQueued_frame (j tid : Nat) (rows : List (Nat × List Byte)) :
    s.writeQueued j tid rows = { s with alm := (s.writeQueued j tid rows).alm } ∧
    (s.writeQueued j tid rows).alm.writes = s.alm.writes ++ (s.tab tid).bursts j tid (s.idleFace tid) rows := by
  unfold State.writeQueued
  dsimp only
  split <;> exact ⟨rfl, rfl⟩

theorem ownTwrite_of_rows {d : TblDesc} {tid a n : Nat} (htid : (w.req.opd 0).toNat = tid) (ha : w.staged (w.req.opd 1).toNat = a)
    (hn : (w.req.opd 2).toNat = n) (hd : s.img.table tid = some d) (hf : d.faces ≠ 1) (hfit : a + 48 * n ≤ 2 ^ 38)
    (hrows : ∀ i, i < n → (stagedRow s a i).1 ≤ d.rows ∧ (stagedRow s a i).2.1 = if s.idleFace tid then 1 else 0) :
    ownTwrite s w = .long (s.writeQueued w.jseq tid (s.stagedRows a n)) := by
  have hgood : ((List.range n).map (stagedRow s a)).findIdx? (fun r => decide (r.1 > d.rows ∨ r.2.1 ≠ if s.idleFace tid then 1 else 0)) = none := by
    refine List.findIdx?_eq_none_iff.2 fun r hr => ?_
    obtain ⟨i, hi, rfl⟩ := List.mem_map.1 hr
    obtain ⟨hrow, hface⟩ := hrows i (List.mem_range.1 hi)
    exact decide_eq_false (by rintro (h | h); exacts [absurd hrow (Nat.not_le.2 h), h hface])
  simp only [ownTwrite, htid, ha, hn, hd, if_neg hf, if_neg (Nat.not_lt.2 hfit), hgood, List.map_map]
  rfl

theorem ownCapdrain_of_frozen (hst : s.cap.st = .frozen) (hdest : w.req.opd 0 = 1 ∨ s.log.active = false ∨ s.log.mode ≠ 2) :
    ownCapdrain s w = .long { s with cap := { s.cap with st := .draining } } := by
  have hfree : ¬(w.req.opd 0 = 0 ∧ s.log.active = true ∧ s.log.mode = 2) := by
    rintro ⟨h0, hact, hmode⟩
    obtain h | h | h := hdest
    · rw [h0] at h
      exact absurd h (by decide)
    · exact absurd (h.symm.trans hact) Bool.false_ne_true
    · exact h hmode
  rw [ownCapdrain, if_neg (not_not.2 hst), if_neg hfree]

/-- A lane's Sextant as an eye scan begins (09 R300, R302). -/
def Sext.scanning (x : Sext) (cfg : Word) (eye : BitVec 2) : Sext := { x with cfg := cfg, busy := true, eye := eye, done := 0 }

theorem ownEyescan_of_free {l : Nat} (hl : (w.req.opd 0).toNat = l) (hb : (s.sextOf l).busy = false) (hr : (s.lane l).role ≠ 0)
    (hk : (s.lane l).lock = true) :
    ownEyescan s w = .long ((s.setSext l ((s.sextOf l).scanning ((w.req.opd 1).extractLsb' 0 5 ++ (w.req.opd 2).extractLsb' 0 7 ++ (0 : BitVec 20))
      (if (s.lane l).ui = 2 then 0 else 1))).covered s true) := by
  have hfree : ¬((s.sextOf l).busy = true ∨ (s.lane l).role = 0 ∨ (!(s.lane l).lock) = true) := by simp [hb, hr, hk]
  simp only [ownEyescan, hl]
  exact if_neg hfree

theorem State.covered_frame (old : State) (learn : Bool) : s.covered old learn = { s with cig := (s.covered old learn).cig } := by
  unfold State.covered
  split <;> rfl

theorem ownSleep_of_idle (hb : s.pwr.busy = .none) :
    ownSleep s w = .long { s with pwr := { s.pwr with busy := .sleep (w.req.opd 0).toNat (some w) } } := if_neg (not_not.2 hb)

theorem ownPerflevel_of_other (hb : s.pwr.busy = .none) (hpl : (w.req.opd 0).toNat ≠ s.pwr.pl) :
    ownPerflevel s w = .long (s.startLevel (w.req.opd 0).toNat (some w)) := by
  simp only [ownPerflevel]
  rw [if_neg (not_not.2 hb), if_neg hpl]

theorem ownPerflevel_of_same (hb : s.pwr.busy = .none) (hpl : (w.req.opd 0).toNat = s.pwr.pl) : ownPerflevel s w = .now s 0 [] := by
  simp only [ownPerflevel]
  rw [if_neg (not_not.2 hb), if_pos hpl]

/-- A change of level begins: the level stands until it has completed (17 R474). -/
theorem State.startLevel_of_other {pl : Nat} (hpl : pl ≠ s.pwr.pl) : (s.startLevel pl (some w)).pwr.pl = s.pwr.pl ∧
    (s.startLevel pl (some w)).pwr.busy = .level pl (some w) ∧ s.startLevel pl (some w) = { s with pwr := (s.startLevel pl (some w)).pwr } := by
  unfold State.startLevel
  rw [if_neg hpl]
  dsimp only
  split <;> exact ⟨rfl, rfl, rfl⟩

/-- The launch that a TLAUNCH of a list asks for (13 R371). -/
def launchOf (w : Waiting) (lst : List Byte) : Launch :=
  { lane := (w.req.opd 0).toNat, time := launchTime w, body := patch (lst.drop 8) 0 (leBytes 16 (launchTime w).toNat)
    mbx := w.mbx, jseq := w.jseq, tag := w.req.hdr.tag }

theorem ownTlaunch_of_room {lst : List Byte} (hlst : w.req.list 3 = lst) (hp : launchPktOk lst = true) (hr : (s.lane (w.req.opd 0).toNat).role = 4)
    (ht : s.chr.now ≤ ((s.chr.units (launchTime w) : Nat) : Int) + 65536000) (hroom : s.chr.launches.length < 64) :
    ownTlaunch s w = .long { s with chr := { s.chr with launches := s.chr.launches ++ [launchOf w lst] } } := by
  simp only [ownTlaunch, hlst, hp, Bool.not_true, Bool.false_eq_true, if_false]
  rw [if_neg (not_not.2 hr), if_neg (not_lt.2 ht), if_neg (Nat.not_le.2 hroom)]
  rfl

end

section
variable {h : CmdHdr} {s : State}

/-! ### Admissions and tables (06 R182, 07 R225, R235) -/

theorem CmdSpec.long_row (op : Nat) (maxs mins zero : List Nat) (run : RunRule) (jrn mir : Bool) {n : Nat} (hz : ∀ k ∈ zero, k < n) :
    CmdSpec.Long { op := op, maxs := maxs, mins := mins, zero := zero, run := run, jrn := jrn, mir := mir } n := ⟨fun _ => rfl, hz⟩

/-- ADMIT of an image that passes its checks. -/
theorem execAdmit_takenUp {slot src off len : Dword} (ha : asks h 32 false s = true) (hslot : slot.toNat < 64) (hsrc : src.toNat ≤ 1)
    (hoff : off.toNat < 2 ^ 38) (hlen : len.toNat < 2 ^ 38) (hpos : len ≠ 0) (huse : s.slotInUse slot.toNat = false)
    {o : Nat} (ho : o = if src = 0 then s.bar4Addr off.toNat else off.toNat) (hbytes : s.sourceBad src.toNat o len.toNat = false)
    (hroom : s.libHeld slot.toNat + granules len.toNat ≤ s.kly.cfg.libg) (hsig : s.sigBad (s.imageBytes src.toNat o len.toNat) = false)
    (hgood : admitBad s.dev.nc12 (if s.dev.nc12 then s.dev.dis else none) s.kly.cfg.libg s.boot.board (s.imageBytes src.toNat o len.toNat)
      len.toNat = none) :
    GoesTo (execAdmit h slot src off len s) fun t => WorksOn s t h 0x0101 ∧ Journals s t ∧ t.kly.lib = s.kly.lib ∧
      ∃ a, t.kly.admits = s.kly.admits ++ [a] ∧ a.slot = slot.toNat ∧ a.raw = s.imageBytes src.toNat o len.toNat ∧
        a.img = parseImage (s.imageBytes src.toNat o len.toNat) := by
  have hadm : cmdAdmit.spec.Admits [slot, src, off, len] [] :=
    { fits := by simp
      most := .cons (Nat.le_of_lt_succ hslot) (.cons hsrc (.cons (Nat.le_of_lt_succ hoff) (.cons (Nat.le_of_lt_succ hlen) .nil)))
      least := trivial
      valid := fun _ _ _ => rfl
      list := rfl
      zero := by simpa [cmdAdmit] using hpos }
  have hzero : (src.toNat = 0) = (src = 0) := propext ⟨fun h => BitVec.eq_of_toNat_eq h, fun h => h ▸ rfl⟩
  have hown := ownAdmit_of_good (s := s.asking (cmdAdmit.asked (mkReq 0x0101 h [slot, src, off, len] []) s)) (w := cmdAdmit.entry (mkReq 0x0101 h [slot, src, off, len] []) s)
    (slot := slot.toNat) (src := src.toNat) (o := o) (len := len.toNat) (by simp) (by simp)
    (by simp only [KCmd.entry_req, opd_mkReq2, ho, hzero]; rfl) (by simp) huse hbytes hroom hsig hgood
  refine (kSubmit_takenUp_journaled (c := cmdAdmit) rfl (CmdSpec.long_row _ _ _ _ _ _ _ (by simp)) hadm ha (CmdSpec.runCode_any rfl) hown
    ⟨rfl, rfl, rfl, rfl⟩).mono fun t ⟨hworks, hj, _, hk⟩ => ⟨hworks, hj, ?_,
      admissionOf (cmdAdmit.entry (mkReq 0x0101 h [slot, src, off, len] []) s) slot.toNat len.toNat (s.imageBytes src.toNat o len.toNat), ?_, rfl, rfl, rfl⟩
  · rw [hk]
    rfl
  · rw [hk]
    rfl

theorem testBit_one_of_toNat (d : Dword) : d.toNat.testBit 1 = d.getLsbD 1 := rfl

/-- TLOAD of the staged lines of an admitted table. -/
theorem execTload_takenUp {tid faces off len : Dword} {d : TblDesc × List CopyRec} (ha : asks h 32 false s = true) (harm : s.armed = false)
    (htid : tid.toNat < 4096) (hf1 : 1 ≤ faces.toNat) (hf3 : faces.toNat ≤ 3) (hface : faces.getLsbD 1 = true → d.1.faces ≠ 1)
    (hoff : off.toNat < 2 ^ 38) (hfit : s.bar4Addr off.toNat + len.toNat ≤ 2 ^ 38) (hlen : len.toNat < 2 ^ 38) (hpos : len ≠ 0)
    (hd : s.loadDesc tid.toNat = some d) (hload : len.toNat = loadLen d.1 faces.toNat) :
    GoesTo (execTload h tid faces off len s) fun t => WorksOn s t h 0x0401 ∧ Journals s t ∧ t.alm = s.alm ∧ t.mem = s.mem := by
  have hadm : cmdTload.spec.Admits [tid, faces, off, len] [] :=
    { fits := by simp
      most := .cons (Nat.le_of_lt_succ htid) (.cons hf3 (.cons (Nat.le_of_lt_succ hoff) (.cons (Nat.le_of_lt_succ hlen) .nil)))
      least := ⟨Nat.zero_le _, hf1, trivial⟩
      valid := fun _ _ _ => rfl
      list := rfl
      zero := by simpa [cmdTload] using hpos }
  have hown : ownTload (s.asking (cmdTload.asked (mkReq 0x0401 h [tid, faces, off, len] []) s))
      (cmdTload.entry (mkReq 0x0401 h [tid, faces, off, len] []) s) = .long (s.asking (cmdTload.asked (mkReq 0x0401 h [tid, faces, off, len] []) s)) := by
    refine ownTload_of_staged (d := d) ?_ ?_ ?_ ?_ <;> simp only [KCmd.entry_req, opd_mkReq0, opd_mkReq1, opd_mkReq2, opd_mkReq3]
    · exact hd
    · exact fun ⟨hbit, hone⟩ => hface hbit hone
    · exact hfit
    · exact hload
  exact (kSubmit_takenUp_journaled (c := cmdTload) rfl (CmdSpec.long_row _ _ _ _ _ _ _ (by simp)) hadm ha (CmdSpec.runCode_no rfl harm) hown
    ⟨rfl, rfl, rfl, rfl⟩).mono fun t ⟨hworks, hj, ht, _⟩ => ⟨hworks, hj, by rw [ht]; rfl, by rw [ht]; rfl⟩

/-- TWRITE of staged rows within the table, each for the face that is idle. -/
theorem execTwrite_takenUp {tid off n : Dword} {d : TblDesc} {a : Nat} (ha : asks h 24 false s = true) (harm : s.armed = true)
    (htid : tid.toNat < 4096) (hoff : off.toNat < 2 ^ 38) (hpos : n ≠ 0) (hd : s.img.table tid.toNat = some d) (hf : d.faces ≠ 1)
    (haddr : a = s.bar4Addr off.toNat) (hfit : a + 48 * n.toNat ≤ 2 ^ 38)
    (hrows : ∀ i, i < n.toNat → (stagedRow s a i).1 ≤ d.rows ∧ (stagedRow s a i).2.1 = if s.idleFace tid.toNat then 1 else 0) :
    GoesTo (execTwrite h tid off n s) fun t => WorksOn s t h 0x0402 ∧ Journals s t ∧
      t.alm.writes = s.alm.writes ++ (s.tab tid.toNat).bursts (s.jnl.head + 1) tid.toNat (s.idleFace tid.toNat) (s.stagedRows a n.toNat) := by
  have hadm : cmdTwrite.spec.Admits [tid, off, n] [] :=
    { fits := by simp
      most := .cons (Nat.le_of_lt_succ htid) (.cons (Nat.le_of_lt_succ hoff) (.cons (by show n.toNat ≤ 2 ^ 38 - 1; omega) .nil))
      least := trivial
      valid := fun _ _ _ => rfl
      list := rfl
      zero := by simpa [cmdTwrite] using hpos }
  have hown := ownTwrite_of_rows (s := s.asking (cmdTwrite.asked (mkReq 0x0402 h [tid, off, n] []) s))
    (w := cmdTwrite.entry (mkReq 0x0402 h [tid, off, n] []) s) (d := d) (tid := tid.toNat) (a := a) (n := n.toNat) (by simp)
    (by simp only [KCmd.entry_req, opd_mkReq1, haddr]; rfl) (by simp) hd hf hfit hrows
  have hjseq : (cmdTwrite.entry (mkReq 0x0402 h [tid, off, n] []) s).jseq = s.jnl.head + 1 := rfl
  rw [hjseq] at hown
  obtain ⟨hframe, hwrites⟩ := (s.asking (cmdTwrite.asked (mkReq 0x0402 h [tid, off, n] []) s)).writeQueued_frame (s.jnl.head + 1) tid.toNat
    ((s.asking (cmdTwrite.asked (mkReq 0x0402 h [tid, off, n] []) s)).stagedRows a n.toNat)
  refine (kSubmit_takenUp_journaled (c := cmdTwrite) rfl (CmdSpec.long_row _ _ _ _ _ _ _ (by simp)) hadm ha
    (CmdSpec.runCode_yes rfl harm (.inr ⟨by decide, by decide⟩)) hown
    (by rw [hframe]; exact ⟨rfl, rfl, rfl, rfl⟩)).mono fun t ⟨hworks, hj, ht, _⟩ => ⟨hworks, hj, ?_⟩
  rw [ht]
  exact hwrites

/-! ### Histograms and lane alignment (15 R407, 09 R303) -/

/-- HISTO of a tensor or a context, in a run. -/
theorem execHisto_takenUp {target samples : Dword} (ha : asks h 16 false s = true) (harm : s.armed = true) (htarget : histoTargetOk target = true)
    (hpos : samples ≠ 0) :
    GoesTo (execHisto h target samples s) fun t => WorksOn s t h 0x0A03 ∧ t.jnl = s.jnl ∧
      ∃ k, t.kly.histo = s.kly.histo ++ [k] ∧ k.target = target ∧ k.left = samples.toNat ∧ k.bins = [] := by
  have hadm : cmdHisto.spec.Admits [target, samples] [] :=
    { fits := by simp
      most := .cons (Nat.le_of_lt_succ target.isLt) (.cons (Nat.le_of_lt_succ samples.isLt) .nil)
      least := trivial
      valid := fun k d hk => by
        cases k with
        | zero =>
          obtain rfl : target = d := by simpa using hk
          exact htarget
        | succ k => rfl
      list := rfl
      zero := by simpa [cmdHisto] using hpos }
  have hlong : cmdHisto.spec.Long [target, samples].length := ⟨fun _ => rfl, by simp [cmdHisto]⟩
  refine (kSubmit_takenUp (c := cmdHisto) hlong hadm ha (CmdSpec.runCode_yes rfl harm (.inr ⟨by decide, by decide⟩)) (u := _) rfl
    ⟨rfl, rfl, rfl, rfl⟩).mono fun t ⟨hworks, hj, _, hk⟩ => ⟨hworks, hj.trans (KCmd.asked_jnl_of_query rfl),
      { target := target, left := samples.toNat, bins := [], w := cmdHisto.entry (mkReq 0x0A03 h [target, samples] []) s }, ?_, rfl, rfl, rfl⟩
  rw [hk]
  simp [State.asking]

/-- LANEALIGN in a run. -/
theorem execLanealign_takenUp (ha : asks h 0 false s = true) (harm : s.armed = true) :
    GoesTo (execLanealign h s) fun t => WorksOn s t h 0x0A06 ∧ Journals s t ∧
      ∃ a, t.kly.align = s.kly.align ++ [a] ∧ a.left = 65536 ∧ a.minSl = 65535 := by
  have hadm : cmdLanealign.spec.Admits [] [] :=
    { fits := by simp, most := .nil, least := trivial, valid := fun _ _ _ => rfl, list := rfl, zero := by simp [cmdLanealign] }
  refine (kSubmit_takenUp_journaled (c := cmdLanealign) rfl (CmdSpec.long_row _ _ _ _ _ _ _ (by simp)) hadm ha
    (CmdSpec.runCode_yes rfl harm (.inr ⟨by decide, by decide⟩)) (u := _) rfl ⟨rfl, rfl, rfl, rfl⟩).mono fun t ⟨hworks, hj, _, hk⟩ =>
      ⟨hworks, hj, { w := cmdLanealign.entry (mkReq 0x0A06 h [] []) s, left := 65536, minSl := 65535 }, ?_, rfl, rfl⟩
  rw [hk]
  rfl

/-! ### Drains and eye scans (08 R266, 09 R300, R302) -/

/-- CAPDRAIN of a frozen buffer. -/
theorem execCapdrain_takenUp {dest haddr : Dword} (ha : asks h 16 false s = true) (hdest : dest.toNat ≤ 1) (hst : s.cap.st = .frozen)
    (hfree : dest = 1 ∨ s.log.active = false ∨ s.log.mode ≠ 2) :
    GoesTo (execCapdrain h dest haddr s) fun t => WorksOn s t h 0x0603 ∧ Journals s t ∧ t.cap = { s.cap with st := .draining } := by
  have hadm : cmdCapdrain.spec.Admits [dest, haddr] [] :=
    { fits := by simp
      most := .cons hdest (.cons (Nat.le_of_lt_succ haddr.isLt) .nil)
      least := trivial, valid := fun _ _ _ => rfl, list := rfl, zero := by simp [cmdCapdrain] }
  have hown := ownCapdrain_of_frozen (s := s.asking (cmdCapdrain.asked (mkReq 0x0603 h [dest, haddr] []) s))
    (w := cmdCapdrain.entry (mkReq 0x0603 h [dest, haddr] []) s) hst (by rw [KCmd.entry_req, opd_mkReq0]; exact hfree)
  exact (kSubmit_takenUp_journaled (c := cmdCapdrain) rfl (CmdSpec.long_row _ _ _ _ _ _ _ (by simp)) hadm ha (CmdSpec.runCode_any rfl) hown
    ⟨rfl, rfl, rfl, rfl⟩).mono fun t ⟨hworks, hj, ht, _⟩ => ⟨hworks, hj, by rw [ht]; rfl⟩

/-- EYESCAN of a locked lane with a role and no scan in progress. -/
theorem execEyescan_takenUp {lane dwell ethr haddr : Dword} (ha : asks h 32 false s = true) (hlane : lane.toNat < 64) (hlo : 16 ≤ dwell.toNat)
    (hhi : dwell.toNat ≤ 31) (hethr : ethr.toNat ≤ 127) (hpos : haddr ≠ 0) (hb : (s.sextOf lane.toNat).busy = false)
    (hr : (s.lane lane.toNat).role ≠ 0) (hk : (s.lane lane.toNat).lock = true) :
    GoesTo (execEyescan h lane dwell ethr haddr s) fun t => WorksOn s t h 0x0A04 ∧ Journals s t ∧
      (t.sextOf lane.toNat).busy = true ∧ (t.sextOf lane.toNat).cfg = dwell.extractLsb' 0 5 ++ ethr.extractLsb' 0 7 ++ (0 : BitVec 20) ∧
      (t.sextOf lane.toNat).done = 0 ∧ t.lanes = s.lanes := by
  have hadm : cmdEyescan.spec.Admits [lane, dwell, ethr, haddr] [] :=
    { fits := by simp
      most := .cons (Nat.le_of_lt_succ hlane) (.cons hhi (.cons hethr (.cons (Nat.le_of_lt_succ haddr.isLt) .nil)))
      least := ⟨Nat.zero_le _, hlo, trivial⟩, valid := fun _ _ _ => rfl, list := rfl, zero := by simpa [cmdEyescan] using hpos }
  have hown := ownEyescan_of_free (s := s.asking (cmdEyescan.asked (mkReq 0x0A04 h [lane, dwell, ethr, haddr] []) s))
    (w := cmdEyescan.entry (mkReq 0x0A04 h [lane, dwell, ethr, haddr] []) s) (l := lane.toNat) (by simp) hb hr hk
  simp only [KCmd.entry_req, opd_mkReq1, opd_mkReq2] at hown
  refine (kSubmit_takenUp_journaled (c := cmdEyescan) rfl (CmdSpec.long_row _ _ _ _ _ _ _ (by simp)) hadm ha (CmdSpec.runCode_any rfl) hown
    (by rw [State.covered_frame]; exact ⟨rfl, rfl, rfl, rfl⟩)).mono fun t ⟨hworks, hj, ht, _⟩ => ?_
  rw [State.covered_frame] at ht
  have hsext : t.sextOf lane.toNat = (s.sextOf lane.toNat).scanning (dwell.extractLsb' 0 5 ++ ethr.extractLsb' 0 7 ++ (0 : BitVec 20))
      (if (s.lane lane.toNat).ui = 2 then 0 else 1) := by
    rw [ht]
    exact tget_tset_same _ _ _ _
  refine ⟨hworks, hj, ?_, ?_, ?_, by rw [ht]; rfl⟩ <;> rw [hsext] <;> rfl

/-! ### Sleep states and levels (17 R474, R477) -/

/-- SLEEP outside a run. -/
theorem execSleep_takenUp {st : Dword} (ha : asks h 8 false s = true) (harm : s.armed = false) (hlo : 1 ≤ st.toNat) (hhi : st.toNat ≤ 3)
    (hb : s.pwr.busy = .none) :
    GoesTo (execSleep h st s) fun t => WorksOn s t h 0x0B01 ∧ Journals s t ∧ t.pwr.sst = s.pwr.sst ∧ ∃ w, t.pwr.busy = .sleep st.toNat (some w) := by
  have hadm : cmdSleep.spec.Admits [st] [] :=
    { fits := by simp, most := .cons hhi .nil, least := ⟨hlo, trivial⟩, valid := fun _ _ _ => rfl, list := rfl, zero := by simp [cmdSleep] }
  have hown := ownSleep_of_idle (s := s.asking (cmdSleep.asked (mkReq 0x0B01 h [st] []) s)) (w := cmdSleep.entry (mkReq 0x0B01 h [st] []) s) hb
  rw [KCmd.entry_req, opd_mkReq0] at hown
  exact (kSubmit_takenUp_journaled (c := cmdSleep) rfl (CmdSpec.long_row _ _ _ _ _ _ _ (by simp)) hadm ha (CmdSpec.runCode_no rfl harm) hown
    ⟨rfl, rfl, rfl, rfl⟩).mono fun t ⟨hworks, hj, ht, _⟩ => ⟨hworks, hj, by rw [ht]; rfl,
      cmdSleep.entry (mkReq 0x0B01 h [st] []) s, by rw [ht]⟩

theorem cmdPerflevel_admits {pl : Dword} (hpl : pl.toNat ≤ 2) : cmdPerflevel.spec.Admits [pl] [] :=
  { fits := by simp, most := .cons hpl .nil, least := trivial, valid := fun _ _ _ => rfl, list := rfl, zero := by simp [cmdPerflevel] }

/-- PERFLEVEL of another level than the present one. -/
theorem execPerflevel_takenUp {pl : Dword} (ha : asks h 8 false s = true) (harm : s.armed = false) (hpl : pl.toNat ≤ 2) (hb : s.pwr.busy = .none)
    (hne : pl.toNat ≠ s.pwr.pl) :
    GoesTo (execPerflevel h pl s) fun t => WorksOn s t h 0x0B02 ∧ Journals s t ∧ t.pwr.pl = s.pwr.pl ∧
      ∃ w, t.pwr.busy = .level pl.toNat (some w) := by
  have hown := ownPerflevel_of_other (s := s.asking (cmdPerflevel.asked (mkReq 0x0B02 h [pl] []) s))
    (w := cmdPerflevel.entry (mkReq 0x0B02 h [pl] []) s) hb (by rw [KCmd.entry_req, opd_mkReq0]; exact hne)
  rw [KCmd.entry_req, opd_mkReq0] at hown
  obtain ⟨hlevel, hbusy, hframe⟩ := State.startLevel_of_other (s := s.asking (cmdPerflevel.asked (mkReq 0x0B02 h [pl] []) s))
    (w := cmdPerflevel.entry (mkReq 0x0B02 h [pl] []) s) hne
  refine (kSubmit_takenUp_journaled (c := cmdPerflevel) rfl (CmdSpec.long_row _ _ _ _ _ _ _ (by simp)) (cmdPerflevel_admits hpl) ha
    (CmdSpec.runCode_no rfl harm) hown (by rw [hframe]; exact ⟨rfl, rfl, rfl, rfl⟩)).mono fun t ⟨hworks, hj, ht, _⟩ => ⟨hworks, hj, ?_,
      cmdPerflevel.entry (mkReq 0x0B02 h [pl] []) s, ?_⟩
  · rw [ht]
    exact hlevel
  · rw [ht]
    exact hbusy

/-- PERFLEVEL of the present level completes at once. -/
theorem execPerflevel_completes {pl : Dword} (ha : asks h 8 false s = true) (harm : s.armed = false) (hpl : pl.toNat ≤ 2) (hb : s.pwr.busy = .none)
    (heq : pl.toNat = s.pwr.pl) :
    GoesTo (execPerflevel h pl s) fun t => Completes s t h 0x0B02 0 ∧ Journals s t ∧ t.pwr = s.pwr := by
  obtain ⟨ht, hopen, hlen, hat, hrsvd⟩ := asks_iff.1 ha
  have hcheck := kCheck_of_admits (c := cmdPerflevel.spec) (op := 0x0B02) (s := s.submitted (mkReq 0x0B02 h [pl] [])) h.mbx
    (cmdPerflevel_admits hpl) (by simp [cmdPerflevel]) hopen hlen hat hrsvd (CmdSpec.runCode_no rfl harm)
    (CmdSpec.not_late_of_uncrossed fun _ => rfl)
  have hasked := cmdPerflevel.asked_eq (mkReq 0x0B02 h [pl] []) s
  have hown := ownPerflevel_of_same (s := s.asking (cmdPerflevel.asked (mkReq 0x0B02 h [pl] []) s))
    (w := cmdPerflevel.entry (mkReq 0x0B02 h [pl] []) s) hb (by rw [KCmd.entry_req, opd_mkReq0]; exact heq)
  rw [← hasked] at hown
  refine (kSubmit_accepted (c := cmdPerflevel) (r := mkReq 0x0B02 h [pl] []) (op := 0x0B02) rfl rfl (fun _ => rfl) rfl rfl ht hcheck hown rfl rfl).mono
    fun t ⟨hcomp, hj, hans, _⟩ => ⟨hcomp, hj, ?_⟩
  rw [hans, hasked]
  rfl

/-! ### Launches (13 R371) -/

/-- Where every launch command in progress has its launch, none is dropped. -/
theorem State.dropLate_of_waiting (hall : (s.kly.longs.all fun w => w.req.op.toNat != 0x0902 || s.chr.launches.any fun q => q.jseq == w.jseq) = true) :
    s.dropLate = s := by
  have hnone : s.kly.longs.filter (fun w => w.req.op.toNat == 0x0902 && !s.launchWaits w.jseq) = [] := by
    refine List.filter_eq_nil_iff.2 fun w hw => ?_
    have hq := List.all_eq_true.1 hall w hw
    rw [Bool.or_eq_true] at hq
    obtain hop | hq := hq
    · simp [bne_iff_ne.1 hop]
    · simp [State.launchWaits, hq]
  unfold State.dropLate
  rw [hnone]
  rfl

/-- TLAUNCH of a frame on a hub lane that is not too late. -/
theorem execTlaunch_takenUp {lane lo hi : Dword} {lst : List Byte} (ha : asks h (24 + lst.length) false s = true) (hlane : lane.toNat < 64)
    (hp : launchPktOk lst = true) (hr : (s.lane lane.toNat).role = 4)
    (htime : s.chr.now ≤ ((s.chr.units (hi ++ lo) : Nat) : Int) + 65536000) (hroom : s.chr.launches.length < 64)
    (hall : (s.kly.longs.all fun w => w.req.op.toNat != 0x0902 || s.chr.launches.any fun q => q.jseq == w.jseq) = true) :
    GoesTo (execTlaunch h lane lo hi lst s) fun t => WorksOn s t h 0x0902 ∧ Journals s t ∧
      ∃ q, t.chr.launches = s.chr.launches ++ [q] ∧ q.lane = lane.toNat ∧ q.time = (hi ++ lo : BitVec (64 + 64)) := by
  have hsize : lst.length ≤ 2048 := by
    simp only [launchPktOk, Bool.and_eq_true, decide_eq_true_eq] at hp
    exact hp.1.1.2.1
  have hadm : cmdTlaunch.spec.Admits [lane, lo, hi] lst :=
    { fits := by
        show 24 + lst.length ≤ 4032
        omega
      most := .cons (Nat.le_of_lt_succ hlane) (.cons (Nat.le_of_lt_succ lo.isLt) (.cons (Nat.le_of_lt_succ hi.isLt) .nil))
      least := trivial, valid := fun _ _ _ => rfl, list := decide_eq_true hsize, zero := by simp [cmdTlaunch] }
  have hlong : cmdTlaunch.spec.Long [lane, lo, hi].length := ⟨fun _ => rfl, by simp [cmdTlaunch]⟩
  have htm : launchTime (cmdTlaunch.entry (mkReq 0x0902 h [lane, lo, hi] lst) s) = hi ++ lo := by
    simp [launchTime]
  have hopd : (cmdTlaunch.entry (mkReq 0x0902 h [lane, lo, hi] lst) s).req.opd 0 = lane := opd_mkReq0 _ _ _ _ _
  have hown := ownTlaunch_of_room (s := s.asking (cmdTlaunch.asked (mkReq 0x0902 h [lane, lo, hi] lst) s))
    (w := cmdTlaunch.entry (mkReq 0x0902 h [lane, lo, hi] lst) s) (list_mkReq 0x0902 h [lane, lo, hi] lst) hp
    (by rw [hopd]; exact hr) (by rw [htm]; exact htime) hroom
  obtain ⟨t, ht, hworks, hj, hframe, hk⟩ := kSubmit_takenUp_journaled (c := cmdTlaunch) rfl hlong hadm ha (CmdSpec.runCode_any rfl) hown ⟨rfl, rfl, rfl, rfl⟩
  have hlaunches : t.chr.launches = s.chr.launches ++ [launchOf (cmdTlaunch.entry (mkReq 0x0902 h [lane, lo, hi] lst) s) lst] := by
    rw [hframe]
    rfl
  have hstays : t.dropLate = t := by
    refine State.dropLate_of_waiting (List.all_eq_true.2 fun w hw => ?_)
    have hlongs : t.kly.longs = s.kly.longs ++ [{ cmdTlaunch.entry (mkReq 0x0902 h [lane, lo, hi] lst) s with long := true }] := by
      rw [hk]
      rfl
    rw [hlongs, List.mem_append, List.mem_singleton] at hw
    rw [hlaunches, List.any_append]
    obtain hw | rfl := hw
    · have hq := List.all_eq_true.1 hall w hw
      rw [← Bool.or_assoc, hq, Bool.true_or]
    · simp [launchOf]
  refine ⟨t, ?_, hworks, hj, _, hlaunches, congrArg BitVec.toNat hopd, htm⟩
  rw [execTlaunch, ht]
  exact congrArg Host.Outcome.next hstays

end

end Sys2Proof.Machine

open Sys2Proof Sys2Proof.Machine

/-- Settles O31: one long command after the other. -/
theorem longCommandsAreTakenUp : Obligations.LongCommandsAreTakenUp := by
  unfold Obligations.LongCommandsAreTakenUp
  refine ⟨?_, ?_, ?_, fun h target samples s => execHisto_takenUp, fun h dest haddr s => execCapdrain_takenUp,
    fun h lane dwell ethr haddr s => execEyescan_takenUp, fun h s => execLanealign_takenUp, fun h st s => execSleep_takenUp,
    fun h pl s ha harm hpl hb => ⟨execPerflevel_takenUp ha harm hpl hb, execPerflevel_completes ha harm hpl hb⟩,
    fun h lane lo hi lst s => execTlaunch_takenUp⟩
  · intro h slot src off len s ha hslot hsrc hoff hlen hpos huse o b hbytes hroom hsig hgood
    exact execAdmit_takenUp ha hslot hsrc hoff hlen hpos huse rfl hbytes hroom hsig hgood
  · intro h tid faces off len d s ha harm htid hf1 hf3 hface hoff hfit hlen hpos hd hload
    exact execTload_takenUp ha harm htid hf1 hf3 hface hoff hfit hlen hpos hd hload
  · intro h tid off n d s ha harm htid hoff hpos hd hf a hfit hrows
    exact execTwrite_takenUp ha harm htid hoff hpos hd hf rfl hfit hrows

end

section
/-! PROOFS. Announced commands as they are accepted (15 R400, R404 to R410): outside a run their effect and its notice follow at once, in a run they
wait for their crossing. -/

namespace Sys2Proof.Machine

/-! ### Recordings (14 R390) -/

/-- A logbook without its list of events and what a full list sets. -/
def LogState.lessEvents (g : LogState) : LogState := { g with events := [], evtOvf := false, broken := none }

theorem State.logEvent_lessEvents (s : State) (e : LogEvt) : (s.logEvent e).log.lessEvents = s.log.lessEvents := by
  unfold State.logEvent
  split
  · rfl
  · split <;> rfl

theorem State.logWaiting_lessEvents (s : State) : s.logWaiting.log.lessEvents = s.log.lessEvents :=
  foldl_same (fun u : State => u.log.lessEvents) _ (fun u w => u.logEvent_lessEvents (.cmd w)) _ s

theorem State.logWaiting_frame (s : State) : s.logWaiting = { s with log := s.logWaiting.log } := by
  have hless : ({ s.logWaiting with log := s.log } : State) = { s with log := s.log } :=
    foldl_same (fun u : State => ({ u with log := s.log } : State)) (fun u w => u.logEvent (.cmd w)) (fun u w => by
      obtain ⟨log, hu⟩ := u.logEvent_frame (.cmd w)
      rw [hu]) _ s
  have hback := congrArg (fun u : State => ({ u with log := s.logWaiting.log } : State)) hless
  exact hback

/-! ### Commands that name their crossing (15 R406, R407) -/

/-- The row of a journaled command that names a crossing and starts no run. -/
structure CmdSpec.Announced (c : CmdSpec) (op : Nat) (ops : List Dword) : Prop where
  code : c.op = op
  cross : c.cross ops = true
  jrn : c.jrn = true
  run : c.run = .any
  zero : ∀ k ∈ c.zero, k < ops.length
  starts : startsRun op = false

section
variable {c : KCmd} {h : CmdHdr} {op : Nat} {ops : List Dword} {lst : List Byte} {s u : State}

theorem CmdSpec.Announced.atOnce (hc : c.spec.Announced op ops) (hadm : c.spec.Admits ops lst) :
    c.spec.atOnce (s.submitted (mkReq op h ops lst)) (mkReq op h ops lst) = !s.armed := by
  rw [CmdSpec.atOnce, CmdSpec.opds_mkReq hadm.most.length_eq, hc.cross, hc.code, hc.starts]
  simp only [Bool.not_true, Bool.false_or, Bool.not_false, Bool.and_true]
  rfl

theorem CmdSpec.Announced.cross_mkReq (hc : c.spec.Announced op ops) (hadm : c.spec.Admits ops lst) :
    c.spec.cross (c.spec.opds (mkReq op h ops lst)) = true := by
  rw [CmdSpec.opds_mkReq hadm.most.length_eq, hc.cross]

/-- The checks of R405, with the lead kept where a run is armed. -/
theorem kCheck_of_announced (hc : c.spec.Announced op ops) (hadm : c.spec.Admits ops lst)
    (ha : asks h (8 * ops.length + lst.length) true s = true) (hlead : s.armed = true → s.keepsLead h op = true) :
    kCheck c.spec h.mbx (mkReq op h ops lst) (s.submitted (mkReq op h ops lst)) = none := by
  obtain ⟨-, hopen, hlen, hat, hrsvd⟩ := asks_iff.1 ha
  refine kCheck_of_admits h.mbx hadm hc.zero hopen hlen (hat.trans hc.cross.symm) hrsvd (CmdSpec.runCode_any hc.run) ?_
  cases harm : s.armed with
  | false => rw [CmdSpec.late, hc.atOnce hadm, harm]; rfl
  | true =>
    refine CmdSpec.not_late (s := s.submitted _) ?_
    rw [hc.code]
    exact hlead harm

/-- The answer to a command outside a pair changes mailboxes, interrupts, journal and log alone; of the log its events. -/
theorem KCmd.answered_frame (c : KCmd) (hp : u.pairMode = false) (w : Waiting) :
    c.answered u w 0 [] = { u with mbx := (c.answered u w 0 []).mbx, host := (c.answered u w 0 []).host, jnl := (c.answered u w 0 []).jnl
                                   log := (c.answered u w 0 []).log } ∧
    (c.answered u w 0 []).jnl.head = u.jnl.head ∧ (c.answered u w 0 []).log.lessEvents = u.log.lessEvents := by
  refine ⟨c.answered_eq w 0 [] (mirrors_alone c.spec hp), ?_, ?_⟩
  · rw [KCmd.answered, KCmd.note_jnl, kFinish_alone_jnl_head hp]
  · rw [← kFinish_alone_log (c := c.spec) hp w 0 [], KCmd.answered, KCmd.note]
    split
    · exact State.logEvent_lessEvents _ _
    · rfl

/-- An announced command in a run: it completes and waits for its crossing; the rest is as its chapter left it. -/
theorem kSubmit_waitsForCrossing (hc : c.spec.Announced op ops) (hadm : c.spec.Admits ops lst)
    (ha : asks h (8 * ops.length + lst.length) true s = true) (harm : s.armed = true) (hlead : s.keepsLead h op = true)
    (ho : c.own (s.asking (c.asked (mkReq op h ops lst) s)) (c.entry (mkReq op h ops lst) s) = .now u 0 [])
    (hu : (s.asking (c.asked (mkReq op h ops lst) s)).Owned u) :
    GoesTo (kSubmit c (mkReq op h ops lst) s) fun t => WaitsFor s t h op (s.target h) ∧ Journals s t ∧ u.AnswerOf t ∧
      t.log.lessEvents = u.log.lessEvents := by
  obtain ⟨ht, hopen, -, -, -⟩ := asks_iff.1 ha
  have hpair : u.pairMode = false := hu.pairMode.trans (State.pairMode_of_isOpen hopen)
  have hmir := mirrors_alone c.spec hpair
  obtain ⟨hframe, hhead, hlog⟩ := c.answered_frame hpair (c.entry (mkReq op h ops lst) s)
  have hnow : c.spec.atOnce (s.submitted (mkReq op h ops lst)) (mkReq op h ops lst) = false := by rw [hc.atOnce hadm, harm]; rfl
  have hsub := kSubmit_waits ht (kCheck_of_announced hc hadm ha fun _ => hlead) ((congrArg₂ c.own (c.asked_eq _ s) rfl).trans ho)
    (hc.cross_mkReq hadm) hnow
  refine ⟨_, hsub, ⟨?_, c.entry (mkReq op h ops lst) s, ?_, rfl, rfl, rfl, ?_⟩, ?_, ?_, hlog⟩
  · refine completes_answered ht hmir ?_ rfl rfl
    rw [State.mbxOf, State.mbxOf, hu.mbx, ← c.asked_mbx]
    rfl
  · show (c.answered u _ 0 []).kly.waiting ++ _ = _
    rw [hframe, hu.kly]
    rfl
  · simp only [KCmd.entry, State.mkWaiting, hnow]
    rfl
  · show (c.answered u _ 0 []).jnl.head = _
    rw [hhead, hu.jnl]
    exact KCmd.asked_jnl_head hc.jrn
  · rw [State.AnswerOf, State.served, State.await, hframe]

/-- A mailbox with room keeps a completion in it as the notice of effect is posted behind. -/
theorem Mbx.push_ring_ne (b : Mbx) (e : RingEntry) {k : Nat} (h : k ≠ b.prod.toNat) : tfind (b.push e).ring k = tfind b.ring k :=
  tfind_tset_ne _ _ h

theorem prod_ne_succ (p : BitVec 6) : p.toNat ≠ (p + 1).toNat := by bv_omega

/-- An announced command outside a run: it completes, its effect is in force, and the notice stands behind the completion. -/
theorem kSubmit_takesEffect (hc : c.spec.Announced op ops) (hadm : c.spec.Admits ops lst)
    (ha : asks h (8 * ops.length + lst.length) true s = true) (harm : s.armed = false)
    (ho : c.own (s.asking (c.asked (mkReq op h ops lst) s)) (c.entry (mkReq op h ops lst) s) = .now u 0 [])
    (hu : (s.asking (c.asked (mkReq op h ops lst) s)).Owned u)
    (hmbx : ∀ v w, (c.act v w).mbx = v.mbx) (hjnl : ∀ v w, (c.act v w).jnl = v.jnl) :
    (c.entry (mkReq op h ops lst) s).at_ = s.cn ∧
    GoesTo (kSubmit c (mkReq op h ops lst) s) fun t => Completes s t h op 0 ∧ Notices s t h op s.cn ∧ Journals s t ∧
      ∃ v, v = { u with mbx := v.mbx, host := v.host, jnl := v.jnl, log := v.log } ∧ v.log.lessEvents = u.log.lessEvents ∧
        t = ((c.act v (c.entry (mkReq op h ops lst) s)).effectNotice (c.entry (mkReq op h ops lst) s) s.cn).served h.mbx := by
  obtain ⟨ht, hopen, -, -, -⟩ := asks_iff.1 ha
  obtain ⟨hm, -, -, hheld, -, hused⟩ := State.takes_iff.1 ht
  have hpair : u.pairMode = false := hu.pairMode.trans (State.pairMode_of_isOpen hopen)
  have hmir := mirrors_alone c.spec hpair
  obtain ⟨hframe, hhead, hlog⟩ := c.answered_frame hpair (c.entry (mkReq op h ops lst) s)
  have hnow : c.spec.atOnce (s.submitted (mkReq op h ops lst)) (mkReq op h ops lst) = true := by rw [hc.atOnce hadm, harm]; rfl
  have hsub := kSubmit_atOnce ht (kCheck_of_announced hc hadm ha fun h1 => absurd (h1.symm.trans harm) (by decide))
    ((congrArg₂ c.own (c.asked_eq _ s) rfl).trans ho) (hc.cross_mkReq hadm) hnow
  have hbox : u.mbxOf h.mbx = (s.mbxOf h.mbx).submit (mkReq op h ops lst) := by
    rw [State.mbxOf, hu.mbx]
    show tget Mbx.reset (c.asked _ s).mbx h.mbx = _
    rw [c.asked_mbx]
    exact State.mbxOf_setMbx s h.mbx _
  obtain ⟨hbusy, -, hheld', hused', hprod, -, e, hring, htag, hop, hstatus, hkind, hrec⟩ :=
    c.answered_mbx (c.entry (mkReq op h ops lst) s) 0 [] hmir hm (hbox ▸ Nat.lt_of_le_of_lt hused (by decide)) (hbox ▸ hheld)
  rw [KCmd.entry_mbx] at hbusy hheld' hused' hprod hring
  rw [mkReq_hdr] at hbusy hheld' hused' hprod hring
  rw [hbox] at hused' hprod hring
  generalize hv : c.answered u (c.entry (mkReq op h ops lst) s) 0 [] = v at *
  have hact : (c.act v (c.entry (mkReq op h ops lst) s)).mbxOf h.mbx = v.mbxOf h.mbx := by rw [State.mbxOf, hmbx, State.mbxOf]
  have hafter := State.mbxOf_effectNotice (s := c.act v (c.entry (mkReq op h ops lst) s)) (w := c.entry (mkReq op h ops lst) s) (c := s.cn) hm
    (by rw [KCmd.entry_mbx, mkReq_hdr, hact, hused']; exact Nat.lt_of_le_of_lt (Nat.succ_le_succ hused) (by decide))
    (by rw [KCmd.entry_mbx, mkReq_hdr, hact, hheld'])
  rw [KCmd.entry_mbx, mkReq_hdr, hact] at hafter
  have hprod' : (v.mbxOf h.mbx).prod = (s.mbxOf h.mbx).prod + 1 := hprod
  refine ⟨by simp only [KCmd.entry, State.mkWaiting, hnow]; rfl, _, hsub, ⟨?_, e, ?_, htag, hop, hstatus, hkind, hrec⟩, ?_, ?_, v, hframe, hlog, rfl⟩
  · show (State.mbxOf (State.effectNotice _ _ _) h.mbx).busy = false
    rw [hafter, Mbx.push, hbusy]
    rfl
  · show tfind (State.mbxOf (State.effectNotice _ _ _) h.mbx).ring _ = _
    rw [hafter, Mbx.push_ring_ne _ _ (by rw [hprod']; exact prod_ne_succ _), hring]
    exact tfind_tset_same _ _ _
  · show ∃ e, tfind (State.mbxOf (State.effectNotice _ _ _) h.mbx).ring _ = _ ∧ _
    rw [hafter, ← hprod']
    exact ⟨_, tfind_tset_same _ _ _, rfl, rfl, rfl, rfl⟩
  · show (State.effectNotice _ _ _).jnl.head = _
    rw [State.effectNotice, State.post_jnl]
    show (c.act v _).jnl.head = _
    rw [hjnl, hhead, hu.jnl]
    exact KCmd.asked_jnl_head hc.jrn

end

/-! ### What each announced command asks of its operands, and its acceptance (15 R403, R407) -/

section
variable {s : State} {w : Waiting}

theorem wgmcommitOk_iff {clear count : Dword} {lst : List Byte} : wgmcommitOk clear count lst s = true ↔
    (clear.toNat ≤ 1 ∧ count ≠ 0 ∧ lst.length = 16 * count.toNat ∧ lst.length ≤ 4016) ∧ wgmCommitBad s (wgmEnts lst count.toNat) = none := by
  simp [wgmcommitOk, and_assoc]

theorem cmdWgmcommit_admits {clear count : Dword} {lst : List Byte} (h : wgmcommitOk clear count lst s = true) :
    cmdWgmcommit.spec.Admits [clear, count] lst := by
  obtain ⟨⟨hclear, hpos, hlen, hfits⟩, -⟩ := wgmcommitOk_iff.1 h
  exact
    { fits := by
        show 16 + lst.length ≤ 4032
        omega
      most := .cons hclear (.cons (Nat.le_of_lt_succ count.isLt) .nil), least := trivial, valid := fun _ _ _ => rfl
      list := decide_eq_true hlen, zero := by simpa [cmdWgmcommit] using hpos }

theorem cmdWgmcommit_announced (clear count : Dword) : cmdWgmcommit.spec.Announced 0x0501 [clear, count] :=
  ⟨rfl, rfl, rfl, rfl, by simp [cmdWgmcommit], by decide⟩

theorem ownWgmcommit_of_good (h : wgmCommitBad s (wgmEnts (w.req.list 2) (w.req.opd 1).toNat) = none) : ownWgmcommit s w = .now s 0 [] := by
  rw [ownWgmcommit, h]

theorem ctxcommitOk_iff {count : Dword} {lst : List Byte} : ctxcommitOk count lst s = true ↔
    (count ≠ 0 ∧ lst.length = 32 * count.toNat ∧ lst.length ≤ 4024) ∧ (∀ e ∈ ctxEnts lst count.toNat, e.zero = true) ∧
    ∀ e ∈ ctxEnts lst count.toNat, s.commitCtxBad e = false := by
  simp [ctxcommitOk, and_assoc, List.all_eq_true]

theorem cmdCtxcommit_admits {count : Dword} {lst : List Byte} (h : ctxcommitOk count lst s = true) : cmdCtxcommit.spec.Admits [count] lst := by
  obtain ⟨⟨hpos, hlen, hfits⟩, -⟩ := ctxcommitOk_iff.1 h
  exact
    { fits := by
        show 8 + lst.length ≤ 4032
        omega
      most := .cons (Nat.le_of_lt_succ count.isLt) .nil, least := trivial, valid := fun _ _ _ => rfl
      list := decide_eq_true hlen, zero := by simpa [cmdCtxcommit] using hpos }

theorem cmdCtxcommit_announced (count : Dword) : cmdCtxcommit.spec.Announced 0x0502 [count] :=
  ⟨rfl, rfl, rfl, rfl, by simp [cmdCtxcommit], by decide⟩

theorem ownCtxcommit_of_good (hz : ∀ e ∈ ctxEnts (w.req.list 1) (w.req.opd 0).toNat, e.zero = true)
    (hg : ∀ e ∈ ctxEnts (w.req.list 1) (w.req.opd 0).toNat, s.commitCtxBad e = false) : ownCtxcommit s w = .now s 0 [] := by
  have hzero : (ctxEnts (w.req.list 1) (w.req.opd 0).toNat).findIdx? (fun e => !e.zero) = none :=
    List.findIdx?_eq_none_iff.2 fun e he => by rw [hz e he]; rfl
  have hgood : (ctxEnts (w.req.list 1) (w.req.opd 0).toNat).find? s.commitCtxBad = none :=
    List.find?_eq_none.2 fun e he => by rw [hg e he]; exact Bool.false_ne_true
  simp only [ownCtxcommit, hzero, hgood]

theorem cmdLanecommit_admits {lane cnofs flim : Dword} (h : lanecommitOk lane cnofs flim = true) :
    cmdLanecommit.spec.Admits [lane, cnofs, flim] [] := by
  obtain ⟨hlane, hcnofs, hflim⟩ := of_decide_eq_true h
  exact
    { fits := by simp
      most := .cons (Nat.le_of_lt_succ hlane) (.cons (Nat.le_of_lt_succ hcnofs) (.cons hflim .nil)), least := trivial
      valid := fun _ _ _ => rfl, list := rfl, zero := by simp [cmdLanecommit] }

theorem cmdLanecommit_announced (lane cnofs flim : Dword) : cmdLanecommit.spec.Announced 0x0503 [lane, cnofs, flim] :=
  ⟨rfl, rfl, rfl, rfl, by simp [cmdLanecommit], by decide⟩

/-- What caparmOk says of a CAPARM's operands and of the wake buffer. -/
structure CaparmFits (pre post lanes bcnen acclat ctl : Dword) (s : State) : Prop where
  preFits : pre.toNat < 8192
  postFits : post.toNat ≠ 0 ∧ post.toNat ≤ 8192
  someLane : lanes ≠ 0
  bcnenFits : bcnen.toNat < 65536
  acclatFits : acclat.toNat < 4096
  ctlFits : ctl.toNat < 16
  idle : s.cap.st = .idle
  depth : pre.toNat < capDepth (s.inputLanes lanes)
  window : pre.toNat + post.toNat ≤ capDepth (s.inputLanes lanes)
  fast : ctl.getLsbD 0 = true → pre.toNat + acclat.toNat + 1 ≤ capDepth (s.inputLanes lanes)
  free : s.logHolds = false

theorem caparmFits_of_ok {pre post lanes bcnen acclat ctl : Dword} (h : caparmOk pre post lanes bcnen acclat ctl s = true) :
    CaparmFits pre post lanes bcnen acclat ctl s := by
  rw [caparmOk, Bool.and_eq_true, decide_eq_true_eq, Bool.not_eq_true'] at h
  obtain ⟨⟨hpre, hpost, hpost', hlanes, hbcnen, hacclat, hctl, hidle, hdepth, hwindow, hfast⟩, hfree⟩ := h
  exact ⟨hpre, ⟨hpost, hpost'⟩, hlanes, hbcnen, hacclat, hctl, hidle, hdepth, hwindow, hfast, hfree⟩

theorem cmdCaparm_admits {pre post lanes bcnen acclat ctl : Dword} (h : CaparmFits pre post lanes bcnen acclat ctl s) :
    cmdCaparm.spec.Admits [pre, post, lanes, bcnen, acclat, ctl] [] :=
  { fits := by simp
    most := .cons (Nat.le_of_lt_succ h.preFits) (.cons h.postFits.2 (.cons (Nat.le_of_lt_succ lanes.isLt) (.cons (Nat.le_of_lt_succ h.bcnenFits)
      (.cons (Nat.le_of_lt_succ h.acclatFits) (.cons (Nat.le_of_lt_succ h.ctlFits) .nil)))))
    least := trivial, valid := fun _ _ _ => rfl, list := rfl
    zero := by
      have hpost : post ≠ 0 := fun h0 => h.postFits.1 (h0 ▸ rfl)
      simpa [cmdCaparm] using ⟨hpost, h.someLane⟩ }

theorem cmdCaparm_announced (pre post lanes bcnen acclat ctl : Dword) :
    cmdCaparm.spec.Announced 0x0601 [pre, post, lanes, bcnen, acclat, ctl] :=
  ⟨rfl, rfl, rfl, rfl, by simp [cmdCaparm], by decide⟩

theorem ownCaparm_of_fits (h : CaparmFits (w.req.opd 0) (w.req.opd 1) (w.req.opd 2) (w.req.opd 3) (w.req.opd 4) (w.req.opd 5) s) :
    ownCaparm s w = .now s 0 [] := by
  have hdepth := h.depth
  have hwindow := h.window
  have hfast := h.fast
  simp only [ownCaparm]
  rw [if_neg (by omega), if_neg (by omega), if_neg (fun hf => by have := hfast hf.1; omega), if_neg (by simp [h.idle, h.free])]

theorem cmdCaptrig_admits : cmdCaptrig.spec.Admits [] [] :=
  { fits := by simp, most := .nil, least := trivial, valid := fun _ _ _ => rfl, list := rfl, zero := by simp [cmdCaptrig] }

theorem cmdCaptrig_announced : cmdCaptrig.spec.Announced 0x0602 [] := ⟨rfl, rfl, rfl, rfl, by simp [cmdCaptrig], by decide⟩

theorem cmdBcnload_admits {beacon base len min ctl : Dword} {lst : List Byte} (h : bcnloadOk beacon base len min ctl lst = true) :
    cmdBcnload.spec.Admits [beacon, base, len, min, ctl] lst := by
  obtain ⟨hbeacon, hbase, hlen1, hlen, hmin1, hmin, hctl, hlst, -, -⟩ := of_decide_eq_true h
  exact
    { fits := by
        show 40 + lst.length ≤ 4032
        omega
      most := .cons (Nat.le_of_lt_succ hbeacon) (.cons (Nat.le_of_lt_succ hbase) (.cons hlen (.cons hmin (.cons (Nat.le_of_lt_succ hctl) .nil))))
      least := trivial, valid := fun _ _ _ => rfl, list := beq_iff_eq.2 hlst
      zero := by
        have hlen0 : len ≠ 0 := by rintro rfl; exact absurd hlen1 (by decide)
        have hmin0 : min ≠ 0 := by rintro rfl; exact absurd hmin1 (by decide)
        simpa [cmdBcnload] using ⟨hlen0, hmin0⟩ }

theorem cmdBcnload_announced (beacon base len min ctl : Dword) : cmdBcnload.spec.Announced 0x0605 [beacon, base, len, min, ctl] :=
  ⟨rfl, rfl, rfl, rfl, by simp [cmdBcnload], by decide⟩

theorem ownBcnload_of_fits (hquay : (w.req.opd 1).toNat / 16384 = ((w.req.opd 1).toNat + (w.req.opd 2).toNat - 1) / 16384)
    (hmin : (w.req.opd 3).toNat ≤ setBits (maskOf ((w.req.list 5).drop 512)) (w.req.opd 2).toNat) : ownBcnload s w = .now s 0 [] := by
  simp only [ownBcnload]
  rw [if_neg (not_not.2 hquay), if_neg (Nat.not_lt.2 hmin)]

theorem cmdEnvload_admits {quay first count : Dword} {lst : List Byte} (h : envloadOk quay first count lst = true) :
    cmdEnvload.spec.Admits [quay, first, count] lst := by
  obtain ⟨hquay, hfirst, hcount, hsum, hlst, hfits⟩ := of_decide_eq_true h
  exact
    { fits := by
        show 24 + lst.length ≤ 4032
        omega
      most := .cons (Nat.le_of_lt_succ hquay) (.cons (Nat.le_of_lt_succ hfirst) (.cons (by omega) .nil))
      least := trivial, valid := fun _ _ _ => rfl, list := decide_eq_true hlst
      zero := by
        have hcount0 : count ≠ 0 := by rintro rfl; exact absurd hcount (by decide)
        simpa [cmdEnvload] using hcount0 }

theorem cmdEnvload_announced (quay first count : Dword) : cmdEnvload.spec.Announced 0x0606 [quay, first, count] :=
  ⟨rfl, rfl, rfl, rfl, by simp [cmdEnvload], by decide⟩

theorem ownEnvload_of_fits (h : (w.req.opd 1).toNat + (w.req.opd 2).toNat ≤ 4096) : ownEnvload s w = .now s 0 [] := if_neg (Nat.not_lt.2 h)

/-! ### LOGSTART (14 R390, R391) -/

/-- What logstartFree says of a LOGSTART's operands and of recording and buffer. -/
structure LogstartFits (mode lanes : Dword) (lst : List Byte) (s : State) : Prop where
  aMode : mode = 1 ∨ mode = 2
  someLane : lanes ≠ 0
  listFits : lst.length = laneCount lanes ∨ (mode = 1 ∧ lst = [])
  inactive : s.log.active = false
  unarmed : s.log.atArm = false
  live : s.run.replay = false
  free : mode = 1 → s.captureHolds = false ∧ s.logHolds = false

theorem logstartFits_of_free {mode lanes : Dword} {lst : List Byte} (h : logstartFree mode lanes lst s = true) : LogstartFits mode lanes lst s := by
  simp only [logstartFree, Bool.and_eq_true, Bool.or_eq_true, decide_eq_true_eq, Bool.not_eq_true'] at h
  obtain ⟨⟨⟨⟨⟨hmode, hlanes, hlst⟩, hact⟩, harm⟩, hrep⟩, hfree⟩ := h
  refine ⟨hmode, hlanes, hlst, hact, harm, hrep, fun h1 => hfree.resolve_left ?_⟩
  rw [h1]
  decide

theorem laneCount_le (m : Dword) : laneCount m ≤ 64 := by
  rw [laneCount, recLanes]
  exact (List.length_filter_le _ _).trans (by simp)

theorem cmdLogstart_admits {mode lanes atArm : Dword} {lst : List Byte} (h : LogstartFits mode lanes lst s) (ha : atArm.toNat ≤ 1) :
    cmdLogstart.spec.Admits [mode, lanes, atArm] lst := by
  have hmode := h.aMode
  have hlst := h.listFits
  have hcount := laneCount_le lanes
  exact
    { fits := by
        show 24 + lst.length ≤ 4032
        obtain hl | ⟨-, rfl⟩ := hlst
        · omega
        · decide
      most := .cons (by obtain rfl | rfl := hmode <;> decide) (.cons (Nat.le_of_lt_succ lanes.isLt) (.cons ha .nil))
      least := trivial, valid := fun _ _ _ => rfl
      list := by
        show (lst.length == laneCount lanes || (mode == 1 && lst.length == 0)) = true
        obtain hl | ⟨rfl, rfl⟩ := hlst
        · rw [beq_iff_eq.2 hl, Bool.true_or]
        · rw [Bool.or_eq_true]
          exact .inr rfl
      zero := by
        have hmode0 : mode ≠ 0 := by obtain rfl | rfl := hmode <;> decide
        simpa [cmdLogstart] using ⟨hmode0, h.someLane⟩ }

/-- The logbook that a LOGSTART sets up (14 R390). -/
def logbookOf (mode : Nat) (lanes : Dword) (lst : List Byte) (p : CN) (atArm : Bool) : LogState :=
  { LogState.reset with mode := mode, lanes := lanes, assign := if mode = 2 then lst else [], p0 := p, lastX := cnSub p 16
                        active := !atArm, atArm := atArm }

/-- The state with a recording set up; a full-rate one empties the wake buffer (08 R269). -/
def State.withLogbook (s : State) (mode : Nat) (lanes : Dword) (lst : List Byte) (p : CN) (atArm : Bool) : State :=
  { s with log := logbookOf mode lanes lst p atArm, cap := if mode = 1 then { s.cap with frames := [], filled := 0 } else s.cap }

theorem ownLogstart_of_fits {mode lanes atArm : Dword} {lst : List Byte} (hm : w.req.opd 0 = mode) (hl : w.req.opd 1 = lanes)
    (ha : w.req.opd 2 = atArm) (hlst : w.req.list 3 = lst) (h : LogstartFits mode lanes lst s)
    (hassign : atArm = 1 ∨ mode = 1 ∨ s.assignBad lanes lst = false) :
    ownLogstart s w = .now (s.withLogbook mode.toNat lanes lst w.at_ (atArm == 1)).logWaiting 0 [] := by
  have hmode1 : mode.toNat = 1 → mode = 1 := fun h1 => BitVec.eq_of_toNat_eq h1
  have hfree : ¬((s.log.active || s.log.atArm || s.run.replay || (decide (mode.toNat = 1) && (s.captureHolds || s.logHolds))) = true) := by
    rw [h.inactive, h.unarmed, h.live, Bool.false_or, Bool.false_or, Bool.false_or, Bool.and_eq_true, decide_eq_true_eq]
    rintro ⟨h1, hheld⟩
    obtain ⟨hcap, hlog⟩ := h.free (hmode1 h1)
    rw [hcap, hlog] at hheld
    exact Bool.false_ne_true hheld
  have hgood : ¬(mode.toNat = 2 ∧ (!(atArm == 1)) = true ∧ s.assignBad lanes lst = true) := by
    rintro ⟨h2, hnow, hbad⟩
    obtain rfl | rfl | hok := hassign
    · exact absurd hnow (by decide)
    · exact absurd h2 (by decide)
    · exact Bool.false_ne_true (hok.symm.trans hbad)
  simp only [ownLogstart, hm, hl, ha, hlst]
  rw [if_neg hfree, if_neg hgood]
  rfl

end

end Sys2Proof.Machine

end

section
/-! PROOFS. Announced commands, one after the other: at once in force outside a run (15 R407, R410), waiting in one (15 R406, R408). -/

namespace Sys2Proof.Machine

/-! ### What an effect leaves of the journal -/

theorem State.clearCap_jnl (s : State) : s.clearCap.jnl = s.jnl := foldl_same State.jnl State.clearCtr (fun _ _ => rfl) _ s

theorem State.armBeacons_jnl (s : State) (en : BitVec 16) : (s.armBeacons en).jnl = s.jnl :=
  foldl_same State.jnl (State.armBeacon en) (fun _ _ => rfl) _ s

theorem State.withCap_jnl (s : State) (c : CapState) : (s.withCap c).jnl = s.jnl := rfl

section
variable (s : State) (w : Waiting)

theorem actWgmcommit_jnl : (actWgmcommit s w).jnl = s.jnl := by
  rw [actWgmcommit_eq, State.covered_jnl]
  exact foldl_same State.jnl (State.commitTensor _) (fun _ _ => rfl) _ s

theorem actCtxcommit_jnl : (actCtxcommit s w).jnl = s.jnl := by
  rw [actCtxcommit_eq]
  exact foldl_same State.jnl State.commitCtx (fun _ _ => rfl) _ s

theorem actLanecommit_jnl : (actLanecommit s w).jnl = s.jnl := by simp only [actLanecommit, State.coverChange_jnl, State.setLane_jnl]
theorem actCaptrig_jnl : (actCaptrig s w).jnl = s.jnl := by rw [actCaptrig_eq]
theorem actEnvload_jnl : (actEnvload s w).jnl = s.jnl := by simp only [actEnvload]

theorem actCaparm_jnl : (actCaparm s w).jnl = s.jnl := by
  by_cases h : s.cap.st = .idle
  · rw [actCaparm_of_idle s w h, State.covered_jnl, State.withCap_jnl, State.armedCap, State.armBeacons_jnl, State.clearCap_jnl]
  · rw [actCaparm_of_busy s w h]

theorem actBcnload_jnl : (actBcnload s w).jnl = s.jnl := by
  obtain ⟨c, h⟩ := actBcnload_eq s w
  rw [h, State.covered_jnl]
  rfl

theorem actLogstart_jnl : (actLogstart s w).jnl = s.jnl := by
  rw [actLogstart]
  split <;> rfl

/-! ### What more the effects set (08 R257, R276, R277) -/

/-- The release tick of a context stands through a commit (08 R257). -/
theorem State.commitCtx_tick (e : CtxEnt) (x : Nat) : ((s.commitCtx e).ctxOf x).tick = (s.ctxOf x).tick := by
  by_cases h : e.ctx = x
  · subst h
    rw [State.commitCtx, State.ctxOf_setCtx]
    simp only [Ctx.tick]
    congr 1
    refine BitVec.eq_of_getLsbD_eq fun i hi => ?_
    simp only [BitVec.getLsbD_extractLsb', BitVec.getLsbD_append]
    have h1 : ¬23 + i < 23 := by omega
    simp [h1, hi]
  · rw [s.commitCtx_ctxOf_ne e h]

theorem actCtxcommit_tick (x : Nat) : ((actCtxcommit s w).ctxOf x).tick = (s.ctxOf x).tick := by
  rw [actCtxcommit_eq]
  exact foldl_same (fun u : State => (u.ctxOf x).tick) State.commitCtx (fun u e => u.commitCtx_tick e x) _ s

theorem bcnHit_inj {a b : Nat} (h : a ≠ b) : (CtrId.bcnHit a).code ≠ (CtrId.bcnHit b).code := by
  simp only [CtrId.code]
  omega

/-- The counter of every Beacon is cleared by an arming. -/
theorem State.armBeacons_bcnHit (en : BitVec 16) {b : Nat} (hb : b < 16) : (s.armBeacons en).ctr (.bcnHit b) = 0 := by
  rw [State.armBeacons_eq]
  refine foldl_nodup (P := fun _ => True) (Q := fun u : State => u.ctr (.bcnHit b) = 0) List.nodup_range (List.mem_range.2 hb) (fun _ _ _ h => h)
    (fun u _ => ?_) (fun u a h hu => ?_) trivial
  · exact (State.ctr_clearCtr _ _ _).trans (if_pos rfl)
  · exact ((State.ctr_clearCtr _ _ _).trans (if_neg (bcnHit_inj h.symm))).trans hu

theorem actCaparm_bcnHit (h : s.cap.st = .idle) {b : Nat} (hb : b < 16) : (actCaparm s w).ctr (.bcnHit b) = 0 := by
  rw [actCaparm_of_idle s w h, State.ctr_congr ((State.covered_ctrs _ _ _).trans (State.withCap_ctrs _ _)), State.armedCap]
  exact s.clearCap.armBeacons_bcnHit _ hb

theorem Beacon.len_loadedBy (k : Beacon) : (k.loadedBy w).len = ((w.req.opd 2).extractLsb' 0 13).toNat := by
  simp only [Beacon.loadedBy, Beacon.len]
  refine congrArg BitVec.toNat (BitVec.eq_of_getLsbD_eq fun i hi => ?_)
  simp only [BitVec.getLsbD_extractLsb', BitVec.getLsbD_append]
  have h16 : ¬16 + i < 16 := by omega
  simp [h16, hi]

theorem Beacon.base_loadedBy (k : Beacon) : (k.loadedBy w).base = ((w.req.opd 1).extractLsb' 0 16).toNat := by
  simp only [Beacon.loadedBy, Beacon.base]
  refine congrArg BitVec.toNat (BitVec.eq_of_getLsbD_eq fun i hi => ?_)
  simp only [BitVec.getLsbD_extractLsb', BitVec.getLsbD_append]
  simp [hi]

theorem toNat_extractLsb'_of_lt {d : Dword} {n : Nat} (h : d.toNat < 2 ^ n) : (d.extractLsb' 0 n).toNat = d.toNat := by
  rw [BitVec.extractLsb'_toNat, Nat.shiftRight_zero, Nat.mod_eq_of_lt h]

theorem CapState.armedBy_trigSrc (c : CapState) : (c.armedBy w).trigSrc = 0 := rfl

end

theorem cmdWgmcommit_own : cmdWgmcommit.own = ownWgmcommit := by rw [cmdWgmcommit]
theorem cmdBcnload_own : cmdBcnload.own = ownBcnload := by rw [cmdBcnload]
theorem cmdEnvload_own : cmdEnvload.own = ownEnvload := by rw [cmdEnvload]
theorem cmdLogstart_own : cmdLogstart.own = ownLogstart := by rw [cmdLogstart]

section
variable {h : CmdHdr} {s : State}

/-- A notice of effect, and the mailbox served last, leave what a reader of the other parts of the state sees. -/
theorem State.served_effectNotice_frame (u : State) (w : Waiting) (c : CN) (m : Nat) :
    ((u.effectNotice w c).served m).wgm = u.wgm ∧ ((u.effectNotice w c).served m).chan = u.chan ∧
    ((u.effectNotice w c).served m).cap = u.cap ∧ ((u.effectNotice w c).served m).lanes = u.lanes ∧
    ((u.effectNotice w c).served m).ctrs = u.ctrs ∧ ((u.effectNotice w c).served m).log = u.log := by
  simp only [State.served, State.effectNotice_wgm, State.effectNotice_chan, State.effectNotice_cap, State.effectNotice_lanes,
    State.effectNotice_ctrs, State.effectNotice_log, and_self]

/-! ### WGMCOMMIT (04 R142) -/

section
variable {clear count : Dword} {lst : List Byte}

theorem cmdWgmcommit_own_of_ok (hok : wgmcommitOk clear count lst s = true) (v : State) :
    cmdWgmcommit.own (s.asking v) (cmdWgmcommit.entry (mkReq 0x0501 h [clear, count] lst) s) = .now (s.asking v) 0 [] := by
  have hlist : (mkReq 0x0501 h [clear, count] lst).list 2 = lst := list_mkReq _ h [clear, count] lst
  rw [cmdWgmcommit_own]
  refine ownWgmcommit_of_good ?_
  rw [KCmd.entry_req, opd_mkReq1, hlist]
  exact (wgmcommitOk_iff.1 hok).2

theorem execWgmcommit_takesEffect (ha : asks h (16 + lst.length) true s = true) (harm : s.armed = false) (hok : wgmcommitOk clear count lst s = true) :
    GoesTo (execWgmcommit h clear count lst s) fun t => Completes s t h 0x0501 0 ∧ Notices s t h 0x0501 s.cn ∧ Journals s t ∧
      (∀ e, lastOf (wgmEnts lst count.toNat) WgmEnt.key e → (t.tensor e.key).cfg = e.cfg ∧ (t.tensor e.key).rdef = e.rdef ∧
        (clear = 1 → (t.tensor e.key).m = [] ∧ (t.tensor e.key).seen = false ∧ (t.tensor e.key).rNow = e.rdef)) ∧
      ∀ k, (∀ e ∈ wgmEnts lst count.toNat, e.key ≠ k) → t.tensor k = s.tensor k := by
  obtain ⟨-, hgo⟩ := kSubmit_takesEffect (cmdWgmcommit_announced clear count) (cmdWgmcommit_admits hok) ha harm (cmdWgmcommit_own_of_ok hok _)
    ⟨rfl, rfl, rfl, rfl⟩ actWgmcommit_mbx actWgmcommit_jnl
  refine hgo.mono fun t ⟨hcomp, hnot, hj, v, hv, _, ht⟩ => ⟨hcomp, hnot, hj, ?_⟩
  obtain ⟨hwgm, -⟩ := (cmdWgmcommit.act v (cmdWgmcommit.entry (mkReq 0x0501 h [clear, count] lst) s)).served_effectNotice_frame
    (cmdWgmcommit.entry (mkReq 0x0501 h [clear, count] lst) s) s.cn h.mbx
  rw [← ht, cmdWgmcommit_act] at hwgm
  have hbefore : ∀ k, v.tensor k = s.tensor k := fun k => by rw [hv]; rfl
  have hlast := fun e => actWgmcommit_tensor_last (e := e) v (cmdWgmcommit.entry (mkReq 0x0501 h [clear, count] lst) s)
  have hother := fun k => actWgmcommit_tensor_unlisted (k := k) v (cmdWgmcommit.entry (mkReq 0x0501 h [clear, count] lst) s)
  have hlist : (mkReq 0x0501 h [clear, count] lst).list 2 = lst := list_mkReq _ h [clear, count] lst
  simp only [KCmd.entry_req, opd_mkReq0, opd_mkReq1, hlist] at hlast hother
  refine ⟨fun e he => ?_, fun k hk => ?_⟩
  · obtain ⟨hcfg, hrdef, hclear⟩ := hlast e he
    rw [State.tensor_congr hwgm]
    exact ⟨hcfg, hrdef, fun h1 => hclear (beq_iff_eq.2 h1)⟩
  · rw [State.tensor_congr hwgm, hother k hk, hbefore]

theorem execWgmcommit_waits (ha : asks h (16 + lst.length) true s = true) (harm : s.armed = true) (hlead : s.keepsLead h 0x0501 = true)
    (hok : wgmcommitOk clear count lst s = true) :
    GoesTo (execWgmcommit h clear count lst s) fun t => WaitsFor s t h 0x0501 (s.target h) ∧ Journals s t ∧ t.wgm = s.wgm :=
  (kSubmit_waitsForCrossing (cmdWgmcommit_announced clear count) (cmdWgmcommit_admits hok) ha harm hlead (cmdWgmcommit_own_of_ok hok _)
    ⟨rfl, rfl, rfl, rfl⟩).mono fun t ⟨hwait, hj, hans, _⟩ => ⟨hwait, hj, by rw [hans]; rfl⟩

end

/-! ### CTXCOMMIT (08 R256, R257) -/

section
variable {count : Dword} {lst : List Byte}

theorem cmdCtxcommit_own_of_ok (hok : ctxcommitOk count lst s = true) (v : State) :
    cmdCtxcommit.own (s.asking v) (cmdCtxcommit.entry (mkReq 0x0502 h [count] lst) s) = .now (s.asking v) 0 [] := by
  obtain ⟨-, hzero, hgood⟩ := ctxcommitOk_iff.1 hok
  have hlist : (mkReq 0x0502 h [count] lst).list 1 = lst := list_mkReq _ h [count] lst
  rw [cmdCtxcommit_own]
  refine ownCtxcommit_of_good ?_ ?_ <;> rw [KCmd.entry_req, opd_mkReq0, hlist]
  · exact hzero
  · exact hgood

theorem execCtxcommit_takesEffect (ha : asks h (8 + lst.length) true s = true) (harm : s.armed = false) (hok : ctxcommitOk count lst s = true) :
    GoesTo (execCtxcommit h count lst s) fun t => Completes s t h 0x0502 0 ∧ Notices s t h 0x0502 s.cn ∧ Journals s t ∧
      (∀ e, lastOf (ctxEnts lst count.toNat) CtxEnt.ctx e → (t.ctxOf e.ctx).ctl = e.c.ctl &&& 0xFF9FFFE0 ∧
        (t.ctxOf e.ctx).cal = e.c.cal ∧ (t.ctxOf e.ctx).tick = (s.ctxOf e.ctx).tick ∧ (t.ctxOf e.ctx).done = (s.ctxOf e.ctx).done) ∧
      ∀ x, (∀ e ∈ ctxEnts lst count.toNat, e.ctx ≠ x) → t.ctxOf x = s.ctxOf x := by
  obtain ⟨-, hgo⟩ := kSubmit_takesEffect (cmdCtxcommit_announced count) (cmdCtxcommit_admits hok) ha harm (cmdCtxcommit_own_of_ok hok _)
    ⟨rfl, rfl, rfl, rfl⟩ actCtxcommit_mbx actCtxcommit_jnl
  refine hgo.mono fun t ⟨hcomp, hnot, hj, v, hv, _, ht⟩ => ⟨hcomp, hnot, hj, ?_⟩
  obtain ⟨-, hchan, -⟩ := (cmdCtxcommit.act v (cmdCtxcommit.entry (mkReq 0x0502 h [count] lst) s)).served_effectNotice_frame
    (cmdCtxcommit.entry (mkReq 0x0502 h [count] lst) s) s.cn h.mbx
  rw [← ht, cmdCtxcommit_act] at hchan
  have hbefore : ∀ x, v.ctxOf x = s.ctxOf x := fun x => by rw [hv]; rfl
  have hlast := fun e => actCtxcommit_ctxOf_last (e := e) v (cmdCtxcommit.entry (mkReq 0x0502 h [count] lst) s)
  have hother := fun x => actCtxcommit_ctxOf_unlisted (x := x) v (cmdCtxcommit.entry (mkReq 0x0502 h [count] lst) s)
  have hlist : (mkReq 0x0502 h [count] lst).list 1 = lst := list_mkReq _ h [count] lst
  simp only [KCmd.entry_req, opd_mkReq0, hlist] at hlast hother
  refine ⟨fun e he => ?_, fun x hx => ?_⟩
  · obtain ⟨hctl, hcal⟩ := hlast e he
    rw [State.ctxOf_congr hchan, actCtxcommit_tick, actCtxcommit_done, hbefore]
    exact ⟨hctl, hcal, rfl, rfl⟩
  · rw [State.ctxOf_congr hchan, hother x hx, hbefore]

theorem execCtxcommit_waits (ha : asks h (8 + lst.length) true s = true) (harm : s.armed = true) (hlead : s.keepsLead h 0x0502 = true)
    (hok : ctxcommitOk count lst s = true) :
    GoesTo (execCtxcommit h count lst s) fun t => WaitsFor s t h 0x0502 (s.target h) ∧ Journals s t ∧ t.chan = s.chan :=
  (kSubmit_waitsForCrossing (cmdCtxcommit_announced count) (cmdCtxcommit_admits hok) ha harm hlead (cmdCtxcommit_own_of_ok hok _)
    ⟨rfl, rfl, rfl, rfl⟩).mono fun t ⟨hwait, hj, hans, _⟩ => ⟨hwait, hj, by rw [hans]; rfl⟩

end

/-! ### LANECOMMIT (09 R304) -/

section
variable {lane cnofs flim : Dword}

theorem execLanecommit_takesEffect (ha : asks h 24 true s = true) (harm : s.armed = false) (hok : lanecommitOk lane cnofs flim = true) :
    GoesTo (execLanecommit h lane cnofs flim s) fun t => Completes s t h 0x0503 0 ∧ Notices s t h 0x0503 s.cn ∧ Journals s t ∧
      t.lane lane.toNat = { s.lane lane.toNat with cnofsAt := some (s.cn, cnofs.extractLsb' 0 24), flim := flim.toNat } ∧
      ∀ l, l ≠ lane.toNat → t.lane l = s.lane l := by
  obtain ⟨hat, hgo⟩ := kSubmit_takesEffect (cmdLanecommit_announced lane cnofs flim) (cmdLanecommit_admits hok) ha harm rfl
    ⟨rfl, rfl, rfl, rfl⟩ actLanecommit_mbx actLanecommit_jnl
  refine hgo.mono fun t ⟨hcomp, hnot, hj, v, hv, _, ht⟩ => ⟨hcomp, hnot, hj, ?_⟩
  obtain ⟨-, -, -, hlanes, -⟩ := (actLanecommit v (cmdLanecommit.entry (mkReq 0x0503 h [lane, cnofs, flim] []) s)).served_effectNotice_frame
    (cmdLanecommit.entry (mkReq 0x0503 h [lane, cnofs, flim] []) s) s.cn h.mbx
  replace hlanes := (congrArg State.lanes ht).trans hlanes
  have hbefore : ∀ l, v.lane l = s.lane l := fun l => by rw [hv]; rfl
  have hset := actLanecommit_lane v (cmdLanecommit.entry (mkReq 0x0503 h [lane, cnofs, flim] []) s)
  have hother := fun l => actLanecommit_lane_ne (l := l) v (cmdLanecommit.entry (mkReq 0x0503 h [lane, cnofs, flim] []) s)
  rw [hat] at hset
  simp only [KCmd.entry_req, opd_mkReq0, opd_mkReq1, opd_mkReq2, hbefore] at hset hother
  exact ⟨(State.lane_congr hlanes _).trans hset, fun l hl => (State.lane_congr hlanes _).trans (hother l hl)⟩

theorem execLanecommit_waits (ha : asks h 24 true s = true) (harm : s.armed = true) (hlead : s.keepsLead h 0x0503 = true)
    (hok : lanecommitOk lane cnofs flim = true) :
    GoesTo (execLanecommit h lane cnofs flim s) fun t => WaitsFor s t h 0x0503 (s.target h) ∧ Journals s t ∧ t.lanes = s.lanes :=
  (kSubmit_waitsForCrossing (cmdLanecommit_announced lane cnofs flim) (cmdLanecommit_admits hok) ha harm hlead rfl
    ⟨rfl, rfl, rfl, rfl⟩).mono fun t ⟨hwait, hj, hans, _⟩ => ⟨hwait, hj, by rw [hans]; rfl⟩

end

/-! ### CAPARM and CAPTRIG (08 R264, R265) -/

section
variable {pre post lanes bcnen acclat ctl : Dword}

theorem cmdCaparm_own_of_fits (hok : CaparmFits pre post lanes bcnen acclat ctl s) (v : State) :
    cmdCaparm.own (s.asking v) (cmdCaparm.entry (mkReq 0x0601 h [pre, post, lanes, bcnen, acclat, ctl] []) s) = .now (s.asking v) 0 [] := by
  rw [cmdCaparm_own]
  refine ownCaparm_of_fits ?_
  simp only [KCmd.entry_req, opd_mkReq0, opd_mkReq1, opd_mkReq2, opd_mkReq3, opd_mkReq4, opd_mkReq5]
  obtain ⟨hpre, hpost, hlanes, hbcnen, hacclat, hctl, hidle, hdepth, hwindow, hfast, hfree⟩ := hok
  exact ⟨hpre, hpost, hlanes, hbcnen, hacclat, hctl, hidle, hdepth, hwindow, hfast, hfree⟩

theorem execCaparm_takesEffect (ha : asks h 48 true s = true) (harm : s.armed = false) (hok : caparmOk pre post lanes bcnen acclat ctl s = true) :
    GoesTo (execCaparm h pre post lanes bcnen acclat ctl s) fun t => Completes s t h 0x0601 0 ∧ Notices s t h 0x0601 s.cn ∧
      Journals s t ∧ t.cap.st = (if pre = 0 then .armed else .prefill) ∧ t.cap.a0 = s.cn ∧ t.cap.lanes = lanes ∧ t.cap.frames = [] ∧
      t.cap.trigSrc = 0 ∧ t.ctr .capMtv = 0 ∧
      ∀ b, b < 16 → (t.beacon b).trig = bcnen.getLsbD b ∧ (t.beacon b).lastCn = 0 ∧ t.ctr (.bcnHit b) = 0 := by
  have hfits := caparmFits_of_ok hok
  obtain ⟨hat, hgo⟩ := kSubmit_takesEffect (cmdCaparm_announced pre post lanes bcnen acclat ctl) (cmdCaparm_admits hfits) ha harm
    (cmdCaparm_own_of_fits hfits _) ⟨rfl, rfl, rfl, rfl⟩ actCaparm_mbx actCaparm_jnl
  refine hgo.mono fun t ⟨hcomp, hnot, hj, v, hv, _, ht⟩ => ⟨hcomp, hnot, hj, ?_⟩
  obtain ⟨-, hchan, hcap, -, hctrs, -⟩ := (cmdCaparm.act v (cmdCaparm.entry (mkReq 0x0601 h [pre, post, lanes, bcnen, acclat, ctl] []) s)).served_effectNotice_frame
    (cmdCaparm.entry (mkReq 0x0601 h [pre, post, lanes, bcnen, acclat, ctl] []) s) s.cn h.mbx
  rw [← ht, cmdCaparm_act] at hchan hcap hctrs
  have hidle : v.cap.st = .idle := by rw [hv]; exact hfits.idle
  have hopd3 : (cmdCaparm.entry (mkReq 0x0601 h [pre, post, lanes, bcnen, acclat, ctl] []) s).req.opd 3 = bcnen := opd_mkReq3 _ _ _ _ _ _ _ _
  rw [actCaparm_cap v _ hidle] at hcap
  have hst := (v.armedCap (cmdCaparm.entry (mkReq 0x0601 h [pre, post, lanes, bcnen, acclat, ctl] []) s)).cap.armedBy_st
    (cmdCaparm.entry (mkReq 0x0601 h [pre, post, lanes, bcnen, acclat, ctl] []) s)
  rw [KCmd.entry_req, opd_mkReq0] at hst
  rw [hcap, hst, CapState.armedBy_a0, CapState.armedBy_lanes, CapState.armedBy_frames, CapState.armedBy_trigSrc, hat, KCmd.entry_req, opd_mkReq2]
  refine ⟨rfl, rfl, rfl, rfl, rfl, ?_, fun b hb => ?_⟩
  · rw [State.ctr_congr hctrs]
    exact actCaparm_capMtv v _ hidle
  · obtain ⟨htrig, hlast⟩ := actCaparm_beacon v (cmdCaparm.entry (mkReq 0x0601 h [pre, post, lanes, bcnen, acclat, ctl] []) s) hidle hb
    rw [hopd3] at htrig
    rw [State.beacon_congr hchan, State.ctr_congr hctrs]
    exact ⟨htrig, hlast, actCaparm_bcnHit v _ hidle hb⟩

theorem execCaparm_waits (ha : asks h 48 true s = true) (harm : s.armed = true) (hlead : s.keepsLead h 0x0601 = true)
    (hok : caparmOk pre post lanes bcnen acclat ctl s = true) :
    GoesTo (execCaparm h pre post lanes bcnen acclat ctl s) fun t => WaitsFor s t h 0x0601 (s.target h) ∧ Journals s t ∧ t.cap = s.cap :=
  (kSubmit_waitsForCrossing (cmdCaparm_announced pre post lanes bcnen acclat ctl) (cmdCaparm_admits (caparmFits_of_ok hok)) ha harm hlead
    (cmdCaparm_own_of_fits (caparmFits_of_ok hok) _) ⟨rfl, rfl, rfl, rfl⟩).mono fun t ⟨hwait, hj, hans, _⟩ => ⟨hwait, hj, by rw [hans]; rfl⟩

theorem execCaptrig_takesEffect (ha : asks h 0 true s = true) (harm : s.armed = false) :
    GoesTo (execCaptrig h s) fun t => Completes s t h 0x0602 0 ∧ Notices s t h 0x0602 s.cn ∧ Journals s t ∧
      t.cap = { s.cap with cands := s.cap.cands ++ [{ t := s.cn, src := 8 }] } := by
  obtain ⟨hat, hgo⟩ := kSubmit_takesEffect cmdCaptrig_announced cmdCaptrig_admits ha harm rfl ⟨rfl, rfl, rfl, rfl⟩ actCaptrig_mbx actCaptrig_jnl
  refine hgo.mono fun t ⟨hcomp, hnot, hj, v, hv, _, ht⟩ => ⟨hcomp, hnot, hj, ?_⟩
  obtain ⟨-, -, hcap, -⟩ := (cmdCaptrig.act v (cmdCaptrig.entry (mkReq 0x0602 h [] []) s)).served_effectNotice_frame
    (cmdCaptrig.entry (mkReq 0x0602 h [] []) s) s.cn h.mbx
  rw [← ht, cmdCaptrig_act, actCaptrig_eq, hat] at hcap
  rw [hcap, hv]
  rfl

theorem execCaptrig_waits (ha : asks h 0 true s = true) (harm : s.armed = true) (hlead : s.keepsLead h 0x0602 = true) :
    GoesTo (execCaptrig h s) fun t => WaitsFor s t h 0x0602 (s.target h) ∧ Journals s t ∧ t.cap = s.cap :=
  (kSubmit_waitsForCrossing cmdCaptrig_announced cmdCaptrig_admits ha harm hlead rfl ⟨rfl, rfl, rfl, rfl⟩).mono
    fun t ⟨hwait, hj, hans, _⟩ => ⟨hwait, hj, by rw [hans]; rfl⟩

end

/-! ### BCNLOAD and ENVLOAD (08 R271, R273) -/

section
variable {beacon base len min ctl : Dword} {lst : List Byte}

theorem cmdBcnload_own_of_ok (hok : bcnloadOk beacon base len min ctl lst = true) (v : State) :
    cmdBcnload.own (s.asking v) (cmdBcnload.entry (mkReq 0x0605 h [beacon, base, len, min, ctl] lst) s) = .now (s.asking v) 0 [] := by
  obtain ⟨-, -, -, -, -, -, -, -, hquay, hmin⟩ := of_decide_eq_true hok
  have hlist : (mkReq 0x0605 h [beacon, base, len, min, ctl] lst).list 5 = lst := list_mkReq _ h [beacon, base, len, min, ctl] lst
  rw [cmdBcnload_own]
  refine ownBcnload_of_fits ?_ ?_
  · simpa only [KCmd.entry_req, opd_mkReq1, opd_mkReq2] using hquay
  · rw [KCmd.entry_req, hlist]
    simpa only [opd_mkReq2, opd_mkReq3] using hmin

theorem bcnload_asks (hok : bcnloadOk beacon base len min ctl lst = true) (ha : asks h 1064 true s = true) : asks h (40 + lst.length) true s = true := by
  obtain ⟨-, -, -, -, -, -, -, hlst, -⟩ := of_decide_eq_true hok
  rwa [hlst]

theorem execBcnload_takesEffect (ha : asks h 1064 true s = true) (harm : s.armed = false) (hok : bcnloadOk beacon base len min ctl lst = true) :
    GoesTo (execBcnload h beacon base len min ctl lst s) fun t => Completes s t h 0x0605 0 ∧ Notices s t h 0x0605 s.cn ∧
      Journals s t ∧ (t.beacon beacon.toNat).enabled = ctl.getLsbD 0 ∧ (t.beacon beacon.toNat).trig = ctl.getLsbD 1 ∧
      (t.beacon beacon.toNat).len = len.toNat ∧ (t.beacon beacon.toNat).base = base.toNat ∧
      (t.beacon beacon.toNat).pat = maskOf lst ∧ (t.beacon beacon.toNat).care = maskOf (lst.drop 512) ∧
      ∀ b, b ≠ beacon.toNat → t.beacon b = s.beacon b := by
  obtain ⟨-, hgo⟩ := kSubmit_takesEffect (cmdBcnload_announced beacon base len min ctl) (cmdBcnload_admits hok) (bcnload_asks hok ha) harm
    (cmdBcnload_own_of_ok hok _) ⟨rfl, rfl, rfl, rfl⟩ actBcnload_mbx actBcnload_jnl
  refine hgo.mono fun t ⟨hcomp, hnot, hj, v, hv, _, ht⟩ => ⟨hcomp, hnot, hj, ?_⟩
  obtain ⟨-, hchan, -⟩ := (cmdBcnload.act v (cmdBcnload.entry (mkReq 0x0605 h [beacon, base, len, min, ctl] lst) s)).served_effectNotice_frame
    (cmdBcnload.entry (mkReq 0x0605 h [beacon, base, len, min, ctl] lst) s) s.cn h.mbx
  rw [← ht, cmdBcnload_act] at hchan
  have hbefore : ∀ b, v.beacon b = s.beacon b := fun b => by rw [hv]; rfl
  have hset := actBcnload_beacon v (cmdBcnload.entry (mkReq 0x0605 h [beacon, base, len, min, ctl] lst) s)
  have hother := fun b => actBcnload_beacon_ne (b := b) v (cmdBcnload.entry (mkReq 0x0605 h [beacon, base, len, min, ctl] lst) s)
  rw [KCmd.entry_req, opd_mkReq0] at hset
  rw [KCmd.entry_req, opd_mkReq0] at hother
  rw [State.beacon_congr hchan, hset]
  obtain ⟨-, hbase, -, hlen, -⟩ := of_decide_eq_true hok
  refine ⟨?_, ?_, ?_, ?_, ?_, ?_, fun b hb => by rw [State.beacon_congr hchan, hother b hb, hbefore]⟩
  · rw [Beacon.enabled_loadedBy, KCmd.entry_req, opd_mkReq4]
  · rw [Beacon.trig_loadedBy, KCmd.entry_req, opd_mkReq4]
  · rw [Beacon.len_loadedBy, KCmd.entry_req, opd_mkReq2, toNat_extractLsb'_of_lt (by omega)]
  · rw [Beacon.base_loadedBy, KCmd.entry_req, opd_mkReq1, toNat_extractLsb'_of_lt (by omega)]
  · exact congrArg maskOf (list_mkReq 0x0605 h [beacon, base, len, min, ctl] lst)
  · exact congrArg (fun l => maskOf (l.drop 512)) (list_mkReq 0x0605 h [beacon, base, len, min, ctl] lst)

theorem execBcnload_waits (ha : asks h 1064 true s = true) (harm : s.armed = true) (hlead : s.keepsLead h 0x0605 = true)
    (hok : bcnloadOk beacon base len min ctl lst = true) :
    GoesTo (execBcnload h beacon base len min ctl lst s) fun t => WaitsFor s t h 0x0605 (s.target h) ∧ Journals s t ∧ t.chan = s.chan :=
  (kSubmit_waitsForCrossing (cmdBcnload_announced beacon base len min ctl) (cmdBcnload_admits hok) (bcnload_asks hok ha) harm hlead
    (cmdBcnload_own_of_ok hok _) ⟨rfl, rfl, rfl, rfl⟩).mono fun t ⟨hwait, hj, hans, _⟩ => ⟨hwait, hj, by rw [hans]; rfl⟩

end

section
variable {quay first count : Dword} {lst : List Byte}

theorem cmdEnvload_own_of_ok (hok : envloadOk quay first count lst = true) (v : State) :
    cmdEnvload.own (s.asking v) (cmdEnvload.entry (mkReq 0x0606 h [quay, first, count] lst) s) = .now (s.asking v) 0 [] := by
  obtain ⟨-, -, -, hsum, -, -⟩ := of_decide_eq_true hok
  rw [cmdEnvload_own]
  refine ownEnvload_of_fits ?_
  simpa only [KCmd.entry_req, opd_mkReq1, opd_mkReq2] using hsum

theorem execEnvload_takesEffect (ha : asks h (24 + lst.length) true s = true) (harm : s.armed = false) (hok : envloadOk quay first count lst = true) :
    GoesTo (execEnvload h quay first count lst s) fun t => Completes s t h 0x0606 0 ∧ Notices s t h 0x0606 s.cn ∧ Journals s t ∧
      (∀ i, i < count.toNat → tget (0, 0) t.chan.env (quay.toNat * 4096 + first.toNat + i) =
        (BitVec.ofNat 32 (leAt lst (8 * i) 4), BitVec.ofNat 32 (leAt lst (8 * i + 4) 4))) ∧
      ∀ k, k < quay.toNat * 4096 + first.toNat ∨ quay.toNat * 4096 + first.toNat + count.toNat ≤ k →
        tget (0, 0) t.chan.env k = tget (0, 0) s.chan.env k := by
  obtain ⟨-, hgo⟩ := kSubmit_takesEffect (cmdEnvload_announced quay first count) (cmdEnvload_admits hok) ha harm (cmdEnvload_own_of_ok hok _)
    ⟨rfl, rfl, rfl, rfl⟩ actEnvload_mbx actEnvload_jnl
  refine hgo.mono fun t ⟨hcomp, hnot, hj, v, hv, _, ht⟩ => ⟨hcomp, hnot, hj, ?_⟩
  obtain ⟨-, hchan, -⟩ := (cmdEnvload.act v (cmdEnvload.entry (mkReq 0x0606 h [quay, first, count] lst) s)).served_effectNotice_frame
    (cmdEnvload.entry (mkReq 0x0606 h [quay, first, count] lst) s) s.cn h.mbx
  rw [← ht, cmdEnvload_act] at hchan
  have hbefore : v.chan = s.chan := by rw [hv]; rfl
  have hin := fun i => actEnvload_env_inside (i := i) v (cmdEnvload.entry (mkReq 0x0606 h [quay, first, count] lst) s)
  have hout := fun k => actEnvload_env_outside (k := k) v (cmdEnvload.entry (mkReq 0x0606 h [quay, first, count] lst) s)
  have hlist : (mkReq 0x0606 h [quay, first, count] lst).list 3 = lst := list_mkReq _ h [quay, first, count] lst
  simp only [KCmd.entry_req, opd_mkReq0, opd_mkReq1, opd_mkReq2, hlist] at hin hout
  rw [hchan]
  exact ⟨hin, fun k hk => (hout k hk).trans (by rw [hbefore])⟩

theorem execEnvload_waits (ha : asks h (24 + lst.length) true s = true) (harm : s.armed = true) (hlead : s.keepsLead h 0x0606 = true)
    (hok : envloadOk quay first count lst = true) :
    GoesTo (execEnvload h quay first count lst s) fun t => WaitsFor s t h 0x0606 (s.target h) ∧ Journals s t ∧ t.chan = s.chan :=
  (kSubmit_waitsForCrossing (cmdEnvload_announced quay first count) (cmdEnvload_admits hok) ha harm hlead (cmdEnvload_own_of_ok hok _)
    ⟨rfl, rfl, rfl, rfl⟩).mono fun t ⟨hwait, hj, hans, _⟩ => ⟨hwait, hj, by rw [hans]; rfl⟩

end

/-! ### LOGSTART (14 R390, R391) -/

section
variable {mode lanes : Dword} {lst : List Byte}

/-- What a logbook without its events tells of a recording. -/
theorem LogState.eq_of_lessEvents {a b : LogState} (h : a.lessEvents = b.lessEvents) :
    a.active = b.active ∧ a.atArm = b.atArm ∧ a.mode = b.mode ∧ a.lanes = b.lanes ∧ a.p0 = b.p0 ∧ a.start = b.start := by
  show a.lessEvents.active = b.lessEvents.active ∧ a.lessEvents.atArm = b.lessEvents.atArm ∧ a.lessEvents.mode = b.lessEvents.mode ∧
    a.lessEvents.lanes = b.lessEvents.lanes ∧ a.lessEvents.p0 = b.lessEvents.p0 ∧ a.lessEvents.start = b.lessEvents.start
  rw [h]
  exact ⟨rfl, rfl, rfl, rfl, rfl, rfl⟩

theorem logstartOk_iff : logstartOk mode lanes lst s = true ↔
    logstartFree mode lanes lst s = true ∧ (mode = 1 ∨ s.assignBad lanes lst = false) := by
  simp [logstartOk]

/-- The state that LOGSTART's chapter answers with: the logbook set up and the commands in progress in it. -/
def State.logStarted (s : State) (mode lanes : Dword) (lst : List Byte) (p : CN) (atArm : Bool) : State :=
  (s.withLogbook mode.toNat lanes lst p atArm).logWaiting

theorem State.logStarted_frame (p : CN) (atArm : Bool) : ∃ log cap, s.logStarted mode lanes lst p atArm = { s with log := log, cap := cap } ∧
    log.lessEvents = (logbookOf mode.toNat lanes lst p atArm).lessEvents :=
  ⟨_, _, State.logWaiting_frame _, State.logWaiting_lessEvents _⟩

theorem cmdLogstart_own_of_fits {atArm : Dword} (hok : LogstartFits mode lanes lst s)
    (hassign : atArm = 1 ∨ mode = 1 ∨ s.assignBad lanes lst = false) (v : State) :
    cmdLogstart.own (s.asking v) (cmdLogstart.entry (mkReq 0x0701 h [mode, lanes, atArm] lst) s) =
      .now ((s.asking v).logStarted mode lanes lst (cmdLogstart.entry (mkReq 0x0701 h [mode, lanes, atArm] lst) s).at_ (atArm == 1)) 0 [] := by
  obtain ⟨hmode, hlanes, hlist, hinactive, hunarmed, hlive, hfree⟩ := hok
  rw [cmdLogstart_own]
  exact ownLogstart_of_fits (opd_mkReq0 _ _ _ _ _) (opd_mkReq1 _ _ _ _ _ _) (opd_mkReq2 _ _ _ _ _ _ _) (list_mkReq _ h [mode, lanes, atArm] lst)
    ⟨hmode, hlanes, hlist, hinactive, hunarmed, hlive, hfree⟩ hassign

theorem State.logStarted_owned (p : CN) (atArm : Bool) : s.Owned (s.logStarted mode lanes lst p atArm) := by
  obtain ⟨log, cap, hframe, -⟩ := State.logStarted_frame (s := s) (mode := mode) (lanes := lanes) (lst := lst) p atArm
  rw [hframe]
  exact ⟨rfl, rfl, rfl, rfl⟩

theorem cmdLogstart_announced (mode lanes : Dword) : cmdLogstart.spec.Announced 0x0701 [mode, lanes, 0] :=
  ⟨rfl, rfl, rfl, rfl, by simp [cmdLogstart], by decide⟩

theorem execLogstart_takesEffect (ha : asks h (24 + lst.length) true s = true) (harm : s.armed = false) (hok : logstartOk mode lanes lst s = true) :
    GoesTo (execLogstart h mode lanes 0 lst s) fun t => Completes s t h 0x0701 0 ∧ Notices s t h 0x0701 s.cn ∧ Journals s t ∧
      t.log.active = true ∧ t.log.mode = mode.toNat ∧ t.log.lanes = lanes ∧ t.log.p0 = s.cn ∧ t.log.start = some (s.mkLatch s.cn true) := by
  obtain ⟨hfree, hassign⟩ := logstartOk_iff.1 hok
  have hfits := logstartFits_of_free hfree
  obtain ⟨hat, hgo⟩ := kSubmit_takesEffect (cmdLogstart_announced mode lanes) (cmdLogstart_admits hfits (by decide)) ha harm
    (cmdLogstart_own_of_fits hfits (.inr hassign) _) (State.logStarted_owned _ _) actLogstart_mbx actLogstart_jnl
  refine hgo.mono fun t ⟨hcomp, hnot, hj, v, hv, hlog, ht⟩ => ⟨hcomp, hnot, hj, ?_⟩
  obtain ⟨-, -, -, -, -, htlog⟩ := (cmdLogstart.act v (cmdLogstart.entry (mkReq 0x0701 h [mode, lanes, 0] lst) s)).served_effectNotice_frame
    (cmdLogstart.entry (mkReq 0x0701 h [mode, lanes, 0] lst) s) s.cn h.mbx
  rw [← ht, cmdLogstart_act] at htlog
  rw [hat] at hv hlog
  obtain ⟨log, cap, hframe, hless⟩ := State.logStarted_frame (s := s.asking (cmdLogstart.asked (mkReq 0x0701 h [mode, lanes, 0] lst) s)) (mode := mode)
    (lanes := lanes) (lst := lst) s.cn ((0 : Dword) == 1)
  rw [hframe] at hlog hv
  obtain ⟨hact, hatArm, hmode, hlanes, -, -⟩ := LogState.eq_of_lessEvents (hlog.trans hless)
  have hrecords : v.log.active = true := by
    rw [hact]
    rfl
  have hopd : (cmdLogstart.entry (mkReq 0x0701 h [mode, lanes, 0] lst) s).req.opd 2 = 0 := by rw [KCmd.entry_req, opd_mkReq2]
  rw [actLogstart_of_recording v _ hrecords hopd, hat] at htlog
  rw [htlog]
  refine ⟨hrecords, hmode, hlanes, rfl, ?_⟩
  have hstart : (v.logBegin s.cn).log.start = if v.log.atArm then none else some (v.mkLatch s.cn true) := rfl
  rw [hstart, hatArm, hv]
  rfl

theorem execLogstart_waits (ha : asks h (24 + lst.length) true s = true) (harm : s.armed = true) (hlead : s.keepsLead h 0x0701 = true)
    (hok : logstartOk mode lanes lst s = true) :
    GoesTo (execLogstart h mode lanes 0 lst s) fun t => WaitsFor s t h 0x0701 (s.target h) ∧ Journals s t ∧
      t.log.start = none ∧ t.log.p0 = s.target h ∧ t.chan = s.chan := by
  obtain ⟨hfree, hassign⟩ := logstartOk_iff.1 hok
  have hfits := logstartFits_of_free hfree
  have hadm : cmdLogstart.spec.Admits [mode, lanes, 0] lst := cmdLogstart_admits hfits (by decide)
  have hat : (cmdLogstart.entry (mkReq 0x0701 h [mode, lanes, 0] lst) s).at_ = s.target h := by
    have hnow := (cmdLogstart_announced mode lanes).atOnce (h := h) (s := s) hadm
    simp only [KCmd.entry, State.mkWaiting, hnow, harm]
    rfl
  refine (kSubmit_waitsForCrossing (cmdLogstart_announced mode lanes) hadm ha harm hlead
    (cmdLogstart_own_of_fits hfits (.inr hassign) _) (State.logStarted_owned _ _)).mono fun t ⟨hwait, hj, hans, hlog⟩ => ⟨hwait, hj, ?_⟩
  rw [hat] at hlog hans
  obtain ⟨log, cap, hframe, hless⟩ := State.logStarted_frame (s := s.asking (cmdLogstart.asked (mkReq 0x0701 h [mode, lanes, 0] lst) s)) (mode := mode)
    (lanes := lanes) (lst := lst) (s.target h) ((0 : Dword) == 1)
  rw [hframe] at hlog hans
  obtain ⟨-, -, -, -, hp0, hstart⟩ := LogState.eq_of_lessEvents (hlog.trans hless)
  exact ⟨hstart, hp0, by rw [hans]; rfl⟩

/-- LOGSTART for the next arming names no crossing: the logbook waits. -/
theorem execLogstart_atArm (ha : asks h (24 + lst.length) false s = true) (hok : logstartFree mode lanes lst s = true) :
    GoesTo (execLogstart h mode lanes 1 lst s) fun t => Completes s t h 0x0701 0 ∧ Journals s t ∧ t.log.active = false ∧
      t.log.atArm = true ∧ t.log.mode = mode.toNat ∧ t.log.lanes = lanes := by
  have hfits := logstartFits_of_free hok
  have hadm : cmdLogstart.spec.Admits [mode, lanes, 1] lst := cmdLogstart_admits hfits (by decide)
  obtain ⟨ht, hopen, hlen, hat, hrsvd⟩ := asks_iff.1 ha
  have hcross : cmdLogstart.spec.cross (cmdLogstart.spec.opds (mkReq 0x0701 h [mode, lanes, 1] lst)) = false := by
    rw [CmdSpec.opds_mkReq hadm.most.length_eq]
    rfl
  have hcheck := kCheck_of_admits (op := 0x0701) (s := s.submitted (mkReq 0x0701 h [mode, lanes, 1] lst)) h.mbx hadm (by simp [cmdLogstart]) hopen hlen
    hat hrsvd (CmdSpec.runCode_any rfl) (by rw [CmdSpec.late, CmdSpec.atOnce, hcross]; rfl)
  have hown := cmdLogstart_own_of_fits (h := h) (atArm := 1) hfits (.inl rfl) (cmdLogstart.asked (mkReq 0x0701 h [mode, lanes, 1] lst) s)
  have howned := State.logStarted_owned (s := s.asking (cmdLogstart.asked (mkReq 0x0701 h [mode, lanes, 1] lst) s)) (mode := mode) (lanes := lanes)
    (lst := lst) (cmdLogstart.entry (mkReq 0x0701 h [mode, lanes, 1] lst) s).at_ ((1 : Dword) == 1)
  obtain ⟨log, cap, hframe, hless⟩ := State.logStarted_frame (s := s.asking (cmdLogstart.asked (mkReq 0x0701 h [mode, lanes, 1] lst) s)) (mode := mode)
    (lanes := lanes) (lst := lst) (cmdLogstart.entry (mkReq 0x0701 h [mode, lanes, 1] lst) s).at_ ((1 : Dword) == 1)
  generalize hu : State.logStarted _ _ _ _ _ _ = u at hown howned hframe
  have hpair : u.pairMode = false := howned.pairMode.trans (State.pairMode_of_isOpen hopen)
  have hsub := kSubmit_now (c := cmdLogstart) (r := mkReq 0x0701 h [mode, lanes, 1] lst) ht hcheck ((congrArg₂ cmdLogstart.own (cmdLogstart.asked_eq _ s) rfl).trans hown) hcross
  obtain ⟨-, hhead, hlog⟩ := cmdLogstart.answered_frame hpair (cmdLogstart.entry (mkReq 0x0701 h [mode, lanes, 1] lst) s)
  have hstays : ∀ v, actLogstart v (cmdLogstart.entry (mkReq 0x0701 h [mode, lanes, 1] lst) s) = v := fun v => by
    rw [actLogstart, KCmd.entry_req, opd_mkReq2]
    exact if_neg (by simp)
  rw [cmdLogstart_act, hstays] at hsub
  obtain ⟨hact, hatArm, hmode, hlanes, -, -⟩ := LogState.eq_of_lessEvents (hlog.trans ((congrArg (fun v : State => v.log.lessEvents) hframe).trans hless))
  refine ⟨_, hsub, completes_answered ht (mirrors_alone _ hpair) ?_ rfl rfl, ?_, hact, hatArm, hmode, hlanes⟩
  · rw [State.mbxOf, State.mbxOf, howned.mbx, ← cmdLogstart.asked_mbx]
    rfl
  · show (cmdLogstart.answered u _ 0 []).jnl.head = _
    rw [hhead, howned.jnl]
    exact KCmd.asked_jnl_head rfl

end

end

end Sys2Proof.Machine

open Sys2Proof Sys2Proof.Machine

/-- Settles O32: one command after the other (kSubmit_takesEffect); of a list's entries for one target the last stands. -/
theorem announcedCommandsActAtOnceOutsideARun : Obligations.AnnouncedCommandsActAtOnceOutsideARun := by
  unfold Obligations.AnnouncedCommandsActAtOnceOutsideARun
  exact ⟨fun h clear count lst s => execWgmcommit_takesEffect, fun h count lst s => execCtxcommit_takesEffect,
    fun h lane cnofs flim s => execLanecommit_takesEffect, fun h pre post lanes bcnen acclat ctl s => execCaparm_takesEffect,
    fun h s => execCaptrig_takesEffect, fun h beacon base len min ctl lst s => execBcnload_takesEffect,
    fun h quay first count lst s => execEnvload_takesEffect, fun h mode lanes lst s => execLogstart_takesEffect,
    fun h mode lanes lst s => execLogstart_atArm⟩

/-- Settles O33: one command after the other (kSubmit_waitsForCrossing). -/
theorem announcedCommandsWaitInARun : Obligations.AnnouncedCommandsWaitInARun := by
  unfold Obligations.AnnouncedCommandsWaitInARun
  exact ⟨fun h clear count lst s => execWgmcommit_waits, fun h count lst s => execCtxcommit_waits, fun h lane cnofs flim s => execLanecommit_waits,
    fun h pre post lanes bcnen acclat ctl s => execCaparm_waits, fun h s => execCaptrig_waits,
    fun h beacon base len min ctl lst s => execBcnload_waits, fun h quay first count lst s => execEnvload_waits,
    fun h mode lanes lst s => execLogstart_waits⟩

end

section
/-! PROOFS. Pauses, resumes and the automatic restart of a run (12 R353, 14 R386 to R388). -/

namespace Sys2Proof.Machine

section
variable {s : State}

/-! ### Pauses (14 R386, R387) -/

/-- The state in which the array drains for a pause at P, its latch taken (14 R386). -/
def State.drainingFor (s : State) (p : CN) : State :=
  { s with run := { s.run with phase := .draining, pcn := p, lastP := p }, kly := { s.kly with pause := some (s.mkLatch p false) } }

theorem execPauseStart_drains {p : CN} (hrun : s.run.phase = .running) (hp : s.run.pauseAt = some p) (hcn : s.cn = cnAdd p s.hdr.rofs) :
    GoesTo (execPauseStart s) fun t => t.run = { s.run with phase := .draining, pcn := p, lastP := p } ∧ t.kly.pause = some (s.mkLatch p false) ∧
      t = { s with run := t.run, kly := { s.kly with pause := t.kly.pause }, log := t.log } := by
  have hdue : s.pauseDue = true := by simp [State.pauseDue, hrun, hp, ← hcn]
  have hgo : execPauseStart s = .next ((s.drainingFor p).logEvent (.pause p)) := by
    unfold execPauseStart
    split
    next q hq =>
      obtain rfl : p = q := Option.some.inj (hp.symm.trans hq)
      rw [if_pos hdue]
      rfl
    next hn => exact absurd (hp.symm.trans hn) (Option.some_ne_none p)
  obtain ⟨log, hlog⟩ := (s.drainingFor p).logEvent_frame (.pause p)
  rw [hlog] at hgo
  exact ⟨_, hgo, rfl, rfl, rfl⟩

/-- The drain has ended: the run stands paused, with what its latch still lacked (14 R386, R387). -/
def State.pausedNow (s : State) (f : Latch → Latch) : State :=
  { s with run := { s.run with phase := .paused, pauseAt := none, pausedAt := s.cn }, kly := { s.kly with pause := s.kly.pause.map f } }

/-- The notices of commands whose effect is in force already change mailboxes, interrupts, journal and the list of those that wait. -/
theorem State.applyDue_noAct_frame {c : KCmd} (hact : c.act = noAct) (s : State) (t e : CN) :
    (s.applyDue c t e).run = s.run ∧ (s.applyDue c t e).arr = s.arr ∧ (s.applyDue c t e).chan = s.chan := by
  have hone : ∀ (u : State) (w : Waiting), c.act (u.dropWaiting w.jseq) w = u.dropWaiting w.jseq := fun u w => by rw [hact]; rfl
  have hrun : ∀ (u : State) (w : Waiting), ((c.act (u.dropWaiting w.jseq) w).effectNotice w e).run = u.run := fun u w => by
    rw [hone, State.effectNotice_run]
    rfl
  have harr : ∀ (u : State) (w : Waiting), ((c.act (u.dropWaiting w.jseq) w).effectNotice w e).arr = u.arr := fun u w => by
    rw [hone, State.effectNotice_arr]
    rfl
  have hchan : ∀ (u : State) (w : Waiting), ((c.act (u.dropWaiting w.jseq) w).effectNotice w e).chan = u.chan := fun u w => by
    rw [hone, State.effectNotice_chan]
    rfl
  exact ⟨foldl_same State.run _ hrun _ s, foldl_same State.arr _ harr _ s, foldl_same State.chan _ hchan _ s⟩

theorem cmdPause_act : cmdPause.act = noAct := by rw [cmdPause]

theorem execPaused_pauses (hd : s.run.phase = .draining) (hcn : cnLe (cnAdd s.run.pcn (s.hdr.rofs + s.hdr.a + 1)) s.cn = true) :
    GoesTo (execPaused s) fun t => t.run = { s.run with phase := .paused, pauseAt := none, pausedAt := s.cn } ∧
      t.arr = s.arr ∧ t.chan = s.chan ∧ ∀ w, dueOnly s 0x0203 s.run.pcn w = true → Notified s t w s.cn ∧ Leaves s t w := by
  have hgo : ∃ f, execPaused s = .next ((s.pausedNow f).applyDue cmdPause s.run.pcn s.cn) := by
    unfold execPaused
    rw [if_pos (by simp [hd, State.pausedFrom, hcn])]
    exact ⟨_, rfl⟩
  obtain ⟨f, hgo⟩ := hgo
  obtain ⟨hrun, harr, hchan⟩ := (s.pausedNow f).applyDue_noAct_frame cmdPause_act s.run.pcn s.cn
  refine ⟨_, hgo, hrun, harr, hchan, fun w hw => ?_⟩
  have hdue : dueOnly (s.pausedNow f) cmdPause.spec.op s.run.pcn w = true := hw
  rw [applyDue_of_dueOnly hdue, cmdPause_act]
  exact ⟨notified_effectNotice rfl, by rw [Leaves, State.effectNotice_kly]; rfl⟩

/-! ### Resumes (14 R388) -/

theorem State.restoreTensor_frame (l : TensorLatch) : s.restoreTensor l = { s with wgm := (s.restoreTensor l).wgm } := rfl

/-- What a latch restores is in the Weighmaster, the contexts and the cells' scales. -/
theorem State.restoreLatch_frame (l : Latch) :
    s.restoreLatch l = { s with wgm := (s.restoreLatch l).wgm, chan := (s.restoreLatch l).chan, arr := (s.restoreLatch l).arr } := by
  have htensors : ∀ ts : List TensorLatch, ts.foldl State.restoreTensor s = { s with wgm := (ts.foldl State.restoreTensor s).wgm } := fun ts =>
    List.foldlRecOn (motive := fun u : State => u = { s with wgm := u.wgm }) ts _ rfl fun u hu x _ => by
      rw [State.restoreTensor_frame, hu]
  have hctxs : ∀ u : State, u.restoreCtxs l = { u with chan := (u.restoreCtxs l).chan } := fun u =>
    List.foldlRecOn (motive := fun v : State => v = { u with chan := v.chan }) l.ctxs _ rfl fun v hv p _ => by
      rw [hv]
      rfl
  unfold State.restoreLatch
  rw [State.pushAllScales_frame, hctxs, htensors]

/-- The run as a resume at Q leaves it, before the array is loaded and the latch restored. -/
def State.resumedAt (s : State) (l : Latch) (q : CN) : State :=
  { s with
    run := { s.run with phase := .running, delta := s.run.delta + (q - s.run.pcn), first := q, filling := true
                        resumed := true, resumeQ := none, fillEnd := cnAdd q (s.hdr.rofs + s.hdr.a + 1) }
    planes := { Planes.reset with actSlot := s.planes.actSlot, actEp := l.ep, swCn := s.planes.swCn
                                  epochs := [{ c := q, epoch := l.ep, slot := s.planes.actSlot }] }
    alm := { s.alm with pools := [] }
    kly := { s.kly with pause := none } }

theorem State.loadArray_frame (ep : BitVec 2) : s.loadArray ep = { s with tick := 0, arr := (s.loadArray ep).arr } := by
  unfold State.loadArray
  rw [State.pushAllScales_frame]

theorem actResume_of_latch {w : Waiting} {l : Latch} (h : s.kly.pause = some l) : ∃ arr wgm chan log,
    actResume s w = { s.resumedAt l w.at_ with tick := 0, arr := arr, wgm := wgm, chan := chan, log := log } := by
  have heq : actResume s w = (((s.resumedAt l w.at_).loadArray l.ep).restoreLatch l).logEvent (.resume l.p w.at_) := by
    simp only [actResume, h]
    rfl
  obtain ⟨log, hlog⟩ := (((s.resumedAt l w.at_).loadArray l.ep).restoreLatch l).logEvent_frame (.resume l.p w.at_)
  rw [heq, hlog, State.restoreLatch_frame, State.loadArray_frame]
  exact ⟨_, _, _, _, rfl⟩

theorem cmdResume_act : cmdResume.act = actResume := by rw [cmdResume]

/-- RESUME commands of a crossing with the commits that write what a resume restores (15 R409). -/
theorem State.resumeDue_eq (t : CN) : (s.kly.waiting.filter fun w => (resumeCmds.any fun c => c.spec.op == w.req.op.toNat) && decide (w.at_ = t)) =
    s.kly.waiting.filter fun w => (w.req.op.toNat == 0x0204 && decide (w.at_ = t)) ||
      ((w.req.op.toNat == 0x0501 && decide (w.at_ = t)) || (w.req.op.toNat == 0x0502 && decide (w.at_ = t))) := by
  refine List.filter_congr fun w _ => ?_
  simp only [resumeCmds, cmdResume, cmdWgmcommit, cmdCtxcommit, List.any_cons, List.any_nil, Bool.or_false, Bool.and_or_distrib_right,
    Bool.beq_comm (a := w.req.op.toNat)]

theorem execResumeEffect_of_due {w : Waiting} (hq : s.run.resumeQ = some s.cn) (ht : s.alm.trained = true) (hb : s.atBoundary = true)
    (hw : dueOnly s 0x0204 s.cn w = true) (h1 : s.dueNow 0x0501 s.cn = []) (h2 : s.dueNow 0x0502 s.cn = []) :
    execResumeEffect true s = .next ((actResume (s.dropWaiting w.jseq) w).effectNotice w s.cn) := by
  have hnone : (s.kly.waiting.filter fun w => (w.req.op.toNat == 0x0501 && decide (w.at_ = s.cn)) || (w.req.op.toNat == 0x0502 && decide (w.at_ = s.cn))) = [] := by
    rw [List.filter_eq_nil_iff]
    intro x hx
    rw [Bool.or_eq_true]
    exact fun h => h.elim (List.filter_eq_nil_iff.1 h1 x hx) (List.filter_eq_nil_iff.1 h2 x hx)
  have hdue := filter_or_of_alone (dueOnly_iff.1 hw) hnone
  simp only [execResumeEffect, State.resumeHere, hq, ht, hb, decide_true, Bool.not_true, Bool.and_self, Bool.false_eq_true, if_false, if_true]
  rw [applyGroup_of_alone (c := cmdResume) rfl (dueOnly_at hw).1 (by rw [State.resumeDue_eq]; exact hdue), cmdResume_act]

/-- Q takes the presented number of P. -/
theorem presented_resume (q p d : CN) : q - (d + (q - p)) = p - d := by
  bv_omega

theorem execResumeEffect_resumes {l : Latch} {w : Waiting} (hq : s.run.resumeQ = some s.cn) (ht : s.alm.trained = true)
    (hw : dueOnly s 0x0204 s.cn w = true) (hl : s.kly.pause = some l) (hb : s.atBoundary = true) (h1 : s.dueNow 0x0501 s.cn = [])
    (h2 : s.dueNow 0x0502 s.cn = []) :
    GoesTo (execResumeEffect true s) fun t => t.run.phase = .running ∧ t.run.filling = true ∧ t.run.resumeQ = none ∧
      t.run.first = s.cn ∧ t.pcn = s.run.pcn - s.run.delta ∧ t.kly.pause = none ∧ t.tick = 0 ∧ t.planes.actEp = l.ep ∧
      Notified s t w s.cn ∧ Leaves s t w := by
  refine ⟨_, execResumeEffect_of_due hq ht hb hw h1 h2, ?_⟩
  obtain ⟨arr, wgm, chan, log, hact⟩ := actResume_of_latch (s := s.dropWaiting w.jseq) (w := w) (l := l) hl
  have hat : w.at_ = s.cn := (dueOnly_at hw).2
  rw [hat] at hact
  have hnotified : Notified s ((actResume (s.dropWaiting w.jseq) w).effectNotice w s.cn) w s.cn := notified_effectNotice (by rw [hact]; rfl)
  have hleaves : Leaves s ((actResume (s.dropWaiting w.jseq) w).effectNotice w s.cn) w := by
    rw [Leaves, State.effectNotice_kly, hact]
    rfl
  refine ⟨?_, ?_, ?_, ?_, ?_, ?_, ?_, ?_, hnotified, hleaves⟩
  · rw [State.effectNotice_run, hact]; rfl
  · rw [State.effectNotice_run, hact]; rfl
  · rw [State.effectNotice_run, hact]; rfl
  · rw [State.effectNotice_run, hact]; rfl
  · rw [State.pcn, State.pres, State.effectNotice_run, State.effectNotice_cn, hact]
    exact presented_resume _ _ _
  · rw [State.effectNotice_kly, hact]; rfl
  · rw [State.effectNotice_tick, hact]
  · rw [State.effectNotice_planes, hact]; rfl

/-! ### Resumes that are void (14 R388) -/

theorem State.voidNotice_frame (w : Waiting) (st : JSt) (c : Nat) : (s.voidNotice w st c).run = s.run ∧ (s.voidNotice w st c).kly = s.kly := by
  unfold State.voidNotice
  exact ⟨State.post_run _ _ _, State.post_kly _ _ _⟩

/-- Void RESUME commands leave the run as it is. -/
theorem State.foldl_voids_run (l : List Waiting) (s : State) :
    (l.foldl (fun u w => (u.dropWaiting w.jseq).voidNotice w .void 0xB00D) s).run = s.run := by
  induction l generalizing s with
  | nil => rfl
  | cons w l ih => rw [List.foldl_cons, ih, (State.voidNotice_frame w .void 0xB00D).1, State.dropWaiting]

theorem State.voidResume_run (q : CN) : (s.voidResume q).run = { s.run with resumeQ := none } := by
  rw [State.voidResume, State.foldl_voids_run]

theorem State.voidResume_leaves {q : CN} {w : Waiting} (hdue : s.dueNow 0x0204 q = [w]) : Leaves s (s.voidResume q) w := by
  unfold Leaves State.voidResume
  rw [hdue, List.foldl_cons, List.foldl_nil, (State.voidNotice_frame w .void 0xB00D).2, State.dropWaiting]

theorem execResumeEffect_voids (hq : s.run.resumeQ = some s.cn) : GoesTo (execResumeEffect false s) fun t =>
    t.run = { s.run with resumeQ := none } ∧ ∀ w, dueOnly s 0x0204 s.cn w = true → Leaves s t w := by
  have hgo : execResumeEffect false s = .next (s.voidResume s.cn) := by simp [execResumeEffect, State.resumeHere, hq]
  exact ⟨_, hgo, State.voidResume_run _, fun w hw => State.voidResume_leaves (dueOnly_iff.1 hw)⟩

/-! ### The automatic restart (12 R353) -/

/-- Klowyn's own command passes the checks of R405 on an awake, owned device alone where its row, run state and lead allow it. -/
theorem kCheck_of_own {c : CmdSpec} {r : KReq} {m : Nat} (hm : 16 ≤ m) (hsst : s.pwr.sst = 0) (howned : s.boot.owned = true) (hbrd : s.boot.brdOk = true)
    (hp : s.pairMode = false) (hl : c.lenOk r = true) (hb : c.badOp r = none) (hr : r.hdr.rsvd = false) (ha : r.hdr.at_ = c.cross (c.opds r))
    (hz : c.zeroOp r = none) (hn : c.runCode s = 0) (ht : c.late s r = false) : kCheck c m r s = none := by
  have hsleep : c.sleepOk s = true := by simp [CmdSpec.sleepOk, hsst]
  have hpair : c.pairCode s = 0 := by simp [CmdSpec.pairCode, hp]
  have hpolicy : c.policyBars s m = false := by simp [CmdSpec.policyBars, howned, hbrd, Nat.not_lt.2 hm]
  simp [kCheck, hl, hb, hr, ha, hz, hn, ht, hsleep, hpair, hpolicy]

/-- The operands of the arming that Klowyn issues itself. -/
def State.restartOpds (s : State) : List Dword :=
  [BitVec.ofNat 64 s.run.slot, BitVec.ofNat 64 s.run.pl, s.run.seed, 1, if s.run.debug then 1 else 0]

/-- Their header: the minimum lead from the present crossing. -/
def State.restartHdr (s : State) : CmdHdr :=
  { mbx := 253, tag := 0, len := 40, acn := BitVec.ofNat 48 (s.lead 0x0201 40), at_ := true, rel := true, rsvd := false }

theorem State.restartReq_eq : s.restartReq = mkReq 0x0201 s.restartHdr s.restartOpds [] := rfl

theorem State.target_restartHdr : s.target s.restartHdr = cnAdd s.cn (s.lead 0x0201 40) := rfl

theorem toNat_ofNat64_of_lt {n : Nat} (h : n < 64) : (BitVec.ofNat 64 n).toNat = n := Nat.mod_eq_of_lt (by omega)

theorem cmdArm_admits_restart (hslot : s.run.slot < 64) (hpl : s.run.pl ≤ 2) : cmdArm.spec.Admits s.restartOpds [] := by
  refine ⟨by simp [State.restartOpds], ?_, trivial, fun _ _ _ => rfl, rfl, by simp [cmdArm]⟩
  have hs : (BitVec.ofNat 64 s.run.slot).toNat ≤ 63 := (toNat_ofNat64_of_lt hslot).le.trans (Nat.le_of_lt_succ hslot)
  have hl : (BitVec.ofNat 64 s.run.pl).toNat ≤ 2 := (toNat_ofNat64_of_lt (by omega)).le.trans hpl
  have hd : (if s.run.debug then (1 : Dword) else 0).toNat ≤ 1 := by split <;> decide
  exact .cons hs (.cons hl (.cons (Nat.le_of_lt_succ s.run.seed.isLt) (.cons (by decide) (.cons hd .nil))))

/-- The minimum lead of an arming outside a pair: 256, a crossing, and 2^18. -/
theorem State.lead_arm (hp : s.pairMode = false) : s.lead 0x0201 40 = 262401 := by simp [State.lead, hp]

theorem State.restart_keepsLead (hp : s.pairMode = false) : s.keepsLead s.restartHdr 0x0201 = true := by
  have hlead : s.lead 0x0201 40 = 262401 := State.lead_arm hp
  have hnear : (cnAdd s.cn (s.lead 0x0201 40) - s.cn).toNat = 262401 := by
    rw [hlead, cnAdd]
    bv_omega
  rw [State.keepsLead, State.target_restartHdr, hnear]
  exact decide_eq_true ⟨hlead.le, by decide⟩

theorem cmdArm_own : cmdArm.own = ownArm := by rw [cmdArm]

theorem beq_one_ite (b : Bool) : ((if b then (1 : Dword) else 0) == 1) = b := by cases b <;> rfl

theorem kCheck_restart (hidle : s.armed = false) (hp : s.pairMode = false) (hsst : s.pwr.sst = 0) (howned : s.boot.owned = true)
    (hbrd : s.boot.brdOk = true) (hslot : s.run.slot < 64) (hpl : s.run.pl ≤ 2) : kCheck cmdArm.spec 253 s.restartReq s = none := by
  have hadm := cmdArm_admits_restart hslot hpl
  exact kCheck_of_own (by decide) hsst howned hbrd hp (CmdSpec.lenOk_of_admits hadm rfl) (CmdSpec.badOp_of_admits hadm) rfl rfl
    (CmdSpec.zeroOp_of_admits hadm (by simp [cmdArm])) (CmdSpec.runCode_no rfl hidle) (CmdSpec.not_late (State.restart_keepsLead hp))

/-- The run of the restart is armed: it keeps image, level, seed and debug mode (the model's choice), and begins at the minimum lead. -/
theorem cmdArm_own_restart {u : State} {w : Waiting} (hw : w.req = s.restartReq) (hp : u.pairMode = false) (hslot : s.run.slot < 64) (hpl : s.run.pl ≤ 2)
    (hb : u.armBad s.run.slot s.run.pl s.run.debug = none) :
    cmdArm.own u w = .now (u.armRun s.run.slot s.run.pl s.run.seed s.run.debug w.at_) 0 [] := by
  have h0 : (w.req.opd 0).toNat = s.run.slot := by
    rw [hw, State.restartReq, opd_mkReq0]
    exact toNat_ofNat64_of_lt hslot
  have h1 : (w.req.opd 1).toNat = s.run.pl := by
    rw [hw, State.restartReq, opd_mkReq1]
    exact toNat_ofNat64_of_lt (by omega)
  have h2 : w.req.opd 2 = s.run.seed := by rw [hw, State.restartReq, opd_mkReq2]
  have h3 : w.req.opd 3 = 1 := by rw [hw, State.restartReq, opd_mkReq3]
  have h4 : (w.req.opd 4 == 1) = s.run.debug := by
    rw [hw, State.restartReq, opd_mkReq4]
    exact beq_one_ite _
  rw [cmdArm_own, ownArm_of_solo hp (by rw [h0, h1, h4]; exact hb), h0, h1, h2, h4, if_pos h3]

/-- Klowyn's own journaled command that starts a run waits for its crossing, in the state that its chapter leaves. -/
theorem kRun_own_starts {c : KCmd} {m : Nat} {r : KReq} {v : State} (hm : 16 ≤ m) (hj : c.spec.jrn = true)
    (hx : ∀ o, c.spec.cross o = true) (hstart : startsRun c.spec.op = true) (hk : kCheck c.spec m r s = none)
    (ho : c.own (s.jAdd (s.jEntry c.spec m r 0)) (s.mkWaiting c.spec m r) = .now v 0 []) (hv : v.pairMode = false) :
    (kRun c m r s).run = v.run ∧ (kRun c m r s).jnl = v.jnl ∧
      (kRun c m r s).kly = { v.kly with waiting := v.kly.waiting ++ [s.mkWaiting c.spec m r] } := by
  have hasked : c.askedBy m r s = s.jAdd (s.jEntry c.spec m r 0) := if_pos hj
  have hbox : 16 ≤ (s.mkWaiting c.spec m r).mbx := hm
  have hfin := kFinish_of_no_box v (c := c.spec) (w := s.mkWaiting c.spec m r) hv hbox (hx _) 0 []
  have hwait : c.spec.atOnce s r = false := by simp [CmdSpec.atOnce, hx, hstart]
  obtain ⟨log, hnote⟩ := c.note_frame (s.mkWaiting c.spec m r) v
  have hgo : kRun c m r s = (c.note (s.mkWaiting c.spec m r) v).await (s.mkWaiting c.spec m r) := by
    unfold kRun
    rw [hk]
    dsimp only
    rw [← KCmd.askedBy, hasked, ho]
    dsimp only
    rw [hfin, hx, hwait, if_neg (by decide), if_neg (by decide)]
    rfl
  rw [hgo, hnote]
  exact ⟨rfl, rfl, rfl⟩

theorem execAutoRestart_arms (hd : s.restartDue = true) (hp : s.pairMode = false) (hsst : s.pwr.sst = 0) (howned : s.boot.owned = true)
    (hbrd : s.boot.brdOk = true) (hslot : s.run.slot < 64) (hpl : s.run.pl ≤ 2) (hb : s.armBad s.run.slot s.run.pl s.run.debug = none) :
    GoesTo (execAutoRestart s) fun t => t.run.phase = .armed ∧ t.run.first = cnAdd s.cn (s.lead 0x0201 40) ∧
      t.run.slot = s.run.slot ∧ t.run.pl = s.run.pl ∧ t.run.seed = s.run.seed ∧ t.run.debug = s.run.debug ∧ Journals s t ∧
      ∃ w, t.kly.waiting = s.kly.waiting ++ [w] ∧ w.mbx = 253 := by
  have hidle : s.armed = false := by
    simp only [State.restartDue, Bool.and_eq_true, Bool.not_eq_true'] at hd
    exact hd.1.1.1.1.1.1.1
  let w := s.mkWaiting cmdArm.spec 253 s.restartReq
  let u := s.jAdd (s.jEntry cmdArm.spec 253 s.restartReq 0)
  have hat : w.at_ = cnAdd s.cn (s.lead 0x0201 40) := if_neg (by simp [CmdSpec.atOnce, cmdArm, startsRun])
  have hown := cmdArm_own_restart (s := s) (u := u) (w := w) rfl hp hslot hpl hb
  have howns : u.Owned (u.armRun s.run.slot s.run.pl s.run.seed s.run.debug w.at_) := State.armRun_owned _ _ _ _ _ _
  obtain ⟨hrun, hjnl, hkly⟩ := kRun_own_starts (c := cmdArm) (m := 253) (by decide) rfl (fun _ => rfl) rfl
    (kCheck_restart hidle hp hsst howned hbrd hslot hpl) hown (howns.pairMode.trans hp)
  refine ⟨_, if_pos hd, ?_⟩
  dsimp only [Journals]
  rw [hrun, State.armRun_run, hjnl, howns.jnl, hkly, howns.kly, ← hat]
  exact ⟨rfl, rfl, rfl, rfl, rfl, rfl, rfl, w, rfl, rfl⟩

end

end Sys2Proof.Machine

open Sys2Proof Sys2Proof.Machine

/-- Settles O35: pause, end of the drain, resume and void resume in the lemmas of their events; the restart is Klowyn's own ARM at its minimum lead. -/
theorem pauseResumeAndRestart : Obligations.PauseResumeAndRestart := by
  refine ⟨?_, ?_, ?_, ?_, ?_⟩
  · exact fun s p hrun hp hcn => execPauseStart_drains hrun hp hcn
  · exact fun s hd hcn => execPaused_pauses hd hcn
  · exact fun s l w hq ht hw hl hb h1 h2 => execResumeEffect_resumes hq ht hw hl hb h1 h2
  · exact fun s hq => execResumeEffect_voids hq
  · exact fun s hd hp hsst howned hbrd hslot hpl hb => execAutoRestart_arms hd hp hsst howned hbrd hslot hpl hb

end

section
/-! PROOFS. Register accesses: staged fields, the words of a write, latched reads (16 R426, R433 to R448). -/

namespace Sys2Proof.Machine

/-! ### A word of a number replaced, and the words of a number -/

theorem getLsbD_ones (i : Nat) : (0xFFFFFFFF : Word).getLsbD i = decide (i < 32) := BitVec.getLsbD_allOnes

theorem getLsbD_setWordK {n : Nat} (b : BitVec n) (k : Nat) (v : Word) {i : Nat} (hi : i < n) :
    (setWordK b k v).getLsbD i = if 32 * k ≤ i ∧ i < 32 * k + 32 then v.getLsbD (i - 32 * k) else b.getLsbD i := by
  have hone : ((0xFFFFFFFF : Word).setWidth n).getLsbD (i - 32 * k) = decide (i < 32 * k + 32 ∨ i < 32 * k) := by
    rw [BitVec.getLsbD_setWidth, getLsbD_ones]
    simp only [Bool.decide_or, ← Bool.decide_and]
    rw [← Bool.decide_or, decide_eq_decide]
    omega
  simp only [setWordK, BitVec.getLsbD_or, BitVec.getLsbD_and, BitVec.getLsbD_not, BitVec.getLsbD_shiftLeft, hone, hi, decide_true, Bool.true_and]
  by_cases hlo : i < 32 * k
  · rw [if_neg (by omega)]
    simp [hlo]
  · by_cases hhi : i < 32 * k + 32
    · rw [if_pos ⟨Nat.not_lt.1 hlo, hhi⟩]
      simp [hlo, hhi, show i - 32 * k < n by omega]
    · rw [if_neg (by omega)]
      simp [hlo, hhi, BitVec.getLsbD_setWidth, BitVec.getLsbD_of_ge v (i - 32 * k) (by omega)]

theorem extract_setWordK_same {n : Nat} (b : BitVec n) {k : Nat} (v : Word) (h : 32 * k + 32 ≤ n) : (setWordK b k v).extractLsb' (32 * k) 32 = v := by
  refine BitVec.eq_of_getLsbD_eq fun i hi => ?_
  rw [BitVec.getLsbD_extractLsb', getLsbD_setWordK b k v (by omega), if_pos (by omega)]
  simp [hi]

/-- The bits from place a on, where they lie beside word k, stay. -/
theorem extract_setWordK_other {n : Nat} (b : BitVec n) {k a len : Nat} (v : Word) (hn : a + len ≤ n) (h : a + len ≤ 32 * k ∨ 32 * k + 32 ≤ a) :
    (setWordK b k v).extractLsb' a len = b.extractLsb' a len := by
  refine BitVec.eq_of_getLsbD_eq fun i hi => ?_
  rw [BitVec.getLsbD_extractLsb', BitVec.getLsbD_extractLsb', getLsbD_setWordK b k v (by omega), if_neg (by omega)]

/-- All three words of a number of 96 bits replaced. -/
theorem setWordK_all (x : BitVec 96) (a b c : Word) : setWordK (setWordK (setWordK x 0 a) 1 b) 2 c = c ++ b ++ a := by
  refine BitVec.eq_of_getLsbD_eq fun i hi => ?_
  rw [getLsbD_setWordK _ _ _ hi, getLsbD_setWordK _ _ _ hi, getLsbD_setWordK _ _ _ hi, BitVec.getLsbD_append, BitVec.getLsbD_append]
  by_cases h0 : i < 32
  · rw [if_neg (by omega), if_neg (by omega), if_pos (by omega)]
    simp [h0]
  · by_cases h1 : i < 64
    · rw [if_neg (by omega), if_pos (by omega)]
      simp [h0, show i - 32 < 32 by omega]
    · rw [if_pos (by omega)]
      simp [h0, show ¬i - 32 < 32 by omega, Nat.sub_sub]

section
variable {s : State} {req : Requester} {val : Word} {k : Nat}

/-! ### Staged fields (16 R445, R448) -/

theorem execStagedWrite_next {o : Nat} (ho : stagedOff o = true) (ha : s.answers req = true) :
    execStagedWrite req o val s = .next (s.stageWord req o val) := by
  rw [execStagedWrite, if_neg (by simp [ho]), State.access_of_answers ha]

theorem State.stageWord_chr {o : Nat} (h : o < 0x41000) (ho : s.chrOwner req = true) : s.stageWord req o val = s.stageChr o val := by
  rw [State.stageWord, if_pos h, if_pos ho]

theorem State.stageChr_step (hk : k < 3) :
    s.stageChr (0x40020 + 4 * k) val = { s with chr := { s.chr with stStep := setWordK s.chr.stStep k val } } := by
  rw [State.stageChr]
  dsimp only
  rw [if_pos (by omega), show (0x40020 + 4 * k - 0x40020) / 4 = k by omega]

theorem State.stageChr_inc :
    s.stageChr 0x40030 val = { s with chr := { s.chr with stInc := (setWordK (s.chr.stInc.setWidth 64) 0 val).setWidth 42 } } := rfl

theorem State.stageWord_pulse (hk : k < 8) :
    s.stageWord .host (0x41010 + 0x40 * k) val = s.setPulse k { s.pulse k with stPer := val } := by
  have hp : (0x41010 + 0x40 * k - 0x41000) / 0x40 = k := by omega
  have hr : (0x41010 + 0x40 * k - 0x41000) % 0x40 = 0x10 := by omega
  rw [State.stageWord, if_neg (by omega), if_pos (by omega), if_pos rfl, State.stagePulse]
  dsimp only
  rw [hp, hr]
  rfl

theorem State.stageWord_cig {o : Nat} (h : 0x42000 ≤ o) (ho : s.cigOwner req = true) : s.stageWord req o val = s.stageCig o val := by
  rw [State.stageWord, if_neg (by omega), if_neg (by omega), if_pos ho]

theorem State.stageWord_notOwner {o : Nat} (h : o < 0x41000 → s.chrOwner req = false) (hp : 0x41000 ≤ o → 0x42000 ≤ o ∧ s.cigOwner req = false) :
    s.stageWord req o val = s.notOwner := by
  unfold State.stageWord
  by_cases ho : o < 0x41000
  · rw [if_pos ho, h ho, if_neg Bool.false_ne_true]
  · obtain ⟨hge, hcig⟩ := hp (Nat.le_of_not_lt ho)
    rw [if_neg ho, if_neg (by omega), hcig, if_neg Bool.false_ne_true]

theorem State.notOwner_cig : s.notOwner.cig = s.cig := by
  rw [State.notOwner, State.raiseBit, State.raise_frame]

theorem stagedOff_step (hk : k < 3) : stagedOff (0x40020 + 4 * k) = true := by
  simp only [stagedOff, barWord, Bool.and_eq_true, decide_eq_true_eq]
  omega

theorem stagedOff_per (hk : k < 8) : stagedOff (0x41010 + 0x40 * k) = true := by
  simp only [stagedOff, barWord, Bool.and_eq_true, decide_eq_true_eq]
  omega

theorem stagedOff_rgn (hk : k < 64) : stagedOff (0xC0100 + 4 * k) = true := by
  simp only [stagedOff, barWord, Bool.and_eq_true, decide_eq_true_eq]
  omega

theorem execStagedWrite_step (ha : s.answers req = true) (hk : k < 3) (ho : s.chrOwner req = true) :
    GoesTo (execStagedWrite req (0x40020 + 4 * k) val s) fun t => t = { s with chr := { s.chr with stStep := t.chr.stStep } } ∧
      t.chr.stStep.extractLsb' (32 * k) 32 = val ∧
      ∀ j, j < 3 → j ≠ k → t.chr.stStep.extractLsb' (32 * j) 32 = s.chr.stStep.extractLsb' (32 * j) 32 := by
  refine ⟨_, by rw [execStagedWrite_next (stagedOff_step hk) ha, State.stageWord_chr (by omega) ho, State.stageChr_step hk], rfl, ?_, fun j hj hne => ?_⟩
  · exact extract_setWordK_same _ _ (by omega)
  · exact extract_setWordK_other _ _ (by omega) (by omega)

theorem execStagedWrite_inc (ha : s.answers req = true) (ho : s.chrOwner req = true) :
    GoesTo (execStagedWrite req 0x40030 val s) fun t => t = { s with chr := { s.chr with stInc := t.chr.stInc } } ∧
      t.chr.stInc.extractLsb' 0 32 = val ∧ t.chr.stInc.extractLsb' 32 10 = s.chr.stInc.extractLsb' 32 10 := by
  have hlow : ∀ (x : BitVec 64) (a len : Nat), a + len ≤ 42 → (x.setWidth 42).extractLsb' a len = x.extractLsb' a len := fun x a len h =>
    BitVec.eq_of_getLsbD_eq fun i hi => by
      rw [BitVec.getLsbD_extractLsb', BitVec.getLsbD_extractLsb', BitVec.getLsbD_setWidth]
      simp [show a + i < 42 by omega]
  have hwide : (s.chr.stInc.setWidth 64).extractLsb' 32 10 = s.chr.stInc.extractLsb' 32 10 := BitVec.eq_of_getLsbD_eq fun i hi => by
    rw [BitVec.getLsbD_extractLsb', BitVec.getLsbD_extractLsb', BitVec.getLsbD_setWidth]
    simp [show 32 + i < 64 by omega]
  refine ⟨_, by rw [execStagedWrite_next (by decide) ha, State.stageWord_chr (by decide) ho, State.stageChr_inc], rfl, ?_, ?_⟩
  · exact (hlow _ _ _ (by decide)).trans (extract_setWordK_same _ (k := 0) _ (by decide))
  · exact (hlow _ _ _ (by decide)).trans ((extract_setWordK_other _ _ (by decide) (by decide)).trans hwide)

theorem execStagedWrite_per (ha : s.answers .host = true) (hk : k < 8) :
    GoesTo (execStagedWrite .host (0x41010 + 0x40 * k) val s) fun t => t.pulse k = { s.pulse k with stPer := val } ∧
      ∀ q, q ≠ k → t.pulse q = s.pulse q :=
  ⟨s.setPulse k { s.pulse k with stPer := val }, by rw [execStagedWrite_next (stagedOff_per hk) ha, State.stageWord_pulse hk],
    tget_tset_same _ _ _ _, fun _ hq => s.pulse_setPulse_ne hq _⟩

theorem execStagedWrite_ref (ha : s.answers req = true) (ho : s.cigOwner req = true) :
    execStagedWrite req 0xC0010 val s = .next { s with cig := { s.cig with stRef := val } } := by
  rw [execStagedWrite_next (by decide) ha, State.stageWord_cig (by decide) ho]
  rfl

theorem State.stageCig_rgn (hk : k < 64) : s.stageCig (0xC0100 + 4 * k) val = { s with cig := { s.cig with stRgn := tput 0 s.cig.stRgn k val } } := by
  rw [State.stageCig, if_neg (by omega), show (0xC0100 + 4 * k - 0xC0100) / 4 = k by omega]

theorem execStagedWrite_rgn (ha : s.answers req = true) (hk : k < 64) (ho : s.cigOwner req = true) :
    GoesTo (execStagedWrite req (0xC0100 + 4 * k) val s) fun t => tget 0 t.cig.stRgn k = val ∧
      (∀ j, j ≠ k → tget 0 t.cig.stRgn j = tget 0 s.cig.stRgn j) ∧ t = { s with cig := { s.cig with stRgn := t.cig.stRgn } } :=
  ⟨_, by rw [execStagedWrite_next (stagedOff_rgn hk) ha, State.stageWord_cig (by omega) ho, State.stageCig_rgn hk],
    tget_tput_same _ _ _ _, fun _ hj => tget_tput_ne _ _ _ hj, rfl⟩

theorem execStagedWrite_notOwner {o : Nat} (hst : stagedOff o = true) (ha : s.answers req = true) (h : o < 0x41000 → s.chrOwner req = false)
    (hp : 0x41000 ≤ o → 0x42000 ≤ o ∧ s.cigOwner req = false) : execStagedWrite req o val s = .next s.notOwner := by
  rw [execStagedWrite_next hst ha, State.stageWord_notOwner h hp]

/-! ### The words of a write (16 R433 to R436) -/

/-- A word of a staged register goes to its staging copy. -/
theorem State.writeWord_staged {o : Nat} {r : Reg} (hm : s.mapped o = true) (hlt : o < 0x800000) (hr : s.regAt o = some (r, k))
    (hst : r.kind = .staged) : s.writeWord req o val = s.stageWord req o val := by
  have halias : s.aliasOf o = none := by
    unfold State.aliasOf
    rw [hr]
    split
    next heq =>
      obtain ⟨rfl, rfl⟩ := Prod.mk.inj (Option.some.inj heq)
      rw [hst]
    · rfl
  have hstaged : s.isStaged o = true := by simp [State.isStaged, hr, hst]
  simp [State.writeWord, hm, halias, hstaged, Nat.not_le.2 hlt]

/-- A plain word acts as its register does, and covered words are noted. -/
theorem State.writeWord_plain {o : Nat} {r : Reg} (hm : s.mapped o = true) (hlt : o < 0x800000) (hr : s.regAt o = some (r, k))
    (hst : r.kind = .plain) (hcig : o ≠ 0xC0000) : s.writeWord req o val = (s.writeReg req o val).noted s (touchedBy o) := by
  have halias : s.aliasOf o = none := by
    unfold State.aliasOf
    rw [hr]
    split
    next heq =>
      obtain ⟨rfl, rfl⟩ := Prod.mk.inj (Option.some.inj heq)
      rw [hst]
    · rfl
  have hstaged : s.isStaged o = false := by simp [State.isStaged, hr, hst]
  simp [State.writeWord, hm, halias, hstaged, Nat.not_le.2 hlt, hcig]

/-- A write that changes nothing is no change of a covered word. -/
theorem State.noted_self (ws : List Nat) : s.noted s ws = s := by
  simp [State.noted, State.covered]

theorem State.raise_lessSignals (i : EvtId) (m : Word) : (s.raise i m).host.lessSignals = s.host.lessSignals := by
  unfold State.raise
  split
  · rfl
  · dsimp only
    split
    · rfl
    · rw [State.signal_lessSignals]

theorem State.raiseBit_scratch (i : EvtId) (b : Nat) : (s.raiseBit i b).host.scratch = s.host.scratch := by
  rw [State.raiseBit, HostState.of_lessSignals (s.raise_lessSignals i _)]

theorem State.raiseBit_frame (i : EvtId) (b : Nat) :
    s.raiseBit i b = { s with host := (s.raiseBit i b).host, evts := (s.raiseBit i b).evts } := s.raise_frame i _

theorem execRegisterWrite_next {off : Nat} {vals : List Word} {whole : Bool} (hb : barReq off vals.length = true) (ha : s.answers req = true) :
    execRegisterWrite req off vals whole s = .next (if whole then State.writeWords req off vals s else s.raiseBit .hst 2) := by
  rw [execRegisterWrite, if_neg (by simp [hb]), State.access_of_answers ha]

theorem State.mapped_of_regAt {o : Nat} {x : Reg × Nat} (hlt : o < 0x600000) (h : s.regAt o = some x) : s.mapped o = true := by
  obtain ⟨b, hb, -⟩ := Option.bind_eq_some_iff.1 h
  simp [State.mapped, hlt, hb]

theorem State.regAt_scratch : s.regAt 0x18 = some (.plain 0x18 s.host.scratch.toNat, 0) := by
  simp [State.regAt, State.block, State.regsId, Reg.plain, Reg.latch]

theorem State.regAt_idDev : s.regAt 0x00 = some (.plain 0x00 s.host.idDev.toNat, 0) := by
  simp [State.regAt, State.block, State.regsId, Reg.plain]

/-- The register of a block that holds a word: the first whose words meet it. -/
theorem State.regAt_of_block {o b : Nat} {rs pre post : List Reg} {r : Reg} (hb : s.block o = some (b, rs)) (hrs : rs = pre ++ r :: post)
    (hpre : ∀ x ∈ pre, o < b + x.off ∨ b + x.off + 4 * x.words ≤ o) (hin : b + r.off ≤ o ∧ o < b + r.off + 4 * r.words) :
    s.regAt o = some (r, (o - b - r.off) / 4) := by
  have hnone : pre.find? (fun x => decide (b + x.off ≤ o ∧ o < b + x.off + 4 * x.words)) = none := by
    refine List.find?_eq_none.2 fun x hx => ?_
    have h := hpre x hx
    simp only [decide_eq_true_eq]
    omega
  rw [State.regAt, hb, Option.bind_some, hrs, List.find?_append, hnone, Option.none_or, List.find?_cons_of_pos (by simpa using hin), Option.map_some]

theorem State.regAt_step (hk : k < 3) : s.regAt (0x40020 + 4 * k) = some (.staged 0x20 3 s.chr.stStep.toNat 0, k) := by
  have hb : s.block (0x40020 + 4 * k) = some (0x40000, s.regsChr) := by
    unfold State.block
    repeat rw [if_neg (by omega)]
    rw [if_pos (by omega), if_neg (by omega)]
  have h := State.regAt_of_block hb (pre := s.regsChr.take 4) (r := .staged 0x20 3 s.chr.stStep.toNat 0) rfl
    (by simp [State.regsChr, Reg.plain, Reg.latch, Reg.events]; omega) ⟨by simp [Reg.staged], by simp [Reg.staged]; omega⟩
  rw [h, show (0x40020 + 4 * k - 0x40000 - (Reg.staged 0x20 3 s.chr.stStep.toNat 0).off) / 4 = k by simp [Reg.staged]; omega]

theorem State.block_sext {o l : Nat} (hlo : 0x140000 + 0x100 * l ≤ o) (hhi : o < 0x140100 + 0x100 * l) (hl : l < 64) :
    s.block o = some (0x140000 + 0x100 * l, s.regsSxt l) := by
  have hq : (o - 0x140000) / 0x100 = l := by omega
  unfold State.block
  repeat rw [if_neg (by omega)]
  rw [if_pos (by omega), hq]

theorem State.regAt_limit {l : Nat} (hl : l < 64) : s.regAt (0x140004 + 0x100 * l) = some (.plain 0x04 (s.sextOf l).limit.toNat, 0) := by
  have h := State.regAt_of_block (s.block_sext (o := 0x140004 + 0x100 * l) (l := l) (by omega) (by omega) hl) (pre := (s.regsSxt l).take 1)
    (r := .plain 0x04 (s.sextOf l).limit.toNat) rfl (by simp [State.regsSxt, Reg.plain]; omega) ⟨by simp [Reg.plain]; omega, by simp [Reg.plain]; omega⟩
  rw [h, show (0x140004 + 0x100 * l - (0x140000 + 0x100 * l) - (Reg.plain 0x04 (s.sextOf l).limit.toNat).off) / 4 = 0 by simp [Reg.plain]; omega]

theorem execRegisterWrite_scratch (ha : s.answers req = true) : GoesTo (execRegisterWrite req 0x18 [val] true s) fun t =>
    t.host.scratch = val ∧ t = { s with host := t.host, cig := t.cig } := by
  have hword : s.writeWord req 0x18 val = ({ s with host := { s.host with scratch := val } }).noted s (touchedBy 0x18) :=
    State.writeWord_plain (State.mapped_of_regAt (by decide) s.regAt_scratch) (by decide) s.regAt_scratch rfl (by decide)
  refine ⟨_, by rw [execRegisterWrite_next rfl ha, if_pos rfl, State.writeWords, State.writeWords, hword], ?_⟩
  rw [State.noted_frame]
  exact ⟨rfl, rfl⟩

theorem execRegisterWrite_partial {off : Nat} {vals : List Word} (hb : barReq off vals.length = true) (ha : s.answers req = true) :
    GoesTo (execRegisterWrite req off vals false s) fun t => t.host.scratch = s.host.scratch ∧ t.shows .hst 2 = true ∧
      t = { s with host := t.host, evts := t.evts } :=
  ⟨_, by rw [execRegisterWrite_next hb ha, if_neg Bool.false_ne_true], s.raiseBit_scratch _ _, s.shows_raiseBit _ (by decide), State.raiseBit_frame _ _⟩

theorem State.mapped_beyond : s.mapped 0x5FFFFC = false := by simp [State.mapped, State.block]

theorem execRegisterWrite_unmapped (ha : s.answers req = true) : GoesTo (execRegisterWrite req 0x5FFFFC [val] true s) fun t =>
    t.shows .hst 1 = true ∧ t = { s with host := t.host, evts := t.evts } := by
  have hword : s.writeWord req 0x5FFFFC val = s.raiseBit .hst 1 := by simp [State.writeWord, State.mapped_beyond]
  exact ⟨_, by rw [execRegisterWrite_next rfl ha, if_pos rfl, State.writeWords, State.writeWords, hword],
    s.shows_raiseBit _ (by decide), State.raiseBit_frame _ _⟩

theorem execRegisterWrite_readOnly (ha : s.answers req = true) : execRegisterWrite req 0x00 [val] true s = .next s := by
  have hword : s.writeWord req 0x00 val = s.noted s (touchedBy 0x00) :=
    State.writeWord_plain (State.mapped_of_regAt (by decide) s.regAt_idDev) (by decide) s.regAt_idDev rfl (by decide)
  rw [execRegisterWrite_next rfl ha, if_pos rfl, State.writeWords, State.writeWords, hword, State.noted_self]

theorem State.writeWord_step (hk : k < 3) (ho : s.chrOwner req = true) :
    s.writeWord req (0x40020 + 4 * k) val = { s with chr := { s.chr with stStep := setWordK s.chr.stStep k val } } := by
  rw [State.writeWord_staged (State.mapped_of_regAt (by omega) (State.regAt_step hk)) (by omega) (State.regAt_step hk) rfl,
    State.stageWord_chr (by omega) ho, State.stageChr_step hk]

theorem execRegisterWrite_step (a b : Word) (ha : s.answers req = true) (ho : s.chrOwner req = true) :
    execRegisterWrite req 0x40020 [a, b, val] true s = .next { s with chr := { s.chr with stStep := val ++ b ++ a } } := by
  have h0 := State.writeWord_step (s := s) (k := 0) (val := a) (by decide) ho
  have h1 := State.writeWord_step (s := { s with chr := { s.chr with stStep := setWordK s.chr.stStep 0 a } }) (k := 1) (val := b) (by decide) ho
  have h2 := State.writeWord_step (s := { s with chr := { s.chr with stStep := setWordK (setWordK s.chr.stStep 0 a) 1 b } }) (k := 2) (val := val)
    (by decide) ho
  rw [execRegisterWrite_next rfl ha, if_pos rfl, State.writeWords, State.writeWords, State.writeWords, State.writeWords, h0, h1, h2, setWordK_all]

theorem State.writeReg_limit {l : Nat} (hl : l < 64) :
    s.writeReg req (0x140004 + 0x100 * l) val = s.setSext l { s.sextOf l with limit := val } := by
  have hq : (0x140004 + 0x100 * l - 0x140000) / 0x100 = l := by omega
  unfold State.writeReg
  repeat rw [if_neg (by omega)]
  rw [if_pos (by omega)]
  dsimp only
  rw [if_pos (by omega), hq]

theorem execRegisterWrite_limit {l : Nat} (hl : l < 64) (ha : s.answers req = true) :
    GoesTo (execRegisterWrite req (0x140004 + 0x100 * l) [val] true s) fun t =>
      t.sextOf l = { s.sextOf l with limit := val } ∧ ∀ k, k ≠ l → t.sextOf k = s.sextOf k := by
  have hbar : barReq (0x140004 + 0x100 * l) 1 = true := by
    simp only [barReq, barWord, Bool.and_eq_true, decide_eq_true_eq]
    omega
  have hword : s.writeWord req (0x140004 + 0x100 * l) val =
      (s.setSext l { s.sextOf l with limit := val }).noted s (touchedBy (0x140004 + 0x100 * l)) := by
    rw [State.writeWord_plain (State.mapped_of_regAt (by omega) (State.regAt_limit hl)) (by omega) (State.regAt_limit hl) rfl (by omega),
      State.writeReg_limit hl]
  refine ⟨_, by rw [execRegisterWrite_next hbar ha, if_pos rfl, State.writeWords, State.writeWords, hword], ?_⟩
  rw [State.noted_frame]
  exact ⟨tget_tset_same _ _ _ _, fun k hk => tget_tset_ne _ _ _ hk⟩

/-! ### Latched reads (16 R437) -/

theorem execLowWordRead_next {off n : Nat} (hb : barReq off n = true) (ha : s.answers req = true) :
    execLowWordRead req ⟨off, n⟩ s = .next (s.readReq req off n) := by
  rw [execLowWordRead, if_neg (by simp [hb]), State.access_of_answers ha]

theorem State.readReq_one {off : Nat} {v : Word} {u : State} (h : s.readWord req off = (u, v)) :
    s.readReq req off 1 = { u with host := { u.host with rdata := [v] } } := by
  simp only [State.readReq, State.readWords, h]

theorem barReq_one {off : Nat} (h : barWord off = true) : barReq off 1 = true := by
  have h4 := (of_decide_eq_true h).1
  simp only [barReq, h, Bool.true_and, decide_eq_true_eq]
  omega

theorem execLowWordRead_plain {off : Nat} {r : Reg} (hw : barWord off = true) (ha : s.answers req = true) (hr : s.regAt off = some (r, k))
    (hkind : r.kind ≠ .latched) : execLowWordRead req ⟨off, 1⟩ s = .next { s with host := { s.host with rdata := [s.word off] } } := by
  have hword : s.readWord req off = (s, s.word off) := by simp [State.readWord, hr, hkind]
  rw [execLowWordRead_next (barReq_one hw) ha, State.readReq_one hword]

theorem execLowWordRead_high {off : Nat} {r : Reg} (hw : barWord off = true) (ha : s.answers req = true) (hr : s.regAt off = some (r, k))
    (hkind : r.kind = .latched) (hk : k ≠ 0) :
    execLowWordRead req ⟨off, 1⟩ s = .next { s with host := { s.host with rdata := [tget 0 s.host.shadows (shadowKey req off)] } } := by
  have hword : s.readWord req off = (s, tget 0 s.host.shadows (shadowKey req off)) := by simp [State.readWord, hr, hkind, hk]
  rw [execLowWordRead_next (barReq_one hw) ha, State.readReq_one hword]

theorem State.readWord_low {off : Nat} {r : Reg} (hr : s.regAt off = some (r, 0)) (hkind : r.kind = .latched) (hoff : off ≠ 0x40070) :
    s.readWord req off = (s.capture req off r.words, s.word off) := by
  simp [State.readWord, hr, hkind, hoff]

theorem shadowKey_inj {a b : Nat} (h : shadowKey req a = shadowKey req b) : a = b := Nat.add_left_cancel h

/-- Shadows loaded for a list of words: each of them holds its word. -/
theorem tget_foldl_tset (f : Nat → Word) {l : List Nat} {o : Nat} (h : o ∈ l) (t : Tbl Word) :
    tget 0 (l.foldl (fun t o => tset t (shadowKey req o) (f o)) t) (shadowKey req o) = f o := by
  induction l using List.reverseRecOn generalizing t with
  | nil => cases h
  | append_singleton l a ih =>
    rw [List.foldl_append, List.foldl_cons, List.foldl_nil, tget_tset]
    split
    next heq => rw [shadowKey_inj heq]
    next hne =>
      refine ih ((List.mem_append.1 h).resolve_right fun ha => hne ?_) t
      rw [List.mem_singleton.1 ha]

theorem State.capture_frame (off words : Nat) :
    s.capture req off words = { s with host := { s.host with shadows := (s.capture req off words).host.shadows } } := rfl

theorem State.capture_shadow {off words j : Nat} (h1 : 1 ≤ j) (hj : j < words) :
    tget 0 (s.capture req off words).host.shadows (shadowKey req (off + 4 * j)) = s.word (off + 4 * j) := by
  refine tget_foldl_tset s.word (List.mem_append_left _ (List.mem_map.2 ⟨j - 1, List.mem_range.2 (by omega), ?_⟩)) _
  rw [Nat.sub_add_cancel h1]

theorem execLowWordRead_low {off : Nat} {r : Reg} (hw : barWord off = true) (ha : s.answers req = true) (hr : s.regAt off = some (r, 0))
    (hkind : r.kind = .latched) (hoff : off ≠ 0x40070) : GoesTo (execLowWordRead req ⟨off, 1⟩ s) fun t => t.host.rdata = [s.word off] ∧
      t = { s with host := { s.host with rdata := t.host.rdata, shadows := t.host.shadows } } ∧
      ∀ j, 1 ≤ j → j < r.words → tget 0 t.host.shadows (shadowKey req (off + 4 * j)) = s.word (off + 4 * j) :=
  ⟨_, (execLowWordRead_next (barReq_one hw) ha).trans (congrArg Host.Outcome.next (State.readReq_one (State.readWord_low hr hkind hoff))), rfl, rfl,
    fun _ h1 hj => State.capture_shadow h1 hj⟩

/-- The map does not depend on the shadows. -/
theorem State.regAt_shadows (t : Tbl Word) (o : Nat) : State.regAt { s with host := { s.host with shadows := t } } o = s.regAt o := rfl

theorem execLowWordRead_both {off : Nat} {r : Reg} (ha : s.answers req = true) (hr : s.regAt off = some (r, 0)) (hkind : r.kind = .latched)
    (hoff : off ≠ 0x40070) (hbar : barReq off 2 = true) (hr1 : s.regAt (off + 4) = some (r, 1)) (hwords : 2 ≤ r.words) :
    GoesTo (execLowWordRead req ⟨off, 2⟩ s) fun t => t.host.rdata = [s.word off, s.word (off + 4)] := by
  have hhigh : (s.capture req off r.words).readWord req (off + 4) = (s.capture req off r.words, s.word (off + 4)) := by
    have hreg : (s.capture req off r.words).regAt (off + 4) = some (r, 1) := by rw [State.capture_frame, State.regAt_shadows, hr1]
    have hshadow := State.capture_shadow (s := s) (req := req) (off := off) (words := r.words) (j := 1) (by decide) hwords
    rw [Nat.mul_one] at hshadow
    unfold State.readWord
    rw [hreg]
    dsimp only
    rw [if_pos hkind, if_neg (by simp), hshadow]
  refine ⟨_, execLowWordRead_next hbar ha, ?_⟩
  simp only [State.readReq, State.readWords, State.readWord_low hr hkind hoff, hhigh]

/-! ### Where the BARs do not answer (16 R426) -/

theorem State.access_of_silent (h : s.answers req = false) (f : State → State) : s.access req f = .next s := by
  simp [State.access, h]

theorem accesses_of_silent (off n : Nat) (vals : List Word) (whole : Bool) (val : Word) (h : s.answers .host = false) :
    (barReq off n = true → exec (.lowWordRead .host ⟨off, n⟩) s = .next s) ∧
    (barReq off vals.length = true → exec (.registerWrite .host off vals whole) s = .next s) ∧
    (stagedOff off = true → exec (.stagedWrite .host off val) s = .next s) ∧
    (aliasOff off = true → exec (.clearAliasWrite off ⟨.host, val⟩) s = .next s) ∧
    (bitOff off = true → exec (.bitAliasWrite off ⟨.host, val⟩) s = .next s) ∧ exec (.clkGateWrite ⟨.host, val⟩) s = .next s := by
  refine ⟨fun hb => ?_, fun hb => ?_, fun hb => ?_, fun hb => ?_, fun hb => ?_, ?_⟩
  · show execLowWordRead .host ⟨off, n⟩ s = .next s
    rw [execLowWordRead, if_neg (by simp [hb]), State.access_of_silent h]
  · show execRegisterWrite .host off vals whole s = .next s
    rw [execRegisterWrite, if_neg (by simp [hb]), State.access_of_silent h]
  · show execStagedWrite .host off val s = .next s
    rw [execStagedWrite, if_neg (by simp [hb]), State.access_of_silent h]
  · show execClearAliasWrite off ⟨.host, val⟩ s = .next s
    rw [execClearAliasWrite, if_neg (by simp [hb]), State.access_of_silent h]
  · show execBitAliasWrite off ⟨.host, val⟩ s = .next s
    rw [execBitAliasWrite, if_neg (by simp [hb]), State.access_of_silent h]
  · show execClkGateWrite ⟨.host, val⟩ s = .next s
    rw [execClkGateWrite, State.access_of_silent h]

end

end Sys2Proof.Machine

open Sys2Proof Sys2Proof.Machine

/-- Settles O56: a staged write replaces one word of its copy; a write's words go through the map's registers, a latched read through the shadows. -/
theorem registerAccessesActAsSpecified : Obligations.RegisterAccessesActAsSpecified := by
  refine ⟨fun s req val k ha => ?_, fun s req val ha => ?_, fun s req off r k hw ha hr => ?_, fun s off n vals whole val h => ?_⟩
  · refine ⟨fun hk ho => execStagedWrite_step ha hk ho, fun ho => execStagedWrite_inc ha ho, ?_, fun ho => execStagedWrite_ref ha ho,
      fun hk ho => execStagedWrite_rgn ha hk ho, fun ho => ?_, fun ho => ?_⟩
    · rintro hk rfl
      exact execStagedWrite_per ha hk
    · exact ⟨_, execStagedWrite_notOwner (by decide) ha (fun hlt => absurd hlt (by decide)) fun _ => ⟨by decide, ho⟩, State.notOwner_cig, State.notOwner_shows⟩
    · exact ⟨_, execStagedWrite_notOwner (by decide) ha (fun _ => ho) fun hge => absurd hge (by decide), State.notOwner_chr, State.notOwner_shows⟩
  · exact ⟨execRegisterWrite_scratch ha, fun off vals hb => execRegisterWrite_partial hb ha, execRegisterWrite_unmapped ha,
      execRegisterWrite_readOnly ha, fun a b ho => execRegisterWrite_step a b ha ho, fun l hl => execRegisterWrite_limit hl ha⟩
  · refine ⟨fun hkind => execLowWordRead_plain hw ha hr hkind, ?_, ?_, fun hkind hk => execLowWordRead_high hw ha hr hkind hk⟩
    · rintro hkind rfl hoff
      exact execLowWordRead_low hw ha hr hkind hoff
    · rintro hkind rfl hoff hbar hr1 hwords
      exact execLowWordRead_both ha hr hkind hoff hbar hr1 hwords
  · exact accesses_of_silent off n vals whole val h

end

section
/-! PROOFS. Flag bits, clear aliases, the integrity engine and clock gates (16 R440 to R454, 17 R462). -/

namespace Sys2Proof.Machine

/-! ### Bits set for the members of a list -/

theorem getLsbD_one_shift {n : Nat} (b : Nat) {i : Nat} (hi : i < n) : ((1 : BitVec n) <<< b).getLsbD i = decide (i = b) := by
  rw [BitVec.getLsbD_shiftLeft]
  by_cases hb : i < b
  · simp [hb, hb.ne]
  · have hone : (1 : BitVec n).getLsbD (i - b) = decide (i - b = 0) := by
      rw [show (1 : BitVec n) = 1#n from rfl, BitVec.getLsbD_one]
      simp [show 0 < n by omega]
    rw [hone]
    simp only [hi, hb, decide_true, decide_false, Bool.not_false, Bool.true_and, decide_eq_decide]
    omega

theorem getLsbD_foldl_set {n i : Nat} (hi : i < n) (l : List Nat) (w : BitVec n) :
    (l.foldl (fun w b => w ||| (1 : BitVec n) <<< b) w).getLsbD i = (w.getLsbD i || l.contains i) := by
  induction l generalizing w with
  | nil => simp
  | cons a l ih =>
    rw [List.foldl_cons, ih, BitVec.getLsbD_or, getLsbD_one_shift a hi, List.contains_cons, Bool.or_assoc]
    rfl

theorem getLsbD_foldl_pick {n i : Nat} (hi : i < n) (p : Nat → Bool) (k : Nat) :
    ((List.range k).foldl (fun w b => if p b then w ||| (1 : BitVec n) <<< b else w) 0).getLsbD i = (decide (i < k) && p i) := by
  rw [← List.foldl_filter, getLsbD_foldl_set hi, Bool.eq_iff_iff]
  simp

section
variable {s : State} {req : Requester} {off : Nat} {val : Word}

/-! ### Bit aliases (16 R443) -/

theorem execBitAliasWrite_next (ho : bitOff off = true) (ha : s.answers req = true) :
    execBitAliasWrite off ⟨req, val⟩ s = .next ((s.writeAlias off val).noted s (touchedBy off)) := by
  rw [execBitAliasWrite, if_neg (by simp [ho]), State.access_of_answers ha]
  rfl

theorem State.putFlagBit_getLsbD (w b : Nat) (v : Bool) (x : Nat) {j : Nat} (hj : j < 32) :
    (tget 0 (s.putFlagBit w b v).flags x).getLsbD j = if x = w ∧ j = b then v else (tget 0 s.flags x).getLsbD j := by
  show (tget 0 (tput 0 s.flags w _) x).getLsbD j = _
  rw [tget_tput]
  by_cases hx : x = w
  · subst hx
    rw [if_pos rfl]
    cases v with
    | true =>
      rw [if_pos rfl, BitVec.getLsbD_or, getLsbD_one_shift b hj]
      by_cases hb : j = b <;> simp [hb]
    | false =>
      rw [if_neg Bool.false_ne_true, BitVec.getLsbD_and, BitVec.getLsbD_not, getLsbD_one_shift b hj]
      by_cases hb : j = b <;> simp [hb, hj]
  · rw [if_neg hx, if_neg fun h => hx h.1]

theorem execBitAliasWrite_sets (ho : bitOff off = true) (ha : s.answers req = true) (hi : 1024 ≤ (off - 0x800000) / 4 / 32) :
    GoesTo (execBitAliasWrite off ⟨req, val⟩ s) fun t => t = { s with flags := t.flags, cig := t.cig } ∧
      ∀ w b, b < 32 → (tget 0 t.flags w).getLsbD b =
        if w = (off - 0x800000) / 4 / 32 ∧ b = (off - 0x800000) / 4 % 32 then val.getLsbD 0 else (tget 0 s.flags w).getLsbD b := by
  have hput : s.writeAlias off val = s.putFlagBit ((off - 0x800000) / 4 / 32) ((off - 0x800000) / 4 % 32) (val.getLsbD 0) := if_neg (Nat.not_lt.2 hi)
  refine ⟨_, execBitAliasWrite_next ho ha, ?_⟩
  rw [hput, State.noted_frame]
  exact ⟨rfl, fun w b hb => State.putFlagBit_getLsbD _ _ _ _ hb⟩

theorem execBitAliasWrite_summary (ho : bitOff off = true) (ha : s.answers req = true) (hi : (off - 0x800000) / 4 / 32 < 1024) :
    execBitAliasWrite off ⟨req, val⟩ s = .next s := by
  have hput : s.writeAlias off val = s := if_pos hi
  rw [execBitAliasWrite_next ho ha, hput, State.noted_self]

theorem State.regAt_alias (h : 0x800000 ≤ off) : s.regAt off = none := by
  have hb : s.block off = some (0x600000, []) := by
    unfold State.block
    repeat rw [if_neg (by omega)]
    rw [if_pos (by omega)]
  rw [State.regAt, hb]
  rfl

theorem execLowWordRead_alias (ho : bitOff off = true) (ha : s.answers req = true) : execLowWordRead req ⟨off, 1⟩ s = .next { s with host :=
    { s.host with rdata := [if (s.flagWord ((off - 0x800000) / 4 / 32)).getLsbD ((off - 0x800000) / 4 % 32) then 1 else 0] } } := by
  obtain ⟨hw, hge⟩ := Bool.and_eq_true_iff.1 ho
  have hread : s.readWord req off = (s, s.word off) := by simp [State.readWord, State.regAt_alias (of_decide_eq_true hge)]
  have hword : s.word off = if (s.flagWord ((off - 0x800000) / 4 / 32)).getLsbD ((off - 0x800000) / 4 % 32) then 1 else 0 :=
    if_pos (of_decide_eq_true hge)
  rw [execLowWordRead_next (barReq_one hw) ha, State.readReq_one hread, hword]

/-! ### Clear aliases (16 R440, R441) -/

section
variable {q : Word} {i : EvtId}

theorem execClearAliasWrite_next (ho : aliasOff off = true) (ha : s.answers req = true) (hi : s.aliasOf off = some i) :
    execClearAliasWrite off ⟨req, q⟩ s = .next ((s.clearAlias i q).noted s (touchedBy off)) := by
  rw [execClearAliasWrite, if_neg (by simp [ho]), State.access_of_answers ha, State.writeClear, hi]

theorem EvtReg.clear_getLsbD (r : EvtReg) (q : Word) {b : Nat} (hb : b < 32) :
    (r.clear q).bits.getLsbD b = (r.bits.getLsbD b && decide (2 ^ 31 ≤ (q - tget 0 r.last b).toNat)) := by
  rw [EvtReg.clear]
  dsimp only
  rw [getLsbD_foldl_pick hb (fun b => r.bits.getLsbD b && decide ((q - tget 0 r.last b).toNat ≥ 2 ^ 31)) 32, decide_eq_true hb, Bool.true_and]

theorem State.signal_frame (v : Nat) : s.signal v = { s with host := (s.signal v).host } := by
  unfold State.signal
  split <;> rfl

theorem State.clearAlias_valid (h : ((s.evt i).seq - q).toNat < 2 ^ 31) :
    (s.clearAlias i q).evt i = (s.evt i).clear q ∧ s.clearAlias i q = { s with host := (s.clearAlias i q).host, evts := (s.clearAlias i q).evts } := by
  unfold State.clearAlias
  dsimp only
  rw [if_pos h]
  split
  · exact ⟨tget_tset_same _ _ _ _, rfl⟩
  · rw [State.signal_frame]
    exact ⟨tget_tset_same _ _ _ _, rfl⟩

/-- What an access that changed events alone leaves, with what it covers. -/
theorem State.noted_of_frame {u : State} (h : u = { s with host := u.host, evts := u.evts }) (ws : List Nat) :
    u.noted s ws = { s with host := (u.noted s ws).host, evts := (u.noted s ws).evts, cig := (u.noted s ws).cig } := by
  obtain ⟨cig, hc⟩ : ∃ cig, u.noted s ws = { u with cig := cig } := ⟨_, State.noted_frame _ _⟩
  rw [hc]
  exact congrArg (fun v : State => { v with cig := cig }) h

theorem execClearAliasWrite_clears (ho : aliasOff off = true) (ha : s.answers req = true) (hi : s.aliasOf off = some i)
    (h : ((s.evt i).seq - q).toNat < 2 ^ 31) : GoesTo (execClearAliasWrite off ⟨req, q⟩ s) fun t => (t.evt i).seq = (s.evt i).seq ∧
      (∀ b, b < 32 → (t.evt i).bits.getLsbD b =
        ((s.evt i).bits.getLsbD b && decide (2 ^ 31 ≤ (q - tget 0 (s.evt i).last b).toNat))) ∧
      t = { s with host := t.host, evts := t.evts, cig := t.cig } := by
  obtain ⟨hevt, hframe⟩ := State.clearAlias_valid h
  refine ⟨_, execClearAliasWrite_next ho ha hi, ?_⟩
  have hnoted : ((s.clearAlias i q).noted s (touchedBy off)).evt i = (s.evt i).clear q := by
    rw [State.noted_frame]
    exact hevt
  refine ⟨(congrArg EvtReg.seq hnoted).trans rfl, fun b hb => ?_, State.noted_of_frame hframe _⟩
  · rw [hnoted, EvtReg.clear_getLsbD _ _ hb]

theorem State.evt_raiseBit_ne {i j : EvtId} (h : i.code ≠ j.code) (b : Nat) : (s.raiseBit j b).evt i = s.evt i := by
  unfold State.raiseBit State.raise
  split
  · rfl
  · dsimp only
    split
    · exact tget_tset_ne _ _ _ h
    · rw [State.signal_frame]
      exact tget_tset_ne _ _ _ h

theorem execClearAliasWrite_stale (ho : aliasOff off = true) (ha : s.answers req = true) (hi : s.aliasOf off = some i)
    (h : 2 ^ 31 ≤ ((s.evt i).seq - q).toNat) : GoesTo (execClearAliasWrite off ⟨req, q⟩ s) fun t => t.shows .hst 4 = true ∧
      (i.code ≠ EvtId.hst.code → t.evt i = s.evt i) ∧ t = { s with host := t.host, evts := t.evts, cig := t.cig } := by
  have hclear : s.clearAlias i q = s.raiseBit .hst 4 := if_neg (Nat.not_lt.2 h)
  refine ⟨_, execClearAliasWrite_next ho ha hi, ?_⟩
  rw [hclear]
  refine ⟨?_, fun hne => ?_, State.noted_of_frame (s.raiseBit_frame _ _) _⟩
  · rw [State.noted_shows]
    exact s.shows_raiseBit _ (by decide)
  · rw [State.noted_frame]
    exact State.evt_raiseBit_ne hne 4

end

/-! ### The integrity engine (16 R453, R454) -/

theorem execCigCommit_owner (ha : s.answers req = true) (ho : s.cigOwner req = true) :
    execCigCommit req s = .next { s with cig := { s.cig with ref := s.cig.stRef, rgn := s.cig.stRgn, stale := false } } := by
  rw [execCigCommit, State.access_of_answers ha, State.cigCommit, if_pos ho]
  rfl

theorem execCigCommit_notOwner (ha : s.answers req = true) (ho : s.cigOwner req = false) :
    GoesTo (execCigCommit req s) fun t => t.cig = s.cig ∧ t.shows .hst 3 = true :=
  ⟨_, by rw [execCigCommit, State.access_of_answers ha, State.cigCommit, if_neg (by simp [ho])], State.notOwner_cig, State.notOwner_shows⟩

/-- The state in which the result c of a pass is in CIG_LAST, the pass counted. -/
def State.passed (s : State) (c : Word) : State := ({ s with cig := { s.cig with last := c } }).count .cigPass 1

theorem State.passed_ctr (c : Word) : (s.passed c).ctr .cigPass = satAdd (s.ctr .cigPass) 1 := tget_tput_same _ _ _ _

theorem State.cigLearned_spec (c : Word) : (s.cigLearned c).cig = { s.cig with ref := c, learn := false, learning := false, stale := false } ∧
    (s.cigLearned c).shows .cig 1 = true ∧ (s.cigLearned c).ctrs = s.ctrs := by
  unfold State.cigLearned
  exact ⟨State.raiseBit_cig _ _ _, State.shows_raiseBit _ _ (by decide), State.raiseBit_ctrs _ _ _⟩

theorem State.cigCompare_same {c : Word} (h : s.cig.stale = true ∨ c = s.cig.ref) : s.cigCompare c = s := by
  unfold State.cigCompare
  exact if_pos (by rw [Bool.or_eq_true, beq_iff_eq]; exact h)

theorem State.cigCompare_other {c : Word} (hstale : s.cig.stale = false) (hne : c ≠ s.cig.ref) :
    s.cigCompare c = if s.cig.take then (s.raiseBit .cig 0).fault 2 24 else s.raiseBit .cig 0 := by
  unfold State.cigCompare
  rw [if_neg (by rw [Bool.or_eq_true, beq_iff_eq, hstale]; exact fun h => h.elim Bool.false_ne_true hne)]

/-- A difference: MISMATCH shows, and a taken one is a fault of cause 2 of a solo run. -/
theorem State.cigCompare_spec {c : Word} (hstale : s.cig.stale = false) (hne : c ≠ s.cig.ref) : (s.cigCompare c).cig = s.cig ∧
    (s.cigCompare c).shows .cig 0 = true ∧ (s.cigCompare c).ctr .cigPass = s.ctr .cigPass ∧
    (s.cig.take = true → s.armed = true → s.paired = false → (s.cigCompare c).run.faultAt = some s.cn) := by
  have hcig : (s.raiseBit .cig 0).cig = s.cig := State.raiseBit_cig _ _ _
  have hshows : (s.raiseBit .cig 0).shows .cig 0 = true := State.shows_raiseBit _ _ (by decide)
  have hctr : (s.raiseBit .cig 0).ctr .cigPass = s.ctr .cigPass := State.ctr_congr (State.raiseBit_ctrs _ _ _) _
  rw [State.cigCompare_other hstale hne]
  cases htake : s.cig.take with
  | false => exact ⟨hcig, hshows, hctr, fun h => absurd h Bool.false_ne_true⟩
  | true =>
    rw [if_pos rfl]
    refine ⟨(State.fault_cig _ _ _).trans hcig, State.shows_fault_of_shows hshows _ _, (State.fault_ctr _ (by decide) 2 24).trans hctr, fun _ harm hp => ?_⟩
    have harm' : (s.raiseBit .cig 0).armed = true := by rw [State.armed, State.raiseBit_run]; exact harm
    have hp' : (s.raiseBit .cig 0).paired = false := by
      refine (State.paired_congr ?_ ?_ ?_).trans hp <;> rw [State.raiseBit_pair]
    rw [State.fault_faultAt_of_solo _ 2 24 harm' hp', State.raiseBit_cn]

theorem execCigPass_learns (hen : s.cig.en = true) (hl : s.cig.learn = true) (hg : s.cig.learning = true) : GoesTo (execCigPass s) fun t =>
    t.cig.last = s.cigCrc ∧ t.cig.ref = s.cigCrc ∧ t.cig.learn = false ∧ t.cig.stale = false ∧ t.shows .cig 1 = true ∧
      t.ctr .cigPass = satAdd (s.ctr .cigPass) 1 := by
  have hgo : execCigPass s = .next ((s.passed s.cigCrc).cigLearned s.cigCrc) := by
    unfold execCigPass
    rw [if_neg (by simp [hen])]
    dsimp only
    rw [hl, hg, if_pos (by decide)]
    rfl
  refine ⟨_, hgo, ?_⟩
  generalize s.cigCrc = c
  obtain ⟨hcig, hshows, hctrs⟩ := State.cigLearned_spec (s := s.passed c) c
  rw [hcig]
  exact ⟨rfl, rfl, rfl, rfl, hshows, (State.ctr_congr hctrs _).trans (State.passed_ctr c)⟩

theorem execCigPass_compares (hen : s.cig.en = true) (hl : s.cig.learn = false) :
    execCigPass s = .next ((s.passed s.cigCrc).cigCompare s.cigCrc).cigNext := by
  unfold execCigPass
  rw [if_neg (by simp [hen])]
  exact congrArg Host.Outcome.next (if_neg (by rw [hl, Bool.false_and]; exact Bool.false_ne_true))

theorem execCigPass_agrees (hen : s.cig.en = true) (hl : s.cig.learn = false) (h : s.cig.stale = true ∨ s.cigCrc = s.cig.ref) :
    GoesTo (execCigPass s) fun t => t.cig.last = s.cigCrc ∧ t.evts = s.evts ∧ t.run = s.run ∧ t.ctr .cigPass = satAdd (s.ctr .cigPass) 1 := by
  refine ⟨_, execCigPass_compares hen hl, ?_⟩
  generalize s.cigCrc = c at h
  rw [State.cigCompare_same (s := s.passed c) h]
  exact ⟨rfl, rfl, rfl, State.passed_ctr c⟩

theorem execCigPass_differs (hen : s.cig.en = true) (hl : s.cig.learn = false) (hstale : s.cig.stale = false) (hne : s.cigCrc ≠ s.cig.ref) :
    GoesTo (execCigPass s) fun t => t.cig.last = s.cigCrc ∧ t.cig.ref = s.cig.ref ∧ t.shows .cig 0 = true ∧
      t.ctr .cigPass = satAdd (s.ctr .cigPass) 1 ∧ (s.cig.take = true → s.armed = true → s.paired = false → t.run.faultAt = some s.cn) := by
  refine ⟨_, execCigPass_compares hen hl, ?_⟩
  generalize s.cigCrc = c at hne
  obtain ⟨hcig, hshows, hctr, hfault⟩ := State.cigCompare_spec (s := s.passed c) hstale hne
  have hlast : ((s.passed c).cigCompare c).cig.last = c := by rw [hcig]; rfl
  have href : ((s.passed c).cigCompare c).cig.ref = s.cig.ref := by rw [hcig]; rfl
  exact ⟨hlast, href, hshows, hctr.trans (State.passed_ctr c), hfault⟩

/-! ### Clock gates (17 R462) -/

/-- The state after the gates of a write that has been let act. -/
def State.gatesSet (s : State) (v : BitVec 30) : State :=
  { s with clk := { s.clk with gate := v ||| (s.gateRefused v).foldl (fun w n => w ||| (1 : BitVec 30) <<< n) 0 } }

theorem State.writeGate_accepts (h : s.gateRefused (val.extractLsb' 0 30) = []) : s.writeGate val = s.gatesSet (val.extractLsb' 0 30) := by
  unfold State.writeGate
  dsimp only
  rw [h]
  simp [State.gatesSet, h]

/-- The reference word of a refused write: its low five bits name the node, bit 31 says whether it serves the run. -/
theorem gref_node (b : Bool) {n : Nat} (hn : n < 30) : ((BitVec.ofBool b ++ (0 : BitVec 26) ++ BitVec.ofNat 5 n).extractLsb' 0 5).toNat = n ∧
    (BitVec.ofBool b ++ (0 : BitVec 26) ++ BitVec.ofNat 5 n).getLsbD 31 = b := by
  constructor
  · have hlow : (BitVec.ofBool b ++ (0 : BitVec 26) ++ BitVec.ofNat 5 n).extractLsb' 0 5 = BitVec.ofNat 5 n :=
      BitVec.eq_of_getLsbD_eq fun i hi => by
        rw [BitVec.getLsbD_extractLsb', BitVec.getLsbD_append]
        simp [hi]
    rw [hlow, BitVec.toNat_ofNat, Nat.mod_eq_of_lt (by omega)]
  · rw [BitVec.getLsbD_append, BitVec.getLsbD_append]
    simp

theorem State.writeGate_refuses {n : Nat} (h : (s.gateRefused (val.extractLsb' 0 30)).getLast? = some n) : s.writeGate val =
    State.raiseBit { s.gatesSet (val.extractLsb' 0 30) with
      clk := { (s.gatesSet (val.extractLsb' 0 30)).clk with gref := BitVec.ofBool (s.nodeServes n) ++ (0 : BitVec 26) ++ BitVec.ofNat 5 n } } .clk 3 := by
  unfold State.writeGate
  dsimp only
  rw [h]
  rfl

theorem State.writeGate_gate : (s.writeGate val).clk.gate = (s.gatesSet (val.extractLsb' 0 30)).clk.gate := by
  cases h : (s.gateRefused (val.extractLsb' 0 30)).getLast? with
  | none => rw [State.writeGate_accepts (List.getLast?_eq_none_iff.1 h)]
  | some n => rw [State.writeGate_refuses h, State.raiseBit_clk]

theorem State.gatesSet_getLsbD (v : BitVec 30) {n : Nat} (hn : n < 30) :
    (s.gatesSet v).clk.gate.getLsbD n = (v.getLsbD n || (s.gateRefused v).contains n) := by
  show (v ||| (s.gateRefused v).foldl _ 0).getLsbD n = _
  rw [BitVec.getLsbD_or, getLsbD_foldl_set hn]
  simp

theorem execClkGateWrite_gates (ha : s.answers req = true) : GoesTo (execClkGateWrite ⟨req, val⟩ s) fun t =>
    (∀ n, n < 30 → t.clk.gate.getLsbD n = (val.getLsbD n || (s.gateRefused (val.extractLsb' 0 30)).contains n)) ∧
    (∀ n, (s.gateRefused (val.extractLsb' 0 30)).getLast? = some n → (t.clk.gref.extractLsb' 0 5).toNat = n ∧
      t.clk.gref.getLsbD 31 = s.nodeServes n ∧ t.shows .clk 3 = true) := by
  refine ⟨_, by rw [execClkGateWrite, State.access_of_answers ha], ?_⟩
  dsimp only
  rw [State.noted_shows, State.noted_frame]
  refine ⟨fun n hn => ?_, fun n h => ?_⟩
  · show (s.writeGate val).clk.gate.getLsbD n = _
    rw [State.writeGate_gate, State.gatesSet_getLsbD _ hn, BitVec.getLsbD_extractLsb']
    simp [hn]
  · have hn : n < 30 := List.mem_range.1 (List.mem_filter.1 (List.mem_of_getLast? h)).1
    obtain ⟨hnode, hserves⟩ := gref_node (s.nodeServes n) hn
    show ((s.writeGate val).clk.gref.extractLsb' 0 5).toNat = n ∧ (s.writeGate val).clk.gref.getLsbD 31 = _ ∧ (s.writeGate val).shows .clk 3 = true
    rw [State.writeGate_refuses h, State.raiseBit_clk]
    exact ⟨hnode, hserves, State.shows_raiseBit _ _ (by decide)⟩

end

end Sys2Proof.Machine

open Sys2Proof Sys2Proof.Machine

/-- Settles O57: bits set and cleared one by one, the pass compared with the reference, and gates kept open by the nodes refused. -/
theorem flagsIntegrityAndGates : Obligations.FlagsIntegrityAndGates := by
  refine ⟨fun s req off val ho ha => ?_, fun s req off q i ho ha hi => ?_, fun s req ha => ?_, fun s hen => ?_, fun s req val ha => ?_⟩
  · exact ⟨fun hi => execBitAliasWrite_sets ho ha hi, fun hi => execBitAliasWrite_summary ho ha hi, execLowWordRead_alias ho ha⟩
  · exact ⟨fun h => execClearAliasWrite_clears ho ha hi h, fun h => execClearAliasWrite_stale ho ha hi h⟩
  · exact ⟨fun ho => execCigCommit_owner ha ho, fun ho => execCigCommit_notOwner ha ho, State.access_of_answers ha State.cigLearn⟩
  · exact ⟨fun hl hg => execCigPass_learns hen hl hg, fun hl hs hne => execCigPass_differs hen hl hs hne,
      fun hl h => execCigPass_agrees hen hl h⟩
  · exact execClkGateWrite_gates ha

end

section
/-! PROOFS. The BAR4 window: a request's pieces, reads and writes (16 R430 to R432, 07 R218). -/

namespace Sys2Proof.Machine

/-! ### The pieces of a request -/

/-- Bytes of the first line that a request of n bytes from address a touches. -/
def firstLen (a n : Nat) : Nat := min n (32 - a % 32)

theorem pieces_zero (a : Nat) : pieces a 0 = [] := rfl

/-- A request is the bytes of its first line and the request of the rest. -/
theorem pieces_cons (a : Nat) {n : Nat} (h : 0 < n) :
    pieces a n = ⟨a, firstLen a n⟩ :: pieces (a + firstLen a n) (n - firstLen a n) := by
  have hfirst : min (a + n) (a / 32 * 32 + 32) - a = firstLen a n := by
    unfold firstLen
    omega
  rw [pieces, if_neg h.ne', List.range_succ_eq_map, List.map_cons, List.map_map]
  dsimp only
  rw [if_pos rfl, hfirst]
  congr 1
  by_cases hn : n ≤ 32 - a % 32
  · have hlen : firstLen a n = n := min_eq_left hn
    rw [hlen, Nat.sub_self, pieces_zero, show (a % 32 + n - 1) / 32 = 0 by omega]
    rfl
  · have hlen : firstLen a n = 32 - a % 32 := min_eq_right (by omega)
    rw [hlen, pieces, if_neg (by omega)]
    have hcount : ((a + (32 - a % 32)) % 32 + (n - (32 - a % 32)) - 1) / 32 + 1 = (a % 32 + n - 1) / 32 := by omega
    rw [hcount]
    refine List.map_congr_left fun i _ => ?_
    have hlo : a / 32 * 32 + 32 * (i + 1) =
        if i = 0 then a + (32 - a % 32) else (a + (32 - a % 32)) / 32 * 32 + 32 * i := by split <;> omega
    simp only [Function.comp_apply, Nat.succ_eq_add_one, Nat.add_eq_zero_iff, one_ne_zero, and_false, if_false, hlo]
    rw [show a + (32 - a % 32) + (n - (32 - a % 32)) = a + n by omega]

theorem firstLen_pos {a n : Nat} (h : 0 < n) : 0 < firstLen a n := by unfold firstLen; omega
theorem firstLen_le (a n : Nat) : firstLen a n ≤ n := min_le_left _ _

/-- A property of requests, proved line by line. -/
theorem pieces_induction {P : Nat → Nat → Prop} (hz : ∀ a, P a 0)
    (hs : ∀ a n, 0 < n → P (a + firstLen a n) (n - firstLen a n) → P a n) (a n : Nat) : P a n := by
  induction n using Nat.strong_induction_on generalizing a with
  | _ n ih =>
    rcases Nat.eq_zero_or_pos n with rfl | hn
    · exact hz a
    · exact hs a n hn (ih _ (Nat.sub_lt hn (firstLen_pos hn)) _)

theorem pieces_sum (a n : Nat) : ((pieces a n).map Piece.len).sum = n := by
  refine pieces_induction (P := fun a n => ((pieces a n).map Piece.len).sum = n) (fun a => rfl) (fun a n hn ih => ?_) a n
  have hle := firstLen_le a n
  rw [pieces_cons a hn, List.map_cons, List.sum_cons, ih]
  exact Nat.add_sub_cancel' hle

/-- A piece lies among the bytes of its request. -/
theorem pieces_within {a n : Nat} {p : Piece} (h : p ∈ pieces a n) : a ≤ p.addr ∧ p.addr + p.len ≤ a + n := by
  refine pieces_induction (P := fun a n => p ∈ pieces a n → a ≤ p.addr ∧ p.addr + p.len ≤ a + n) (fun a hp => ?_) (fun a n hn ih hp => ?_) a n h
  · cases hp
  · have hle := firstLen_le a n
    rw [pieces_cons a hn, List.mem_cons] at hp
    obtain rfl | hp := hp
    · exact ⟨le_rfl, by simpa using hle⟩
    · have := ih hp
      omega

/-- Two pieces of a request are the same or have no byte in common. -/
theorem pieces_disjoint {a n : Nat} {p q : Piece} (hp : p ∈ pieces a n) (hq : q ∈ pieces a n) :
    q = p ∨ q.addr + q.len ≤ p.addr ∨ p.addr + p.len ≤ q.addr := by
  refine pieces_induction (P := fun a n => p ∈ pieces a n → q ∈ pieces a n → q = p ∨ q.addr + q.len ≤ p.addr ∨ p.addr + p.len ≤ q.addr)
    (fun a hp => by cases hp) (fun a n hn ih hp hq => ?_) a n hp hq
  rw [pieces_cons a hn, List.mem_cons] at hp hq
  obtain rfl | hp := hp
  · obtain rfl | hq := hq
    · exact .inl rfl
    · exact .inr (.inr (pieces_within hq).1)
  · obtain rfl | hq := hq
    · exact .inr (.inl (pieces_within hp).1)
    · exact ih hp hq

/-- A request within one line is one piece. -/
theorem pieces_of_line {a n : Nat} (h : 0 < n) (hline : a % 32 + n ≤ 32) : pieces a n = [⟨a, n⟩] := by
  have hlen : firstLen a n = n := min_eq_left (by omega)
  rw [pieces_cons a h, hlen, Nat.sub_self, pieces_zero]

section
variable {s : State} {off len : Nat} {bytes : List Byte} {noise : List (BitVec 288)}

/-! ### Requests that wait for refresh slots (07 R218) -/

theorem bar4Bursts_places (id : Nat) (read : Bool) (a : Nat) (ps : List Piece) (bytes : List Byte) (noise : List (BitVec 288)) :
    (bar4Bursts id read a ps bytes noise).map (fun b => (b.addr, b.len)) = ps.map fun p => (p.addr, p.len) := by
  have h : (bar4Bursts id read a ps bytes noise).map (fun b => (b.addr, b.len)) = (ps.zipIdx.map Prod.fst).map fun p => (p.addr, p.len) := by
    rw [bar4Bursts, List.map_map, List.map_map]
    rfl
  rw [h, List.zipIdx_map_fst]

theorem bar4Bursts_spec {id : Nat} {read : Bool} {a : Nat} {ps : List Piece} {b : HostBurst} (h : b ∈ bar4Bursts id read a ps bytes noise) :
    b.id = id ∧ b.read = read ∧ b.data = (bytes.drop (b.addr - a)).take b.len ∧ b.left = if read || b.len == 32 then 1 else 2 := by
  obtain ⟨p, -, rfl⟩ := List.mem_map.1 h
  exact ⟨rfl, rfl, rfl, rfl⟩

theorem execBar4Read_waits (hok : bar4Ok off len = true) (ha : s.answers .host = true) (hv : s.viaSlots = true) :
    GoesTo (execBar4Read off len noise s) fun t => t.host.rdId = s.host.rdId + 1 ∧ t.host.bdata = [] ∧ t.host.poison = false ∧
      t = { s with host := t.host, alm := { s.alm with hostQ := t.alm.hostQ } } ∧
      ∃ bs, t.alm.hostQ = s.alm.hostQ ++ bs ∧
        bs.map (fun b => (b.addr, b.len)) = (pieces (s.bar4Addr off) len).map (fun p => (p.addr, p.len)) ∧
        ∀ b ∈ bs, b.read = true ∧ b.id = s.host.rdId + 1 ∧ b.left = 1 := by
  have hgo : execBar4Read off len noise s = .next (State.queueHost
      { s with host := { s.host with bdata := [], poison := false, rdId := s.host.rdId + 1 } }
      (bar4Bursts (s.host.rdId + 1) true (s.bar4Addr off) (pieces (s.bar4Addr off) len) [] noise)) := by
    rw [execBar4Read, if_neg (by simp [hok]), if_neg (by simp [ha])]
    exact if_pos hv
  refine ⟨_, hgo, rfl, rfl, rfl, rfl, _, rfl, bar4Bursts_places _ _ _ _ _ _, fun b hb => ?_⟩
  obtain ⟨hid, hread, -, hleft⟩ := bar4Bursts_spec hb
  exact ⟨hread, hid, hleft⟩

/-- The answer to a write of which a line was discarded, where one was: counted and shown (16 R432). -/
def State.wdrop (u : State) (bad : Bool) : State := if bad then (u.count .hstWdrop 1).raiseBit .hst 5 else u

theorem State.wdrop_good : s.wdrop false = s := rfl
theorem State.wdrop_bad : s.wdrop true = (s.count .hstWdrop 1).raiseBit .hst 5 := rfl

theorem State.wdrop_mem (bad : Bool) : (s.wdrop bad).mem = s.mem ∧ (s.wdrop bad).sram = s.sram ∧ (s.wdrop bad).alm = s.alm ∧
    (s.wdrop bad).host.wrId = s.host.wrId := by
  cases bad with
  | false => exact ⟨rfl, rfl, rfl, rfl⟩
  | true =>
    rw [State.wdrop_bad]
    refine ⟨State.raiseBit_mem _ _ _, State.raiseBit_sram _ _ _, State.raiseBit_alm _ _ _, ?_⟩
    rw [State.raiseBit, HostState.of_lessSignals (State.raise_lessSignals _ _)]
    rfl

theorem State.wdrop_shows : (s.wdrop true).shows .hst 5 = true := by
  rw [State.wdrop_bad]
  exact State.shows_raiseBit _ _ (by decide)

theorem State.wdrop_ctr : (s.wdrop true).ctr .hstWdrop = satAdd (s.ctr .hstWdrop) 1 := by
  rw [State.wdrop_bad, State.ctr_congr (State.raiseBit_ctrs _ _ _)]
  exact tget_tput_same _ _ _ _

/-- Some line of the request keeps host writes out. -/
def State.drops (s : State) (a n : Nat) : Bool := (pieces a n).any fun p => s.wprot p.addr

theorem State.drops_of_mem {a n : Nat} {p : Piece} (hp : p ∈ pieces a n) (h : s.wprot p.addr = true) : s.drops a n = true :=
  List.any_eq_true.2 ⟨p, hp, h⟩

theorem execBar4Write_waits (hok : bar4Ok off bytes.length = true) (ha : s.answers .host = true) (hv : s.viaSlots = true) :
    let a := s.bar4Addr off
    GoesTo (execBar4Write off bytes s) fun t => t.host.wrId = s.host.wrId + 1 ∧ t.mem = s.mem ∧ t.sram = s.sram ∧
      (∃ bs, t.alm.hostQ = s.alm.hostQ ++ bs ∧ bs.map (fun b => (b.addr, b.len)) =
          ((pieces a bytes.length).filter fun p => !s.wprot p.addr).map (fun p => (p.addr, p.len)) ∧
        ∀ b ∈ bs, b.read = false ∧ b.data = (bytes.drop (b.addr - a)).take b.len ∧ b.left = if b.len = 32 then 1 else 2) ∧
      (∀ p ∈ pieces a bytes.length, s.wprot p.addr = true → t.shows .hst 5 = true ∧
        t.ctr .hstWdrop = satAdd (s.ctr .hstWdrop) 1) := by
  intro a
  let u : State := State.queueHost { s with host := { s.host with wrId := s.host.wrId + 1 } }
    ((bar4Bursts (s.host.wrId + 1) false a ((pieces a bytes.length).filter fun p => !s.wprot p.addr) bytes []).map
      fun b => { b with told := s.drops a bytes.length })
  have hgo : execBar4Write off bytes s = .next (u.wdrop (s.drops a bytes.length)) := by
    rw [execBar4Write, if_neg (by simp [hok]), if_neg (by simp [ha])]
    dsimp only
    rw [if_pos hv]
    rfl
  obtain ⟨hmem, hsram, halm, hwr⟩ := State.wdrop_mem (s := u) (s.drops a bytes.length)
  refine ⟨_, hgo, hwr, hmem, hsram, ⟨_, congrArg AlmState.hostQ halm, ?_, fun b hb => ?_⟩, fun p hp hw => ?_⟩
  · rw [List.map_map]
    exact bar4Bursts_places _ _ _ _ _ _
  · obtain ⟨c, hc, rfl⟩ := List.mem_map.1 hb
    obtain ⟨-, hread, hdata, hleft⟩ := bar4Bursts_spec hc
    exact ⟨hread, hdata, by simpa using hleft⟩
  · rw [State.drops_of_mem hp hw]
    exact ⟨State.wdrop_shows, State.wdrop_ctr⟩

/-! ### Reads outside the slots of a run (16 R431) -/

/-- A line answered with free bytes. -/
def State.freeLine (s : State) (p : Piece) : State := (s.freeBytes p.len).2.gives (s.freeBytes p.len).1

/-- A line is answered with free bytes, with its own, or with free bytes as poison. -/
theorem State.readPiece_cases (p : Piece) (n : BitVec 288) : s.readPiece p n = s.freeLine p ∨ (∃ l, l.length = p.len ∧ s.readPiece p n = s.gives l) ∨
    s.readPiece p n = { s.freeLine p with host := { (s.freeLine p).host with poison := true } } := by
  unfold State.readPiece
  split
  · exact .inl rfl
  · split
    · split
      · exact .inl rfl
      · exact .inr (.inl ⟨_, bytesAt_length _ _ _, rfl⟩)
    · exact .inr (.inr rfl)

/-- One line of a read adds as many bytes as it has, and touches nothing beyond the answer and the free values. -/
theorem State.readPiece_spec (p : Piece) (n : BitVec 288) : s.readPiece p n = { s with host := (s.readPiece p n).host, freeCtr := (s.readPiece p n).freeCtr } ∧
    (s.readPiece p n).host.bdata.length = s.host.bdata.length + p.len := by
  have hfree : (s.freeLine p).host.bdata.length = s.host.bdata.length + p.len := by simp [State.freeLine, State.gives, State.freeBytes]
  obtain h | ⟨l, hl, h⟩ | h := State.readPiece_cases (s := s) p n
  · rw [h]
    exact ⟨rfl, hfree⟩
  · rw [h, ← hl]
    exact ⟨rfl, List.length_append⟩
  · rw [h]
    exact ⟨rfl, hfree⟩

theorem State.readPiece_of_data {p : Piece} {n : BitVec 288} {d : List Byte} (hon : s.memOn p.addr = true) (hlib : s.inLibrary p.addr = false)
    (hd : (s.readLine (lineOf p.addr) n).data = some d) : s.readPiece p n = s.gives (bytesAt d (p.addr % 32) p.len) := by
  simp [State.readPiece, hon, hd, hlib]

theorem State.readPiece_of_none {p : Piece} {n : BitVec 288} (hon : s.memOn p.addr = true) (hd : (s.readLine (lineOf p.addr) n).data = none) :
    (s.readPiece p n).host.poison = true := by
  simp [State.readPiece, hon, hd]

/-- The lines of a read, each with its error pattern. -/
def State.readLines (s : State) (l : List (Piece × Nat)) (noise : List (BitVec 288)) : State :=
  l.foldl (fun u p => u.readPiece p.1 (noise.getD p.2 0)) s

theorem State.readLines_spec (l : List (Piece × Nat)) (noise : List (BitVec 288)) (s : State) :
    s.readLines l noise = { s with host := (s.readLines l noise).host, freeCtr := (s.readLines l noise).freeCtr } ∧
    (s.readLines l noise).host.bdata.length = s.host.bdata.length + (l.map fun p => p.1.len).sum := by
  induction l generalizing s with
  | nil => exact ⟨rfl, rfl⟩
  | cons p l ih =>
    obtain ⟨hframe, hlen⟩ := s.readPiece_spec p.1 (noise.getD p.2 0)
    obtain ⟨hframe', hlen'⟩ := ih (s.readPiece p.1 (noise.getD p.2 0))
    have hcons : s.readLines (p :: l) noise = (s.readPiece p.1 (noise.getD p.2 0)).readLines l noise := rfl
    rw [hcons]
    refine ⟨hframe'.trans ?_, ?_⟩
    · generalize ((s.readPiece p.1 (noise.getD p.2 0)).readLines l noise).host = h
      generalize ((s.readPiece p.1 (noise.getD p.2 0)).readLines l noise).freeCtr = c
      exact congrArg (fun v : State => { v with host := h, freeCtr := c }) hframe
    · rw [hlen', hlen, List.map_cons, List.sum_cons, Nat.add_assoc]

theorem State.readLines_one (p : Piece) (noise : List (BitVec 288)) : s.readLines [p].zipIdx noise = s.readPiece p (noise.getD 0 0) := by
  rw [State.readLines, List.zipIdx_cons, List.zipIdx_nil, List.foldl_cons, List.foldl_nil]

/-- A poisoned answer is counted and shown. -/
def State.poisonMark (u : State) : State := if u.host.poison then (u.count .hstPoison 1).raiseBit .hst 6 else u

theorem State.poisonMark_of_clean (h : s.host.poison = false) : s.poisonMark = s := by simp [State.poisonMark, h]

theorem State.poisonMark_of_poison (h : s.host.poison = true) : s.poisonMark = (s.count .hstPoison 1).raiseBit .hst 6 := by
  simp [State.poisonMark, h]

theorem State.poisonMark_spec : s.poisonMark.host.lessSignals = s.host.lessSignals ∧
    s.poisonMark = { s with host := s.poisonMark.host, ctrs := s.poisonMark.ctrs, evts := s.poisonMark.evts } := by
  cases h : s.host.poison with
  | false =>
    rw [State.poisonMark_of_clean h]
    exact ⟨rfl, rfl⟩
  | true =>
    rw [State.poisonMark_of_poison h]
    refine ⟨State.raise_lessSignals _ _, ?_⟩
    have hframe := (s.count .hstPoison 1).raiseBit_frame .hst 6
    exact hframe.trans (by rw [State.raiseBit_ctrs]; rfl)

/-- What a read answers of a line does not depend on the answer so far. -/
theorem State.memOn_host (h : HostState) (a : Nat) : State.memOn { s with host := h } a = s.memOn a := rfl
theorem State.inLibrary_host (h : HostState) (a : Nat) : State.inLibrary { s with host := h } a = s.inLibrary a := rfl
theorem State.readLine_host (h : HostState) (r : LineRef) (n : BitVec 288) : State.readLine { s with host := h } r n = s.readLine r n := rfl

/-- The answer begins empty. -/
def State.readBegun (s : State) : State := { s with host := { s.host with bdata := [], poison := false, rdId := s.host.rdId + 1 } }

theorem execBar4Read_next (hok : bar4Ok off len = true) (ha : s.answers .host = true) (hv : s.viaSlots = false) :
    execBar4Read off len noise s = .next (s.readBegun.readLines (pieces (s.bar4Addr off) len).zipIdx noise).poisonMark := by
  rw [execBar4Read, if_neg (by simp [hok]), if_neg (by simp [ha])]
  dsimp only
  rw [hv, if_neg Bool.false_ne_true]
  rfl

theorem HostState.bdata_of_lessSignals {a b : HostState} (h : a.lessSignals = b.lessSignals) : a.bdata = b.bdata ∧ a.poison = b.poison := by
  rw [HostState.of_lessSignals h]
  exact ⟨rfl, rfl⟩

theorem readLines_length (a len : Nat) : (s.readBegun.readLines (pieces a len).zipIdx noise).host.bdata.length = len := by
  obtain ⟨-, hlen⟩ := State.readLines_spec (pieces a len).zipIdx noise s.readBegun
  have hsum : ((pieces a len).zipIdx.map fun p => p.1.len) = (pieces a len).map Piece.len := by
    rw [← congrArg (List.map Piece.len) (List.zipIdx_map_fst 0 (pieces a len)), List.map_map]
    rfl
  rw [hlen, hsum, pieces_sum]
  exact Nat.zero_add _

theorem execBar4Read_answers (hok : bar4Ok off len = true) (ha : s.answers .host = true) (hv : s.viaSlots = false) :
    GoesTo (execBar4Read off len noise s) fun t => t.host.bdata.length = len ∧
      t = { s with host := t.host, ctrs := t.ctrs, evts := t.evts, freeCtr := t.freeCtr } ∧
      (0 < len → s.bar4Addr off % 32 + len ≤ 32 → s.memOn (s.bar4Addr off) = true →
        (∀ d, s.inLibrary (s.bar4Addr off) = false → (s.readLine (lineOf (s.bar4Addr off)) (noise.getD 0 0)).data = some d →
          t.host.bdata = bytesAt d (s.bar4Addr off % 32) len ∧ t.host.poison = false) ∧
        ((s.readLine (lineOf (s.bar4Addr off)) (noise.getD 0 0)).data = none → t.host.poison = true ∧
          t.ctr .hstPoison = satAdd (s.ctr .hstPoison) 1 ∧ t.shows .hst 6 = true)) := by
  let u := s.readBegun.readLines (pieces (s.bar4Addr off) len).zipIdx noise
  obtain ⟨hhost, hframe⟩ := State.poisonMark_spec (s := u)
  obtain ⟨hdata, hpoison⟩ := HostState.bdata_of_lessSignals hhost
  obtain ⟨hlines, -⟩ := State.readLines_spec (pieces (s.bar4Addr off) len).zipIdx noise s.readBegun
  refine ⟨_, execBar4Read_next hok ha hv, ?_, ?_, fun hlen hline hon => ?_⟩
  · rw [hdata]
    exact readLines_length _ _
  · have hfree : u.poisonMark.freeCtr = u.freeCtr := by rw [hframe]
    show u.poisonMark = _
    generalize u.poisonMark = t at hframe hfree
    refine hframe.trans ?_
    rw [hfree]
    exact congrArg (fun v : State => { v with host := t.host, ctrs := t.ctrs, evts := t.evts, freeCtr := u.freeCtr }) hlines
  · have hone : u = s.readBegun.readPiece ⟨s.bar4Addr off, len⟩ (noise.getD 0 0) := by
      show State.readLines _ (pieces _ _).zipIdx _ = _
      rw [pieces_of_line hlen hline, State.readLines_one]
    refine ⟨fun d hlib hd => ?_, fun hd => ?_⟩
    · have hread : u = s.readBegun.gives (bytesAt d (s.bar4Addr off % 32) len) := hone.trans (State.readPiece_of_data
        ((State.memOn_host _ _).trans hon) ((State.inLibrary_host _ _).trans hlib) (by rw [State.readBegun, State.readLine_host]; exact hd))
      rw [hdata, hpoison, hread]
      exact ⟨rfl, rfl⟩
    · have hbad : u.host.poison = true := by
        rw [hone]
        exact State.readPiece_of_none ((State.memOn_host _ _).trans hon) (by rw [State.readBegun, State.readLine_host]; exact hd)
      have hctrs : u.ctrs = s.ctrs := (congrArg State.ctrs hlines).trans rfl
      refine ⟨hpoison.trans hbad, ?_, ?_⟩
      · show u.poisonMark.ctr .hstPoison = _
        rw [State.poisonMark_of_poison hbad, State.ctr_congr (State.raiseBit_ctrs _ _ _)]
        exact (tget_tput_same _ _ _ _).trans (by rw [State.ctr, State.ctr, hctrs])
      · show u.poisonMark.shows .hst 6 = true
        rw [State.poisonMark_of_poison hbad]
        exact State.shows_raiseBit _ _ (by decide)

/-! ### Writes outside the slots of a run (16 R431, R432) -/

/-- Where host writes may go does not depend on the memory's content. -/
theorem State.wprot_mem (m : Tbl Byte) (a : Nat) : State.wprot { s with mem := m } a = s.wprot a := rfl
theorem State.memOn_mem (m : Tbl Byte) (a : Nat) : State.memOn { s with mem := m } a = s.memOn a := rfl

theorem State.writePiece_wprot (p : Piece) (l : List Byte) (a : Nat) : (s.writePiece p l).wprot a = s.wprot a := by
  rw [State.writePiece_frame, State.wprot_mem]

theorem State.writePiece_memOn (p : Piece) (l : List Byte) (a : Nat) : (s.writePiece p l).memOn a = s.memOn a := by
  rw [State.writePiece_frame, State.memOn_mem]

theorem State.writePiece_of_wprot {p : Piece} (h : s.wprot p.addr = true) (l : List Byte) : s.writePiece p l = s := by
  unfold State.writePiece State.putPiece
  rw [h, Bool.or_true, if_pos rfl]

theorem State.writePiece_of_open {p : Piece} (hon : s.memOn p.addr = true) (h : s.wprot p.addr = false) (l : List Byte) :
    s.writePiece p l = { s with mem := tputs 0 s.mem p.addr l } := by
  unfold State.writePiece State.putPiece
  rw [h, hon, if_neg (by decide)]

/-- A piece written changes no byte beyond it. -/
theorem State.writePiece_outside {p : Piece} {l : List Byte} {i : Nat} (h : i < p.addr ∨ p.addr + l.length ≤ i) :
    tget 0 (s.writePiece p l).mem i = tget 0 s.mem i := by
  unfold State.writePiece State.putPiece
  split
  · rfl
  · exact tget_tputs_outside _ _ _ _ _ h

/-- The lines of a write to addresses from a on. -/
def State.writeLines (s : State) (a : Nat) (bytes : List Byte) (ps : List Piece) : State :=
  ps.foldl (fun u p => u.writePiece p ((bytes.drop (p.addr - a)).take p.len)) s

section
variable {a : Nat} {ps : List Piece}

theorem State.writeLines_cons (p : Piece) : s.writeLines a bytes (p :: ps) =
    (s.writePiece p ((bytes.drop (p.addr - a)).take p.len)).writeLines a bytes ps := rfl

theorem State.writeLines_frame : s.writeLines a bytes ps = { s with mem := (s.writeLines a bytes ps).mem } := by
  induction ps generalizing s with
  | nil => rfl
  | cons p ps ih =>
    rw [State.writeLines_cons, ih, State.writePiece_frame]

theorem State.writeLines_sram : (s.writeLines a bytes ps).sram = s.sram := by rw [State.writeLines_frame]

theorem State.writeLines_ctr (i : CtrId) : (s.writeLines a bytes ps).ctr i = s.ctr i := by
  rw [State.writeLines_frame]
  rfl

theorem take_length_le (l : List Byte) (n : Nat) : (l.take n).length ≤ n := by
  rw [List.length_take]
  exact min_le_left _ _

/-- A byte that no line written has keeps its value; so does one of a line that keeps host writes out. -/
theorem State.writeLines_untouched {i : Nat} (h : ∀ p ∈ ps, s.wprot p.addr = true ∨ i < p.addr ∨ p.addr + p.len ≤ i) :
    tget 0 (s.writeLines a bytes ps).mem i = tget 0 s.mem i := by
  induction ps generalizing s with
  | nil => rfl
  | cons p ps ih =>
    have hlen := take_length_le (bytes.drop (p.addr - a)) p.len
    rw [State.writeLines_cons, ih fun q hq => by rw [State.writePiece_wprot]; exact h q (List.mem_cons_of_mem _ hq)]
    obtain hw | hout := h p List.mem_cons_self
    · rw [State.writePiece_of_wprot hw]
    · exact State.writePiece_outside (by omega)

/-- Where every line takes the write, the bytes of the request stand in memory. -/
theorem State.writeLines_bytes (k n : Nat) (hn : k + n = bytes.length) (h : ∀ p ∈ pieces (a + k) n, s.memOn p.addr = true ∧ s.wprot p.addr = false)
    {j : Nat} (hj : j < n) : tget 0 (s.writeLines a bytes (pieces (a + k) n)).mem (a + k + j) = bytes.getD (k + j) 0 := by
  induction n using Nat.strong_induction_on generalizing k j s with
  | _ n ih =>
    have hpos : 0 < n := by omega
    have hlen := firstLen_le (a + k) n
    have hmin := firstLen_pos (a := a + k) hpos
    rw [pieces_cons _ hpos] at h ⊢
    obtain ⟨hon, hw⟩ := h _ List.mem_cons_self
    rw [State.writeLines_cons, State.writePiece_of_open hon hw]
    dsimp only
    rw [Nat.add_sub_cancel_left]
    generalize firstLen (a + k) n = m at hlen hmin h ⊢
    have hfirst : ((bytes.drop k).take m).length = m := by
      rw [List.length_take, List.length_drop]
      omega
    by_cases hjm : j < m
    · rw [State.writeLines_untouched fun p hp => .inr (.inl (by have := pieces_within hp; omega))]
      rw [tget_tputs_inside _ _ _ _ j (by omega)]
      simp [List.getD_eq_getElem?_getD, show k + j < bytes.length by omega]
    · have hrest := ih (n - m) (by omega) (s := { s with mem := tputs 0 s.mem (a + k) ((bytes.drop k).take m) }) (k + m) (by omega)
        (fun p hp => h p (List.mem_cons_of_mem _ (by rwa [← Nat.add_assoc] at hp))) (j := j - m) (by omega)
      rw [show a + (k + m) + (j - m) = a + k + j by omega, show k + m + (j - m) = k + j by omega, ← Nat.add_assoc] at hrest
      exact hrest

end

theorem execBar4Write_next (hok : bar4Ok off bytes.length = true) (ha : s.answers .host = true) (hv : s.viaSlots = false) :
    execBar4Write off bytes s = .next ((s.writeLines (s.bar4Addr off) bytes (pieces (s.bar4Addr off) bytes.length)).wdrop
      (s.drops (s.bar4Addr off) bytes.length)) := by
  rw [execBar4Write, if_neg (by simp [hok]), if_neg (by simp [ha])]
  dsimp only
  rw [hv, if_neg Bool.false_ne_true]
  rfl

theorem tgets_of_getD {t : Tbl Byte} {a : Nat} (h : ∀ j, j < bytes.length → tget 0 t (a + j) = bytes.getD j 0) : tgets 0 t a bytes.length = bytes := by
  refine List.ext_getElem (by simp [tgets]) fun j hj hj' => ?_
  simp only [tgets, List.getElem_map, List.getElem_range]
  rw [h j hj', List.getD_eq_getElem _ _ hj']

theorem execBar4Write_writes (hok : bar4Ok off bytes.length = true) (ha : s.answers .host = true) (hv : s.viaSlots = false) :
    let a := s.bar4Addr off
    GoesTo (execBar4Write off bytes s) fun t =>
      (∀ i, i < a ∨ a + bytes.length ≤ i → tget 0 t.mem i = tget 0 s.mem i) ∧ t.sram = s.sram ∧
      ((∀ p ∈ pieces a bytes.length, s.memOn p.addr = true ∧ s.wprot p.addr = false) → tgets 0 t.mem a bytes.length = bytes ∧
        t = { s with mem := t.mem }) ∧
      (∀ p ∈ pieces a bytes.length, s.wprot p.addr = true → t.shows .hst 5 = true ∧
        t.ctr .hstWdrop = satAdd (s.ctr .hstWdrop) 1 ∧ ∀ i, i < p.len → tget 0 t.mem (p.addr + i) = tget 0 s.mem (p.addr + i)) := by
  intro a
  let u := s.writeLines a bytes (pieces a bytes.length)
  have hframe : u = { s with mem := u.mem } := State.writeLines_frame
  obtain ⟨hmem, hsram, -, -⟩ := State.wdrop_mem (s := u) (s.drops a bytes.length)
  refine ⟨_, execBar4Write_next hok ha hv, fun i hi => ?_, ?_, fun hopen => ?_, fun p hp hw => ⟨?_, ?_, fun i hi => ?_⟩⟩
  · refine (congrArg (fun m => tget 0 m i) hmem).trans (State.writeLines_untouched fun p hp => .inr ?_)
    have := pieces_within hp
    omega
  · exact Eq.trans hsram State.writeLines_sram
  · have hgood : s.drops a bytes.length = false := List.any_eq_false.2 fun p hp => by simp [(hopen p hp).2]
    rw [hgood, State.wdrop_good]
    refine ⟨tgets_of_getD fun j hj => ?_, hframe⟩
    have hbytes := State.writeLines_bytes (s := s) (a := a) 0 bytes.length (Nat.zero_add _) (by rw [Nat.add_zero]; exact hopen) hj
    rwa [Nat.add_zero, Nat.zero_add] at hbytes
  · rw [State.drops_of_mem hp hw]
    exact State.wdrop_shows
  · rw [State.drops_of_mem hp hw, State.wdrop_ctr, State.writeLines_ctr]
  · refine (congrArg (fun m => tget 0 m _) hmem).trans (State.writeLines_untouched fun q hq => ?_)
    obtain rfl | hdis := pieces_disjoint hp hq
    · exact .inl hw
    · exact .inr (by omega)

end

end Sys2Proof.Machine

open Sys2Proof Sys2Proof.Machine

/-- Settles O58: a request is cut into lines, and each line is read, written or queued on its own. -/
theorem bar4ReadsAndWrites : Obligations.Bar4ReadsAndWrites := by
  refine ⟨?_, ?_, ?_, ?_⟩
  · exact fun s off len noise hok ha hv => execBar4Read_waits hok ha hv
  · exact fun s off bytes hok ha hv => execBar4Write_waits hok ha hv
  · exact fun s off len noise hok ha hv => execBar4Read_answers hok ha hv
  · exact fun s off bytes hok ha hv => execBar4Write_writes hok ha hv

end

section
/-! PROOFS. Configuration requests and the resets of the endpoint (16 R424 to R428). -/

namespace Sys2Proof.Machine

section
variable {s : State}

/-! ### Vectors that are masked or let go (16 R428) -/

theorem getLsbD_or_shift_ne {n : Nat} (x : BitVec n) {b i : Nat} (h : i ≠ b) : (x ||| (1 : BitVec n) <<< b).getLsbD i = x.getLsbD i := by
  by_cases hi : i < n
  · rw [BitVec.getLsbD_or, getLsbD_one_shift b hi, decide_eq_false h, Bool.or_false]
  · rw [BitVec.getLsbD_of_ge _ _ (Nat.not_lt.1 hi), BitVec.getLsbD_of_ge _ _ (Nat.not_lt.1 hi)]

/-- With MSI-X as reset leaves it a signal becomes pending. -/
theorem State.signal_of_reset (hm : s.host.msix = []) (hc : s.host.cfgw = []) (v : Nat) :
    s.signal v = { s with host := { s.host with pend := s.host.pend ||| (1 : Dword) <<< v } } := by
  have hmask : s.msixMasked v = true := by
    simp [State.msixMasked, State.msixCtl, State.msixMc, hm, hc, tget]
  rw [State.signal, if_pos hmask]

theorem State.raiseBit_of_reset (hm : s.host.msix = []) (hc : s.host.cfgw = []) (i : EvtId) (b : Nat) :
    ∃ p, (s.raiseBit i b).host = { s.host with pend := p } ∧ ∀ v, v ≠ i.vector → p.getLsbD v = s.host.pend.getLsbD v := by
  unfold State.raiseBit State.raise
  split
  · exact ⟨s.host.pend, rfl, fun _ _ => rfl⟩
  · dsimp only
    split
    · exact ⟨s.host.pend, rfl, fun _ _ => rfl⟩
    · rw [State.signal_of_reset (s := { s with evts := tset s.evts i.code ((s.evt i).raise ((1 : Word) <<< b)) }) hm hc]
      exact ⟨_, rfl, fun v hv => getLsbD_or_shift_ne _ hv⟩

/-! ### The resets of the endpoint (16 R426) -/

/-- The state of an endpoint's reset before its events. -/
def State.endpointCleared (s : State) (d3 : Bool) : State :=
  { s with
    host := { s.host with d3 := d3, msix := [], pend := 0, cfgw := [], wbase := 0
                          shadows := s.host.shadows.filter fun p => decide (2 ^ 24 ≤ p.1) }
    alm := { s.alm with hostQ := [] } }

theorem State.endpointReset_eq (d3 : Bool) : s.endpointReset d3 = ((s.endpointCleared d3).raiseBit .hst 0).peerReset 7 5 := rfl

/-- The crossing between reset side and peer flushed: its record, the count, and the free value that says how many entries it held. -/
def State.crossed (s : State) (i j : Nat) : State :=
  State.count { s with clk := { s.clk with cdc := BitVec.ofNat 32 (16 * i + j) }, freeCtr := s.freeCtr + 1 } .clkFlush (Config.freeNat s.freeCtr)

theorem State.peerReset_eq (i j : Nat) : s.peerReset i j = (s.crossed i j).raiseBit .clk 4 := rfl

theorem State.evt_raiseBit_same (i : EvtId) {b : Nat} (hb : b < 32) : (s.raiseBit i b).evt i = (s.evt i).raise ((1 : Word) <<< b) := by
  have hne : (1 : Word) <<< b ≠ 0 := fun h => by
    have hbit := getLsbD_one_shift (n := 32) b hb
    rw [h] at hbit
    simp at hbit
  rw [State.raiseBit, State.evt, State.raise_evts s i hne, tget_tset_same]

theorem shadow_cleared (t : Tbl Word) {k : Nat} (hk : k < 2 ^ 24) : tget 0 (t.filter fun p => decide (2 ^ 24 ≤ p.1)) k = 0 := by
  rw [tget, tfind_filter_of_not (q := fun k => decide (2 ^ 24 ≤ k)) (decide_eq_false (Nat.not_le.2 hk))]
  rfl

theorem tfind_filter_of {α : Type} {q : Nat → Bool} {k : Nat} (h : q k = true) (t : Tbl α) : tfind (t.filter fun p => q p.1) k = tfind t k := by
  induction t with
  | nil => rfl
  | cons p r ih =>
    obtain ⟨j, v⟩ := p
    rw [List.filter_cons]
    by_cases hj : j = k
    · subst hj
      rw [if_pos h]
      simp [tfind]
    · have hskip : ∀ l : Tbl α, tfind ((j, v) :: l) k = tfind l k := fun l => by simp [tfind, hj]
      rw [hskip]
      split
      · rw [hskip, ih]
      · exact ih

theorem shadow_kept (t : Tbl Word) {k : Nat} (hk : 2 ^ 24 ≤ k) : tget 0 (t.filter fun p => decide (2 ^ 24 ≤ p.1)) k = tget 0 t k := by
  rw [tget, tfind_filter_of (q := fun k => decide (2 ^ 24 ≤ k)) (decide_eq_true hk)]
  rfl

theorem State.endpointReset_events (d3 : Bool) : (s.endpointReset d3).shows .hst 0 = true ∧ (s.endpointReset d3).shows .clk 4 = true ∧
    ((s.endpointReset d3).evt .hst).seq = (s.evt .hst).seq + 1 ∧
    (∀ b, b ≠ 0 → (s.endpointReset d3).shows .hst b = s.shows .hst b) ∧
    ∀ i : EvtId, i.code ≠ EvtId.hst.code → i.code ≠ EvtId.clk.code → (s.endpointReset d3).evt i = s.evt i := by
  have hcross : ∀ (u : State) (i : EvtId), i.code ≠ EvtId.clk.code → (u.peerReset 7 5).evt i = u.evt i := fun u i hi => by
    rw [State.peerReset_eq, State.evt_raiseBit_ne hi]
    rfl
  have hhst : (s.endpointReset d3).evt .hst = (s.evt .hst).raise ((1 : Word) <<< 0) := by
    rw [State.endpointReset_eq, hcross _ .hst (by decide), State.evt_raiseBit_same .hst (by decide)]
    rfl
  refine ⟨?_, State.shows_peerReset _ 7 5, ?_, fun b hb => ?_, fun i hi hc => ?_⟩
  · rw [State.endpointReset_eq]
    exact (State.steady_peerReset _ 7 5).shows _ _ (State.shows_raiseBit _ _ (by decide))
  · rw [hhst]
    rfl
  · rw [State.shows, hhst]
    exact getLsbD_or_shift_ne _ hb
  · rw [State.endpointReset_eq, hcross _ i hc, State.evt_raiseBit_ne hi]
    rfl

theorem State.endpointReset_host (d3 : Bool) : ∃ p : Dword, (s.endpointReset d3).host = { (s.endpointCleared d3).host with pend := p } ∧
    ∀ v, v ≠ 25 → v ≠ 26 → p.getLsbD v = false := by
  obtain ⟨p, hp, hbits⟩ := State.raiseBit_of_reset (s := s.endpointCleared d3) rfl rfl .hst 0
  obtain ⟨q, hq, hbits'⟩ := State.raiseBit_of_reset (s := ((s.endpointCleared d3).raiseBit .hst 0).crossed 7 5)
    ((congrArg HostState.msix hp).trans rfl) ((congrArg HostState.cfgw hp).trans rfl) .clk 4
  refine ⟨q, ?_, fun v h25 h26 => ?_⟩
  · rw [State.endpointReset_eq, State.peerReset_eq, hq]
    exact congrArg (fun h : HostState => { h with pend := q }) hp
  · have hpend : (((s.endpointCleared d3).raiseBit .hst 0).crossed 7 5).host.pend = p := congrArg HostState.pend hp
    rw [hbits' v h26, hpend, hbits v h25]
    exact BitVec.getLsbD_zero

theorem State.endpointReset_frame (d3 : Bool) : s.endpointReset d3 = { s with
    host := (s.endpointReset d3).host, evts := (s.endpointReset d3).evts, ctrs := (s.endpointReset d3).ctrs, freeCtr := s.freeCtr + 1
    alm := { s.alm with hostQ := [] }, clk := { s.clk with cdc := (s.endpointReset d3).clk.cdc } } ∧ (s.endpointReset d3).clk.cdc = 16 * 7 + 5 := by
  have hhst := (s.endpointCleared d3).raiseBit_frame .hst 0
  have hclk := (((s.endpointCleared d3).raiseBit .hst 0).crossed 7 5).raiseBit_frame .clk 4
  rw [State.endpointReset_eq, State.peerReset_eq]
  generalize (((s.endpointCleared d3).raiseBit .hst 0).crossed 7 5).raiseBit .clk 4 = t at hclk ⊢
  rw [hclk]
  generalize (s.endpointCleared d3).raiseBit .hst 0 = u at hhst ⊢
  rw [hhst]
  exact ⟨rfl, rfl⟩

/-- The endpoint's reset as 16 R426 has it; d3 where it is the entry of D3hot. -/
theorem State.endpointReset_spec (d3 : Bool) (t : State) (ht : t = s.endpointReset d3) : t.host.d3 = d3 ∧ t.host.msix = [] ∧ t.host.cfgw = [] ∧ t.host.wbase = 0 ∧
    (∀ v, v ≠ 25 → v ≠ 26 → t.host.pend.getLsbD v = false) ∧ t.host.sent = s.host.sent ∧ t.alm.hostQ = [] ∧
    (∀ k, k < 2 ^ 24 → tget 0 t.host.shadows k = 0) ∧ (∀ k, 2 ^ 24 ≤ k → tget 0 t.host.shadows k = tget 0 s.host.shadows k) ∧
    t.host.scratch = s.host.scratch ∧ t.shows .hst 0 = true ∧ (t.evt .hst).seq = (s.evt .hst).seq + 1 ∧
    (∀ b, b ≠ 0 → t.shows .hst b = s.shows .hst b) ∧ t.shows .clk 4 = true ∧ t.clk.cdc = 16 * 7 + 5 ∧
    (∀ i : EvtId, i.code ≠ EvtId.hst.code → i.code ≠ EvtId.clk.code → t.evt i = s.evt i) ∧
    t = { s with host := t.host, evts := t.evts, ctrs := t.ctrs, freeCtr := s.freeCtr + 1, alm := { s.alm with hostQ := [] }
                 clk := { s.clk with cdc := t.clk.cdc } } := by
  obtain ⟨p, hhost, hpend⟩ := s.endpointReset_host d3
  obtain ⟨hreset, hflush, hseq, hother, hevts⟩ := s.endpointReset_events d3
  obtain ⟨hframe, hcdc⟩ := s.endpointReset_frame d3
  rw [← ht] at hhost hreset hflush hseq hother hevts hframe hcdc
  have halm : t.alm.hostQ = [] := by rw [hframe]
  refine ⟨?_, ?_, ?_, ?_, ?_, ?_, halm, ?_, ?_, ?_, hreset, hseq, hother, hflush, hcdc, hevts, hframe⟩ <;> rw [hhost]
  · rfl
  · rfl
  · rfl
  · rfl
  · exact hpend
  · rfl
  · exact fun k hk => shadow_cleared _ hk
  · exact fun k hk => shadow_kept _ hk
  · rfl

/-! ### The configuration space (16 R424) -/

/-- The words of the identity are none of the table's. -/
theorem cfgFind_identity : cfgFind 0 = none ∧ cfgFind 11 = none ∧ cfgFind 85 = none ∧ cfgFind 86 = none := by decide

/-- A word of the table reads its stored bits, but for those left open. -/
theorem State.cfgWord_of_find {reg : Nat} {c : CfgReg} (hc : cfgFind reg = some c) (h17 : reg ≠ 17) :
    s.cfgWord reg = (tget c.reset s.host.cfgw reg &&& ~~~c.open_) ||| (Config.cfgOpen reg &&& c.open_) := by
  obtain ⟨h0, h11, h85, h86⟩ := cfgFind_identity
  unfold State.cfgWord
  split
  · exact absurd (h0.symm.trans hc) nofun
  · exact absurd (h11.symm.trans hc) nofun
  · exact absurd rfl h17
  · exact absurd (h85.symm.trans hc) nofun
  · exact absurd (h86.symm.trans hc) nofun
  · rw [hc]

/-- What a configuration word reads as depends on the identity, D3hot and the words stored. -/
theorem State.cfgWord_congr {t : State} (h : t.host.lessSignals = s.host.lessSignals) (k : Nat) : t.cfgWord k = s.cfgWord k := by
  have ht := HostState.of_lessSignals h
  unfold State.cfgWord HostState.powerState
  rw [ht]

theorem State.cfgStore_of_find {reg : Nat} {c : CfgReg} (hc : cfgFind reg = some c) (v : Word) : s.cfgStore reg v =
    { s with host := { s.host with cfgw := tset s.host.cfgw reg ((tget c.reset s.host.cfgw reg &&& ~~~c.rw) ||| (v &&& c.rw)) } } := by
  rw [State.cfgStore, hc]

theorem State.cfgStore_of_none {reg : Nat} (hc : cfgFind reg = none) (v : Word) : s.cfgStore reg v = s := by
  rw [State.cfgStore, hc]

theorem State.cfgStore_frame (reg : Nat) (v : Word) : s.cfgStore reg v = { s with host := (s.cfgStore reg v).host } := by
  unfold State.cfgStore
  split <;> rfl

theorem State.cfgWord_store_ne {reg k : Nat} (h : k ≠ reg) (v : Word) : (s.cfgStore reg v).cfgWord k = s.cfgWord k := by
  cases hc : cfgFind reg with
  | none => rw [State.cfgStore_of_none hc]
  | some c =>
    rw [State.cfgStore_of_find hc]
    unfold State.cfgWord
    dsimp only
    split
    case h_6 => simp only [tget_tset_ne _ _ _ h]
    all_goals rfl

theorem State.cfgWord_store {reg : Nat} {c : CfgReg} (hc : cfgFind reg = some c) (h17 : reg ≠ 17) (v : Word) : (s.cfgStore reg v).cfgWord reg =
    (((tget c.reset s.host.cfgw reg &&& ~~~c.rw) ||| (v &&& c.rw)) &&& ~~~c.open_) ||| (Config.cfgOpen reg &&& c.open_) := by
  rw [State.cfgWord_of_find hc h17, State.cfgStore_of_find hc, tget_tset_same]

/-- Beside its open bits a word reads after a write what software may set of it, and the rest as before. -/
theorem State.cfgWord_written {reg : Nat} {c : CfgReg} (hc : cfgFind reg = some c) (h17 : reg ≠ 17) (v : Word) :
    (s.cfgStore reg v).cfgWord reg &&& ~~~c.open_ = ((s.cfgWord reg &&& ~~~c.rw) ||| (v &&& c.rw)) &&& ~~~c.open_ := by
  rw [State.cfgWord_store hc h17, State.cfgWord_of_find hc h17]
  refine BitVec.eq_of_getLsbD_eq fun i hi => ?_
  simp only [BitVec.getLsbD_and, BitVec.getLsbD_or, BitVec.getLsbD_not, hi, decide_true, Bool.true_and]
  cases c.open_.getLsbD i <;> simp

theorem State.unmask_lessSignals (n : Nat) : (s.unmask n).host.lessSignals = s.host.lessSignals := by
  unfold State.unmask
  split
  · rw [State.signal_lessSignals]
    rfl
  · rfl

theorem State.unmask_frame (n : Nat) : s.unmask n = { s with host := (s.unmask n).host } := by
  unfold State.unmask
  split
  · exact State.signal_frame _
  · rfl

theorem State.unmaskAll_spec (l : List Nat) (s : State) : l.foldl State.unmask s = { s with host := (l.foldl State.unmask s).host } ∧
    (l.foldl State.unmask s).host.lessSignals = s.host.lessSignals := by
  refine ⟨?_, foldl_same (fun u : State => u.host.lessSignals) _ (fun u n => u.unmask_lessSignals n) l s⟩
  refine List.foldlRecOn (motive := fun u : State => u = { s with host := u.host }) l _ rfl fun u hu n _ => ?_
  rw [State.unmask_frame]
  exact congrArg (fun v : State => { v with host := (u.unmask n).host }) hu

section
variable {reg : Nat}

/-- The state in which a configuration request is answered. -/
def State.answered (s : State) : State := { s with host := { s.host with retry := false } }

theorem execConfigRequest_silent (hreg : reg < 1024) (hst : s.boot.stopped = true) (hl : s.boot.link = false) (wr : Option Word) :
    execConfigRequest reg wr s = .next s := by
  rw [execConfigRequest, if_neg (Nat.not_le.2 hreg), if_pos (by simp [hst, hl])]

theorem execConfigRequest_retry (hreg : reg < 1024) (hup : s.boot.stopped = false ∨ s.boot.link = true) (hid : s.host.idLoaded = false)
    (wr : Option Word) : execConfigRequest reg wr s = .next { s with host := { s.host with retry := true } } := by
  have hlink : (s.boot.stopped && !s.boot.link) = false := by obtain h | h := hup <;> simp [h]
  rw [execConfigRequest, if_neg (Nat.not_le.2 hreg), hlink, if_neg Bool.false_ne_true, if_pos (by simp [hid])]

theorem execConfigRequest_read (hreg : reg < 1024) (hup : s.boot.stopped = false ∨ s.boot.link = true) (hid : s.host.idLoaded = true) :
    execConfigRequest reg none s = .next { s.answered with host := { s.answered.host with rdata := [s.cfgWord reg] } } := by
  have hlink : (s.boot.stopped && !s.boot.link) = false := by obtain h | h := hup <;> simp [h]
  rw [execConfigRequest, if_neg (Nat.not_le.2 hreg), hlink, if_neg Bool.false_ne_true, if_neg (by simp [hid])]
  exact congrArg (fun w : Word => Host.Outcome.next { s.answered with host := { s.answered.host with rdata := [w] } }) (State.cfgWord_congr rfl reg)

theorem execConfigRequest_write (hreg : reg < 1024) (hup : s.boot.stopped = false ∨ s.boot.link = true) (hid : s.host.idLoaded = true) (v : Word) :
    execConfigRequest reg (some v) s = .next (s.answered.cfgWrite reg v) := by
  have hlink : (s.boot.stopped && !s.boot.link) = false := by obtain h | h := hup <;> simp [h]
  rw [execConfigRequest, if_neg (Nat.not_le.2 hreg), hlink, if_neg Bool.false_ne_true, if_neg (by simp [hid])]
  rfl

theorem State.cfgWrite_store (h17 : reg ≠ 17) (h20 : reg ≠ 20) {v : Word} (h26 : reg = 26 → v.getLsbD 15 = false) : s.cfgWrite reg v = s.cfgStore reg v := by
  rw [State.cfgWrite, if_neg h17, if_neg (fun h => Bool.false_ne_true ((h26 h.1).symm.trans h.2)), if_neg h20]

theorem State.cfgWord_answered (k : Nat) : s.answered.cfgWord k = s.cfgWord k := rfl

theorem and_not_zero (x : Word) : x &&& ~~~(0 : Word) = x := BitVec.eq_of_getLsbD_eq fun i hi => by
  rw [BitVec.getLsbD_and, BitVec.getLsbD_not, show (0 : Word).getLsbD i = false from BitVec.getLsbD_zero]
  simp [hi]

/-- A word as reset leaves it, all its bits written: the bits that software sets, as the sizing of a BAR reads them. -/
theorem execConfigRequest_sizes {c : CfgReg} {m : Word} (hreg : reg < 1024) (hup : s.boot.stopped = false ∨ s.boot.link = true)
    (hid : s.host.idLoaded = true) (hfresh : s.host.cfgw = []) (hc : cfgFind reg = some c) (h17 : reg ≠ 17) (h20 : reg ≠ 20) (h26 : reg ≠ 26)
    (hopen : c.open_ = 0) (hm : (c.reset &&& ~~~c.rw) ||| (0xFFFFFFFF &&& c.rw) = m) :
    GoesTo (execConfigRequest reg (some 0xFFFFFFFF) s) fun t => t.cfgWord reg = m := by
  refine ⟨_, execConfigRequest_write hreg hup hid _, ?_⟩
  have hstored : tget c.reset s.answered.host.cfgw reg = c.reset := congrArg (fun t => tget c.reset t reg) hfresh
  dsimp only
  rw [State.cfgWrite_store h17 h20 fun h => absurd h h26, State.cfgWord_store hc h17, hstored, hm, hopen, and_not_zero]
  exact (congrArg (fun x => m ||| x) BitVec.and_zero).trans BitVec.or_zero

/-- Configuration requests as 16 R424 has them. -/
theorem configRequests (hreg : reg < 1024) :
    (s.boot.stopped = true → s.boot.link = false → ∀ wr, execConfigRequest reg wr s = .next s) ∧
    (s.boot.stopped = false ∨ s.boot.link = true →
      (s.host.idLoaded = false → ∀ wr, execConfigRequest reg wr s = .next { s with host := { s.host with retry := true } }) ∧
      (s.host.idLoaded = true →
        (GoesTo (execConfigRequest reg none s) fun t => t.host.retry = false ∧ t.host.rdata = [s.cfgWord reg] ∧ t.host.cfgw = s.host.cfgw) ∧
        (∀ v c, cfgFind reg = some c → reg ≠ 17 → reg ≠ 20 → (reg = 26 → v.getLsbD 15 = false) →
          GoesTo (execConfigRequest reg (some v) s) fun t => t.host.retry = false ∧ t = { s with host := t.host } ∧
            (∀ k, k ≠ reg → t.cfgWord k = s.cfgWord k) ∧
            t.cfgWord reg &&& ~~~c.open_ = ((s.cfgWord reg &&& ~~~c.rw) ||| (v &&& c.rw)) &&& ~~~c.open_) ∧
        (∀ v, cfgFind reg = none → execConfigRequest reg (some v) s = .next s.answered) ∧
        (∀ m, (reg, m) ∈ [(4, (0xFF000004 : Word)), (5, 0xFFFFFFFF), (6, 0xFFF00004), (7, 0xFFFFFFFF), (8, 0xC), (9, 0xFFFFFFFC)] →
          s.host.cfgw = [] → GoesTo (execConfigRequest reg (some 0xFFFFFFFF) s) fun t => t.cfgWord reg = m))) := by
  refine ⟨fun hst hl wr => execConfigRequest_silent hreg hst hl wr, fun hup => ⟨fun hid wr => execConfigRequest_retry hreg hup hid wr, fun hid => ⟨?_, ?_, ?_, ?_⟩⟩⟩
  · exact ⟨_, execConfigRequest_read hreg hup hid, rfl, rfl, rfl⟩
  · intro v c hc h17 h20 h26
    refine ⟨s.answered.cfgStore reg v, by rw [execConfigRequest_write hreg hup hid, State.cfgWrite_store h17 h20 h26], ?_, ?_, fun k hk => ?_,
      State.cfgWord_written (s := s.answered) hc h17 v⟩
    · rw [State.cfgStore_of_find hc]
      rfl
    · rw [State.cfgStore_of_find hc]
      rfl
    · rw [State.cfgWord_store_ne hk, State.cfgWord_answered]
  · intro v hc
    have h17 : reg ≠ 17 := fun h => by subst h; exact absurd hc (by decide)
    have h20 : reg ≠ 20 := fun h => by subst h; exact absurd hc (by decide)
    have h26 : reg = 26 → v.getLsbD 15 = false := fun h => by subst h; exact absurd hc (by decide)
    rw [execConfigRequest_write hreg hup hid, State.cfgWrite_store h17 h20 h26, State.cfgStore_of_none hc]
  · intro m hm hfresh
    simp only [List.mem_cons, Prod.mk.injEq, List.not_mem_nil, or_false] at hm
    obtain ⟨rfl, rfl⟩ | ⟨rfl, rfl⟩ | ⟨rfl, rfl⟩ | ⟨rfl, rfl⟩ | ⟨rfl, rfl⟩ | ⟨rfl, rfl⟩ := hm
    · exact execConfigRequest_sizes hreg hup hid hfresh (c := { reg := 4, reset := 0x4, rw := 0xFF000000 }) rfl
        (by decide) (by decide) (by decide) rfl (by decide)
    · exact execConfigRequest_sizes hreg hup hid hfresh (c := { reg := 5, reset := 0, rw := 0xFFFFFFFF }) rfl
        (by decide) (by decide) (by decide) rfl (by decide)
    · exact execConfigRequest_sizes hreg hup hid hfresh (c := { reg := 6, reset := 0x4, rw := 0xFFF00000 }) rfl
        (by decide) (by decide) (by decide) rfl (by decide)
    · exact execConfigRequest_sizes hreg hup hid hfresh (c := { reg := 7, reset := 0, rw := 0xFFFFFFFF }) rfl
        (by decide) (by decide) (by decide) rfl (by decide)
    · exact execConfigRequest_sizes hreg hup hid hfresh (c := { reg := 8, reset := 0xC }) rfl (by decide) (by decide) (by decide) rfl (by decide)
    · exact execConfigRequest_sizes hreg hup hid hfresh (c := { reg := 9, reset := 0, rw := 0xFFFFFFFC }) rfl
        (by decide) (by decide) (by decide) rfl (by decide)

/-- The words with a meaning of their own: Function Level Reset, the power state, MSI-X (16 R426, R428). -/
theorem configActs (hup : s.boot.stopped = false ∨ s.boot.link = true) (hid : s.host.idLoaded = true) (v : Word) :
    (v.getLsbD 15 = true → execConfigRequest 26 (some v) s = execFunctionLevelReset s.answered) ∧
    (v.extractLsb' 0 2 = 3 → s.host.d3 = false → execConfigRequest 17 (some v) s = execD3hotEntry s.answered) ∧
    (v.extractLsb' 0 2 = 0 → execConfigRequest 17 (some v) s = .next { s.answered with host := { s.answered.host with d3 := false } }) ∧
    GoesTo (execConfigRequest 20 (some v) s) fun t => t = { s with host := t.host } ∧
      t.cfgWord 20 = (s.cfgWord 20 &&& 0x3FFFFFFF) ||| (v &&& 0xC0000000) ∧ ∀ k, k ≠ 20 → t.cfgWord k = s.cfgWord k := by
  refine ⟨fun hv => ?_, fun hv hd3 => ?_, fun hv => ?_, ?_⟩
  · rw [execConfigRequest_write (by decide) hup hid, State.cfgWrite, if_neg (by decide), if_pos ⟨rfl, hv⟩]
    rfl
  · have hd3' : s.answered.host.d3 = false := hd3
    rw [execConfigRequest_write (by decide) hup hid, State.cfgWrite, if_pos rfl, if_pos hv, hd3', if_neg Bool.false_ne_true]
    rfl
  · rw [execConfigRequest_write (by decide) hup hid, State.cfgWrite, if_pos rfl, if_neg (by rw [hv]; decide), if_pos hv]
  · have hwrite : s.answered.cfgWrite 20 v = (List.range 64).foldl State.unmask (s.answered.cfgStore 20 v) := by
      rw [State.cfgWrite, if_neg (by decide), if_neg (by simp), if_pos rfl]
    have hc : cfgFind 20 = some { reg := 20, reset := 0x003F6011, rw := 0xC0000000 } := rfl
    obtain ⟨hframe, hsame⟩ := State.unmaskAll_spec (List.range 64) (s.answered.cfgStore 20 v)
    refine ⟨_, by rw [execConfigRequest_write (by decide) hup hid, hwrite], ?_, ?_, fun k hk => ?_⟩
    · refine hframe.trans ?_
      rw [State.cfgStore_frame]
      rfl
    · have hword := State.cfgWord_written (s := s.answered) hc (by decide) v
      have hmask : ~~~(0xC0000000 : Word) = 0x3FFFFFFF := by decide
      rw [State.cfgWord_congr hsame, ← hmask]
      exact (and_not_zero _).symm.trans (hword.trans (and_not_zero _))
    · rw [State.cfgWord_congr hsame, State.cfgWord_store_ne hk, State.cfgWord_answered]

end

end

end Sys2Proof.Machine

end

section
/-! PROOFS. Reset, power-up and the boot (17 R461, R471, R472, 18 R485 to R487, R495). -/

namespace Sys2Proof.Machine

section
variable {s : State}

/-! ### What Klowyn's start leaves beside the health log and the hub lanes' packets -/

/-- The kly fields that say which commands are in progress and whether Klowyn runs. -/
def Klowyn.desk (k : Klowyn) : Bool × List Waiting × List Waiting := (k.up, k.waiting, k.longs)

/-- What neither a health entry nor a delivered packet changes. -/
def State.behind (s : State) : Tbl Mbx × (Bool × List Waiting × List Waiting) × RunState × BootState × Jnl × ClkState × PwrState × PkgState × OutState × HostState :=
  (s.mbx, s.kly.desk, s.run, s.boot, s.jnl, s.clk, s.pwr, s.pkg, s.out, s.host.lessSignals)

/-- t has all that of s, and every event that showed. -/
structure State.Behind (s t : State) : Prop where
  same : t.behind = s.behind
  shows : ∀ i b, s.shows i b = true → t.shows i b = true

theorem State.Behind.refl (s : State) : s.Behind s := ⟨rfl, fun _ _ h => h⟩

theorem State.Behind.trans {s t u : State} (h : s.Behind t) (g : t.Behind u) : s.Behind u :=
  ⟨g.same.trans h.same, fun i b hb => g.shows i b (h.shows i b hb)⟩

theorem State.Behind.after {s t u : State} (g : t.Behind u) (h : s.Behind t) : s.Behind u := h.trans g

section
variable {s t : State} (h : s.Behind t)
include h

theorem State.Behind.mbx : t.mbx = s.mbx := congrArg Prod.fst h.same
theorem State.Behind.desk : t.kly.desk = s.kly.desk := congrArg (fun x => x.2.1) h.same
theorem State.Behind.run : t.run = s.run := congrArg (fun x => x.2.2.1) h.same
theorem State.Behind.boot : t.boot = s.boot := congrArg (fun x => x.2.2.2.1) h.same
theorem State.Behind.jnl : t.jnl = s.jnl := congrArg (fun x => x.2.2.2.2.1) h.same
theorem State.Behind.clk : t.clk = s.clk := congrArg (fun x => x.2.2.2.2.2.1) h.same
theorem State.Behind.pwr : t.pwr = s.pwr := congrArg (fun x => x.2.2.2.2.2.2.1) h.same
theorem State.Behind.pkg : t.pkg = s.pkg := congrArg (fun x => x.2.2.2.2.2.2.2.1) h.same
theorem State.Behind.host : t.host.lessSignals = s.host.lessSignals := congrArg (fun x => x.2.2.2.2.2.2.2.2.2) h.same

theorem State.Behind.up : t.kly.up = s.kly.up := congrArg Prod.fst h.desk
theorem State.Behind.waiting : t.kly.waiting = s.kly.waiting := congrArg (fun x => x.2.1) h.desk
theorem State.Behind.longs : t.kly.longs = s.kly.longs := congrArg (fun x => x.2.2) h.desk
theorem State.Behind.idLoaded : t.host.idLoaded = s.host.idLoaded := by rw [HostState.of_lessSignals h.host]

end

theorem State.behind_of_evts {s t : State} (h : t.behind = s.behind) (he : t.evts = s.evts) : s.Behind t :=
  ⟨h, fun _ _ hb => (State.shows_congr he).trans hb⟩

theorem State.Behind.foldl {α : Type} {f : State → α → State} {l : List α} {s t : State} (h : s.Behind t) (hf : ∀ u a, State.Behind u (f u a)) :
    s.Behind (l.foldl f t) :=
  List.foldlRecOn _ _ h fun u hu a _ => hu.trans (hf u a)

theorem State.behind_raiseBit (s : State) (i : EvtId) (b : Nat) : s.Behind (s.raiseBit i b) := by
  refine ⟨?_, fun _ _ hb => State.shows_raise_of_shows hb i _⟩
  unfold State.behind
  rw [State.raiseBit, State.raise_lessSignals, State.raise_frame]

theorem State.behind_sideQueue (s : State) (l : Nat) (p : Pkt) : s.Behind (s.sideQueue l p) := by
  unfold State.sideQueue
  dsimp only
  split
  · exact State.behind_of_evts rfl rfl
  · exact .trans (State.behind_of_evts (t := s.count (.hub l 4) 1) rfl rfl) (State.behind_raiseBit _ _ _)

theorem State.behind_healthAdd (s : State) (kind src : Nat) (regs : List Byte) : s.Behind (s.healthAdd kind src regs) := by
  unfold State.healthAdd
  dsimp only
  split
  · exact .after (State.behind_sideQueue _ _ _) (State.behind_of_evts rfl rfl)
  · exact State.behind_of_evts rfl rfl

theorem State.behind_logRejected (s : State) (id : Nat) : s.Behind (s.logRejected id) := by
  unfold State.logRejected
  split
  · exact State.behind_healthAdd _ _ _ _
  · exact .refl s

theorem State.behind_rxDrop (s : State) (l : Nat) : s.Behind (s.rxDrop l) :=
  .trans (State.behind_of_evts (t := s.count (.hub l 3) 1) rfl rfl) (State.behind_raiseBit _ _ _)

theorem State.behind_rxHold (s : State) (l : Nat) (p : Pkt) (t : BitVec 128) : s.Behind (s.rxHold l p t) := by
  unfold State.rxHold
  dsimp only
  split
  · exact State.behind_of_evts rfl rfl
  · exact State.behind_rxDrop _ _

theorem State.behind_rxMgmt (s : State) (l : Nat) (p : Pkt) : s.Behind (s.rxMgmt l p) := by
  unfold State.rxMgmt
  dsimp only
  split
  · exact State.behind_rxHold _ _ _ _
  · split
    · exact State.behind_of_evts rfl rfl
    · exact State.behind_rxDrop _ _

theorem State.behind_deliverLane (s : State) (l : Nat) : s.Behind (s.deliverLane l) := by
  unfold State.deliverLane
  refine State.Behind.foldl (State.behind_of_evts rfl rfl) fun u e => ?_
  split
  · exact State.behind_of_evts rfl rfl
  · exact State.behind_rxMgmt _ _ _

theorem State.behind_deliverHeld (s : State) : s.Behind s.deliverHeld := (State.Behind.refl s).foldl State.behind_deliverLane

/-! ### Mailboxes that hold no command (15 R400) -/

/-- No mailbox holds a command. -/
def State.NoneHeld (s : State) : Prop := s.mbx = []

theorem State.serveMbx_of_none (h : s.NoneHeld) (m : Nat) : s.serveMbx m = s := by
  have hcmd : (s.mbxOf m).cmd = none := by rw [State.mbxOf, h]; rfl
  have hheld : s.heldCmd m = none := by
    unfold State.heldCmd
    split
    · rfl
    · exact hcmd
  unfold State.serveMbx
  rw [hheld]

theorem State.serveAll_of_none (h : s.NoneHeld) : s.serveAll = s := by
  unfold State.serveAll
  dsimp only
  exact List.foldlRecOn (motive := fun u : State => u = s) _ _ rfl fun u hu i _ => by rw [hu, State.serveMbx_of_none h]

/-! ### Steps of the boot (18 R485, R487) -/

/-- The boot has stopped: Klowyn is down, ALERT_N is low, no firmware is named. -/
structure State.Halted (s : State) : Prop where
  stopped : s.boot.stopped = true
  down : s.kly.up = false
  alert : s.pkg.alert = true
  noFw : s.host.idFw = 0

theorem State.bootStop_halted (stage code : Nat) : (s.bootStop stage code).Halted := ⟨rfl, rfl, rfl, rfl⟩

/-- The boot has stopped, or it stands with P. -/
def State.Stands (P : State → Prop) (s : State) : Prop := s.Halted ∨ (s.boot.stopped = false ∧ P s)

theorem bootStep_of_stopped {k : Nat} {err : Option Nat} {f : State → State} (h : s.boot.stopped = true) : State.bootStep k err f s = s := if_pos h

theorem bootStep_of_going {k : Nat} {err : Option Nat} {f : State → State} (h : s.boot.stopped = false) :
    State.bootStep k err f s = if err = some k then s.bootStop k 5 else f (s.atStage k) := by
  rw [State.bootStep, h, if_neg Bool.false_ne_true]

/-- A step takes what stands with P to what stands with Q, where its work does; stopped by an error it is halted. -/
theorem bootStep_stands {P Q : State → Prop} {k : Nat} {err : Option Nat} {f : State → State} (h : State.Stands P s)
    (hf : ∀ u : State, u.boot.stopped = false → P u → State.Stands Q (f (u.atStage k))) : State.Stands Q (State.bootStep k err f s) := by
  obtain hhalt | ⟨hgo, hp⟩ := h
  · rw [bootStep_of_stopped hhalt.stopped]
    exact .inl hhalt
  · rw [bootStep_of_going hgo]
    split
    · exact .inl (State.bootStop_halted _ _)
    · exact hf s hgo hp

/-! ### FACTORY and the identity key (18 R483, R495) -/

/-- The payload of FACTORY as it stands in flash. -/
def Flash.factory (f : Flash) : List Byte := envPayload (if (dirIds f.dir).contains 1 then tget [] f.regions 1 else [])

theorem State.factory_of_clocked (h : s.clk.ben.getLsbD 0 = true) : s.factory = s.boot.flash.factory := by
  rw [State.factory, State.region, State.periph, h, if_pos rfl]
  rfl

theorem Flash.factory_putEpoch (f : Flash) (e : BitVec 16) : (f.putEpoch e).factory = f.factory := by
  unfold Flash.putEpoch
  split <;> rfl

/-- The identity key is the PUF's, corrected with FACTORY's helper data, and PUFOK says whether it is FACTORY's. -/
def BootState.Identified (b : BootState) : Prop :=
  b.idKey = pufKey (Config.pufCorrect b.puf (b.flash.factory.drop 417)) ∧ b.pufOk = (keyBytes (ecMul 384 b.idKey bpG) == bytesAt b.flash.factory 320 97)

theorem State.stepIdentity_identified (h : s.clk.ben.getLsbD 0 = true) : s.stepIdentity.boot.Identified := by
  have hfac := State.factory_of_clocked h
  unfold State.stepIdentity BootState.Identified State.facHelper State.facKey
  rw [hfac]
  exact ⟨rfl, rfl⟩

/-! ### Step 8: Klowyn starts (18 R485, 15 R415) -/

/-- The state in which Klowyn has been copied, measured and started, its journal not yet begun. -/
def State.started (s : State) : State :=
  let env := s.region (if s.boot.ksel = 1 then 2 else 3)
  { s with
    boot := { s.boot with sram := env, kmeas := sha384 env, code := 0 }
    clk := { s.clk with ben := 0b10101 }
    host := { s.host with idFw := BitVec.ofNat 32 (envVersion env) }
    kly := { s.kly with up := true
                        manPos := if s.kly.cfg.standalone ∧ s.kly.cfg.manLen ≠ 0 then some 0 else none } }

/-- The journal of the next epoch begun. -/
def State.epochBegun (s : State) : State :=
  { s with boot := { s.boot with flash := s.boot.flash.putEpoch s.boot.flash.nextEpoch }
           jnl := { s.jnl with epoch := s.boot.flash.nextEpoch, head := 0, ents := [] } }

theorem State.stepStart_eq : s.stepStart = ((s.started.newEpoch.logRejected 2).logRejected 3).deliverHeld := rfl

theorem State.behind_newEpoch (s : State) : s.epochBegun.Behind s.newEpoch := by
  unfold State.newEpoch
  dsimp only
  split
  · exact State.behind_healthAdd s.epochBegun 8 9 []
  · exact State.Behind.refl s.epochBegun

theorem State.behind_stepStart (s : State) : s.started.epochBegun.Behind s.stepStart := by
  rw [State.stepStart_eq]
  exact (s.started.behind_newEpoch.trans (State.behind_logRejected _ 2)).trans ((State.behind_logRejected _ 3).trans (State.behind_deliverHeld _))

/-! ### The boot from power-up (17 R471, 18 R485) -/

/-- What the steps of a cold boot keep: no command held, the PUF's power-up content, the Binnacle's clocks as the boot ROM set them. -/
structure State.Booting (ben : BitVec 5) (puf : List Byte) (s : State) : Prop where
  none : s.NoneHeld
  puf : s.boot.puf = puf
  clocks : s.clk.ben = ben

/-- The identity registers are loaded. -/
structure State.Named (ben : BitVec 5) (puf : List Byte) (s : State) : Prop extends State.Booting ben puf s where
  idLoaded : s.host.idLoaded = true

/-- The rails are good and the link may train. -/
structure State.Supplied (ben : BitVec 5) (puf : List Byte) (s : State) : Prop extends State.Named ben puf s where
  railok : s.pwr.railok = 0xFF
  link : s.boot.link = true

/-- The identity key is formed, where the xSPI controller is clocked. -/
structure State.Keyed (ben : BitVec 5) (puf : List Byte) (s : State) : Prop extends State.Supplied ben puf s where
  identity : ben.getLsbD 0 = true → s.boot.Identified

/-- Klowyn runs. -/
structure State.Running (ben : BitVec 5) (puf : List Byte) (s : State) : Prop where
  none : s.NoneHeld
  up : s.kly.up = true
  stage : s.boot.stage = 8
  code : s.boot.code = 0
  railok : s.pwr.railok = 0xFF
  clocks : s.clk.ben = 0b10101
  idLoaded : s.host.idLoaded = true
  link : s.boot.link = true
  puf : s.boot.puf = puf
  head : s.jnl.head = 0
  identity : ben.getLsbD 0 = true → s.boot.Identified

section
variable {ben : BitVec 5} {puf : List Byte} {err : Option Nat}

theorem bootEarly_stands (hgo : s.boot.stopped = false) (h : s.Booting ben puf) : (s.bootEarly err).Stands (State.Named ben puf) := by
  refine bootStep_stands (P := State.Booting ben puf) (bootStep_stands (P := State.Booting ben puf) (.inr ⟨hgo, h⟩) fun _ hu hb => ?_) fun _ hu hb => ?_
  · unfold State.stepDir
    dsimp only
    split
    · exact .inr ⟨hu, { none := hb.none, puf := hb.puf, clocks := hb.clocks }⟩
    · exact .inl (State.bootStop_halted _ _)
  · unfold State.stepFactory
    split
    · exact .inr ⟨hu, { none := hb.none, puf := hb.puf, clocks := hb.clocks, idLoaded := rfl }⟩
    · exact .inl (State.bootStop_halted _ _)

theorem bootRails_stands (h : s.Stands (State.Named ben puf)) :
    (State.bootStep 3 err (fun u => u.railsOn.stepLink) s).Stands (State.Supplied ben puf) :=
  bootStep_stands h fun _ hu hb =>
    .inr ⟨hu, { none := hb.none, puf := hb.puf, clocks := hb.clocks, idLoaded := hb.idLoaded, railok := rfl, link := rfl }⟩

theorem bootKey_stands (h : s.Stands (State.Supplied ben puf)) : (State.bootStep 4 err State.stepIdentity s).Stands (State.Keyed ben puf) :=
  bootStep_stands h fun u hu hb =>
    have hclocked : ben.getLsbD 0 = true → (u.atStage 4).clk.ben.getLsbD 0 = true := fun hbit =>
      (congrArg (fun x : BitVec 5 => x.getLsbD 0) hb.clocks).trans hbit
    .inr ⟨hu, { none := hb.none, puf := hb.puf, clocks := hb.clocks, idLoaded := hb.idLoaded, railok := hb.railok, link := hb.link
                identity := fun hbit => State.stepIdentity_identified (hclocked hbit) }⟩

theorem stepKlowyn_stands (hgo : s.boot.stopped = false) (h : s.Keyed ben puf) : s.stepKlowyn.Stands (State.Keyed ben puf) := by
  unfold State.stepKlowyn
  split
  · exact .inr ⟨hgo, { none := h.none, puf := h.puf, clocks := h.clocks, idLoaded := h.idLoaded, railok := h.railok, link := h.link, identity := h.identity }⟩
  · exact .inl ⟨rfl, rfl, rfl, rfl⟩

theorem stepStart_stands (hgo : s.boot.stopped = false) (h : s.Keyed ben puf) : (s.atStage 8).stepStart.Stands (State.Running ben puf) := by
  have hb := (s.atStage 8).behind_stepStart
  have hboot := hb.boot
  generalize (s.atStage 8).stepStart = t at hb hboot ⊢
  refine .inr ⟨(congrArg BootState.stopped hboot).trans hgo, ?_⟩
  exact {
    none := hb.mbx.trans h.none
    up := hb.up
    stage := congrArg BootState.stage hboot
    code := congrArg BootState.code hboot
    railok := (congrArg PwrState.railok hb.pwr).trans h.railok
    clocks := congrArg ClkState.ben hb.clk
    idLoaded := hb.idLoaded.trans h.idLoaded
    link := (congrArg BootState.link hboot).trans h.link
    puf := (congrArg BootState.puf hboot).trans h.puf
    head := congrArg Jnl.head hb.jnl
    identity := fun hbit => by
      obtain ⟨hkey, hok⟩ := h.identity hbit
      rw [hboot]
      unfold BootState.Identified
      have hfac : (s.atStage 8).started.epochBegun.boot.flash.factory = s.boot.flash.factory := Flash.factory_putEpoch _ _
      rw [hfac]
      exact ⟨hkey, hok⟩ }

theorem bootLate_stands (h : s.Stands (State.Keyed ben puf)) : (s.bootLate err).Stands (State.Running ben puf) := by
  refine bootStep_stands (P := State.Keyed ben puf) (bootStep_stands (P := State.Keyed ben puf) (bootStep_stands (P := State.Keyed ben puf)
    (bootStep_stands (P := State.Keyed ben puf) h fun _ hu hb => ?_) fun _ hu hb => ?_) fun _ hu hb => ?_) fun _ hu hb => ?_
  · exact .inr ⟨hu, { none := hb.none, puf := hb.puf, clocks := hb.clocks, idLoaded := hb.idLoaded, railok := hb.railok, link := hb.link
                      identity := hb.identity }⟩
  · exact stepKlowyn_stands hu { none := hb.none, puf := hb.puf, clocks := hb.clocks, idLoaded := hb.idLoaded, railok := hb.railok, link := hb.link
                                 identity := hb.identity }
  · exact .inr ⟨hu, { none := hb.none, puf := hb.puf, clocks := hb.clocks, idLoaded := hb.idLoaded, railok := hb.railok, link := hb.link
                      identity := hb.identity }⟩
  · exact stepStart_stands hu hb

/-- Steps 1 to 8 of a cold boot. -/
def State.bootAll (s : State) (err : Option Nat) : State :=
  (State.bootStep 4 err State.stepIdentity (State.bootStep 3 err (fun u => u.railsOn.stepLink) (s.bootEarly err))).bootLate err

/-- The PUF's SRAM has powered up. -/
def State.withPuf (s : State) (x : List Byte) : State := { s with boot := { s.boot with puf := x } }

/-- A boot that has ended: step 6 of the power-up follows where Klowyn has started. -/
def State.bootEnd (s : State) : State := if s.boot.stopped then s else s.stepSix

theorem State.coldBoot_eq : s.coldBoot err puf = ((s.withPuf (bytesAt puf 0 4096)).bootAll err).bootEnd := by
  unfold State.coldBoot State.bootAll State.withPuf State.bootEnd
  with_reducible rfl

theorem bootAll_stands (hgo : s.boot.stopped = false) (hm : s.mbx = []) (x : List Byte) :
    ((s.withPuf x).bootAll err).Stands (State.Running s.clk.ben x) :=
  bootLate_stands (bootKey_stands (bootRails_stands (bootEarly_stands (s := s.withPuf x) hgo { none := hm, puf := rfl, clocks := rfl })))

/-- A boot that has stopped in its first two steps goes no further. -/
theorem State.bootAll_of_early (h : (s.bootEarly err).boot.stopped = true) : s.bootAll err = s.bootEarly err := by
  unfold State.bootAll State.bootLate
  rw [bootStep_of_stopped h, bootStep_of_stopped h, bootStep_of_stopped h, bootStep_of_stopped h, bootStep_of_stopped h, bootStep_of_stopped h]

theorem bootEarly_of_dir (h : (State.bootStep 1 err State.stepDir s).boot.stopped = true) :
    s.bootEarly err = State.bootStep 1 err State.stepDir s := bootStep_of_stopped h

theorem State.stepSix_eq : ∃ l, s.stepSix = { s with
    pkg := { s.pkg with quayOut := true }, out := { s.out with fdec := 0, fdecZ := false }, clk := { s.clk with gate := s.bootGate }, lanes := l } :=
  State.startLanes_eq _

/-- A boot whose first step stops it. -/
theorem State.bootAll_of_dir (h : (State.bootStep 1 err State.stepDir s).boot.stopped = true) : s.bootAll err = State.bootStep 1 err State.stepDir s := by
  rw [State.bootAll_of_early (by rw [bootEarly_of_dir h]; exact h), bootEarly_of_dir h]

theorem State.Halted.bootEnd (h : s.Halted) : s.bootEnd = s := if_pos h.stopped

/-- After step 6 the outputs are enabled, and the clock gates are those of the enabled nodes. -/
theorem State.Running.bootEnd (hgo : s.boot.stopped = false) (h : s.Running ben puf) : s.bootEnd.Running ben puf ∧ s.bootEnd.boot.stopped = false ∧
    s.bootEnd.pkg.quayOut = true ∧ s.bootEnd.out.fdec = 0 ∧ s.bootEnd.out.fdecZ = false ∧ s.bootEnd.clk.gate = s.bootEnd.bootGate := by
  obtain ⟨l, hl⟩ := s.stepSix_eq
  have hend : s.bootEnd = s.stepSix := if_neg (by rw [hgo]; exact Bool.false_ne_true)
  rw [hend, hl]
  exact ⟨{ none := h.none, up := h.up, stage := h.stage, code := h.code, railok := h.railok, clocks := h.clocks, idLoaded := h.idLoaded
           link := h.link, puf := h.puf, head := h.head, identity := h.identity }, hgo, rfl, rfl, rfl, rfl⟩

end

/-! ### What every step of the boot keeps -/

/-- t has the mailboxes, the commands in progress and the run of s, and every event that showed. -/
structure State.Sits (s t : State) : Prop where
  mbx : t.mbx = s.mbx
  waiting : t.kly.waiting = s.kly.waiting
  longs : t.kly.longs = s.kly.longs
  run : t.run = s.run
  shows : ∀ i b, s.shows i b = true → t.shows i b = true

theorem State.Sits.refl (s : State) : s.Sits s := ⟨rfl, rfl, rfl, rfl, fun _ _ h => h⟩

theorem State.Sits.trans {s t u : State} (h : s.Sits t) (g : t.Sits u) : s.Sits u :=
  ⟨g.mbx.trans h.mbx, g.waiting.trans h.waiting, g.longs.trans h.longs, g.run.trans h.run, fun i b hb => g.shows i b (h.shows i b hb)⟩

theorem State.Behind.sits {s t : State} (h : s.Behind t) : s.Sits t := ⟨h.mbx, h.waiting, h.longs, h.run, h.shows⟩

theorem State.sits_bootStop (s : State) (k c : Nat) : s.Sits (s.bootStop k c) := ⟨rfl, rfl, rfl, rfl, fun _ _ h => h⟩

theorem bootStep_sits {k : Nat} {err : Option Nat} {f : State → State} (hf : ∀ u : State, u.Sits (f u)) (s : State) : s.Sits (State.bootStep k err f s) := by
  unfold State.bootStep
  split
  · exact .refl s
  · split
    · exact s.sits_bootStop _ _
    · exact .trans (t := s.atStage k) ⟨rfl, rfl, rfl, rfl, fun _ _ h => h⟩ (hf _)

theorem State.sits_stepDir (s : State) : s.Sits s.stepDir := by
  unfold State.stepDir
  dsimp only
  split <;> exact ⟨rfl, rfl, rfl, rfl, fun _ _ h => h⟩

theorem State.sits_stepFactory (s : State) : s.Sits s.stepFactory := by
  unfold State.stepFactory
  split <;> exact ⟨rfl, rfl, rfl, rfl, fun _ _ h => h⟩

theorem State.sits_stepKlowyn (s : State) : s.Sits s.stepKlowyn := by
  unfold State.stepKlowyn
  split <;> exact ⟨rfl, rfl, rfl, rfl, fun _ _ h => h⟩

theorem State.sits_stepStart (s : State) : s.Sits s.stepStart := .trans (t := s.started.epochBegun) ⟨rfl, rfl, rfl, rfl, fun _ _ h => h⟩ s.behind_stepStart.sits

theorem State.sits_bootLate (s : State) (err : Option Nat) : s.Sits (s.bootLate err) :=
  (bootStep_sits (f := State.stepOwner) (fun _ => ⟨rfl, rfl, rfl, rfl, fun _ _ h => h⟩) s).trans
    ((bootStep_sits State.sits_stepKlowyn _).trans
      ((bootStep_sits (f := State.stepBoard) (fun _ => ⟨rfl, rfl, rfl, rfl, fun _ _ h => h⟩) _).trans (bootStep_sits State.sits_stepStart _)))

theorem State.sits_bootEarly (s : State) (err : Option Nat) : s.Sits (s.bootEarly err) :=
  (bootStep_sits State.sits_stepDir s).trans (bootStep_sits State.sits_stepFactory _)

theorem State.sits_railsLink (s : State) : s.Sits s.railsOn.stepLink := ⟨rfl, rfl, rfl, rfl, fun _ _ h => h⟩

theorem State.sits_stepIdentity (s : State) : s.Sits s.stepIdentity := by
  unfold State.stepIdentity
  exact ⟨rfl, rfl, rfl, rfl, fun _ _ h => h⟩

theorem State.sits_bootAll (s : State) (err : Option Nat) : s.Sits (s.bootAll err) := by
  unfold State.bootAll
  exact (s.sits_bootEarly err).trans ((bootStep_sits (fun u => u.sits_railsLink) _).trans
    ((bootStep_sits State.sits_stepIdentity _).trans (State.sits_bootLate _ err)))

theorem State.bootEnd_mbx : s.bootEnd.mbx = s.mbx := by
  unfold State.bootEnd
  split
  · rfl
  · obtain ⟨l, hl⟩ := s.stepSix_eq
    rw [hl]

theorem State.bootEnd_of_stopped (h : s.boot.stopped = true) : s.bootEnd = s := if_pos h

/-- The device may boot. -/
theorem State.bootReady_iff : s.bootReady = true ↔
    s.boot.powered = true ∧ s.clk.oscRun = false ∧ s.clk.xtalOk = true ∧ s.boot.stopped = false ∧ s.boot.stage = 0 := by
  simp [State.bootReady, and_assoc]

/-- BOOT_ROM_START (18 R485). -/
theorem bootRomStart_boots {err : Option Nat} {puf : List Byte} (hr : s.bootReady = true) (hm : s.mbx = []) :
    GoesTo (execBootRomStart err puf s) fun t =>
      (t.boot.stopped = false → t.kly.up = true ∧ t.boot.stage = 8 ∧ t.boot.code = 0 ∧ t.pwr.railok = 0xFF ∧ t.clk.ben = 0b10101 ∧
        t.host.idLoaded = true ∧ t.boot.link = true ∧ t.pkg.quayOut = true ∧ t.out.fdec = 0 ∧ t.out.fdecZ = false ∧ t.clk.gate = t.bootGate ∧
        t.boot.puf = bytesAt puf 0 4096 ∧ t.jnl.head = 0 ∧
        (s.clk.ben.getLsbD 0 = true → t.boot.idKey = pufKey (Config.pufCorrect t.boot.puf t.facHelper) ∧
          t.boot.pufOk = (keyBytes (ecMul 384 t.boot.idKey bpG) == t.facKey))) ∧
      (t.boot.stopped = true → t.kly.up = false ∧ t.pkg.alert = true ∧ t.host.idFw = 0) ∧
      (err = some 1 → t.boot.stopped = true ∧ t.boot.stage = 1 ∧ t.boot.code = 5) ∧
      (err = none → dirOk s.boot.flash.dir = false → t.boot.stopped = true ∧ t.boot.stage = 1 ∧ t.boot.code = 1) := by
  obtain ⟨-, -, -, hgo, -⟩ := State.bootReady_iff.1 hr
  have hgoes : execBootRomStart err puf s = .next (s.coldBoot err puf).serveAll := if_pos hr
  refine ⟨_, hgoes, ?_⟩
  rw [State.coldBoot_eq]
  generalize bytesAt puf 0 4096 = x
  have hnone : ((s.withPuf x).bootAll err).bootEnd.NoneHeld := (State.bootEnd_mbx.trans (State.sits_bootAll _ err).mbx).trans hm
  rw [State.serveAll_of_none hnone]
  have hstop : ∀ v : State, State.bootStep 1 err State.stepDir (s.withPuf x) = v → v.boot.stopped = true →
      ((s.withPuf x).bootAll err).bootEnd = v := fun v hv hs => by
    have hall : (s.withPuf x).bootAll err = v := (State.bootAll_of_dir (by rw [hv]; exact hs)).trans hv
    rw [hall, State.bootEnd_of_stopped hs]
  refine ⟨fun hrun => ?_, fun hhalt => ?_, fun herr => ?_, fun herr hd => ?_⟩
  · obtain hh | ⟨hgo', hr'⟩ := bootAll_stands (err := err) hgo hm x
    · rw [State.bootEnd_of_stopped hh.stopped] at hrun
      exact absurd (hrun.symm.trans hh.stopped) Bool.false_ne_true
    · obtain ⟨h, -, hquay, hfdec, hz, hgate⟩ := hr'.bootEnd hgo'
      generalize ((s.withPuf x).bootAll err).bootEnd = t at h hquay hfdec hz hgate ⊢
      refine ⟨h.up, h.stage, h.code, h.railok, h.clocks, h.idLoaded, h.link, hquay, hfdec, hz, hgate, h.puf, h.head, fun hbit => ?_⟩
      have hfac : t.factory = t.boot.flash.factory := State.factory_of_clocked (by rw [h.clocks]; decide)
      rw [State.facHelper, State.facKey, hfac]
      exact h.identity hbit
  · obtain hh | ⟨hgo', hr'⟩ := bootAll_stands (err := err) hgo hm x
    · rw [State.bootEnd_of_stopped hh.stopped]
      exact ⟨hh.down, hh.alert, hh.noFw⟩
    · exact absurd ((hr'.bootEnd hgo').2.1.symm.trans hhalt) Bool.false_ne_true
  · rw [hstop (State.bootStop (s.withPuf x) 1 5) ((bootStep_of_going (s := s.withPuf x) hgo).trans (if_pos herr)) rfl]
    exact ⟨rfl, rfl, rfl⟩
  · have hbad : (State.atStage (s.withPuf x) 1).stepDir.boot.stopped = true ∧ (State.atStage (s.withPuf x) 1).stepDir.boot.stage = 1 ∧
        (State.atStage (s.withPuf x) 1).stepDir.boot.code = 1 := by
      unfold State.stepDir
      dsimp only
      rw [if_neg (by rw [show (State.atStage (s.withPuf x) 1).boot.flash.dir = s.boot.flash.dir from rfl, hd]; exact Bool.false_ne_true)]
      exact ⟨rfl, rfl, rfl⟩
    have hne : err ≠ some 1 := by rw [herr]; exact nofun
    rw [hstop (State.atStage (s.withPuf x) 1).stepDir ((bootStep_of_going (s := s.withPuf x) hgo).trans (if_neg hne)) hbad.1]
    exact hbad

/-! ### RESET_N, PWR_GOOD and the power-up (17 R461, R471, R472, 19 R517) -/

/-- What RESET_N leaves: the device as built and its flash, and everything else as at reset. -/
def State.WipedFrom (s t : State) : Prop :=
  t.evts = [] ∧ t.ctrs = [] ∧ t.mbx = [] ∧ t.kly = Klowyn.reset ∧ t.mem = [] ∧ t.sram = [] ∧ t.cn = 0 ∧ t.armed = false ∧ t.boot.stage = 0 ∧
    t.boot.powered = false ∧ t.boot.resetN = false ∧ t.boot.flash = s.boot.flash ∧ t.dev = s.dev ∧ t.pkg = PkgState.reset

theorem execResetAssert_wipes : GoesTo (execResetAssert s) (s.WipedFrom ·) :=
  ⟨_, rfl, rfl, rfl, rfl, rfl, rfl, rfl, rfl, rfl, rfl, rfl, rfl, rfl, rfl, rfl⟩

theorem execPwrGoodDeassert_wipes : GoesTo (execPwrGoodDeassert s) (s.WipedFrom ·) :=
  ⟨_, rfl, rfl, rfl, rfl, rfl, rfl, rfl, rfl, rfl, rfl, rfl, rfl, rfl, rfl, rfl⟩

theorem execPowerUp_starts {d : BitVec 2} (h : s.boot.powered = false) : GoesTo (execPowerUp d s) fun t =>
    t.boot = { s.boot with powered := true, pwrGood := true, resetN := true } ∧ t.clk = { s.clk with oscDly := d, oscRun := true } ∧
      t.pwr.railok = 0x80 :=
  ⟨_, by rw [execPowerUp, h, if_neg Bool.false_ne_true], rfl, rfl, rfl⟩

theorem execOscDelayExpiry_starts (hp : s.boot.powered = true) (ho : s.clk.oscRun = true) :
    (GoesTo (execOscDelayExpiry true s) fun t => t.clk = { s.clk with oscRun := false, xtalOk := true, ben := 0b10001 } ∧ t.pkg.binOut = true) ∧
    execOscDelayExpiry false s = .next s := by
  refine ⟨⟨_, by rw [execOscDelayExpiry, hp, ho, if_pos (by decide)], rfl, rfl⟩, ?_⟩
  rw [execOscDelayExpiry, Bool.and_false, if_neg Bool.false_ne_true]

end

end Sys2Proof.Machine

end

section
/-! PROOFS. Klowyn's reboot, rails that fail, the watchdog and the manifest (17 R470, R471, 18 R489, 15 R420). -/

namespace Sys2Proof.Machine

section
variable {s : State}

/-! ### What the end of a run leaves of mailboxes, long commands and the boot -/

/-- The mailboxes, the long commands and the boot. -/
def State.bench (s : State) : Tbl Mbx × List Waiting × BootState := (s.mbx, s.kly.longs, s.boot)

theorem State.bench_eq {s t : State} (h : t.bench = s.bench) : t.mbx = s.mbx ∧ t.kly.longs = s.kly.longs ∧ t.boot = s.boot := by
  simpa [State.bench] using h

theorem State.raiseBit_bench (s : State) (i : EvtId) (b : Nat) : (s.raiseBit i b).bench = s.bench := by simp [State.bench]

theorem State.logEvent_bench (s : State) (e : LogEvt) : (s.logEvent e).bench = s.bench := by simp [State.bench]

theorem State.writeLine_bench (s : State) (r : LineRef) (d : List Byte) : (s.writeLine r d).bench = s.bench := by
  rw [State.writeLine_frame]
  rfl

theorem State.writeBurst_bench (s : State) (b : WBurst) : (s.writeBurst b).bench = s.bench := by
  unfold State.writeBurst
  split
  · exact s.writeLine_bench _ _
  · rfl

theorem State.rewriteLine_bench (s : State) (b : WBurst) : (s.rewriteLine b).bench = s.bench := by
  unfold State.rewriteLine
  split
  · split
    · exact s.writeLine_bench _ _
    · rfl
  · rfl

theorem State.rewriteFixed_bench (s : State) (tid : Nat) (face : Bool) : (s.rewriteFixed tid face).bench = s.bench :=
  foldl_same State.bench _ State.rewriteLine_bench _ _

theorem State.queueCatchUp_bench (s : State) (tid : Nat) : (s.queueCatchUp tid).bench = s.bench := by
  unfold State.queueCatchUp
  dsimp only
  split
  · exact State.rewriteFixed_bench _ _ _
  · exact (foldl_same State.bench _ State.writeBurst_bench _ _).trans (State.rewriteFixed_bench _ _ _)

theorem State.readPiece_bench (s : State) (p : Piece) (n : BitVec 288) : (s.readPiece p n).bench = s.bench := by
  rw [(State.readPiece_spec (s := s) p n).1]
  rfl

theorem State.readBurst_bench (s : State) (b : HostBurst) : (s.readBurst b).bench = s.bench := by
  have hread := State.readPiece_bench { s with host := { s.host with bdata := [], poison := false } } { addr := b.addr, len := b.len } b.noise
  unfold State.readBurst
  dsimp only
  generalize State.readPiece _ _ _ = u at hread ⊢
  split
  · exact (State.raiseBit_bench _ _ _).trans hread
  · exact hread

theorem State.writeHost_bench (s : State) (b : HostBurst) (keepOut : Bool) : (s.writeHost b keepOut).bench = s.bench := by
  have hput : (s.putPiece { addr := b.addr, len := b.len } b.data keepOut).bench = s.bench := by
    rw [State.putPiece_frame]
    rfl
  unfold State.writeHost
  dsimp only
  split
  · exact (State.raiseBit_bench _ _ _).trans hput
  · exact hput

theorem State.hostBurst_bench (s : State) (b : HostBurst) : (s.hostBurst b).bench = s.bench := by
  unfold State.hostBurst
  dsimp only
  split
  · exact State.readBurst_bench _ _
  · exact State.writeHost_bench _ _ _

theorem State.drainHost_bench (s : State) : s.drainHost.bench = s.bench := foldl_same State.bench State.hostBurst State.hostBurst_bench _ _

theorem State.rewriteAll_bench (s : State) : s.rewriteAll.bench = s.bench := foldl_same State.bench _ State.rewriteLine_bench _ _

theorem State.settleSwaps_bench (s : State) : s.settleSwaps.bench = s.bench := by
  unfold State.settleSwaps
  dsimp only
  have hqueue : ((s.alm.swaps.filter Swap.done).foldl (fun t w => t.queueCatchUp w.tid) s).bench = s.bench :=
    foldl_same State.bench _ (fun (u : State) (w : Swap) => u.queueCatchUp_bench w.tid) _ _
  generalize (s.alm.swaps.filter Swap.done).foldl (fun t w => t.queueCatchUp w.tid) s = u at hqueue ⊢
  have hwrite := foldl_same State.bench _ State.writeBurst_bench (u.alm.catchUp ++ u.alm.writes)
    { u with alm := { u.alm with catchUp := [], writes := [], swaps := [] } }
  exact (State.rewriteAll_bench _).trans ((State.drainHost_bench _).trans (hwrite.trans hqueue))

theorem State.drainLosses_bench (s : State) : s.drainLosses.bench = s.bench := foldl_same State.bench _ State.logEvent_bench _ _

theorem State.drainLosses_kly (s : State) : s.drainLosses.kly = s.kly := foldl_same State.kly _ State.logEvent_kly _ _

/-- Where no command is in progress, a stop makes none void and aborts none. -/
theorem State.voidWaiting_bench (hw : s.kly.waiting = []) (hl : s.kly.longs = []) : s.voidWaiting.bench = s.bench := by
  unfold State.voidWaiting
  rw [hw, List.foldl_nil]
  dsimp only
  rw [hl]
  unfold State.bench
  rw [hl]
  rfl

theorem State.peerReset_bench (s : State) (i j : Nat) : (s.peerReset i j).bench = s.bench := State.raiseBit_bench _ _ _

/-- The end of a run in which no command is in progress. -/
theorem State.stopRun_bench (why : StopReason) (hw : s.kly.waiting = []) (hl : s.kly.longs = []) : (s.stopRun why).bench = s.bench := by
  have hsettled : s.drainLosses.voidWaiting.settleSwaps.bench = s.bench :=
    (State.settleSwaps_bench _).trans ((State.voidWaiting_bench (by rw [State.drainLosses_kly, hw]) (by rw [State.drainLosses_kly, hl])).trans
      s.drainLosses_bench)
  unfold State.stopRun
  dsimp only
  generalize s.drainLosses.voidWaiting.settleSwaps = u at hsettled ⊢
  split
  · exact (State.peerReset_bench _ _ _).trans hsettled
  · exact hsettled

/-! ### Klowyn goes down (15 R412, 17 R469, R470) -/

/-- Klowyn is down in t, its commands lost; a run that was armed only has ended. -/
structure State.Downed (s t : State) : Prop where
  down : t.kly.up = false
  waiting : t.kly.waiting = []
  longs : t.kly.longs = []
  boot : t.boot = s.boot
  phase : t.run.phase = if s.run.phase = .armed then .idle else s.run.phase
  fault : s.run.phase ≠ .armed → t.run.faultAt = s.run.faultAt
  none : s.mbx = [] → t.mbx = []

theorem State.loseCommands_stopRun_downed (why : StopReason) (h : s.run.phase = .armed) : s.Downed (s.loseCommands.stopRun why) := by
  obtain ⟨hmbx, hlongs, hboot⟩ := State.bench_eq (State.stopRun_bench (s := s.loseCommands) why rfl rfl)
  obtain ⟨-, -, -, hwait⟩ := s.loseCommands.stopRun_idle why
  exact {
    down := (s.loseCommands.steady_stopRun why).up
    waiting := hwait
    longs := hlongs
    boot := hboot
    phase := by rw [State.stopRun_phase, if_pos h]
    fault := fun hne => absurd h hne
    none := fun hm => by
      rw [hmbx]
      show s.mbx.map _ = []
      rw [hm, List.map_nil] }

theorem State.klowynDown_downed (s : State) : s.Downed s.klowynDown := by
  unfold State.klowynDown
  dsimp only
  split
  case isTrue hne =>
    exact {
      down := rfl, waiting := rfl, longs := rfl, boot := rfl
      phase := by rw [if_neg hne]; rfl
      fault := fun _ => rfl
      none := fun hm => by
        show s.mbx.map _ = []
        rw [hm, List.map_nil] }
  case isFalse h =>
    rw [ne_eq, not_not] at h
    split
    · have hd := State.loseCommands_stopRun_downed .fault h
      exact { down := hd.down, waiting := hd.waiting, longs := hd.longs, boot := hd.boot, phase := hd.phase, fault := hd.fault, none := hd.none }
    · exact State.loseCommands_stopRun_downed .none h

/-! ### Klowyn's reboot (18 R489) -/

theorem bootLate_starts {err : Option Nat} (hgo : s.boot.stopped = false) :
    (s.bootLate err).Stands fun t => t.kly.up = true ∧ t.boot.stage = 8 ∧ t.jnl.head = 0 := by
  refine bootStep_stands (P := fun _ => True) (bootStep_stands (P := fun _ => True) (bootStep_stands (P := fun _ => True)
    (bootStep_stands (P := fun _ => True) (.inr ⟨hgo, trivial⟩) fun _ hu _ => ?_) fun _ hu _ => ?_) fun _ hu _ => ?_) fun u hu _ => ?_
  · exact .inr ⟨hu, trivial⟩
  · unfold State.stepKlowyn
    split
    · exact .inr ⟨hu, trivial⟩
    · exact .inl ⟨rfl, rfl, rfl, rfl⟩
  · exact .inr ⟨hu, trivial⟩
  · have hb := (u.atStage 8).behind_stepStart
    exact .inr ⟨(congrArg BootState.stopped hb.boot).trans hu, hb.up, congrArg BootState.stage hb.boot, congrArg Jnl.head hb.jnl⟩

/-- What a reboot starts from: Klowyn down, its crossings flushed. -/
theorem State.rebootFrom_downed (s : State) : s.Downed s.rebootFrom ∧ s.rebootFrom.shows .clk 4 = true := by
  have hd := s.klowynDown_downed
  have hshow := s.klowynDown.shows_peerReset 6 5
  obtain ⟨hmbx, -, hboot⟩ := State.bench_eq (s.klowynDown.peerReset_bench 6 5)
  have hkly := s.klowynDown.peerReset_kly 6 5
  have hrun := s.klowynDown.peerReset_run 6 5
  unfold State.rebootFrom
  dsimp only
  generalize s.klowynDown.peerReset 6 5 = u at hshow hmbx hboot hkly hrun ⊢
  have hu : s.Downed u := {
    down := by rw [hkly, hd.down], waiting := by rw [hkly, hd.waiting], longs := by rw [hkly, hd.longs], boot := by rw [hboot, hd.boot]
    phase := by rw [hrun, hd.phase], fault := fun h => by rw [hrun, hd.fault h], none := fun h => by rw [hmbx, hd.none h] }
  refine ⟨?_, ?_⟩
  · obtain ⟨h1, h2, h3, h4, h5, h6, h7⟩ := hu
    split
    · exact ⟨h1, h2, h3, h4, h5, h6, h7⟩
    · split <;> exact ⟨h1, h2, h3, h4, h5, h6, h7⟩
  · split
    · exact hshow
    · split <;> exact hshow

/-- KLOWYN_REBOOT (18 R489). -/
theorem execKlowynReboot_boots {err : Option Nat} (hd : s.rebootDue = true) (hm : s.mbx = []) :
    GoesTo (execKlowynReboot err s) fun t => t.kly.waiting = [] ∧ t.kly.longs = [] ∧ t.shows .clk 4 = true ∧
      t.run.phase = (if s.run.phase = .armed then .idle else s.run.phase) ∧
      (t.boot.stopped = false → t.kly.up = true ∧ t.boot.stage = 8 ∧ t.jnl.head = 0) ∧
      (t.boot.stopped = true → t.kly.up = false ∧ t.pkg.alert = true) := by
  have hgo : s.boot.stopped = false := by
    simp only [State.rebootDue, Bool.and_eq_true, Bool.not_eq_true'] at hd
    exact hd.1.2
  obtain ⟨hdown, hshow⟩ := s.rebootFrom_downed
  have hstands := bootLate_starts (err := err) (s := s.rebootFrom) (by rw [hdown.boot, hgo])
  have hsits := s.rebootFrom.sits_bootLate err
  have hgoes : execKlowynReboot err s = .next (s.reboot err).serveAll := if_pos hd
  have hboot : s.reboot err = s.rebootFrom.bootLate err := rfl
  rw [hboot] at hgoes
  refine ⟨_, hgoes, ?_⟩
  generalize s.rebootFrom.bootLate err = t at hstands hsits ⊢
  rw [State.serveAll_of_none (hsits.mbx.trans (hdown.none hm))]
  refine ⟨hsits.waiting.trans hdown.waiting, hsits.longs.trans hdown.longs, hsits.shows _ _ hshow, ?_, fun hrun => ?_, fun hhalt => ?_⟩
  · rw [hsits.run, hdown.phase]
  · obtain hh | ⟨-, hr⟩ := hstands
    · exact absurd (hrun.symm.trans hh.stopped) Bool.false_ne_true
    · exact hr
  · obtain hh | ⟨hr, -⟩ := hstands
    · exact ⟨hh.down, hh.alert⟩
    · exact absurd (hr.symm.trans hhalt) Bool.false_ne_true

/-! ### A rail that fails (17 R471, R485, 19 R521) -/

/-- Steps 1 and 2 stop for a bad directory or FACTORY, or load FACTORY. -/
theorem bootEarly_cases (hgo : s.boot.stopped = false) :
    ((s.bootEarly none).Halted ∧ (s.bootEarly none).host = { s.host with idFw := 0 } ∧ ¬ (dirOk s.boot.flash.dir = true ∧ s.vendorRegion 1 = true)) ∨
      ((s.bootEarly none).boot.stopped = false) := by
  have hgoes (k : Nat) (f : State → State) (u : State) (hu : u.boot.stopped = false) : State.bootStep k none f u = f (u.atStage k) :=
    (bootStep_of_going hu).trans (if_neg nofun)
  unfold State.bootEarly
  rw [hgoes 1 State.stepDir s hgo]
  unfold State.stepDir
  dsimp only
  split
  case isFalse hd => exact .inl ⟨⟨rfl, rfl, rfl, rfl⟩, rfl, fun h => hd h.1⟩
  case isTrue hd =>
    rw [hgoes 2 State.stepFactory]
    · unfold State.stepFactory
      split
      case isTrue => exact .inr hgo
      case isFalse hv => exact .inl ⟨⟨rfl, rfl, rfl, rfl⟩, rfl, fun h => hv h.2⟩
    · exact hgo

theorem execRailTimeout_boot {rail : Nat} (hrail : rail < 7) (hr : s.bootReady = true) :
    GoesTo (execRailTimeout rail s) fun t => t.boot.stopped = true ∧ t.pkg.alert = true ∧ t.kly.up = false ∧ t.host = { s.host with idFw := 0 } ∧
      (dirOk s.boot.flash.dir = true → s.vendorRegion 1 = true → t.boot.stage = 2 ∧ t.boot.code = 6) := by
  obtain ⟨-, -, -, hgo, -⟩ := State.bootReady_iff.1 hr
  unfold execRailTimeout
  rw [if_neg (by omega), if_neg (by omega), if_pos hr]
  dsimp only
  obtain ⟨hh, hhost, hbad⟩ | hgoes := bootEarly_cases hgo
  · rw [if_pos hh.stopped]
    exact ⟨_, rfl, hh.stopped, hh.alert, hh.down, hhost, fun hd hv => absurd ⟨hd, hv⟩ hbad⟩
  · rw [hgoes, if_neg Bool.false_ne_true]
    exact ⟨_, rfl, rfl, rfl, rfl, rfl, fun _ _ => ⟨rfl, rfl⟩⟩

theorem execRailTimeout_cooled {rail : Nat} (hrail : rail < 7) (hr : s.bootReady = false) (hc : s.cooled = true) :
    GoesTo (execRailTimeout rail s) fun t => t.boot.stopped = true ∧ t.boot.code = 6 ∧ t.boot.stage = s.boot.stage ∧ t.pkg.alert = true ∧
      t.kly.up = false := by
  unfold execRailTimeout
  rw [if_neg (by omega), if_neg (by omega), hr, if_neg Bool.false_ne_true, if_pos hc]
  have hstage : BitVec.ofNat 4 s.boot.stage.toNat = s.boot.stage := by simp
  exact ⟨_, rfl, rfl, rfl, hstage, rfl, rfl⟩

theorem execRailTimeout_wake {rail : Nat} (hrail : rail < 7) (hr : s.bootReady = false) (hc : s.cooled = false) (hb : s.pwr.busy = .wake)
    (hs : s.pwr.sst = 3) :
    GoesTo (execRailTimeout rail s) fun t => t.boot = { s.boot with code := 6 } ∧ t.pwr.busy = .none ∧ t.pwr.sst = 3 ∧ t.pkg.alert = true := by
  unfold execRailTimeout
  rw [if_neg (by omega), if_neg (by omega), hr, if_neg Bool.false_ne_true, hc, if_neg Bool.false_ne_true, if_pos ⟨hb, hs⟩]
  exact ⟨_, rfl, rfl, rfl, hs, rfl⟩

/-! ### The watchdog (17 R470) -/

theorem execWatchdogExpiry_downs (hup : s.kly.up = true) :
    GoesTo (execWatchdogExpiry s) fun t => t.kly.up = false ∧ t.kly.waiting = [] ∧ t.kly.longs = [] ∧
      t.run.phase = (if s.run.phase = .armed then .idle else s.run.phase) ∧
      (s.armed = true → s.run.phase ≠ .armed → s.paired = false → t.run.faultAt = some s.cn) := by
  refine ⟨_, if_pos hup, ?_⟩
  have hphase : (if s.armed then s.fault 2 0 else s).run.phase = s.run.phase := by
    split
    · exact s.fault_run_phase 2 0
    · rfl
  have hd := (if s.armed then s.fault 2 0 else s).klowynDown_downed
  refine ⟨hd.down, hd.waiting, hd.longs, by rw [hd.phase, hphase], fun ha hne hp => ?_⟩
  rw [hd.fault (by rw [hphase]; exact hne), if_pos ha, s.fault_faultAt_of_solo 2 0 ha hp]

/-! ### The manifest (15 R420) -/

/-- The manifest has been run to its end. -/
def State.manifestDone (s : State) : State := { s with kly := { s.kly with manPos := none } }

section
variable {b : List Byte} {k n p : Nat} (hp : s.kly.manPos = some p)
include hp

theorem State.runManifest_of_end (he : b.length ≤ p) : State.runManifest b (k + 1) n s = s.manifestDone := by
  unfold State.runManifest
  rw [hp]
  exact if_pos he

theorem State.runManifest_of_inWork (hlt : p < b.length) (hw : s.inWork 254 = true) : State.runManifest b (k + 1) n s = s := by
  unfold State.runManifest
  rw [hp]
  dsimp only
  rw [if_neg (Nat.not_le.2 hlt), if_pos hw]

theorem State.runManifest_of_bad {st : Nat} (hlt : p < b.length) (hw : s.inWork 254 = false) (hbad : s.manifestBad (manifestReq b p) = some st) :
    State.runManifest b (k + 1) n s = s.manifestStop n st := by
  unfold State.runManifest
  rw [hp]
  dsimp only
  rw [if_neg (Nat.not_le.2 hlt), hw, if_neg Bool.false_ne_true, hbad]

theorem State.runManifest_of_record (hlt : p < b.length) (hw : s.inWork 254 = false) (hok : s.manifestBad (manifestReq b p) = none) :
    State.runManifest b (k + 1) n s = State.runManifest b k (n + 1) { kTake 254 (manifestReq b p) s with
      kly := { (kTake 254 (manifestReq b p) s).kly with manPos := some (p + recordLen (manifestReq b p)) } } := by
  conv_lhs => unfold State.runManifest
  rw [hp]
  dsimp only
  rw [if_neg (Nat.not_le.2 hlt), hw, if_neg Bool.false_ne_true, hok]

end

theorem execManifestRun_of_up {p : Nat} (hup : s.kly.up = true) (hp : s.kly.manPos = some p) : execManifestRun s = .next (s.manifestFrom p) := by
  unfold execManifestRun
  rw [hp]
  exact if_pos hup

theorem execManifestRun_runs {p : Nat} (hup : s.kly.up = true) (hp : s.kly.manPos = some p) :
    (s.manifest.length ≤ p → execManifestRun s = .next { s with kly := { s.kly with manPos := none } }) ∧
    (p < s.manifest.length → s.inWork 254 = true → execManifestRun s = .next s) ∧
    (∀ st, p < s.manifest.length → s.inWork 254 = false →
      s.manifestBad (manifestReq s.manifest p) = some st →
      GoesTo (execManifestRun s) fun t => t.kly.manPos = none ∧ t.pkg.alert = true ∧ t.jnl = s.jnl) ∧
    (p < s.manifest.length → s.inWork 254 = false → s.manifestBad (manifestReq s.manifest p) = none →
      64 ≤ s.manifest.length → s.manifest.length ≤ p + recordLen (manifestReq s.manifest p) →
      GoesTo (execManifestRun s) fun t => t = { kTake 254 (manifestReq s.manifest p) s with
        kly := { (kTake 254 (manifestReq s.manifest p) s).kly with manPos := none } }) := by
  rw [execManifestRun_of_up hup hp]
  unfold State.manifestFrom
  dsimp only
  generalize recordIndex s.manifest p (s.manifest.length / 64 + 1) 0 = n
  refine ⟨fun he => ?_, fun hlt hw => ?_, fun st hlt hw hbad => ?_, fun hlt hw hok hlen hlast => ?_⟩
  · rw [State.runManifest_of_end hp he]
    rfl
  · rw [State.runManifest_of_inWork hp hlt hw]
  · rw [State.runManifest_of_bad hp hlt hw hbad]
    exact ⟨_, rfl, rfl, rfl, s.healthAdd_jnl _ _ _⟩
  · rw [State.runManifest_of_record hp hlt hw hok]
    have hmore : 0 < s.manifest.length / 64 := Nat.div_pos hlen (by decide)
    obtain ⟨k, hk⟩ := Nat.exists_eq_add_of_le' hmore
    rw [hk, State.runManifest_of_end (p := p + recordLen (manifestReq s.manifest p)) rfl hlast]
    exact ⟨_, rfl, rfl⟩

end

end Sys2Proof.Machine

open Sys2Proof Sys2Proof.Machine

/-- Settles O59: configuration requests, the resets of the endpoint and RESET_N by what they load and clear; the boots, from power-up and of Klowyn,
by what each step of the boot keeps, with Klowyn running or the boot halted at the end; rails, watchdog and manifest by their cases. -/
theorem endpointResetsAndBoots : Obligations.EndpointResetsAndBoots := by
  unfold Obligations.EndpointResetsAndBoots
  refine ⟨fun s reg hreg => ?_, fun c s hc => ?_, fun c s hc => ?_, fun s d h => ?_, fun s hp ho => ?_, fun s err puf hr hm => ?_,
    fun s err hd hm => ?_, fun s rail hrail => ?_, fun s hup => ?_, fun s p hup hp => ?_⟩
  · obtain ⟨hsilent, hreqs⟩ := configRequests (s := s) hreg
    refine ⟨hsilent, fun hup => ?_⟩
    obtain ⟨hretry, hacts⟩ := hreqs hup
    refine ⟨hretry, fun hid => ?_⟩
    obtain ⟨hread, hwrite, hnone, hbar⟩ := hacts hid
    exact ⟨hread, hwrite, hnone, configActs hup hid, hbar⟩
  · obtain rfl | rfl | rfl := hc
    · exact ⟨_, rfl, s.endpointReset_spec false _ rfl⟩
    · exact ⟨_, rfl, s.endpointReset_spec false _ rfl⟩
    · exact ⟨_, rfl, s.endpointReset_spec true _ rfl⟩
  · obtain rfl | rfl := hc
    · exact execResetAssert_wipes
    · exact execPwrGoodDeassert_wipes
  · exact execPowerUp_starts h
  · exact execOscDelayExpiry_starts hp ho
  · exact bootRomStart_boots hr hm
  · exact execKlowynReboot_boots hd hm
  · exact ⟨execRailTimeout_boot hrail, execRailTimeout_cooled hrail, execRailTimeout_wake hrail⟩
  · exact execWatchdogExpiry_downs hup
  · exact execManifestRun_runs hup hp

end
